-- ==== Sys2Proof/Word.lean ====
section
/-! DEFINITION. The machine's word types: a word is 32 bits (R2), a data value carries a 5-bit tag (R50). -/

namespace Sys2Proof

/-- A word, 32 bits (R2). -/
abbrev Word := BitVec 32

/-- A format tag code (Table 3.4, R50). -/
abbrev Tag := BitVec 5

/-- A data value and its tag, one unit (R45). -/
structure TVal where
  bits : Word
  tag : Tag
deriving DecidableEq, Repr

/-- A register field of an instruction word (R28). -/
abbrev RegNo := BitVec 7

/-- The two strands of a thread (R43). -/
inductive StrandKind where
  | a
  | x
deriving DecidableEq, Repr

/-- A group: its launch identifier (R270) and its group linear index (R4). -/
structure GroupKey where
  launch : Nat
  glin : Nat
deriving DecidableEq, Repr

/-- A strand: its group, its thread index and its kind. -/
structure StrandKey where
  grp : GroupKey
  tid : Nat
  kind : StrandKind
deriving DecidableEq, Repr

/-- The rounding modes of R57. -/
inductive RMode where
  | rn
  | rz
  | rd
  | ru
deriving DecidableEq, Repr

/-- The precise causes of Table 5.1 (R101). -/
inductive Cause where
  | ilop | irsv | istr | iqpt | icls | winf | ftag | aseg | abnd | aprm | aaln | anrs
  | gden | rplx | hpsn | rvto | qdlk | trap
deriving DecidableEq, Repr

end Sys2Proof
end

