-- ==== Sys2Proof/Syntax.lean ====
section
/-! DEFINITION. The instructions and events of the machine as data: Instr has one constructor for each row of the opcode
table (R33). The records an event carries come first. -/

namespace Sys2Proof

/-- The three circle sequences: the rendezvous sequences of A-strands and of X-strands (R125), the class 0xB one (R178). -/
inductive RvSeq where
  | a
  | x
  | matrix
deriving DecidableEq, Repr

/-- User ring descriptor URINGk (R298). -/
structure URing where
  base : Nat
  size : Nat
  coalt : Nat
  coaln : Nat
deriving DecidableEq, Repr

/-- Context descriptor (Table 13.1, R259). -/
structure CtxDesc where
  yard : Nat
  pen : Nat
  repl : Bool
  ctxid : Nat
  vmid : Nat
  asid : Nat
  root1 : Nat
  root2 : Nat
  keyid : Nat
  tenant : Nat
  bclass : Nat
  hostfn : Nat
  qtable : Nat
  evbase : Nat
  evsize : Nat
  vecbase : Nat
  dbidx : Nat
  urings : List URing
deriving DecidableEq, Repr

/-- Yard descriptor (Table 15.10, R328). `cmask` holds CMASK0 to CMASK7. -/
structure YardDesc where
  valid : Bool
  yard : Nat
  tenant : Nat
  keyid : Nat
  cmask : List Nat
  capCore : Nat
  capHbm : Nat
  capFab : Nat
  allow : Nat
deriving DecidableEq, Repr

/-- One access-list entry of a gate (Table 15.11). -/
structure AclEntry where
  tenant : Nat
  sig : Bool
  wait : Bool
  read : Bool
deriving DecidableEq, Repr

/-- The fields of a gate record that firmware writes (Table 15.11, R332). `wins` holds SPA base and length of each window. -/
structure GateRec where
  gid : Nat
  valid : Bool
  rate : Nat
  burst : Nat
  acl : List AclEntry
  wins : List (Nat × Nat)
deriving DecidableEq, Repr

/-- Communicator descriptor (Table 17.4, R362). -/
structure CommDesc where
  valid : Bool
  enrol : Bool
  vc : Nat
  ctxid : Nat
  nranks : Nat
  myrank : Nat
  keyid : Nat
  share : Nat
  ranks : Nat
deriving DecidableEq, Repr

/-- The read-modify-writes of class 0xA and of switches and gates (Table 7.7). -/
inductive AOp where
  | addI | addF | minI | minN | maxI | maxN | and | or | xor | xchg | cas | inc | add64 | cas64
deriving DecidableEq, Repr

/-- What a packet carries (R242, R346, R360, R376): a request, a response to the request `tag`, a run of an exchange at a place of its
communicator's order with the map that its sender read (R380), or the failure of a collective (R365, R372, R380). The spec gives no layout
of it (log 30). -/
inductive FabBody where
  | read (tag spa n : Nat)
  | write (tag spa : Nat) (bytes : List (BitVec 8))
  | atomic (tag : Nat) (op : AOp) (spa val val2 : Nat)
  | response (tag : Nat) (bytes : List (BitVec 8)) (err : Bool)
  | run (comm order mapBytes off : Nat) (bytes : List (BitVec 8))
  | part (comm order off : Nat) (bytes : List (BitVec 8))
  | lost (comm order : Nat) (tile : Option Nat) (cause : Cause)
deriving DecidableEq, Repr

/-- A Maeluo packet that arrives at a port of a die of this module: the fields of its header (Table 17.2), its source endpoint as its NONCE
names it, and whether its GCM tag verifies (R354). -/
structure FabPacket where
  die : Nat
  dmod : Nat
  vc : Nat
  len : Nat
  srcMod : Nat
  srcDie : Nat
  keyid : Nat
  strm : Nat
  nonce : Nat
  tagOk : Bool
  port : Nat
  body : FabBody
deriving DecidableEq, Repr

/-- A link flit as link-level replay sees it (R356): its link sequence number, KEYID, virtual channel, and whether it spent an allowance
of its key's share, and otherwise one of its channel's pool (R355); `ctx` is the context for which this module sent it, 0 in a received
one (R340). -/
structure Flit where
  num : Nat
  keyid : Nat
  vc : Nat
  share : Bool
  ctx : Nat
deriving DecidableEq, Repr

/-- The two kinds of allowance (R355). -/
inductive Allowance where
  | share (keyid : Nat)
  | pool (vc : Nat)
deriving DecidableEq, Repr

/-- What another rank brings to a collective (R365): its submission and its contribution. -/
structure CollPart where
  rank : Nat
  op : Nat
  dt : Nat
  count : Nat
  root : Nat
  bytes : List (BitVec 8)
deriving DecidableEq, Repr

/-- What an event carries. An event of the opcode table has no word and so no operand field; the input that brings it brings
its argument, which the meaning reads from the state (log 7). The shape each event takes stands beside it in `Instr`. -/
inductive EvArg where
  | none
  | n1 (a : Nat)
  | n2 (a b : Nat)
  | n3 (a b c : Nat)
  | n4 (a b c d : Nat)
  | strand (k : StrandKey)
  | circle (g : GroupKey) (c : Nat) (sq : RvSeq)
  | thread (g : GroupKey) (t : Nat)
  | group (g : GroupKey)
  | dieGroup (die : Nat) (g : GroupKey)
  | list (a b : Nat) (l : List Nat)
  | itemFail (item : Nat) (cause : Cause)
  | doorbell (fn dbidx q : Nat) (val : Word)
  | ok (a b : Nat) (ok : Bool)
  | ok1 (a : Nat) (ok : Bool)
  | ctxDesc (c : CtxDesc)
  | yardDesc (y : YardDesc)
  | gate (die : Nat) (r : GateRec)
  | comm (die num : Nat) (c : CommDesc)
  | packet (p : FabPacket)
  | globRsp (req : Nat) (data : Option Nat)
  | flit (die port : Nat) (fl : Flit) (crcOk : Bool)
  | allow (die port : Nat) (al : Allowance)
  | parts (die coll : Nat) (inp : List CollPart)
  | fails (l : List (Nat × Nat))
  | regWrite (fn off : Nat) (val : BitVec 64)
  | words (w lit : Word)
  | frame (die frame : Nat) (entry : Word)
deriving DecidableEq, Repr

/-- The instructions and events of the opcode map (Tables 2.6 to 2.19, R33; the events of file 95), one constructor a row of the opcode
table. The order is the table's, but that a word without operand fields stands after the others (compiled code numbers constructors with
fields in one byte). Register fields are 7 bits (R28); `fb` is the flag selection bit of a long-latency word (R24); `lit` is the literal
word of an X form (R20). A field that the map marks "—" has no place here. -/
inductive Instr where
  /-- IADD (R74). -/
  | iadd (d : RegNo) (a : RegNo) (b : RegNo)
  /-- IADDI (R74). -/
  | iaddi (d : RegNo) (a : RegNo) (im : BitVec 7)
  /-- ISUB (R74). -/
  | isub (d : RegNo) (a : RegNo) (b : RegNo)
  /-- IMUL (R74). -/
  | imul (d : RegNo) (a : RegNo) (b : RegNo)
  /-- IMULH_I (R74). -/
  | imulhI (d : RegNo) (a : RegNo) (b : RegNo)
  /-- IMULH_N (R74). -/
  | imulhN (d : RegNo) (a : RegNo) (b : RegNo)
  /-- IMAD (R74). -/
  | imad (d : RegNo) (a : RegNo) (b : RegNo)
  /-- IMULW_I (R74). -/
  | imulwI (d : RegNo) (a : RegNo) (b : RegNo)
  /-- IMULW_N (R74). -/
  | imulwN (d : RegNo) (a : RegNo) (b : RegNo)
  /-- IDIV_I (R74). -/
  | idivI (d : RegNo) (a : RegNo) (b : RegNo)
  /-- IDIV_N (R74). -/
  | idivN (d : RegNo) (a : RegNo) (b : RegNo)
  /-- IREM_I (R74). -/
  | iremI (d : RegNo) (a : RegNo) (b : RegNo)
  /-- IREM_N (R74). -/
  | iremN (d : RegNo) (a : RegNo) (b : RegNo)
  /-- IMIN_I (R74). -/
  | iminI (d : RegNo) (a : RegNo) (b : RegNo)
  /-- IMIN_N (R74). -/
  | iminN (d : RegNo) (a : RegNo) (b : RegNo)
  /-- IMAX_I (R74). -/
  | imaxI (d : RegNo) (a : RegNo) (b : RegNo)
  /-- IMAX_N (R74). -/
  | imaxN (d : RegNo) (a : RegNo) (b : RegNo)
  /-- IABS (R74). -/
  | iabs (d : RegNo) (a : RegNo)
  /-- INEG (R74). -/
  | ineg (d : RegNo) (a : RegNo)
  /-- IADDS_I (R74). -/
  | iaddsI (d : RegNo) (a : RegNo) (b : RegNo)
  /-- IADDS_N (R74). -/
  | iaddsN (d : RegNo) (a : RegNo) (b : RegNo)
  /-- ISUBS_I (R74). -/
  | isubsI (d : RegNo) (a : RegNo) (b : RegNo)
  /-- ISUBS_N (R74). -/
  | isubsN (d : RegNo) (a : RegNo) (b : RegNo)
  /-- IADD64 (R74). -/
  | iadd64 (d : RegNo) (a : RegNo) (b : RegNo)
  /-- ISUB64 (R74). -/
  | isub64 (d : RegNo) (a : RegNo) (b : RegNo)
  /-- IXADD2 (R74). -/
  | ixadd2 (d : RegNo) (a : RegNo) (b : RegNo)
  /-- IXADD4 (R74). -/
  | ixadd4 (d : RegNo) (a : RegNo) (b : RegNo)
  /-- IXADD8 (R74). -/
  | ixadd8 (d : RegNo) (a : RegNo) (b : RegNo)
  /-- IXADD16 (R74). -/
  | ixadd16 (d : RegNo) (a : RegNo) (b : RegNo)
  /-- LDI (R75). -/
  | ldi (d : RegNo) (im : BitVec 14)
  /-- LDW (R75). -/
  | ldw (d : RegNo) (lit : Word)
  /-- AND (R76). -/
  | and (d : RegNo) (a : RegNo) (b : RegNo)
  /-- ANDI (R76). -/
  | andi (d : RegNo) (a : RegNo) (im : BitVec 7)
  /-- OR (R76). -/
  | or (d : RegNo) (a : RegNo) (b : RegNo)
  /-- ORI (R76). -/
  | ori (d : RegNo) (a : RegNo) (im : BitVec 7)
  /-- XOR (R76). -/
  | xor (d : RegNo) (a : RegNo) (b : RegNo)
  /-- XORI (R76). -/
  | xori (d : RegNo) (a : RegNo) (im : BitVec 7)
  /-- ANDN (R76). -/
  | andn (d : RegNo) (a : RegNo) (b : RegNo)
  /-- NOT (R76). -/
  | not (d : RegNo) (a : RegNo)
  /-- SHL (R76). -/
  | shl (d : RegNo) (a : RegNo) (b : RegNo)
  /-- SHLI (R76). -/
  | shli (d : RegNo) (a : RegNo) (n : BitVec 5)
  /-- SHR (R76). -/
  | shr (d : RegNo) (a : RegNo) (b : RegNo)
  /-- SHRI (R76). -/
  | shri (d : RegNo) (a : RegNo) (n : BitVec 5)
  /-- SAR (R76). -/
  | sar (d : RegNo) (a : RegNo) (b : RegNo)
  /-- SARI (R76). -/
  | sari (d : RegNo) (a : RegNo) (n : BitVec 5)
  /-- ROL (R76). -/
  | rol (d : RegNo) (a : RegNo) (b : RegNo)
  /-- ROLI (R76). -/
  | roli (d : RegNo) (a : RegNo) (n : BitVec 5)
  /-- BFX_I (R77). -/
  | bfxI (d : RegNo) (a : RegNo) (b : RegNo)
  /-- BFX_N (R77). -/
  | bfxN (d : RegNo) (a : RegNo) (b : RegNo)
  /-- BFI (R77). -/
  | bfi (d : RegNo) (a : RegNo) (b : RegNo)
  /-- POPC (R76). -/
  | popc (d : RegNo) (a : RegNo)
  /-- CLZ (R76). -/
  | clz (d : RegNo) (a : RegNo)
  /-- CTZ (R76). -/
  | ctz (d : RegNo) (a : RegNo)
  /-- BREV (R76). -/
  | brev (d : RegNo) (a : RegNo)
  /-- PERMB (R78). -/
  | permb (d : RegNo) (a : RegNo) (b : RegNo)
  /-- ICMP_EQ (R79). -/
  | icmpEq (d : RegNo) (a : RegNo) (b : RegNo)
  /-- ICMP_NE (R79). -/
  | icmpNe (d : RegNo) (a : RegNo) (b : RegNo)
  /-- ICMP_LT_I (R79). -/
  | icmpLtI (d : RegNo) (a : RegNo) (b : RegNo)
  /-- ICMP_LE_I (R79). -/
  | icmpLeI (d : RegNo) (a : RegNo) (b : RegNo)
  /-- ICMP_GT_I (R79). -/
  | icmpGtI (d : RegNo) (a : RegNo) (b : RegNo)
  /-- ICMP_GE_I (R79). -/
  | icmpGeI (d : RegNo) (a : RegNo) (b : RegNo)
  /-- ICMP_LT_N (R79). -/
  | icmpLtN (d : RegNo) (a : RegNo) (b : RegNo)
  /-- ICMP_LE_N (R79). -/
  | icmpLeN (d : RegNo) (a : RegNo) (b : RegNo)
  /-- ICMP_GT_N (R79). -/
  | icmpGtN (d : RegNo) (a : RegNo) (b : RegNo)
  /-- ICMP_GE_N (R79). -/
  | icmpGeN (d : RegNo) (a : RegNo) (b : RegNo)
  /-- FCMP_EQ (R79). -/
  | fcmpEq (d : RegNo) (a : RegNo) (b : RegNo)
  /-- FCMP_NE (R79). -/
  | fcmpNe (d : RegNo) (a : RegNo) (b : RegNo)
  /-- FCMP_LT (R79). -/
  | fcmpLt (d : RegNo) (a : RegNo) (b : RegNo)
  /-- FCMP_LE (R79). -/
  | fcmpLe (d : RegNo) (a : RegNo) (b : RegNo)
  /-- FCMP_GT (R79). -/
  | fcmpGt (d : RegNo) (a : RegNo) (b : RegNo)
  /-- FCMP_GE (R79). -/
  | fcmpGe (d : RegNo) (a : RegNo) (b : RegNo)
  /-- FCMP_UN (R79). -/
  | fcmpUn (d : RegNo) (a : RegNo) (b : RegNo)
  /-- DCMP_EQ (R79). -/
  | dcmpEq (d : RegNo) (a : RegNo) (b : RegNo)
  /-- DCMP_LT (R79). -/
  | dcmpLt (d : RegNo) (a : RegNo) (b : RegNo)
  /-- DCMP_LE (R79). -/
  | dcmpLe (d : RegNo) (a : RegNo) (b : RegNo)
  /-- DCMP_UN (R79). -/
  | dcmpUn (d : RegNo) (a : RegNo) (b : RegNo)
  /-- PAND (R80). -/
  | pand (d : RegNo) (a : RegNo) (b : RegNo)
  /-- POR (R80). -/
  | por (d : RegNo) (a : RegNo) (b : RegNo)
  /-- PXOR (R80). -/
  | pxor (d : RegNo) (a : RegNo) (b : RegNo)
  /-- PANDN (R80). -/
  | pandn (d : RegNo) (a : RegNo) (b : RegNo)
  /-- PNOT (R80). -/
  | pnot (d : RegNo) (a : RegNo)
  /-- PMOV (R80). -/
  | pmov (d : RegNo) (a : RegNo)
  /-- PSET (R80). -/
  | pset (d : RegNo) (v : BitVec 1)
  /-- PTOD (R80). -/
  | ptod (d : RegNo) (a : RegNo)
  /-- DTOP (R80). -/
  | dtop (d : RegNo) (a : RegNo)
  /-- MOV (R81). -/
  | mov (d : RegNo) (a : RegNo)
  /-- CMOV (R81). -/
  | cmov (d : RegNo) (a : RegNo) (b : RegNo)
  /-- TAG (R81). -/
  | tag (d : RegNo) (a : RegNo) (t : BitVec 5)
  /-- TAGQ (R81). -/
  | tagq (d : RegNo) (a : RegNo)
  /-- WIN (R82). -/
  | win (im : BitVec 7)
  /-- WINQ (R82). -/
  | winq (d : RegNo)
  /-- MOVS (R46). -/
  | movs (d : RegNo) (sel : BitVec 14)
  /-- SEXT8 (R81). -/
  | sext8 (d : RegNo) (a : RegNo)
  /-- SEXT16 (R81). -/
  | sext16 (d : RegNo) (a : RegNo)
  /-- ZEXT8 (R81). -/
  | zext8 (d : RegNo) (a : RegNo)
  /-- ZEXT16 (R81). -/
  | zext16 (d : RegNo) (a : RegNo)
  /-- MOV64 (R81). -/
  | mov64 (d : RegNo) (a : RegNo)
  /-- BRA (R83). -/
  | bra (im : BitVec 14)
  /-- BRP (R83). -/
  | brp (d : RegNo) (im : BitVec 14)
  /-- BRN (R83). -/
  | brn (d : RegNo) (im : BitVec 14)
  /-- JMP (R83). -/
  | jmp (a : RegNo)
  /-- CALL (R83). -/
  | call (d : RegNo) (im : BitVec 14)
  /-- CALLR (R83). -/
  | callr (d : RegNo) (a : RegNo)
  /-- RET (R83). -/
  | ret (a : RegNo)
  /-- TRAP (R86). -/
  | trap (im : BitVec 7)
  /-- TRET (R108). -/
  | tret (m : BitVec 1)
  /-- TKILL (R109). -/
  | tkill (m : BitVec 1)
  /-- WAITF (R83). -/
  | waitf (im : BitVec 12)
  /-- FADD (R87). -/
  | fadd (rm : RMode) (d : RegNo) (a : RegNo) (b : RegNo)
  /-- FSUB (R87). -/
  | fsub (rm : RMode) (d : RegNo) (a : RegNo) (b : RegNo)
  /-- FMUL (R87). -/
  | fmul (rm : RMode) (d : RegNo) (a : RegNo) (b : RegNo)
  /-- FFMA (R87). -/
  | ffma (rm : RMode) (d : RegNo) (a : RegNo) (b : RegNo)
  /-- FMIN (R59). -/
  | fmin (d : RegNo) (a : RegNo) (b : RegNo)
  /-- FMAX (R59). -/
  | fmax (d : RegNo) (a : RegNo) (b : RegNo)
  /-- FABS (R87). -/
  | fabs (d : RegNo) (a : RegNo)
  /-- FNEG (R87). -/
  | fneg (d : RegNo) (a : RegNo)
  /-- FRND (R87). -/
  | frnd (rm : RMode) (d : RegNo) (a : RegNo)
  /-- FCVT_I32_F32 (R88). -/
  | fcvtI32F32 (d : RegNo) (a : RegNo)
  /-- FCVT_N32_F32 (R88). -/
  | fcvtN32F32 (d : RegNo) (a : RegNo)
  /-- FCVT_F32_I32 (R88). -/
  | fcvtF32I32 (d : RegNo) (a : RegNo)
  /-- FCVT_F32_N32 (R88). -/
  | fcvtF32N32 (d : RegNo) (a : RegNo)
  /-- FCVT_F16_F32 (R88). -/
  | fcvtF16F32 (d : RegNo) (a : RegNo)
  /-- FCVT_F32_F16 (R88). -/
  | fcvtF32F16 (d : RegNo) (a : RegNo)
  /-- FCVT_BF16_F32 (R88). -/
  | fcvtBf16F32 (d : RegNo) (a : RegNo)
  /-- FCVT_F32_BF16 (R88). -/
  | fcvtF32Bf16 (d : RegNo) (a : RegNo)
  /-- FCVT_F64_F32 (R88). -/
  | fcvtF64F32 (d : RegNo) (a : RegNo)
  /-- FCVT_F32_F64 (R88). -/
  | fcvtF32F64 (d : RegNo) (a : RegNo)
  /-- DADD (R87). -/
  | dadd (d : RegNo) (a : RegNo) (b : RegNo)
  /-- DSUB (R87). -/
  | dsub (d : RegNo) (a : RegNo) (b : RegNo)
  /-- DMUL (R87). -/
  | dmul (d : RegNo) (a : RegNo) (b : RegNo)
  /-- DFMA (R87). -/
  | dfma (d : RegNo) (a : RegNo) (b : RegNo)
  /-- DMIN (R59). -/
  | dmin (d : RegNo) (a : RegNo) (b : RegNo)
  /-- DMAX (R59). -/
  | dmax (d : RegNo) (a : RegNo) (b : RegNo)
  /-- HADD2_F16 (R89). -/
  | hadd2F16 (d : RegNo) (a : RegNo) (b : RegNo)
  /-- HADD2_BF16 (R89). -/
  | hadd2Bf16 (d : RegNo) (a : RegNo) (b : RegNo)
  /-- HMUL2_F16 (R89). -/
  | hmul2F16 (d : RegNo) (a : RegNo) (b : RegNo)
  /-- HMUL2_BF16 (R89). -/
  | hmul2Bf16 (d : RegNo) (a : RegNo) (b : RegNo)
  /-- HFMA2_F16 (R89). -/
  | hfma2F16 (d : RegNo) (a : RegNo) (b : RegNo)
  /-- HFMA2_BF16 (R89). -/
  | hfma2Bf16 (d : RegNo) (a : RegNo) (b : RegNo)
  /-- PKH_F16 (R89). -/
  | pkhF16 (d : RegNo) (a : RegNo) (b : RegNo)
  /-- PKH_BF16 (R89). -/
  | pkhBf16 (d : RegNo) (a : RegNo) (b : RegNo)
  /-- UNPKH_F16_LO (R89). -/
  | unpkhF16Lo (d : RegNo) (a : RegNo)
  /-- UNPKH_F16_HI (R89). -/
  | unpkhF16Hi (d : RegNo) (a : RegNo)
  /-- UNPKH_BF16_LO (R89). -/
  | unpkhBf16Lo (d : RegNo) (a : RegNo)
  /-- UNPKH_BF16_HI (R89). -/
  | unpkhBf16Hi (d : RegNo) (a : RegNo)
  /-- IDP4_I8 (R90). -/
  | idp4I8 (d : RegNo) (a : RegNo) (b : RegNo)
  /-- IDP4_N8 (R90). -/
  | idp4N8 (d : RegNo) (a : RegNo) (b : RegNo)
  /-- IDP2_I16 (R90). -/
  | idp2I16 (d : RegNo) (a : RegNo) (b : RegNo)
  /-- NCVT_RN (R91). -/
  | ncvtRn (d : RegNo) (a : RegNo) (k : BitVec 3) (sl : BitVec 4)
  /-- NCVT_RZ (R91). -/
  | ncvtRz (d : RegNo) (a : RegNo) (k : BitVec 3) (sl : BitVec 4)
  /-- NUNP (R92). -/
  | nunp (d : RegNo) (a : RegNo) (k : BitVec 3) (sl : BitVec 4)
  /-- NSCL (R93). -/
  | nscl (d : RegNo) (a : RegNo) (b : RegNo)
  /-- SCX (R93). -/
  | scx (d : RegNo) (a : RegNo) (im : BitVec 2)
  /-- LNCV (R96). -/
  | lncv (fb : Bool) (d : RegNo) (a : RegNo)
  /-- LNBK (R96). -/
  | lnbk (fb : Bool) (d : RegNo) (a : RegNo)
  /-- LEXP (R97). -/
  | lexp (fb : Bool) (d : RegNo) (a : RegNo)
  /-- LLOG (R97). -/
  | llog (fb : Bool) (d : RegNo) (a : RegNo)
  /-- LMUL (R98). -/
  | lmul (fb : Bool) (d : RegNo) (a : RegNo) (b : RegNo)
  /-- LDIV (R98). -/
  | ldiv (fb : Bool) (d : RegNo) (a : RegNo) (b : RegNo)
  /-- LSQR (R98). -/
  | lsqr (fb : Bool) (d : RegNo) (a : RegNo)
  /-- LPOW (R98). -/
  | lpow (fb : Bool) (d : RegNo) (a : RegNo) (b : RegNo)
  /-- LADD (R99). -/
  | ladd (fb : Bool) (d : RegNo) (a : RegNo) (b : RegNo)
  /-- LSUB (R99). -/
  | lsub (fb : Bool) (d : RegNo) (a : RegNo) (b : RegNo)
  /-- FDIV (R95). -/
  | fdiv (fb : Bool) (d : RegNo) (a : RegNo) (b : RegNo)
  /-- FSQRT (R95). -/
  | fsqrt (fb : Bool) (d : RegNo) (a : RegNo)
  /-- DDIV (R95). -/
  | ddiv (fb : Bool) (d : RegNo) (a : RegNo) (b : RegNo)
  /-- DSQRT (R95). -/
  | dsqrt (fb : Bool) (d : RegNo) (a : RegNo)
  /-- XSHF (R128). -/
  | xshf (fb : Bool) (d : RegNo) (a : RegNo) (b : RegNo)
  /-- XBFLY (R128). -/
  | xbfly (fb : Bool) (d : RegNo) (a : RegNo) (im : BitVec 5)
  /-- XBCST (R128). -/
  | xbcst (fb : Bool) (d : RegNo) (a : RegNo) (im : BitVec 5)
  /-- XVOTE_ANY (R128). -/
  | xvoteAny (fb : Bool) (d : RegNo) (a : RegNo)
  /-- XVOTE_ALL (R128). -/
  | xvoteAll (fb : Bool) (d : RegNo) (a : RegNo)
  /-- XBALLOT (R128). -/
  | xballot (fb : Bool) (d : RegNo) (a : RegNo)
  /-- XRED_ADD_I32 (R128). -/
  | xredAddI32 (fb : Bool) (d : RegNo) (a : RegNo)
  /-- XRED_ADD_F32 (R129). -/
  | xredAddF32 (fb : Bool) (d : RegNo) (a : RegNo)
  /-- XRED_MIN_I (R128). -/
  | xredMinI (fb : Bool) (d : RegNo) (a : RegNo)
  /-- XRED_MAX_I (R128). -/
  | xredMaxI (fb : Bool) (d : RegNo) (a : RegNo)
  /-- XSCAN_ADD_I32 (R128). -/
  | xscanAddI32 (fb : Bool) (d : RegNo) (a : RegNo)
  /-- XSCAN_ADD_F32 (R129). -/
  | xscanAddF32 (fb : Bool) (d : RegNo) (a : RegNo)
  /-- XMATCH (R128). -/
  | xmatch (fb : Bool) (d : RegNo) (a : RegNo)
  /-- BWAIT (R132). -/
  | bwait (fb : Bool) (a : RegNo) (im : BitVec 7)
  /-- BARV (R132). -/
  | barv (a : RegNo) (im : BitVec 7)
  /-- BQRY_BARRIER (R132). -/
  | bqryBarrier (d : RegNo) (im : BitVec 7)
  /-- GBAR (R225). -/
  | gbar (fb : Bool) (a : RegNo) (im : BitVec 7)
  /-- GBARV (R225). -/
  | gbarv (a : RegNo) (im : BitVec 7)
  /-- LD (R159). -/
  | ld (fb : Bool) (d : RegNo) (sl : BitVec 5) (b : RegNo)
  /-- LD2 (R159). -/
  | ld2 (fb : Bool) (d : RegNo) (sl : BitVec 5) (b : RegNo)
  /-- LD4 (R159). -/
  | ld4 (fb : Bool) (d : RegNo) (sl : BitVec 5) (b : RegNo)
  /-- ST (R161). -/
  | st (fb : Bool) (d : RegNo) (sl : BitVec 5) (b : RegNo)
  /-- ST2 (R161). -/
  | st2 (fb : Bool) (d : RegNo) (sl : BitVec 5) (b : RegNo)
  /-- ST4 (R161). -/
  | st4 (fb : Bool) (d : RegNo) (sl : BitVec 5) (b : RegNo)
  /-- LDA (R163). -/
  | lda (fb : Bool) (d : RegNo) (sl : BitVec 5) (b : RegNo) (lit : Word)
  /-- STL (R163). -/
  | stl (fb : Bool) (d : RegNo) (sl : BitVec 5) (b : RegNo) (lit : Word)
  /-- BLOAD (R146). -/
  | bload (fb : Bool) (sl : BitVec 5) (a : RegNo)
  /-- BQRY_SLOT (R145). -/
  | bqrySlot (d : RegNo) (sl : BitVec 5) (im : BitVec 7)
  /-- LLOAD (R146). -/
  | lload (fb : Bool) (sl : BitVec 3) (a : RegNo)
  /-- AADD_I32 (R166). -/
  | aaddI32 (fb : Bool) (d : RegNo) (sl : BitVec 5) (b : RegNo)
  /-- AADD_F32 (R167). -/
  | aaddF32 (fb : Bool) (d : RegNo) (sl : BitVec 5) (b : RegNo)
  /-- AMIN_I (R166). -/
  | aminI (fb : Bool) (d : RegNo) (sl : BitVec 5) (b : RegNo)
  /-- AMIN_N (R166). -/
  | aminN (fb : Bool) (d : RegNo) (sl : BitVec 5) (b : RegNo)
  /-- AMAX_I (R166). -/
  | amaxI (fb : Bool) (d : RegNo) (sl : BitVec 5) (b : RegNo)
  /-- AMAX_N (R166). -/
  | amaxN (fb : Bool) (d : RegNo) (sl : BitVec 5) (b : RegNo)
  /-- AAND (R166). -/
  | aand (fb : Bool) (d : RegNo) (sl : BitVec 5) (b : RegNo)
  /-- AOR (R166). -/
  | aor (fb : Bool) (d : RegNo) (sl : BitVec 5) (b : RegNo)
  /-- AXOR (R166). -/
  | axor (fb : Bool) (d : RegNo) (sl : BitVec 5) (b : RegNo)
  /-- AXCHG (R166). -/
  | axchg (fb : Bool) (d : RegNo) (sl : BitVec 5) (b : RegNo)
  /-- ACAS (R166). -/
  | acas (fb : Bool) (d : RegNo) (sl : BitVec 5) (b : RegNo)
  /-- AINC (R166). -/
  | ainc (fb : Bool) (d : RegNo) (sl : BitVec 5) (b : RegNo)
  /-- AADD64 (R166). -/
  | aadd64 (fb : Bool) (d : RegNo) (sl : BitVec 5) (b : RegNo)
  /-- ACAS64 (R166). -/
  | acas64 (fb : Bool) (d : RegNo) (sl : BitVec 5) (b : RegNo)
  /-- FENCE (R169). -/
  | fence (k : BitVec 2) (sc : BitVec 3)
  /-- MMINIT (R185). -/
  | mminit (fb : Bool) (t : BitVec 4) (a : RegNo)
  /-- MMLOOP (R186). -/
  | mmloop (fb : Bool) (t : BitVec 4) (a : RegNo) (b : RegNo) (lit : Word)
  /-- MMNORM (R189). -/
  | mmnorm (fb : Bool) (t : BitVec 4) (a : RegNo)
  /-- MMDRAIN (R188). -/
  | mmdrain (fb : Bool) (t : BitVec 4) (m : BitVec 1)
  /-- MMQ (R190). -/
  | mmq (d : RegNo) (t : BitVec 4) (im : BitVec 7)
  /-- CPT (R214). -/
  | cpt (fb : Bool) (l : BitVec 3) (a : RegNo) (b : RegNo) (lit : Word)
  /-- CPS (R215). -/
  | cps (fb : Bool) (sl : BitVec 5) (a : RegNo) (b : RegNo) (lit : Word)
  /-- TMOV (R216). -/
  | tmov (fb : Bool) (d : RegNo) (a : RegNo) (b : RegNo) (lit : Word)
  /-- HSET (R218). -/
  | hset (h : BitVec 7) (a : RegNo) (b : RegNo)
  /-- HWAIT (R219). -/
  | hwait (fb : Bool) (d : RegNo) (h : BitVec 7) (m : BitVec 1)
  /-- HREL (R220). -/
  | hrel (h : BitVec 7) (b : RegNo)
  /-- HQ (R221). -/
  | hq (d : RegNo) (h : BitVec 7) (im : BitVec 7)
  /-- JOBS (R222). -/
  | jobs (fb : Bool)
  /-- SST (R319). -/
  | sst (fb : Bool) (d : RegNo) (sl : BitVec 5) (b : RegNo)
  /-- SATM_ADD (R319). -/
  | satmAdd (fb : Bool) (d : RegNo) (sl : BitVec 5) (b : RegNo)
  /-- SATM_XCHG (R319). -/
  | satmXchg (fb : Bool) (d : RegNo) (sl : BitVec 5) (b : RegNo)
  /-- SATM_CAS (R319). -/
  | satmCas (fb : Bool) (d : RegNo) (sl : BitVec 5) (b : RegNo)
  /-- RSYNC (R320). -/
  | rsync (fb : Bool) (d : RegNo)
  /-- RSTAMP (R320). -/
  | rstamp (fb : Bool) (d : RegNo) (sl : BitVec 5) (b : RegNo)
  /-- GSIG (R336). -/
  | gsig (fb : Bool) (a : RegNo) (b : RegNo)
  /-- GWAIT (R337). -/
  | gwait (fb : Bool) (d : RegNo) (a : RegNo) (b : RegNo)
  /-- GRD (R336). -/
  | grd (fb : Bool) (d : RegNo) (a : RegNo)
  /-- COLL (R363). -/
  | coll (fb : Bool)
  /-- A2AT (R377). -/
  | a2at (fb : Bool) (d : RegNo) (a : RegNo) (b : RegNo) (lit : Word)
  /-- MCST (R358). -/
  | mcst (fb : Bool) (d : RegNo) (sl : BitVec 5) (o : BitVec 2)
  /-- LAUNCH (R292). -/
  | launch (d : RegNo) (a : RegNo) (b : RegNo)
  /-- TRIG (R294). -/
  | trig (a : RegNo)
  /-- CAPQ (R295). -/
  | capq (d : RegNo) (a : RegNo)
  /-- CLK (R296). -/
  | clk (d : RegNo) (a : RegNo)
  /-- ELOG (R297). -/
  | elog (a : RegNo) (b : RegNo)
  /-- ULOG (R299). -/
  | ulog (d : RegNo) (a : RegNo) (b : RegNo)
  /-- RGN (R84). -/
  | rgn
  /-- EXIT (R85). -/
  | exit
  /-- NOP (R83). -/
  | nop
  /-- YIELD (R119). -/
  | yield
  /-- CLAUSE_ENTRY (R18). Argument `strand k`. -/
  | clauseEntry
  /-- CLAUSE_WAIT_END (R18). Argument `strand k`. -/
  | clauseWaitEnd
  /-- LONG_LATENCY_COMPLETE (R25). Argument `n2 op part`. -/
  | longLatencyComplete
  /-- QUEUE_UNBLOCK (R122). Argument `strand k`. -/
  | queueUnblock
  /-- RVTO_TIMEOUT (R126). Argument `circle g circle sq`. -/
  | rvtoTimeout
  /-- QDLK_TIMEOUT (R124). Argument `thread g tid`. -/
  | qdlkTimeout
  /-- SUBMISSION_ACCEPT (R197). Argument `strand k`. -/
  | submissionAccept
  /-- ENGINE_ITEM_ACCESS (R199). Argument `n2 item n`. -/
  | engineItemAccess
  /-- HANDLE_ARRIVAL (R205). Argument `n2 item n`. -/
  | handleArrival
  /-- ITEM_COMPLETE (R201). Argument `n1 item`. -/
  | itemComplete
  /-- ITEM_FAIL (R206). Argument `itemFail item cause`. -/
  | itemFail
  /-- DISPATCHER_PLACE (R273). Argument `n3 die cluster core`. -/
  | dispatcherPlace
  /-- GANG_RESERVATION_PASS (R274). Argument `list die cluster cores`. -/
  | gangReservationPass
  /-- SLICE_END (R287). Argument `n2 die acct`. -/
  | sliceEnd
  /-- DRAIN_LIMIT_EXPIRY (R277). Argument `group g`. -/
  | drainLimitExpiry
  /-- GROUP_SAVE (R277). Argument `group g`. -/
  | groupSave
  /-- WATCHDOG_EXPIRY (R288). Argument `dieGroup die g`. -/
  | watchdogExpiry
  /-- PERIOD_BOUNDARY (R285). Argument `n1 die`. -/
  | periodBoundary
  /-- DOORBELL_WRITE (R262). Argument `doorbell fn dbidx q val`. -/
  | doorbellWrite
  /-- COMMAND_READ (R262). Argument `n2 ctx q`. -/
  | commandRead
  /-- CMD_NOP (R263). Argument `n2 ctx q`. -/
  | cmdNop
  /-- CMD_LAUNCH (R269). Argument `n2 ctx q`. -/
  | cmdLaunch
  /-- CMD_GRAPHLD (R280). Argument `n2 ctx q`. -/
  | cmdGraphld
  /-- CMD_WAIT (R263). Argument `n2 ctx q`. -/
  | cmdWait
  /-- CMD_WAIT_SATISFIED (R263). Argument `n2 ctx q`. -/
  | cmdWaitSatisfied
  /-- CMD_SIGNAL (R263). Argument `n2 ctx q`. -/
  | cmdSignal
  /-- LAUNCH_END (R270). Argument `n1 launch`. -/
  | launchEnd
  /-- SHED_EVENT_DOORBELL (R265). Argument `n1 die`. -/
  | shedEventDoorbell
  /-- SHED_EVENT_CMDREAD (R265). Argument `n1 die`. -/
  | shedEventCmdread
  /-- SHED_EVENT_BINDDONE (R265). Argument `n1 die`. -/
  | shedEventBinddone
  /-- SHED_EVENT_COPYFLT (R266). Argument `n1 die`. -/
  | shedEventCopyflt
  /-- SHED_EVENT_ERROR (R265). Argument `n1 die`. -/
  | shedEventError
  /-- SHED_EVENT_TRIGGER (R265). Argument `n1 die`. -/
  | shedEventTrigger
  /-- PAGE_REQUEST_ANSWER (R266). Argument `ok ctx req resume`. -/
  | pageRequestAnswer
  /-- PAGE_REQUEST_TIMEOUT (R266). Argument `n2 ctx req`. -/
  | pageRequestTimeout
  /-- GRAPH_NODE_COMPLETE (R282). Argument `n3 die graph node`. -/
  | graphNodeComplete
  /-- COALT_TIMER_EXPIRY (R298). Argument `n2 ctx ring`. -/
  | coaltTimerExpiry
  /-- INVAL_STAGE1_VA (R245). Argument `n1 fn`. -/
  | invalStage1Va
  /-- INVAL_STAGE1_ASID (R245). Argument `n1 fn`. -/
  | invalStage1Asid
  /-- INVAL_STAGE2_GPA (R245). Argument `n1 fn`. -/
  | invalStage2Gpa
  /-- INVAL_STAGE2_VMID (R245). Argument `n1 fn`. -/
  | invalStage2Vmid
  /-- INVAL_ALL (R245). Argument `n1 fn`. -/
  | invalAll
  /-- INVAL_COMPLETE (R246). Argument `n1 fn`. -/
  | invalComplete
  /-- ADMIN_CONTEXT_WRITE (R259). Argument `ctxDesc c`. -/
  | adminContextWrite
  /-- CONTEXT_TEARDOWN (R260). Argument `n1 ctx`. -/
  | contextTeardown
  /-- CONTEXT_TEARDOWN_FINISH (R260). Argument `n1 ctx`. -/
  | contextTeardownFinish
  /-- LOFT_TEARDOWN_FINISH (R236). Argument `n2 die yard`. -/
  | loftTeardownFinish
  /-- REPLY_RESERVATION_RELEASE (R357). Argument `n1 keyid`. -/
  | replyReservationRelease
  /-- KEYID_QUARANTINE_END (R357). Argument `n1 keyid`. -/
  | keyidQuarantineEnd
  /-- ADMIN_YARD_WRITE (R328). Argument `yardDesc y`. -/
  | adminYardWrite
  /-- ADMIN_KEY_INSTALL (R353). Argument `ok die keyid present`. -/
  | adminKeyInstall
  /-- ADMIN_REACH_LIST (R392). Argument `list die keyid mods`. -/
  | adminReachList
  /-- ADMIN_QUEUE_REENABLE (R262). Argument `n2 ctx q`. -/
  | adminQueueReenable
  /-- ADMIN_FENCE_RELEASE (R288). Argument `n2 die yard`. -/
  | adminFenceRelease
  /-- ADMIN_GATE_WRITE (R332). Argument `gate die r`. -/
  | adminGateWrite
  /-- ADMIN_COMMUNICATOR_WRITE (R362). Argument `comm die num c`. -/
  | adminCommunicatorWrite
  /-- ADMIN_ENROL (R368). Argument `ok die num on`. -/
  | adminEnrol
  /-- ATTESTATION_REQUEST (R386). Argument `n2 die nonce`. -/
  | attestationRequest
  /-- PACKET_SEND (R311). Argument `n2 src dst`. -/
  | packetSend
  /-- PACKET_RECEIVE (R311). Argument `n3 src dst idx`. -/
  | packetReceive
  /-- CAPO_GRANT (R314). -/
  | capoGrant
  /-- STRONG_GRANT_RECEIVE (R315). Argument `n1 die`. -/
  | strongGrantReceive
  /-- CAPO_HANDOFF (R314). -/
  | capoHandoff
  /-- LAG_DETECT (R321). Argument `n1 die`. -/
  | lagDetect
  /-- LAG_EVICT_TIMEOUT (R321). Argument `n1 die`. -/
  | lagEvictTimeout
  /-- LINKS_LOST (R321). Argument `n1 die`. -/
  | linksLost
  /-- EVICTION (R322). Argument `n1 die`. -/
  | eviction
  /-- COUNTER_WRAP (R324). -/
  | counterWrap
  /-- WRAP_REBASE (R324). -/
  | wrapRebase
  /-- STAMP_REWRITE (R324). Argument `n2 die line`. -/
  | stampRewrite
  /-- REJOIN_REQUEST (R325). Argument `n1 die`. -/
  | rejoinRequest
  /-- REJOIN_COPY_COMPLETE (R325). Argument `ok1 die ok`. -/
  | rejoinCopyComplete
  /-- REPLFIX (R342). Argument `n2 die line`. -/
  | replfix
  /-- UNCORRECTABLE_ERROR (R341). Argument `n3 die cls num`. -/
  | uncorrectableError
  /-- GATE_REQUEST (R333). Argument `n1 op`. -/
  | gateRequest
  /-- GATE_ANSWER (R333). Argument `n1 op`. -/
  | gateAnswer
  /-- GATE_TOKEN_ACCRUE (R334). Argument `n1 gid`. -/
  | gateTokenAccrue
  /-- GATE_MIGRATE (R338). Argument `n3 gid newMod newDie`. -/
  | gateMigrate
  /-- GATE_MIGRATE_COPY (R338). Argument `n1 gid`. -/
  | gateMigrateCopy
  /-- GATE_MIGRATE_ACK (R338). Argument `n1 gid`. -/
  | gateMigrateAck
  /-- GATE_RETIRE (R338). Argument `n1 gid`. -/
  | gateRetire
  /-- PAGE_PULL_COMPLETE (R339). Argument `ok ctx req ok`. -/
  | pagePullComplete
  /-- FABRIC_PACKET_RECEIVE (R354). Argument `packet p`. -/
  | fabricPacketReceive
  /-- GLOB_RESPONSE (R348). Argument `globRsp req data`. -/
  | globResponse
  /-- PATH_FAILURE (R348). Argument `n4 die tmod tdie strm`. -/
  | pathFailure
  /-- RESPONSE_TIMEOUT (R348). Argument `n1 req`. -/
  | responseTimeout
  /-- LINK_FLIT_RECEIVE (R356). Argument `flit die port fl crcOk`. -/
  | linkFlitReceive
  /-- FLIT_ACK (R356). Argument `n3 die port upto`. -/
  | flitAck
  /-- ALLOWANCE_RETURN (R355). Argument `allow die port al`. -/
  | allowanceReturn
  /-- COLL_CHUNK_STEP (R373). Argument `parts die coll inp`. -/
  | collChunkStep
  /-- COLL_COMPLETE (R366). Argument `n2 die coll`. -/
  | collComplete
  /-- COLL_TIMEOUT (R370). Argument `n2 die coll`. -/
  | collTimeout
  /-- MODULE_RESET (R382). -/
  | moduleReset
  /-- BOOT_ALL_DIES_READY (R384). Argument `fails fails`. -/
  | bootAllDiesReady
  /-- CONFIG_REQUEST (R384). Argument `n1 die`. -/
  | configRequest
  /-- FUNCTION_LEVEL_RESET (R387). Argument `n1 fn`. -/
  | functionLevelReset
  /-- THERMAL_THROTTLE (R388). Argument `n3 die cls num`. -/
  | thermalThrottle
  /-- THERMAL_FENCE (R388). Argument `n3 die cls num`. -/
  | thermalFence
  /-- REGISTER_WRITE (R5). Argument `regWrite fn off val`. -/
  | registerWrite
  /-- ENCODING_FAULT (R34). Argument `words w lit`. -/
  | encodingFault
  /-- UPDATE_ACKNOWLEDGEMENT (R307). Argument `n3 src dst sq`. -/
  | updateAcknowledgement
  /-- FRAME_OWNERSHIP_WRITE (R232). Argument `frame die frame entry`. -/
  | frameOwnershipWrite
  /-- IN_PACKAGE_LINK_FAILURE (R206). Argument `n2 a b`. -/
  | inPackageLinkFailure
deriving DecidableEq, Repr

end Sys2Proof
end

