-- ==== Sys2Proof/Decode.lean ====
section
/-! DEFINITION. The decoder of one body word, total on all bits and rejecting by name (R33, R34), and the encoder written from
the same tables. -/

namespace Sys2Proof

/-- Why a word is no instruction: no assigned class and minor (ILOP), a reserved field or bit that is not zero (IRSV), or an X
form without its literal (ICLS), as Table 2.20 sorts them (R34). -/
inductive DecodeError where
  | unassigned
  | reservedField
  | noLiteral
deriving DecidableEq, Repr

/-- The literal word of an X form (R20, R22). -/
def withLit (lit : Option Word) (f : Word → Except DecodeError Instr) : Except DecodeError Instr :=
  match lit with
  | some v => f v
  | none => .error .noLiteral

/-- Class 0x0, integer, Table 2.6. -/
def decodeClass0 (m : Nat) (d a b : RegNo) (l : BitVec 14) (lit : Option Word) : Except DecodeError Instr :=
  match m with
  | 0x00 => .ok (.iadd d a b)
  | 0x01 => .ok (.iaddi d a b)
  | 0x02 => .ok (.isub d a b)
  | 0x03 => .ok (.imul d a b)
  | 0x04 => .ok (.imulhI d a b)
  | 0x05 => .ok (.imulhN d a b)
  | 0x06 => .ok (.imad d a b)
  | 0x07 => .ok (.imulwI d a b)
  | 0x08 => .ok (.imulwN d a b)
  | 0x09 => .ok (.idivI d a b)
  | 0x0A => .ok (.idivN d a b)
  | 0x0B => .ok (.iremI d a b)
  | 0x0C => .ok (.iremN d a b)
  | 0x0D => .ok (.iminI d a b)
  | 0x0E => .ok (.iminN d a b)
  | 0x0F => .ok (.imaxI d a b)
  | 0x10 => .ok (.imaxN d a b)
  | 0x11 => if b = 0#7 then .ok (.iabs d a) else .error .reservedField
  | 0x12 => if b = 0#7 then .ok (.ineg d a) else .error .reservedField
  | 0x13 => .ok (.iaddsI d a b)
  | 0x14 => .ok (.iaddsN d a b)
  | 0x15 => .ok (.isubsI d a b)
  | 0x16 => .ok (.isubsN d a b)
  | 0x17 => .ok (.iadd64 d a b)
  | 0x18 => .ok (.isub64 d a b)
  | 0x19 => .ok (.ixadd2 d a b)
  | 0x1A => .ok (.ixadd4 d a b)
  | 0x1B => .ok (.ixadd8 d a b)
  | 0x1C => .ok (.ixadd16 d a b)
  | 0x40 => .ok (.ldi d l)
  | 0x41 => if a = 0#7 ∧ b = 0#7 then withLit lit fun v => .ok (.ldw d v) else .error .reservedField
  | _ => .error .unassigned

/-- Class 0x1, logic, Table 2.7. -/
def decodeClass1 (m : Nat) (d a b : RegNo) (_l : BitVec 14) (_lit : Option Word) : Except DecodeError Instr :=
  match m with
  | 0x00 => .ok (.and d a b)
  | 0x01 => .ok (.andi d a b)
  | 0x02 => .ok (.or d a b)
  | 0x03 => .ok (.ori d a b)
  | 0x04 => .ok (.xor d a b)
  | 0x05 => .ok (.xori d a b)
  | 0x06 => .ok (.andn d a b)
  | 0x07 => if b = 0#7 then .ok (.not d a) else .error .reservedField
  | 0x08 => .ok (.shl d a b)
  | 0x09 => if b.extractLsb' 5 2 = 0#2 then .ok (.shli d a (b.extractLsb' 0 5)) else .error .reservedField
  | 0x0A => .ok (.shr d a b)
  | 0x0B => if b.extractLsb' 5 2 = 0#2 then .ok (.shri d a (b.extractLsb' 0 5)) else .error .reservedField
  | 0x0C => .ok (.sar d a b)
  | 0x0D => if b.extractLsb' 5 2 = 0#2 then .ok (.sari d a (b.extractLsb' 0 5)) else .error .reservedField
  | 0x0E => .ok (.rol d a b)
  | 0x0F => if b.extractLsb' 5 2 = 0#2 then .ok (.roli d a (b.extractLsb' 0 5)) else .error .reservedField
  | 0x10 => .ok (.bfxI d a b)
  | 0x11 => .ok (.bfxN d a b)
  | 0x12 => .ok (.bfi d a b)
  | 0x13 => if b = 0#7 then .ok (.popc d a) else .error .reservedField
  | 0x14 => if b = 0#7 then .ok (.clz d a) else .error .reservedField
  | 0x15 => if b = 0#7 then .ok (.ctz d a) else .error .reservedField
  | 0x16 => if b = 0#7 then .ok (.brev d a) else .error .reservedField
  | 0x17 => .ok (.permb d a b)
  | _ => .error .unassigned

/-- Class 0x2, compare and predicate, Table 2.8. -/
def decodeClass2 (m : Nat) (d a b : RegNo) (_l : BitVec 14) (_lit : Option Word) : Except DecodeError Instr :=
  match m with
  | 0x00 => .ok (.icmpEq d a b)
  | 0x01 => .ok (.icmpNe d a b)
  | 0x02 => .ok (.icmpLtI d a b)
  | 0x03 => .ok (.icmpLeI d a b)
  | 0x04 => .ok (.icmpGtI d a b)
  | 0x05 => .ok (.icmpGeI d a b)
  | 0x06 => .ok (.icmpLtN d a b)
  | 0x07 => .ok (.icmpLeN d a b)
  | 0x08 => .ok (.icmpGtN d a b)
  | 0x09 => .ok (.icmpGeN d a b)
  | 0x10 => .ok (.fcmpEq d a b)
  | 0x11 => .ok (.fcmpNe d a b)
  | 0x12 => .ok (.fcmpLt d a b)
  | 0x13 => .ok (.fcmpLe d a b)
  | 0x14 => .ok (.fcmpGt d a b)
  | 0x15 => .ok (.fcmpGe d a b)
  | 0x16 => .ok (.fcmpUn d a b)
  | 0x18 => .ok (.dcmpEq d a b)
  | 0x19 => .ok (.dcmpLt d a b)
  | 0x1A => .ok (.dcmpLe d a b)
  | 0x1B => .ok (.dcmpUn d a b)
  | 0x20 => .ok (.pand d a b)
  | 0x21 => .ok (.por d a b)
  | 0x22 => .ok (.pxor d a b)
  | 0x23 => .ok (.pandn d a b)
  | 0x24 => if b = 0#7 then .ok (.pnot d a) else .error .reservedField
  | 0x25 => if b = 0#7 then .ok (.pmov d a) else .error .reservedField
  | 0x26 => if a = 0#7 ∧ b.extractLsb' 1 6 = 0#6 then .ok (.pset d (b.extractLsb' 0 1)) else .error .reservedField
  | 0x28 => if b = 0#7 then .ok (.ptod d a) else .error .reservedField
  | 0x29 => if b = 0#7 then .ok (.dtop d a) else .error .reservedField
  | _ => .error .unassigned

/-- Class 0x3, move, Table 2.9. -/
def decodeClass3 (m : Nat) (d a b : RegNo) (l : BitVec 14) (_lit : Option Word) : Except DecodeError Instr :=
  match m with
  | 0x00 => if b = 0#7 then .ok (.mov d a) else .error .reservedField
  | 0x01 => .ok (.cmov d a b)
  | 0x02 => if b.extractLsb' 5 2 = 0#2 then .ok (.tag d a (b.extractLsb' 0 5)) else .error .reservedField
  | 0x03 => if b = 0#7 then .ok (.tagq d a) else .error .reservedField
  | 0x04 => if d = 0#7 ∧ a = 0#7 then .ok (.win b) else .error .reservedField
  | 0x05 => if a = 0#7 ∧ b = 0#7 then .ok (.winq d) else .error .reservedField
  | 0x06 => .ok (.movs d l)
  | 0x07 => if b = 0#7 then .ok (.sext8 d a) else .error .reservedField
  | 0x08 => if b = 0#7 then .ok (.sext16 d a) else .error .reservedField
  | 0x09 => if b = 0#7 then .ok (.zext8 d a) else .error .reservedField
  | 0x0A => if b = 0#7 then .ok (.zext16 d a) else .error .reservedField
  | 0x0B => if b = 0#7 then .ok (.mov64 d a) else .error .reservedField
  | _ => .error .unassigned

/-- Class 0x4, control, Table 2.10. -/
def decodeClass4 (m : Nat) (d a b : RegNo) (l : BitVec 14) (_lit : Option Word) : Except DecodeError Instr :=
  match m with
  | 0x00 => if d = 0#7 then .ok (.bra l) else .error .reservedField
  | 0x01 => .ok (.brp d l)
  | 0x02 => .ok (.brn d l)
  | 0x03 => if d = 0#7 ∧ b = 0#7 then .ok (.jmp a) else .error .reservedField
  | 0x04 => .ok (.call d l)
  | 0x05 => if b = 0#7 then .ok (.callr d a) else .error .reservedField
  | 0x06 => if d = 0#7 ∧ b = 0#7 then .ok (.ret a) else .error .reservedField
  | 0x07 => if d = 0#7 ∧ a = 0#7 ∧ b = 0#7 then .ok .rgn else .error .reservedField
  | 0x08 => if d = 0#7 ∧ a = 0#7 then .ok (.trap b) else .error .reservedField
  | 0x09 => if d = 0#7 ∧ a = 0#7 ∧ b.extractLsb' 1 6 = 0#6 then .ok (.tret (b.extractLsb' 0 1)) else .error .reservedField
  | 0x0A => if d = 0#7 ∧ a = 0#7 ∧ b.extractLsb' 1 6 = 0#6 then .ok (.tkill (b.extractLsb' 0 1)) else .error .reservedField
  | 0x0B => if d = 0#7 ∧ a = 0#7 ∧ b = 0#7 then .ok .exit else .error .reservedField
  | 0x0C => if d = 0#7 ∧ a = 0#7 ∧ b = 0#7 then .ok .nop else .error .reservedField
  | 0x0D => if d = 0#7 ∧ l.extractLsb' 12 2 = 0#2 then .ok (.waitf (l.extractLsb' 0 12)) else .error .reservedField
  | 0x0E => if d = 0#7 ∧ a = 0#7 ∧ b = 0#7 then .ok .yield else .error .reservedField
  | _ => .error .unassigned

/-- Class 0x5, float, Table 2.11. -/
def decodeClass5 (m : Nat) (d a b : RegNo) (_l : BitVec 14) (_lit : Option Word) : Except DecodeError Instr :=
  match m with
  | 0x00 => .ok (.fadd .rn d a b)
  | 0x01 => .ok (.fadd .rz d a b)
  | 0x02 => .ok (.fadd .rd d a b)
  | 0x03 => .ok (.fadd .ru d a b)
  | 0x04 => .ok (.fsub .rn d a b)
  | 0x05 => .ok (.fsub .rz d a b)
  | 0x06 => .ok (.fsub .rd d a b)
  | 0x07 => .ok (.fsub .ru d a b)
  | 0x08 => .ok (.fmul .rn d a b)
  | 0x09 => .ok (.fmul .rz d a b)
  | 0x0A => .ok (.fmul .rd d a b)
  | 0x0B => .ok (.fmul .ru d a b)
  | 0x0C => .ok (.ffma .rn d a b)
  | 0x0D => .ok (.ffma .rz d a b)
  | 0x0E => .ok (.ffma .rd d a b)
  | 0x0F => .ok (.ffma .ru d a b)
  | 0x10 => .ok (.fmin d a b)
  | 0x11 => .ok (.fmax d a b)
  | 0x12 => if b = 0#7 then .ok (.fabs d a) else .error .reservedField
  | 0x13 => if b = 0#7 then .ok (.fneg d a) else .error .reservedField
  | 0x14 => if b = 0#7 then .ok (.frnd .rn d a) else .error .reservedField
  | 0x15 => if b = 0#7 then .ok (.frnd .rz d a) else .error .reservedField
  | 0x16 => if b = 0#7 then .ok (.frnd .rd d a) else .error .reservedField
  | 0x17 => if b = 0#7 then .ok (.frnd .ru d a) else .error .reservedField
  | 0x18 => if b = 0#7 then .ok (.fcvtI32F32 d a) else .error .reservedField
  | 0x19 => if b = 0#7 then .ok (.fcvtN32F32 d a) else .error .reservedField
  | 0x1A => if b = 0#7 then .ok (.fcvtF32I32 d a) else .error .reservedField
  | 0x1B => if b = 0#7 then .ok (.fcvtF32N32 d a) else .error .reservedField
  | 0x1C => if b = 0#7 then .ok (.fcvtF16F32 d a) else .error .reservedField
  | 0x1D => if b = 0#7 then .ok (.fcvtF32F16 d a) else .error .reservedField
  | 0x1E => if b = 0#7 then .ok (.fcvtBf16F32 d a) else .error .reservedField
  | 0x1F => if b = 0#7 then .ok (.fcvtF32Bf16 d a) else .error .reservedField
  | 0x20 => if b = 0#7 then .ok (.fcvtF64F32 d a) else .error .reservedField
  | 0x21 => if b = 0#7 then .ok (.fcvtF32F64 d a) else .error .reservedField
  | 0x28 => .ok (.dadd d a b)
  | 0x29 => .ok (.dsub d a b)
  | 0x2A => .ok (.dmul d a b)
  | 0x2B => .ok (.dfma d a b)
  | 0x2C => .ok (.dmin d a b)
  | 0x2D => .ok (.dmax d a b)
  | _ => .error .unassigned

/-- Class 0x6, packed and narrow, Table 2.12. -/
def decodeClass6 (m : Nat) (d a b : RegNo) (_l : BitVec 14) (_lit : Option Word) : Except DecodeError Instr :=
  match m with
  | 0x00 => .ok (.hadd2F16 d a b)
  | 0x01 => .ok (.hadd2Bf16 d a b)
  | 0x02 => .ok (.hmul2F16 d a b)
  | 0x03 => .ok (.hmul2Bf16 d a b)
  | 0x04 => .ok (.hfma2F16 d a b)
  | 0x05 => .ok (.hfma2Bf16 d a b)
  | 0x06 => .ok (.pkhF16 d a b)
  | 0x07 => .ok (.pkhBf16 d a b)
  | 0x08 => if b = 0#7 then .ok (.unpkhF16Lo d a) else .error .reservedField
  | 0x09 => if b = 0#7 then .ok (.unpkhF16Hi d a) else .error .reservedField
  | 0x0A => if b = 0#7 then .ok (.unpkhBf16Lo d a) else .error .reservedField
  | 0x0B => if b = 0#7 then .ok (.unpkhBf16Hi d a) else .error .reservedField
  | 0x10 => .ok (.idp4I8 d a b)
  | 0x11 => .ok (.idp4N8 d a b)
  | 0x12 => .ok (.idp2I16 d a b)
  | 0x18 => .ok (.ncvtRn d a (b.extractLsb' 4 3) (b.extractLsb' 0 4))
  | 0x19 => .ok (.ncvtRz d a (b.extractLsb' 4 3) (b.extractLsb' 0 4))
  | 0x1A => .ok (.nunp d a (b.extractLsb' 4 3) (b.extractLsb' 0 4))
  | 0x1B => .ok (.nscl d a b)
  | 0x1C => if b.extractLsb' 2 5 = 0#5 then .ok (.scx d a (b.extractLsb' 0 2)) else .error .reservedField
  | _ => .error .unassigned

/-- Class 0x7, long-latency math, Table 2.13. `m` is half the even minor and `fb` its low bit (R24). -/
def decodeClass7 (m : Nat) (fb : Bool) (d a b : RegNo) (_l : BitVec 14) (_lit : Option Word) : Except DecodeError Instr :=
  match m with
  | 0x00 => if b = 0#7 then .ok (.lncv fb d a) else .error .reservedField
  | 0x01 => if b = 0#7 then .ok (.lnbk fb d a) else .error .reservedField
  | 0x02 => if b = 0#7 then .ok (.lexp fb d a) else .error .reservedField
  | 0x03 => if b = 0#7 then .ok (.llog fb d a) else .error .reservedField
  | 0x04 => .ok (.lmul fb d a b)
  | 0x05 => .ok (.ldiv fb d a b)
  | 0x06 => if b = 0#7 then .ok (.lsqr fb d a) else .error .reservedField
  | 0x07 => .ok (.lpow fb d a b)
  | 0x08 => .ok (.ladd fb d a b)
  | 0x09 => .ok (.lsub fb d a b)
  | 0x0A => .ok (.fdiv fb d a b)
  | 0x0B => if b = 0#7 then .ok (.fsqrt fb d a) else .error .reservedField
  | 0x0C => .ok (.ddiv fb d a b)
  | 0x0D => if b = 0#7 then .ok (.dsqrt fb d a) else .error .reservedField
  | _ => .error .unassigned

/-- Class 0x8, rendezvous, Table 2.14. `m` is half the even minor and `fb` its low bit (R24). -/
def decodeClass8 (m : Nat) (fb : Bool) (d a b : RegNo) (_l : BitVec 14) (_lit : Option Word) : Except DecodeError Instr :=
  match m with
  | 0x00 => .ok (.xshf fb d a b)
  | 0x01 => if b.extractLsb' 5 2 = 0#2 then .ok (.xbfly fb d a (b.extractLsb' 0 5)) else .error .reservedField
  | 0x02 => if b.extractLsb' 5 2 = 0#2 then .ok (.xbcst fb d a (b.extractLsb' 0 5)) else .error .reservedField
  | 0x03 => if b = 0#7 then .ok (.xvoteAny fb d a) else .error .reservedField
  | 0x04 => if b = 0#7 then .ok (.xvoteAll fb d a) else .error .reservedField
  | 0x05 => if b = 0#7 then .ok (.xballot fb d a) else .error .reservedField
  | 0x06 => if b = 0#7 then .ok (.xredAddI32 fb d a) else .error .reservedField
  | 0x07 => if b = 0#7 then .ok (.xredAddF32 fb d a) else .error .reservedField
  | 0x08 => if b = 0#7 then .ok (.xredMinI fb d a) else .error .reservedField
  | 0x09 => if b = 0#7 then .ok (.xredMaxI fb d a) else .error .reservedField
  | 0x0A => if b = 0#7 then .ok (.xscanAddI32 fb d a) else .error .reservedField
  | 0x0B => if b = 0#7 then .ok (.xscanAddF32 fb d a) else .error .reservedField
  | 0x0C => if b = 0#7 then .ok (.xmatch fb d a) else .error .reservedField
  | 0x18 => if d = 0#7 then .ok (.bwait fb a b) else .error .reservedField
  | 0x19 => if fb = false then (if d = 0#7 then .ok (.barv a b) else .error .reservedField) else .error .unassigned
  | 0x1A => if fb = false then (if a = 0#7 then .ok (.bqryBarrier d b) else .error .reservedField) else .error .unassigned
  | 0x1B => if d = 0#7 then .ok (.gbar fb a b) else .error .reservedField
  | 0x1C => if fb = false then (if d = 0#7 then .ok (.gbarv a b) else .error .reservedField) else .error .unassigned
  | _ => .error .unassigned

/-- Class 0x9, memory, Table 2.15. `m` is half the even minor and `fb` its low bit (R24). -/
def decodeClass9 (m : Nat) (fb : Bool) (d a b : RegNo) (_l : BitVec 14) (lit : Option Word) : Except DecodeError Instr :=
  match m with
  | 0x00 => if a.extractLsb' 5 2 = 0#2 then .ok (.ld fb d (a.extractLsb' 0 5) b) else .error .reservedField
  | 0x01 => if a.extractLsb' 5 2 = 0#2 then .ok (.ld2 fb d (a.extractLsb' 0 5) b) else .error .reservedField
  | 0x02 => if a.extractLsb' 5 2 = 0#2 then .ok (.ld4 fb d (a.extractLsb' 0 5) b) else .error .reservedField
  | 0x03 => if a.extractLsb' 5 2 = 0#2 then .ok (.st fb d (a.extractLsb' 0 5) b) else .error .reservedField
  | 0x04 => if a.extractLsb' 5 2 = 0#2 then .ok (.st2 fb d (a.extractLsb' 0 5) b) else .error .reservedField
  | 0x05 => if a.extractLsb' 5 2 = 0#2 then .ok (.st4 fb d (a.extractLsb' 0 5) b) else .error .reservedField
  | 0x06 => if a.extractLsb' 5 2 = 0#2 then withLit lit fun v => .ok (.lda fb d (a.extractLsb' 0 5) b v) else .error .reservedField
  | 0x07 => if a.extractLsb' 5 2 = 0#2 then withLit lit fun v => .ok (.stl fb d (a.extractLsb' 0 5) b v) else .error .reservedField
  | 0x08 => if d.extractLsb' 5 2 = 0#2 ∧ b = 0#7 then .ok (.bload fb (d.extractLsb' 0 5) a) else .error .reservedField
  | 0x09 => if fb = false then (if a.extractLsb' 5 2 = 0#2 then .ok (.bqrySlot d (a.extractLsb' 0 5) b) else .error .reservedField) else .error .unassigned
  | 0x0A => if d.extractLsb' 3 4 = 0#4 ∧ b = 0#7 then .ok (.lload fb (d.extractLsb' 0 3) a) else .error .reservedField
  | _ => .error .unassigned

/-- Class 0xA, atomics and fences, Table 2.16. `m` is half the even minor and `fb` its low bit (R24). -/
def decodeClassA (m : Nat) (fb : Bool) (d a b : RegNo) (_l : BitVec 14) (_lit : Option Word) : Except DecodeError Instr :=
  match m with
  | 0x00 => if a.extractLsb' 5 2 = 0#2 then .ok (.aaddI32 fb d (a.extractLsb' 0 5) b) else .error .reservedField
  | 0x01 => if a.extractLsb' 5 2 = 0#2 then .ok (.aaddF32 fb d (a.extractLsb' 0 5) b) else .error .reservedField
  | 0x02 => if a.extractLsb' 5 2 = 0#2 then .ok (.aminI fb d (a.extractLsb' 0 5) b) else .error .reservedField
  | 0x03 => if a.extractLsb' 5 2 = 0#2 then .ok (.aminN fb d (a.extractLsb' 0 5) b) else .error .reservedField
  | 0x04 => if a.extractLsb' 5 2 = 0#2 then .ok (.amaxI fb d (a.extractLsb' 0 5) b) else .error .reservedField
  | 0x05 => if a.extractLsb' 5 2 = 0#2 then .ok (.amaxN fb d (a.extractLsb' 0 5) b) else .error .reservedField
  | 0x06 => if a.extractLsb' 5 2 = 0#2 then .ok (.aand fb d (a.extractLsb' 0 5) b) else .error .reservedField
  | 0x07 => if a.extractLsb' 5 2 = 0#2 then .ok (.aor fb d (a.extractLsb' 0 5) b) else .error .reservedField
  | 0x08 => if a.extractLsb' 5 2 = 0#2 then .ok (.axor fb d (a.extractLsb' 0 5) b) else .error .reservedField
  | 0x09 => if a.extractLsb' 5 2 = 0#2 then .ok (.axchg fb d (a.extractLsb' 0 5) b) else .error .reservedField
  | 0x0A => if a.extractLsb' 5 2 = 0#2 then .ok (.acas fb d (a.extractLsb' 0 5) b) else .error .reservedField
  | 0x0B => if a.extractLsb' 5 2 = 0#2 then .ok (.ainc fb d (a.extractLsb' 0 5) b) else .error .reservedField
  | 0x0C => if a.extractLsb' 5 2 = 0#2 then .ok (.aadd64 fb d (a.extractLsb' 0 5) b) else .error .reservedField
  | 0x0D => if a.extractLsb' 5 2 = 0#2 then .ok (.acas64 fb d (a.extractLsb' 0 5) b) else .error .reservedField
  | 0x10 => if fb = false then (if d = 0#7 ∧ a = 0#7 ∧ b.extractLsb' 3 2 = 0#2 then .ok (.fence (b.extractLsb' 5 2) (b.extractLsb' 0 3)) else .error .reservedField) else .error .unassigned
  | _ => .error .unassigned

/-- Class 0xB, matrix, Tables 2.17 and 8.4. `m` is half the even minor and `fb` its low bit (R24). -/
def decodeClassB (m : Nat) (fb : Bool) (d a b : RegNo) (_l : BitVec 14) (lit : Option Word) : Except DecodeError Instr :=
  match m with
  | 0x00 => if d.extractLsb' 4 3 = 0#3 ∧ b = 0#7 then .ok (.mminit fb (d.extractLsb' 0 4) a) else .error .reservedField
  | 0x01 => if d.extractLsb' 4 3 = 0#3 then withLit lit fun v => .ok (.mmloop fb (d.extractLsb' 0 4) a b v) else .error .reservedField
  | 0x02 => if d.extractLsb' 4 3 = 0#3 ∧ b = 0#7 then .ok (.mmnorm fb (d.extractLsb' 0 4) a) else .error .reservedField
  | 0x03 => if d.extractLsb' 4 3 = 0#3 ∧ a.extractLsb' 1 6 = 0#6 ∧ b = 0#7 then .ok (.mmdrain fb (d.extractLsb' 0 4) (a.extractLsb' 0 1)) else .error .reservedField
  | 0x04 => if fb = false then (if a.extractLsb' 4 3 = 0#3 then .ok (.mmq d (a.extractLsb' 0 4) b) else .error .reservedField) else .error .unassigned
  | _ => .error .unassigned

/-- Class 0xC, copies and handles, Tables 2.18, 10.5 and R217. `m` is half the even minor and `fb` its low bit (R24). -/
def decodeClassC (m : Nat) (fb : Bool) (d a b : RegNo) (_l : BitVec 14) (lit : Option Word) : Except DecodeError Instr :=
  match m with
  | 0x00 => if d.extractLsb' 3 4 = 0#4 then withLit lit fun v => .ok (.cpt fb (d.extractLsb' 0 3) a b v) else .error .reservedField
  | 0x01 => if d.extractLsb' 5 2 = 0#2 then withLit lit fun v => .ok (.cps fb (d.extractLsb' 0 5) a b v) else .error .reservedField
  | 0x02 => withLit lit fun v => .ok (.tmov fb d a b v)
  | 0x03 => if fb = false then .ok (.hset d a b) else .error .unassigned
  | 0x04 => if b.extractLsb' 1 6 = 0#6 then .ok (.hwait fb d a (b.extractLsb' 0 1)) else .error .reservedField
  | 0x05 => if fb = false then (if d = 0#7 then .ok (.hrel a b) else .error .reservedField) else .error .unassigned
  | 0x06 => if fb = false then .ok (.hq d a b) else .error .unassigned
  | 0x07 => if d = 0#7 ∧ a = 0#7 ∧ b = 0#7 then .ok (.jobs fb) else .error .reservedField
  | _ => .error .unassigned

/-- Class 0xD, package and fabric, Tables 2.19, 15.6, 15.12, R358, R363, R377. `m` is half the even minor and `fb` its low bit (R24). -/
def decodeClassD (m : Nat) (fb : Bool) (d a b : RegNo) (_l : BitVec 14) (lit : Option Word) : Except DecodeError Instr :=
  match m with
  | 0x00 => if a.extractLsb' 5 2 = 0#2 then .ok (.sst fb d (a.extractLsb' 0 5) b) else .error .reservedField
  | 0x01 => if a.extractLsb' 5 2 = 0#2 then .ok (.satmAdd fb d (a.extractLsb' 0 5) b) else .error .reservedField
  | 0x02 => if a.extractLsb' 5 2 = 0#2 then .ok (.satmXchg fb d (a.extractLsb' 0 5) b) else .error .reservedField
  | 0x03 => if a.extractLsb' 5 2 = 0#2 then .ok (.satmCas fb d (a.extractLsb' 0 5) b) else .error .reservedField
  | 0x04 => if a = 0#7 ∧ b = 0#7 then .ok (.rsync fb d) else .error .reservedField
  | 0x05 => if a.extractLsb' 5 2 = 0#2 then .ok (.rstamp fb d (a.extractLsb' 0 5) b) else .error .reservedField
  | 0x06 => if d = 0#7 then .ok (.gsig fb a b) else .error .reservedField
  | 0x07 => .ok (.gwait fb d a b)
  | 0x08 => if b = 0#7 then .ok (.grd fb d a) else .error .reservedField
  | 0x09 => if d = 0#7 ∧ a = 0#7 ∧ b = 0#7 then .ok (.coll fb) else .error .reservedField
  | 0x0A => withLit lit fun v => .ok (.a2at fb d a b v)
  | 0x0B => if a.extractLsb' 5 2 = 0#2 ∧ b.extractLsb' 2 5 = 0#5 then .ok (.mcst fb d (a.extractLsb' 0 5) (b.extractLsb' 0 2)) else .error .reservedField
  | _ => .error .unassigned

/-- Class 0xE, system, Tables 2.19 and 13.18. -/
def decodeClassE (m : Nat) (d a b : RegNo) (_l : BitVec 14) (_lit : Option Word) : Except DecodeError Instr :=
  match m with
  | 0x00 => .ok (.launch d a b)
  | 0x02 => if d = 0#7 ∧ b = 0#7 then .ok (.trig a) else .error .reservedField
  | 0x04 => if b = 0#7 then .ok (.capq d a) else .error .reservedField
  | 0x06 => if b = 0#7 then .ok (.clk d a) else .error .reservedField
  | 0x08 => if d = 0#7 then .ok (.elog a b) else .error .reservedField
  | 0x0A => .ok (.ulog d a b)
  | _ => .error .unassigned

/-- The classes with flag selection, 0x7 to 0xD (R24). -/
def decodeFlagged (c m : Nat) (fb : Bool) (d a b : RegNo) (l : BitVec 14) (lit : Option Word) : Except DecodeError Instr :=
  match c with
  | 0x7 => decodeClass7 m fb d a b l lit
  | 0x8 => decodeClass8 m fb d a b l lit
  | 0x9 => decodeClass9 m fb d a b l lit
  | 0xA => decodeClassA m fb d a b l lit
  | 0xB => decodeClassB m fb d a b l lit
  | 0xC => decodeClassC m fb d a b l lit
  | 0xD => decodeClassD m fb d a b l lit
  | _ => .error .unassigned

/-- The classes without flag selection, and class 0xF, which holds no instruction (Table 2.5). -/
def decodePlain (c m : Nat) (d a b : RegNo) (l : BitVec 14) (lit : Option Word) : Except DecodeError Instr :=
  match c with
  | 0x0 => decodeClass0 m d a b l lit
  | 0x1 => decodeClass1 m d a b l lit
  | 0x2 => decodeClass2 m d a b l lit
  | 0x3 => decodeClass3 m d a b l lit
  | 0x4 => decodeClass4 m d a b l lit
  | 0x5 => decodeClass5 m d a b l lit
  | 0x6 => decodeClass6 m d a b l lit
  | 0xE => decodeClassE m d a b l lit
  | _ => .error .unassigned

/-- Long-latency classes (R24). -/
def isFlaggedClass (c : BitVec 4) : Bool := 7 ≤ c.toNat && c.toNat ≤ 13

/-- Decoding a body word (Table 2.2): class [31:28], minor [27:21], d [20:14], a [13:7], b [6:0], imm14 [13:0]. `lit` is the
following word of the clause where the body holds one. -/
def decode (w : Word) (lit : Option Word) : Except DecodeError Instr :=
  let c := w.extractLsb' 28 4
  let d : RegNo := w.extractLsb' 14 7
  let a : RegNo := w.extractLsb' 7 7
  let b : RegNo := w.extractLsb' 0 7
  let l := w.extractLsb' 0 14
  if isFlaggedClass c then
    decodeFlagged c.toNat (w.extractLsb' 22 6).toNat (w.extractLsb' 21 1 == 1#1) d a b l lit
  else
    decodePlain c.toNat (w.extractLsb' 21 7).toNat d a b l lit

/-- Whether a word's class and minor are those of an X form (Tables 2.6, 2.15 to 2.19): a literal follows it (R20). -/
def isXForm (w : Word) : Bool :=
  match (w.extractLsb' 28 4).toNat, (w.extractLsb' 21 7).toNat with
  | 0x0, m => m == 0x41
  | 0x9, m => m == 0x0C || m == 0x0D || m == 0x0E || m == 0x0F
  | 0xB, m => m == 0x02 || m == 0x03
  | 0xC, m => m ≤ 5
  | 0xD, m => m == 0x14 || m == 0x15
  | _, _ => false

/-- The control transfers of R22, by class and minor (Table 2.10). -/
def isTransfer (w : Word) : Bool :=
  w.extractLsb' 28 4 == 4#4 &&
    match (w.extractLsb' 21 7).toNat with
    | 0x00 | 0x01 | 0x02 | 0x03 | 0x04 | 0x05 | 0x06 | 0x08 | 0x09 | 0x0A | 0x0B => true
    | _ => false

/-- Bytes of a word, least significant first (R2, R14). -/
def wordBytes (w : Word) : List (BitVec 8) :=
  [w.extractLsb' 0 8, w.extractLsb' 8 8, w.extractLsb' 16 8, w.extractLsb' 24 8]

/-- A word from its four bytes, least significant first (R2). -/
def ofBytes4 (b0 b1 b2 b3 : BitVec 8) : Word := b3 ++ b2 ++ b1 ++ b0

/-- Reading one instruction from a list of bytes: the instruction and the bytes left. -/
def decodeBytes : List (BitVec 8) → Except DecodeError (Instr × List (BitVec 8))
  | b0 :: b1 :: b2 :: b3 :: rest =>
    let w := ofBytes4 b0 b1 b2 b3
    match rest with
    | c0 :: c1 :: c2 :: c3 :: rest' =>
      if isXForm w then (decode w (some (ofBytes4 c0 c1 c2 c3))).map fun i => (i, rest')
      else (decode w none).map fun i => (i, rest)
    | _ => (decode w none).map fun i => (i, rest)
  | _ => .error .noLiteral

/-- The instruction the decoder reads from an instruction of the opcode table with bits `w` of its first `nbits`; the bits above
are zero. -/
def decodeTableWord (nbits w : Nat) : Option Instr :=
  let v := w % 2 ^ nbits
  let bytes := wordBytes (BitVec.ofNat 32 v) ++ wordBytes (BitVec.ofNat 32 (v / 2 ^ 32))
  match decodeBytes bytes with
  | .ok (i, _) => some i
  | .error _ => none

/-- An R, I or X word of a class without flag selection (Table 2.2). -/
def packR (c : BitVec 4) (m d a b : BitVec 7) : Word := c ++ m ++ d ++ a ++ b

/-- A word of a class with flag selection: the odd minor selects flag B (R24). -/
def packF (c : BitVec 4) (m : BitVec 6) (fb : Bool) (d a b : BitVec 7) : Word := c ++ m ++ BitVec.ofBool fb ++ d ++ a ++ b

/-- An L word (Table 2.2). -/
def packL (c : BitVec 4) (m d : BitVec 7) (l : BitVec 14) : Word := c ++ m ++ d ++ l

/-- The two low minor bits of a float word with a rounding variant (Table 2.11). -/
def modeBits : RMode → BitVec 2
  | .rn => 0#2
  | .rz => 1#2
  | .rd => 2#2
  | .ru => 3#2

/-- The words of an instruction; an event has none. -/
def encode : Instr → List Word
  | .iadd d a b => [packR 0x0#4 0x00#7 d a b]
  | .iaddi d a im => [packR 0x0#4 0x01#7 d a im]
  | .isub d a b => [packR 0x0#4 0x02#7 d a b]
  | .imul d a b => [packR 0x0#4 0x03#7 d a b]
  | .imulhI d a b => [packR 0x0#4 0x04#7 d a b]
  | .imulhN d a b => [packR 0x0#4 0x05#7 d a b]
  | .imad d a b => [packR 0x0#4 0x06#7 d a b]
  | .imulwI d a b => [packR 0x0#4 0x07#7 d a b]
  | .imulwN d a b => [packR 0x0#4 0x08#7 d a b]
  | .idivI d a b => [packR 0x0#4 0x09#7 d a b]
  | .idivN d a b => [packR 0x0#4 0x0A#7 d a b]
  | .iremI d a b => [packR 0x0#4 0x0B#7 d a b]
  | .iremN d a b => [packR 0x0#4 0x0C#7 d a b]
  | .iminI d a b => [packR 0x0#4 0x0D#7 d a b]
  | .iminN d a b => [packR 0x0#4 0x0E#7 d a b]
  | .imaxI d a b => [packR 0x0#4 0x0F#7 d a b]
  | .imaxN d a b => [packR 0x0#4 0x10#7 d a b]
  | .iabs d a => [packR 0x0#4 0x11#7 d a 0#7]
  | .ineg d a => [packR 0x0#4 0x12#7 d a 0#7]
  | .iaddsI d a b => [packR 0x0#4 0x13#7 d a b]
  | .iaddsN d a b => [packR 0x0#4 0x14#7 d a b]
  | .isubsI d a b => [packR 0x0#4 0x15#7 d a b]
  | .isubsN d a b => [packR 0x0#4 0x16#7 d a b]
  | .iadd64 d a b => [packR 0x0#4 0x17#7 d a b]
  | .isub64 d a b => [packR 0x0#4 0x18#7 d a b]
  | .ixadd2 d a b => [packR 0x0#4 0x19#7 d a b]
  | .ixadd4 d a b => [packR 0x0#4 0x1A#7 d a b]
  | .ixadd8 d a b => [packR 0x0#4 0x1B#7 d a b]
  | .ixadd16 d a b => [packR 0x0#4 0x1C#7 d a b]
  | .ldi d im => [packL 0x0#4 0x40#7 d im]
  | .ldw d lit => [packR 0x0#4 0x41#7 d 0#7 0#7, lit]
  | .and d a b => [packR 0x1#4 0x00#7 d a b]
  | .andi d a im => [packR 0x1#4 0x01#7 d a im]
  | .or d a b => [packR 0x1#4 0x02#7 d a b]
  | .ori d a im => [packR 0x1#4 0x03#7 d a im]
  | .xor d a b => [packR 0x1#4 0x04#7 d a b]
  | .xori d a im => [packR 0x1#4 0x05#7 d a im]
  | .andn d a b => [packR 0x1#4 0x06#7 d a b]
  | .not d a => [packR 0x1#4 0x07#7 d a 0#7]
  | .shl d a b => [packR 0x1#4 0x08#7 d a b]
  | .shli d a n => [packR 0x1#4 0x09#7 d a (0#2 ++ n)]
  | .shr d a b => [packR 0x1#4 0x0A#7 d a b]
  | .shri d a n => [packR 0x1#4 0x0B#7 d a (0#2 ++ n)]
  | .sar d a b => [packR 0x1#4 0x0C#7 d a b]
  | .sari d a n => [packR 0x1#4 0x0D#7 d a (0#2 ++ n)]
  | .rol d a b => [packR 0x1#4 0x0E#7 d a b]
  | .roli d a n => [packR 0x1#4 0x0F#7 d a (0#2 ++ n)]
  | .bfxI d a b => [packR 0x1#4 0x10#7 d a b]
  | .bfxN d a b => [packR 0x1#4 0x11#7 d a b]
  | .bfi d a b => [packR 0x1#4 0x12#7 d a b]
  | .popc d a => [packR 0x1#4 0x13#7 d a 0#7]
  | .clz d a => [packR 0x1#4 0x14#7 d a 0#7]
  | .ctz d a => [packR 0x1#4 0x15#7 d a 0#7]
  | .brev d a => [packR 0x1#4 0x16#7 d a 0#7]
  | .permb d a b => [packR 0x1#4 0x17#7 d a b]
  | .icmpEq d a b => [packR 0x2#4 0x00#7 d a b]
  | .icmpNe d a b => [packR 0x2#4 0x01#7 d a b]
  | .icmpLtI d a b => [packR 0x2#4 0x02#7 d a b]
  | .icmpLeI d a b => [packR 0x2#4 0x03#7 d a b]
  | .icmpGtI d a b => [packR 0x2#4 0x04#7 d a b]
  | .icmpGeI d a b => [packR 0x2#4 0x05#7 d a b]
  | .icmpLtN d a b => [packR 0x2#4 0x06#7 d a b]
  | .icmpLeN d a b => [packR 0x2#4 0x07#7 d a b]
  | .icmpGtN d a b => [packR 0x2#4 0x08#7 d a b]
  | .icmpGeN d a b => [packR 0x2#4 0x09#7 d a b]
  | .fcmpEq d a b => [packR 0x2#4 0x10#7 d a b]
  | .fcmpNe d a b => [packR 0x2#4 0x11#7 d a b]
  | .fcmpLt d a b => [packR 0x2#4 0x12#7 d a b]
  | .fcmpLe d a b => [packR 0x2#4 0x13#7 d a b]
  | .fcmpGt d a b => [packR 0x2#4 0x14#7 d a b]
  | .fcmpGe d a b => [packR 0x2#4 0x15#7 d a b]
  | .fcmpUn d a b => [packR 0x2#4 0x16#7 d a b]
  | .dcmpEq d a b => [packR 0x2#4 0x18#7 d a b]
  | .dcmpLt d a b => [packR 0x2#4 0x19#7 d a b]
  | .dcmpLe d a b => [packR 0x2#4 0x1A#7 d a b]
  | .dcmpUn d a b => [packR 0x2#4 0x1B#7 d a b]
  | .pand d a b => [packR 0x2#4 0x20#7 d a b]
  | .por d a b => [packR 0x2#4 0x21#7 d a b]
  | .pxor d a b => [packR 0x2#4 0x22#7 d a b]
  | .pandn d a b => [packR 0x2#4 0x23#7 d a b]
  | .pnot d a => [packR 0x2#4 0x24#7 d a 0#7]
  | .pmov d a => [packR 0x2#4 0x25#7 d a 0#7]
  | .pset d v => [packR 0x2#4 0x26#7 d 0#7 (0#6 ++ v)]
  | .ptod d a => [packR 0x2#4 0x28#7 d a 0#7]
  | .dtop d a => [packR 0x2#4 0x29#7 d a 0#7]
  | .mov d a => [packR 0x3#4 0x00#7 d a 0#7]
  | .cmov d a b => [packR 0x3#4 0x01#7 d a b]
  | .tag d a t => [packR 0x3#4 0x02#7 d a (0#2 ++ t)]
  | .tagq d a => [packR 0x3#4 0x03#7 d a 0#7]
  | .win im => [packR 0x3#4 0x04#7 0#7 0#7 im]
  | .winq d => [packR 0x3#4 0x05#7 d 0#7 0#7]
  | .movs d sel => [packL 0x3#4 0x06#7 d sel]
  | .sext8 d a => [packR 0x3#4 0x07#7 d a 0#7]
  | .sext16 d a => [packR 0x3#4 0x08#7 d a 0#7]
  | .zext8 d a => [packR 0x3#4 0x09#7 d a 0#7]
  | .zext16 d a => [packR 0x3#4 0x0A#7 d a 0#7]
  | .mov64 d a => [packR 0x3#4 0x0B#7 d a 0#7]
  | .bra im => [packL 0x4#4 0x00#7 0#7 im]
  | .brp d im => [packL 0x4#4 0x01#7 d im]
  | .brn d im => [packL 0x4#4 0x02#7 d im]
  | .jmp a => [packR 0x4#4 0x03#7 0#7 a 0#7]
  | .call d im => [packL 0x4#4 0x04#7 d im]
  | .callr d a => [packR 0x4#4 0x05#7 d a 0#7]
  | .ret a => [packR 0x4#4 0x06#7 0#7 a 0#7]
  | .rgn => [packR 0x4#4 0x07#7 0#7 0#7 0#7]
  | .trap im => [packR 0x4#4 0x08#7 0#7 0#7 im]
  | .tret m => [packR 0x4#4 0x09#7 0#7 0#7 (0#6 ++ m)]
  | .tkill m => [packR 0x4#4 0x0A#7 0#7 0#7 (0#6 ++ m)]
  | .exit => [packR 0x4#4 0x0B#7 0#7 0#7 0#7]
  | .nop => [packR 0x4#4 0x0C#7 0#7 0#7 0#7]
  | .waitf im => [packL 0x4#4 0x0D#7 0#7 (0#2 ++ im)]
  | .yield => [packR 0x4#4 0x0E#7 0#7 0#7 0#7]
  | .fadd rm d a b => [packR 0x5#4 (0x00#5 ++ modeBits rm) d a b]
  | .fsub rm d a b => [packR 0x5#4 (0x01#5 ++ modeBits rm) d a b]
  | .fmul rm d a b => [packR 0x5#4 (0x02#5 ++ modeBits rm) d a b]
  | .ffma rm d a b => [packR 0x5#4 (0x03#5 ++ modeBits rm) d a b]
  | .fmin d a b => [packR 0x5#4 0x10#7 d a b]
  | .fmax d a b => [packR 0x5#4 0x11#7 d a b]
  | .fabs d a => [packR 0x5#4 0x12#7 d a 0#7]
  | .fneg d a => [packR 0x5#4 0x13#7 d a 0#7]
  | .frnd rm d a => [packR 0x5#4 (0x05#5 ++ modeBits rm) d a 0#7]
  | .fcvtI32F32 d a => [packR 0x5#4 0x18#7 d a 0#7]
  | .fcvtN32F32 d a => [packR 0x5#4 0x19#7 d a 0#7]
  | .fcvtF32I32 d a => [packR 0x5#4 0x1A#7 d a 0#7]
  | .fcvtF32N32 d a => [packR 0x5#4 0x1B#7 d a 0#7]
  | .fcvtF16F32 d a => [packR 0x5#4 0x1C#7 d a 0#7]
  | .fcvtF32F16 d a => [packR 0x5#4 0x1D#7 d a 0#7]
  | .fcvtBf16F32 d a => [packR 0x5#4 0x1E#7 d a 0#7]
  | .fcvtF32Bf16 d a => [packR 0x5#4 0x1F#7 d a 0#7]
  | .fcvtF64F32 d a => [packR 0x5#4 0x20#7 d a 0#7]
  | .fcvtF32F64 d a => [packR 0x5#4 0x21#7 d a 0#7]
  | .dadd d a b => [packR 0x5#4 0x28#7 d a b]
  | .dsub d a b => [packR 0x5#4 0x29#7 d a b]
  | .dmul d a b => [packR 0x5#4 0x2A#7 d a b]
  | .dfma d a b => [packR 0x5#4 0x2B#7 d a b]
  | .dmin d a b => [packR 0x5#4 0x2C#7 d a b]
  | .dmax d a b => [packR 0x5#4 0x2D#7 d a b]
  | .hadd2F16 d a b => [packR 0x6#4 0x00#7 d a b]
  | .hadd2Bf16 d a b => [packR 0x6#4 0x01#7 d a b]
  | .hmul2F16 d a b => [packR 0x6#4 0x02#7 d a b]
  | .hmul2Bf16 d a b => [packR 0x6#4 0x03#7 d a b]
  | .hfma2F16 d a b => [packR 0x6#4 0x04#7 d a b]
  | .hfma2Bf16 d a b => [packR 0x6#4 0x05#7 d a b]
  | .pkhF16 d a b => [packR 0x6#4 0x06#7 d a b]
  | .pkhBf16 d a b => [packR 0x6#4 0x07#7 d a b]
  | .unpkhF16Lo d a => [packR 0x6#4 0x08#7 d a 0#7]
  | .unpkhF16Hi d a => [packR 0x6#4 0x09#7 d a 0#7]
  | .unpkhBf16Lo d a => [packR 0x6#4 0x0A#7 d a 0#7]
  | .unpkhBf16Hi d a => [packR 0x6#4 0x0B#7 d a 0#7]
  | .idp4I8 d a b => [packR 0x6#4 0x10#7 d a b]
  | .idp4N8 d a b => [packR 0x6#4 0x11#7 d a b]
  | .idp2I16 d a b => [packR 0x6#4 0x12#7 d a b]
  | .ncvtRn d a k sl => [packR 0x6#4 0x18#7 d a (k ++ sl)]
  | .ncvtRz d a k sl => [packR 0x6#4 0x19#7 d a (k ++ sl)]
  | .nunp d a k sl => [packR 0x6#4 0x1A#7 d a (k ++ sl)]
  | .nscl d a b => [packR 0x6#4 0x1B#7 d a b]
  | .scx d a im => [packR 0x6#4 0x1C#7 d a (0#5 ++ im)]
  | .lncv fb d a => [packF 0x7#4 0x00#6 fb d a 0#7]
  | .lnbk fb d a => [packF 0x7#4 0x01#6 fb d a 0#7]
  | .lexp fb d a => [packF 0x7#4 0x02#6 fb d a 0#7]
  | .llog fb d a => [packF 0x7#4 0x03#6 fb d a 0#7]
  | .lmul fb d a b => [packF 0x7#4 0x04#6 fb d a b]
  | .ldiv fb d a b => [packF 0x7#4 0x05#6 fb d a b]
  | .lsqr fb d a => [packF 0x7#4 0x06#6 fb d a 0#7]
  | .lpow fb d a b => [packF 0x7#4 0x07#6 fb d a b]
  | .ladd fb d a b => [packF 0x7#4 0x08#6 fb d a b]
  | .lsub fb d a b => [packF 0x7#4 0x09#6 fb d a b]
  | .fdiv fb d a b => [packF 0x7#4 0x0A#6 fb d a b]
  | .fsqrt fb d a => [packF 0x7#4 0x0B#6 fb d a 0#7]
  | .ddiv fb d a b => [packF 0x7#4 0x0C#6 fb d a b]
  | .dsqrt fb d a => [packF 0x7#4 0x0D#6 fb d a 0#7]
  | .xshf fb d a b => [packF 0x8#4 0x00#6 fb d a b]
  | .xbfly fb d a im => [packF 0x8#4 0x01#6 fb d a (0#2 ++ im)]
  | .xbcst fb d a im => [packF 0x8#4 0x02#6 fb d a (0#2 ++ im)]
  | .xvoteAny fb d a => [packF 0x8#4 0x03#6 fb d a 0#7]
  | .xvoteAll fb d a => [packF 0x8#4 0x04#6 fb d a 0#7]
  | .xballot fb d a => [packF 0x8#4 0x05#6 fb d a 0#7]
  | .xredAddI32 fb d a => [packF 0x8#4 0x06#6 fb d a 0#7]
  | .xredAddF32 fb d a => [packF 0x8#4 0x07#6 fb d a 0#7]
  | .xredMinI fb d a => [packF 0x8#4 0x08#6 fb d a 0#7]
  | .xredMaxI fb d a => [packF 0x8#4 0x09#6 fb d a 0#7]
  | .xscanAddI32 fb d a => [packF 0x8#4 0x0A#6 fb d a 0#7]
  | .xscanAddF32 fb d a => [packF 0x8#4 0x0B#6 fb d a 0#7]
  | .xmatch fb d a => [packF 0x8#4 0x0C#6 fb d a 0#7]
  | .bwait fb a im => [packF 0x8#4 0x18#6 fb 0#7 a im]
  | .barv a im => [packF 0x8#4 0x19#6 false 0#7 a im]
  | .bqryBarrier d im => [packF 0x8#4 0x1A#6 false d 0#7 im]
  | .gbar fb a im => [packF 0x8#4 0x1B#6 fb 0#7 a im]
  | .gbarv a im => [packF 0x8#4 0x1C#6 false 0#7 a im]
  | .ld fb d sl b => [packF 0x9#4 0x00#6 fb d (0#2 ++ sl) b]
  | .ld2 fb d sl b => [packF 0x9#4 0x01#6 fb d (0#2 ++ sl) b]
  | .ld4 fb d sl b => [packF 0x9#4 0x02#6 fb d (0#2 ++ sl) b]
  | .st fb d sl b => [packF 0x9#4 0x03#6 fb d (0#2 ++ sl) b]
  | .st2 fb d sl b => [packF 0x9#4 0x04#6 fb d (0#2 ++ sl) b]
  | .st4 fb d sl b => [packF 0x9#4 0x05#6 fb d (0#2 ++ sl) b]
  | .lda fb d sl b lit => [packF 0x9#4 0x06#6 fb d (0#2 ++ sl) b, lit]
  | .stl fb d sl b lit => [packF 0x9#4 0x07#6 fb d (0#2 ++ sl) b, lit]
  | .bload fb sl a => [packF 0x9#4 0x08#6 fb (0#2 ++ sl) a 0#7]
  | .bqrySlot d sl im => [packF 0x9#4 0x09#6 false d (0#2 ++ sl) im]
  | .lload fb sl a => [packF 0x9#4 0x0A#6 fb (0#4 ++ sl) a 0#7]
  | .aaddI32 fb d sl b => [packF 0xA#4 0x00#6 fb d (0#2 ++ sl) b]
  | .aaddF32 fb d sl b => [packF 0xA#4 0x01#6 fb d (0#2 ++ sl) b]
  | .aminI fb d sl b => [packF 0xA#4 0x02#6 fb d (0#2 ++ sl) b]
  | .aminN fb d sl b => [packF 0xA#4 0x03#6 fb d (0#2 ++ sl) b]
  | .amaxI fb d sl b => [packF 0xA#4 0x04#6 fb d (0#2 ++ sl) b]
  | .amaxN fb d sl b => [packF 0xA#4 0x05#6 fb d (0#2 ++ sl) b]
  | .aand fb d sl b => [packF 0xA#4 0x06#6 fb d (0#2 ++ sl) b]
  | .aor fb d sl b => [packF 0xA#4 0x07#6 fb d (0#2 ++ sl) b]
  | .axor fb d sl b => [packF 0xA#4 0x08#6 fb d (0#2 ++ sl) b]
  | .axchg fb d sl b => [packF 0xA#4 0x09#6 fb d (0#2 ++ sl) b]
  | .acas fb d sl b => [packF 0xA#4 0x0A#6 fb d (0#2 ++ sl) b]
  | .ainc fb d sl b => [packF 0xA#4 0x0B#6 fb d (0#2 ++ sl) b]
  | .aadd64 fb d sl b => [packF 0xA#4 0x0C#6 fb d (0#2 ++ sl) b]
  | .acas64 fb d sl b => [packF 0xA#4 0x0D#6 fb d (0#2 ++ sl) b]
  | .fence k sc => [packF 0xA#4 0x10#6 false 0#7 0#7 (k ++ 0#2 ++ sc)]
  | .mminit fb t a => [packF 0xB#4 0x00#6 fb (0#3 ++ t) a 0#7]
  | .mmloop fb t a b lit => [packF 0xB#4 0x01#6 fb (0#3 ++ t) a b, lit]
  | .mmnorm fb t a => [packF 0xB#4 0x02#6 fb (0#3 ++ t) a 0#7]
  | .mmdrain fb t m => [packF 0xB#4 0x03#6 fb (0#3 ++ t) (0#6 ++ m) 0#7]
  | .mmq d t im => [packF 0xB#4 0x04#6 false d (0#3 ++ t) im]
  | .cpt fb l a b lit => [packF 0xC#4 0x00#6 fb (0#4 ++ l) a b, lit]
  | .cps fb sl a b lit => [packF 0xC#4 0x01#6 fb (0#2 ++ sl) a b, lit]
  | .tmov fb d a b lit => [packF 0xC#4 0x02#6 fb d a b, lit]
  | .hset h a b => [packF 0xC#4 0x03#6 false h a b]
  | .hwait fb d h m => [packF 0xC#4 0x04#6 fb d h (0#6 ++ m)]
  | .hrel h b => [packF 0xC#4 0x05#6 false 0#7 h b]
  | .hq d h im => [packF 0xC#4 0x06#6 false d h im]
  | .jobs fb => [packF 0xC#4 0x07#6 fb 0#7 0#7 0#7]
  | .sst fb d sl b => [packF 0xD#4 0x00#6 fb d (0#2 ++ sl) b]
  | .satmAdd fb d sl b => [packF 0xD#4 0x01#6 fb d (0#2 ++ sl) b]
  | .satmXchg fb d sl b => [packF 0xD#4 0x02#6 fb d (0#2 ++ sl) b]
  | .satmCas fb d sl b => [packF 0xD#4 0x03#6 fb d (0#2 ++ sl) b]
  | .rsync fb d => [packF 0xD#4 0x04#6 fb d 0#7 0#7]
  | .rstamp fb d sl b => [packF 0xD#4 0x05#6 fb d (0#2 ++ sl) b]
  | .gsig fb a b => [packF 0xD#4 0x06#6 fb 0#7 a b]
  | .gwait fb d a b => [packF 0xD#4 0x07#6 fb d a b]
  | .grd fb d a => [packF 0xD#4 0x08#6 fb d a 0#7]
  | .coll fb => [packF 0xD#4 0x09#6 fb 0#7 0#7 0#7]
  | .a2at fb d a b lit => [packF 0xD#4 0x0A#6 fb d a b, lit]
  | .mcst fb d sl o => [packF 0xD#4 0x0B#6 fb d (0#2 ++ sl) (0#5 ++ o)]
  | .launch d a b => [packR 0xE#4 0x00#7 d a b]
  | .trig a => [packR 0xE#4 0x02#7 0#7 a 0#7]
  | .capq d a => [packR 0xE#4 0x04#7 d a 0#7]
  | .clk d a => [packR 0xE#4 0x06#7 d a 0#7]
  | .elog a b => [packR 0xE#4 0x08#7 0#7 a b]
  | .ulog d a b => [packR 0xE#4 0x0A#7 d a b]
  | .clauseEntry => []
  | .clauseWaitEnd => []
  | .longLatencyComplete => []
  | .queueUnblock => []
  | .rvtoTimeout => []
  | .qdlkTimeout => []
  | .submissionAccept => []
  | .engineItemAccess => []
  | .handleArrival => []
  | .itemComplete => []
  | .itemFail => []
  | .dispatcherPlace => []
  | .gangReservationPass => []
  | .sliceEnd => []
  | .drainLimitExpiry => []
  | .groupSave => []
  | .watchdogExpiry => []
  | .periodBoundary => []
  | .doorbellWrite => []
  | .commandRead => []
  | .cmdNop => []
  | .cmdLaunch => []
  | .cmdGraphld => []
  | .cmdWait => []
  | .cmdWaitSatisfied => []
  | .cmdSignal => []
  | .launchEnd => []
  | .shedEventDoorbell => []
  | .shedEventCmdread => []
  | .shedEventBinddone => []
  | .shedEventCopyflt => []
  | .shedEventError => []
  | .shedEventTrigger => []
  | .pageRequestAnswer => []
  | .pageRequestTimeout => []
  | .graphNodeComplete => []
  | .coaltTimerExpiry => []
  | .invalStage1Va => []
  | .invalStage1Asid => []
  | .invalStage2Gpa => []
  | .invalStage2Vmid => []
  | .invalAll => []
  | .invalComplete => []
  | .adminContextWrite => []
  | .contextTeardown => []
  | .contextTeardownFinish => []
  | .loftTeardownFinish => []
  | .replyReservationRelease => []
  | .keyidQuarantineEnd => []
  | .adminYardWrite => []
  | .adminKeyInstall => []
  | .adminReachList => []
  | .adminQueueReenable => []
  | .adminFenceRelease => []
  | .adminGateWrite => []
  | .adminCommunicatorWrite => []
  | .adminEnrol => []
  | .attestationRequest => []
  | .packetSend => []
  | .packetReceive => []
  | .capoGrant => []
  | .strongGrantReceive => []
  | .capoHandoff => []
  | .lagDetect => []
  | .lagEvictTimeout => []
  | .linksLost => []
  | .eviction => []
  | .counterWrap => []
  | .wrapRebase => []
  | .stampRewrite => []
  | .rejoinRequest => []
  | .rejoinCopyComplete => []
  | .replfix => []
  | .uncorrectableError => []
  | .gateRequest => []
  | .gateAnswer => []
  | .gateTokenAccrue => []
  | .gateMigrate => []
  | .gateMigrateCopy => []
  | .gateMigrateAck => []
  | .gateRetire => []
  | .pagePullComplete => []
  | .fabricPacketReceive => []
  | .globResponse => []
  | .pathFailure => []
  | .responseTimeout => []
  | .linkFlitReceive => []
  | .flitAck => []
  | .allowanceReturn => []
  | .collChunkStep => []
  | .collComplete => []
  | .collTimeout => []
  | .moduleReset => []
  | .bootAllDiesReady => []
  | .configRequest => []
  | .functionLevelReset => []
  | .thermalThrottle => []
  | .thermalFence => []
  | .registerWrite => []
  | .encodingFault => []
  | .updateAcknowledgement => []
  | .frameOwnershipWrite => []
  | .inPackageLinkFailure => []

/-! ## Limits of fields and literals (R21) -/

/-- The selectors of Table 3.3 (R46). -/
def selectorOk (sel : BitVec 14) : Bool :=
  let n := sel.toNat
  decide (n ≤ 0x005) || n == 0x008 || n == 0x009 || (decide (0x010 ≤ n) && decide (n ≤ 0x015)) ||
    (decide (0x018 ≤ n) && decide (n ≤ 0x01C)) || (decide (0x020 ≤ n) && decide (n ≤ 0x022)) || n == 0x024 || n == 0x025 ||
    n == 0x028 || n == 0x029 || (decide (0x040 ≤ n) && decide (n ≤ 0x047)) || (decide (0x080 ≤ n) && decide (n ≤ 0x08F)) ||
    (decide (0x100 ≤ n) && decide (n < 0x130) && n % 4 != 3) || n == 0x200 || n == 0x201

/-- The literal of LDA and STL: scope, ordering stream, the rest reserved (R163). -/
def memLitOk (lit : Word) : Bool := decide (lit.toNat < 2 ^ 7)

/-- A literal with QL set holds nothing else (R187, R212, R377). -/
def litQl (lit : Word) : Bool := lit.getLsbD 31

/-- The fields of an MMLOOP literal that no format register decides (Table 8.5, R186). -/
def mmLitOk (lit : Word) : Bool :=
  let n := (lit.extractLsb' 0 4).toNat + 1
  let sreg := (lit.extractLsb' 14 7).toNat
  if litQl lit then lit == 0x80000000#32
  else
    lit.extractLsb' 21 10 == 0#10 && decide ((lit.extractLsb' 4 4).toNat < 10) && decide ((lit.extractLsb' 8 4).toNat < 10) &&
      (lit.extractLsb' 12 2 != 0#2 || sreg == 0) && decide (sreg < 120) && decide (sreg + (n + 3) / 4 ≤ 120)

/-- The copy literal of CPT and CPS, and of TMOV (Table 10.6, R212). -/
def copyLitOk (tmov : Bool) (lit : Word) : Bool :=
  if litQl lit then lit == 0x80000000#32
  else
    lit.extractLsb' 19 12 == 0#12 && lit.extractLsb' 14 2 == 0#2 && !lit.getLsbD 7 &&
      (if tmov then
        !lit.getLsbD 8 && !lit.getLsbD 11 && lit.extractLsb' 12 2 != 3#2 && (lit.getLsbD 10 || lit.extractLsb' 12 2 == 0#2)
      else lit.extractLsb' 10 4 == 0#4)

/-- The literal of A2AT (R377). -/
def a2atLitOk (lit : Word) : Bool :=
  if litQl lit then lit == 0x80000000#32
  else lit.extractLsb' 28 3 == 0#3 && !lit.getLsbD 19 && lit.extractLsb' 10 6 == 0#6 && !lit.getLsbD 8

end Sys2Proof
end

