-- ==== Sys2Proof/Config.lean ====
section
/-! DEFINITION. What an implementation fixes and the values the spec leaves open: constants without a body, so that no proof sees
one (log 2). -/

namespace Sys2Proof.Config

/-- A value the spec leaves open, fresh for each use: the argument is the counter `free` of the state (log 2). -/
opaque freeNat : Nat → Nat

/-- A choice the spec leaves open, fresh for each use (log 2). -/
opaque freeBool : Nat → Bool

/-- The HBM channel of a 256-byte block of an HBM, before it is taken below 192: a fixed hash of OFFSET bits [45:8] (R229, log 10). -/
opaque hbmChannel : Nat → Nat

/-- The plane index of a pinned stream, a fixed hash of source die, target endpoint, stream and the number of re-pins (R347, R348,
log 10). -/
opaque pinnedPlane : (srcDie tmod tdie strm repins : Nat) → Nat

/-- The owner plane of a line, a fixed hash of its SPA (R349, log 10). -/
opaque ownerPlane : Nat → Nat

/-- REFILL of a die's account at one period boundary, for CORE, HBM or FAB (0, 1, 2): firmware's setting (R285, log 14). -/
opaque refill : (die period acct kind : Nat) → Nat

/-- The authentication tag of a packet under a key that stays in its engine (R352, R353, log 30). -/
opaque gcmTag : (keyid nonce : Nat) → Nat

/-- The XMSS public key in the dies' ROM: its root and its seed, 32 bytes each (R382, R383, log 19). -/
opaque romRoot : List (BitVec 8)
opaque romSeed : List (BitVec 8)

/-- The bytes of an image header with its version field's series, module serial, die stepping and section digests: the spec gives no layout
(R382, log 19). -/
opaque headerBytes : (series serial stepping : Nat) → (digests : List (List (BitVec 8))) → List (BitVec 8)

/-- What a die reads from its uninitialised SRAM at a reset, which differs a little each time (R385, log 19). -/
opaque sram : (die use : Nat) → List (BitVec 8)

/-- The seed that the fuzzy extractor makes of it with helper data, where its check value matches (R385, log 19). -/
opaque fuzzy : (sram helper : List (BitVec 8)) → Option (List (BitVec 8))

/-- The labels under which the module serial, the identity key and the attestation key are derived from a seed (R385, log 19). -/
opaque kdfLabel : Nat → List (BitVec 8)

/-- An ML-DSA-65 signature of FIPS 204, pure and with an empty context, under the key pair of a key seed, with what is drawn for it, as a
number of 3,309 bytes (R385, R386, log 19). -/
opaque mldsaSign : (keySeed : List (BitVec 8)) → (rnd : Nat) → (m : List (BitVec 8)) → Nat

end Sys2Proof.Config
end

