-- ==== Sys2Proof/Machine/State.lean ====
section
/-! DEFINITION. The state of the machine: everything the spec gives one module (R6), as plain data; faults, refusals and reset. -/

namespace Sys2Proof.Machine

/-! ## Keyed lists -/

/-- A table: keys and values, each key at most once. -/
abbrev Table (α β : Type) := List (α × β)

/-! ## Threads and strands (file 03) -/

/-- The eight queues of a thread; `mq` and `cq` are two queues each (R121). -/
inductive QName where
  | lq | sq | xq | aq | mqOut | mqIn | cqOut | cqIn
deriving DecidableEq, Repr

/-- A queue (R122): the entries numbered C to P − 1, an entry that is reserved but not delivered being none, with the counts P, Q,
C and the replay count S (R138). -/
structure Queue where
  depth : Nat
  ents : List (Option TVal)
  p : Nat
  q : Nat
  c : Nat
  s : Nat
deriving DecidableEq, Repr

/-- The eight queues of one thread, its physical slot in the remapping table (Table 3.2, R117), and the cycle of the last push,
delivery or pop of any of its queues (R124). -/
structure Thread where
  slot : Nat
  act : Nat
  lq : Queue
  sq : Queue
  xq : Queue
  aq : Queue
  mqOut : Queue
  mqIn : Queue
  cqOut : Queue
  cqIn : Queue
deriving DecidableEq, Repr

/-- An arrival token: barrier kind, number and the generation joined (R135). -/
structure Token where
  gang : Bool
  num : Nat
  gen : Nat
deriving DecidableEq, Repr

/-- A region-start point (R134, R135): clause PC and word address (R19), window base, token, and the count P0 of each queue the
strand pushes: `lq` or `sq`, `xq` or `aq`, and the outbound engine queue. -/
structure RgnPoint where
  cpc : BitVec 57
  w : BitVec 57
  wb : Nat
  tok : Option Token
  p0m : Nat
  p0v : Nat
  p0e : Nat
deriving DecidableEq, Repr

/-- Where a strand stands in R18: at a header still to be fetched, waiting for the WAIT flags of a fetched clause, issuing body
words, inside a synchronous long-latency instruction, arrived at a circle instance, or ended. -/
inductive Phase where
  | header
  | flags
  | body
  | sync (op : Nat)
  | arrived (sq : RvSeq)
  | ended
deriving DecidableEq, Repr

/-- Why the strand's word did not issue when last tried (R119); `yield` after YIELD; `again` where a word blocked on a queue is to be tried
again (R124). -/
inductive Block where
  | none
  | queue
  | flag
  | room
  | handle
  | barrier
  | slot
  | gate
  | yield
  | again
deriving DecidableEq, Repr

/-- The kind of fault a handler return goes back to (R108). -/
inductive FaultAt where
  | fetch
  | header
  | word
deriving DecidableEq, Repr

/-- What a register held before a part of an operation that has not committed wrote it: a discard puts it back (R44). -/
structure Prov where
  reg : Nat
  op : Nat
  old : TVal
deriving DecidableEq, Repr

/-- One strand (Table 3.1, R43), with the clause it has fetched (R14, R18). `redo` says that the strand goes on from its region-start point
after a discard or a restore and has not issued a word since (R135); `replOut` is the die and SEQ of its latest repl store (R310). `prov`
holds what the parts of uncommitted operations have overwritten, the latest first (R44). -/
structure Strand where
  cpc : BitVec 57
  pc : BitVec 57
  hdr : Word
  body : List Word
  phase : Phase
  inside : Bool
  regs : List TVal
  prov : List Prov
  wb : Nat
  preds : BitVec 128
  flags : List Nat
  fault : List Word
  inHandler : Bool
  hWb : Nat
  hCpc : BitVec 57
  hFpc : BitVec 57
  hAt : FaultAt
  hSkip : BitVec 57
  hSkipIn : Bool
  rgn : RgnPoint
  redo : Bool
  replOut : Option (Nat × Nat)
  seqCopy : Nat
  seqFab : Nat
  blk : Block
  blkAt : Nat
deriving DecidableEq, Repr

/-- A thread: its group and thread index. -/
structure ThreadKey where
  grp : GroupKey
  tid : Nat
deriving DecidableEq, Repr

/-! ## Groups (files 06 to 10) -/

/-- A named barrier (Table 6.2, R131). -/
structure Bar where
  gen : Nat
  collecting : Bool
  exp : Nat
  arr : Nat
deriving DecidableEq, Repr

/-- One gang barrier (R224): arrivals are recorded for each group, and `live` marks a generation opened with `zr`. -/
structure GangBar where
  gen : Nat
  collecting : Bool
  exp : Nat
  live : Bool
  arr : Table Nat Nat
deriving DecidableEq, Repr

/-- A gang: its first group linear index, how many groups it has, its cluster window and its eight barriers (R195, R196, R224). -/
structure Gang where
  size : Nat
  bars : List GangBar
deriving DecidableEq, Repr

/-- One element of an accumulator tile: finite, +∞, −∞ or NaN (SP of Table 8.2). -/
inductive Spec where
  | fin
  | pinf
  | ninf
  | nan
deriving DecidableEq, Repr

/-- An accumulator tile (Table 8.2, R173); element (i, j) stands at place 16 i + j. -/
structure Tile where
  m : List Int
  sp : List Spec
  e : Int
  rcnt : Nat
  esat : Bool
deriving DecidableEq, Repr

/-- STATE of a handle (Table 10.1). -/
inductive HState where
  | free
  | filling
  | full
  | draining
deriving DecidableEq, Repr

/-- A handle entry with what the unit holds of its sync word (Tables 10.1 and 10.2, R203, R204). PSN stands in both; OUTP says that
NOUT is not 0. -/
structure Handle where
  state : HState
  psn : Bool
  bound : Bool
  heldIn : Bool
  buf : Word
  sync : Word
  nin : Nat
  nout : Nat
  target : Nat
  count : Nat
  gen : Nat
  ovr : Bool
  fcause : Nat
deriving DecidableEq, Repr

/-- A value to deliver when a long-latency operation completes (R25). Registers are physical (R82); `port` names an entry by its
number in the queue. -/
inductive Dest where
  | reg (n : Nat) (v : TVal)
  | port (q : QName) (n : Nat) (v : TVal)
  | pred (n : Nat) (v : Bool)
  | slot (n : Nat) (v : BitVec 256)
  | lslot (n : Nat) (v : BitVec 512)
deriving DecidableEq, Repr

/-- Where the value of an operation goes once it is known: a physical register, a queue entry by number, or nowhere (`zr`, or a
replayed push, R138). -/
inductive Place where
  | reg (n : Nat)
  | port (q : QName) (n : Nat)
  | drop
deriving DecidableEq, Repr

/-- A thread that has arrived at a circle instance (R126, R178): the word, its literal, operands a and b, the predicate operand,
and the queue entries its word pops. -/
structure Arrival where
  tid : Nat
  word : Word
  lit : Word
  a : TVal
  b : TVal
  pa : Bool
  pops : List (QName × Nat)
deriving DecidableEq, Repr

/-- The instance in progress of one circle sequence (R126, R178): the threads arrived, and the cycle of the first arrival. -/
structure Circle where
  first : Nat
  arr : List Arrival
deriving DecidableEq, Repr

/-- Lifecycle of a group (Table 13.10, R277). -/
inductive Life where
  | running
  | draining
  | discarding
  | overrunning
  | saved
  | ended
deriving DecidableEq, Repr

/-- A group (files 06, 07, 08, 10, 13). `owner` is the group linear index under which its cluster window stands (its gang's first
group, or its own); `gang` says whether it belongs to a gang. -/
structure Group where
  size : Nat
  die : Nat
  core : Nat
  life : Life
  since : Nat
  owner : Nat
  gang : Bool
  slots : List (BitVec 256)
  lslots : List (BitVec 512)
  bars : List Bar
  circ : Table (Nat × RvSeq) Circle
  win : List Host.Cell
  handles : List Handle
  tiles : List Tile
deriving DecidableEq, Repr

/-! ## Pending work -/

/-- Segments (Table 1.4, R10). -/
inductive Seg where
  | priv
  | core
  | clus
  | loft
  | chip
  | repl
  | glob
  | host
deriving DecidableEq, Repr

/-- Where an access that has passed its checks falls: a window offset of a group or of a cluster-window owner, a byte of this
module's memory by SPA (R228), an offset of the repl region as the die's replica serves it, or a line of another module. -/
inductive Loc where
  | core (g : GroupKey) (off : Nat)
  | clus (g : GroupKey) (off : Nat)
  | spa (a : Nat)
  | repl (die off : Nat)
  | glob (m d spa : Nat)
deriving DecidableEq, Repr

/-- What an operation still waits for (R25): nothing but its deliveries, a barrier generation (R132), an array command, the answer to
a request to another module, a strong operation or an RSYNC of a die (R315, R316), a gate's answer (R333).
`strongDone` waits for nothing: its strong operation has been applied and its old value not yet delivered (R323). `replStore` is a
store of a die to an SC page, until every member has applied it (R165). `held` waits for an access that is not yet performed, and `data`
for the reading of the source registers of such a store (R26, R161). -/
inductive PendKind where
  | ready
  | bar (gang : Bool) (num gen : Nat)
  | item (id : Nat)
  | glob (req : Nat)
  | strong (die sq : Nat)
  | strongDone (die sq : Nat)
  | rsync (die sq : Nat)
  | replStore (die sq : Nat)
  | gate (op : Nat)
  | held
  | data (h : Nat)
deriving DecidableEq, Repr

/-- A pending long-latency operation (R25, R26): its strand, the flag it holds (none when synchronous), whether it has committed (R134),
its clause PC, its own PC, its length in words, what it waits for, where its results go, the deliveries ready to be made, and what it logs
at completion. `sc` marks a strong operation of an SC page (R165). -/
structure Pend where
  id : Nat
  owner : StrandKey
  flag : Option Nat
  committed : Bool
  cpc : BitVec 57
  fpc : BitVec 57
  len : Nat
  kind : PendKind
  places : List Place
  tags : List Tag
  dests : List Dest
  invl : Bool
  divz : Bool
  ovfl : Bool
  unfl : Bool
  sc : Bool := false
deriving DecidableEq, Repr

/-- What an access or a request to another module asks (R157, R346, R358, R376). -/
inductive GlobAsk where
  | read (n : Nat)
  | write (bytes : List (BitVec 8))
  | atomic (op : AOp) (val val2 : Nat)
deriving DecidableEq, Repr

/-- An access of a strand that has issued and is not yet performed (R161 to R163, R253): what it asks, where it falls, and the operation
that waits for it. `regs` are the source registers that a store or an atomic has still to read, each with what it held at issue (R26).
`rel` is the scope of a releasing store, `done` holds the bytes of its first atoms, read or written (R157), and `sc` marks a page marked
SC (R165). -/
structure Held where
  id : Nat
  owner : StrandKey
  pend : Option Nat
  committed : Bool
  ask : GlobAsk
  regs : List (Nat × TVal)
  loc : Loc
  va : Nat
  strm : Nat
  acq : Bool
  rel : Option Nat
  die : Nat
  ctx : Nat
  keyid : Nat
  acct : Nat
  etag : Tag
  esz : Nat
  sc : Bool
  done : List (BitVec 8)
deriving DecidableEq, Repr

/-- The space two footprint regions are compared in (R198); `va` holds virtual addresses that are compared after translation. -/
inductive Space where
  | va
  | core (g : GroupKey)
  | clus (g : GroupKey)
  | loft (die core : Nat)
  | mem (seg : Seg)
  | glob (m d : Nat)
deriving DecidableEq, Repr

/-- A footprint region: bytes `lo` to `hi` − 1 of a space (R198). -/
structure Region where
  space : Space
  lo : Nat
  hi : Nat
  write : Bool
deriving DecidableEq, Repr

/-- One end of a transfer: a scratchpad window, a loft slice by slice-linear offset, memory by virtual address, or a pattern. -/
inductive End where
  | core (g : GroupKey) (off : Nat)
  | clus (g : GroupKey) (off : Nat)
  | loft (core off : Nat)
  | mem (seg : Seg) (va : Nat) (m d strm : Nat)
  | pat (bytes : List (BitVec 8))
deriving DecidableEq, Repr

/-- One run of bytes of a transfer: the data once read, and whether written. `dest` is the entry of a multicast list. -/
structure Move where
  dest : Nat
  src : End
  dst : End
  n : Nat
  data : Option (List (BitVec 8))
  done : Bool
deriving DecidableEq, Repr

/-- What an array command does (R185 to R190): the anchor; the A and B offsets, the literal, the scale bytes of the 8 rows and of the
16 columns; the headroom; whether the drain is in bf16 mode; the selector of a query. -/
inductive ArrOp where
  | init (e : Int)
  | loop (ao bo : Nat) (lit : Word) (rows cols : List (List (BitVec 8)))
  | norm (h : Nat)
  | drain (bf : Bool)
  | query (sel : Nat)
deriving DecidableEq, Repr

/-- The command of a class 0xB instance that has issued (R180, R181): its circle, tile, operation, participants and the clause PC
that its log entries name (R182). -/
structure ArrayCmd where
  circle : Nat
  tile : Nat
  op : ArrOp
  tids : List Nat
  cpc : BitVec 57
deriving DecidableEq, Repr

/-- The kinds of engine work (R197), the copies of graph nodes (R281), multicasts (R358), and collectives and exchanges (R364, R378),
whose progress stands in `Coll`. -/
inductive ItemKind where
  | cpt
  | cps
  | tmov
  | job (kind : Nat)
  | array
  | node (graph node : Nat)
  | mcst (op : Nat)
  | coll
deriving DecidableEq, Repr

/-- An engine work item (R197 to R206): submitter, footprint in acceptance order, transfers, handle, token entry and SEQ. `split` is the
container code of a column-split TMOV (R216), `box` the copy a CPT expands when it starts (R210), `denied` the denied destinations of a
multicast (R360), `cpc` and the causes its log entries. -/
structure Item where
  id : Nat
  die : Nat
  ctx : Nat
  owner : StrandKey
  kind : ItemKind
  regions : List Region
  held : Bool
  moves : List Move
  whole : Bool
  split : Option Nat
  colsLeft : List Nat
  box : Option (BitVec 512 × List Int × Nat)
  handle : Option Nat
  inbound : Bool
  counts : Bool
  total : Nat
  landed : Nat
  arrived : Nat
  tok : Option Nat
  sq : Nat
  paused : Option Nat
  fail : Option Cause
  arr : Option ArrayCmd
  denied : Nat
  cpc : BitVec 57
  invl : Bool
  ovfl : Bool
  unfl : Bool
deriving DecidableEq, Repr

/-! ## Launches, contexts and queues (file 13) -/

/-- A tier entry (Table 13.7, R268). -/
structure Tier where
  x : Nat
  y : Nat
  z : Nat
  domain : Nat
  scope : Nat
deriving DecidableEq, Repr

/-- The fields of a checked launch record (Table 13.6, R267); `tileSrc` and `tileB` hold its tile map (R371). -/
structure LaunchRec where
  overlap : Bool
  discardOk : Bool
  replUse : Bool
  prio : Nat
  tierCount : Nat
  barriers : Nat
  accs : Nat
  aAlloc : Nat
  xAlloc : Nat
  qdepth : List Nat
  aEntry : Nat
  xEntry : Nat
  scratch : Nat
  cluster : Nat
  handles : Nat
  handlerWb : Nat
  drainLimit : Nat
  params : Nat
  aHandler : Nat
  xHandler : Nat
  faultArea : Nat
  alogBase : Nat
  alogSize : Nat
  alogMask : Nat
  collComm : Nat
  collOp : Nat
  collMap : Nat
  collDst : Nat
  tileSrc : Nat
  tileB : Nat
  tiers : List Tier
  fmt : List Word
  brec : List (BitVec 256)
deriving DecidableEq, Repr

/-- Where a launch came from: command n of a queue with its CADDR, or a kernel node of a graph (R264, R282). -/
inductive Origin where
  | queue (q : Nat) (caddr : Nat)
  | node (die graph node : Nat)
deriving DecidableEq, Repr

/-- A launch (R270): identifier, context, record, whether killed, dropped-fault count (R105), origin, its first group on this module, how
many of its groups have been placed and have ended on this module, of how many; how many have been given to bind records (R271); the
groups that have fired their tiles (R372); the latest repl store of its ended strands on each die (R276); whether its end is silent
(R260); and system memory with the keys of its loft units as it was when the launch was bound (R16). `lslot` is firmware's launch-state
entry for it, once it is bound (Table 13.9). -/
structure Launch where
  id : Nat
  ctx : Nat
  rc : LaunchRec
  recAddr : Nat
  killed : Bool
  dfc : Nat
  origin : Origin
  first : Nat
  total : Nat
  placed : Nat
  ended : Nat
  bound : Nat
  fired : List Nat
  outs : Table Nat Nat
  silent : Bool
  code : List Host.Cell
  codeKey : Table Nat Nat
  lslot : Option Nat
deriving DecidableEq, Repr

/-- A command of a queue being carried out (R262, R263). -/
structure Cmd where
  words : BitVec 256
  addr : Nat
  started : Bool
deriving DecidableEq, Repr

/-- The runtime state of a command queue (R262): counts, whether stopped, the command read and not complete, and the launches of
the queue that have not ended (R278). -/
structure QueueRt where
  head : Nat
  tail : Nat
  stopped : Bool
  cmd : Option Cmd
  open_ : List Nat
deriving DecidableEq, Repr

/-- The state of a user ring's interrupt coalescing (R298). -/
structure URingRt where
  unsent : Nat
  since : Nat
deriving DecidableEq, Repr

/-- A page request (R266): number, page, access needed, and when it was sent. -/
structure PageReq where
  num : Nat
  va : Nat
  write : Bool
  since : Nat
deriving DecidableEq, Repr

/-- A context: descriptor, VALID, launch count, queues, rings, page requests, and a mark of tear-down in progress (R259, R260). -/
structure Ctx where
  d : CtxDesc
  valid : Bool
  dying : Bool
  count : Nat
  queues : Table Nat QueueRt
  rings : Table Nat URingRt
  reqs : List PageReq
  nextReq : Nat
deriving DecidableEq, Repr

/-! ## Dies (files 12 and 13) -/

/-- A frame ownership entry is one word (Table 12.2); a key slot holds its pair of keys, the data key in the low 128 bits, a tenant key
ID and its state (R235). -/
inductive KeyState where
  | free
  | live
  | discarding
deriving DecidableEq, Repr

structure KeySlot where
  keys : Nat
  keyid : Nat
  state : KeyState
deriving DecidableEq, Repr

/-- A bind record (Table 13.9, R271); `launch` is the launch whose checked record the launch-state entry LSLOT holds. -/
structure Bind where
  valid : Bool
  gang : Bool
  prio : Nat
  bclass : Nat
  ctx : Nat
  lslot : Nat
  launch : Nat
  gfirst : Nat
  gcount : Nat
  cmask : Nat
  next : Nat
deriving DecidableEq, Repr

/-- Shed event kinds (Table 13.5). -/
inductive ShedKind where
  | doorbell | cmdread | binddone | copyflt | period | slice | error | gate | migr | trigger | wdog
deriving DecidableEq, Repr

/-- An entry of the shed event queue (R265): kind, context, lock, arguments, and the pending bit of a coalesced source. -/
structure ShedEvent where
  kind : ShedKind
  ctx : Nat
  lock : Nat
  a0 : Nat
  a1 : Nat
  again : Bool
deriving DecidableEq, Repr

/-- A graph node as data (Tables 13.13, 13.14): its 64 bytes, its arrival count, ITER, whether it is executing, and whether what it
executes has ended, well or not. -/
structure GNode where
  img : BitVec 512
  arr : Nat
  iter : Nat
  busy : Bool
  res : Option Bool
deriving DecidableEq, Repr

/-- A loaded graph (R280 to R283): owner, PRIO, entries, RUNS, run state with its pending bit, the failing node of a run that is
ending, and the nodes. -/
structure Graph where
  ctx : Nat
  prio : Nat
  entries : List Nat
  runs : Nat
  running : Bool
  pending : Bool
  failed : Option Nat
  nodes : List GNode
deriving DecidableEq, Repr

/-- A budget account (R285, R286), with what it has borrowed of each balance in this period; `ended` says that its slice has ended and it
has not been refilled since (R287). -/
structure Acct where
  core : Int
  hbm : Int
  fab : Int
  debt : Nat
  lentCore : Nat
  lentHbm : Nat
  lentFab : Nat
  ended : Bool
deriving DecidableEq, Repr

/-- A cached translation entry (R243): stage, VMID, ASID (stage 1), the range of inputs it maps or indexes, its own SPA and, at stage 1, the
GPA at which the walk read it (R246), and its value when cached. -/
structure TlbEnt where
  stage2 : Bool
  vmid : Nat
  asid : Nat
  lo : Nat
  hi : Nat
  spa : Nat
  gpa : Nat
  val : BitVec 64
deriving DecidableEq, Repr

/-! ## Replication (file 15) -/

/-- An update packet (Table 15.3, R309): `lines` are line offsets in the repl region, each with its 32 bytes. `since` is its issue
cycle (R321), `ctx` the context that stored (Table 15.15). -/
structure Packet where
  src : Nat
  strong : Bool
  null : Bool
  sep : Nat
  epoch : Nat
  sq : Nat
  wseq : Nat
  gs : Nat
  dep : List Nat
  lines : List (Nat × List (BitVec 8))
  since : Nat
  ctx : Nat
deriving DecidableEq, Repr

/-- What a strong operation does (R319, R320). -/
inductive StrongKind where
  | sst
  | add
  | xchg
  | cas
  | rsync
deriving DecidableEq, Repr

/-- An update of a die not yet applied to its own replica, in SEQ order (R310, R315): a weak store held behind a strong one, or a
strong operation with its grant once received. `since` is the cycle of its issue (R321). -/
structure Upd where
  sq : Nat
  strong : Option StrongKind
  owner : StrandKey
  ctx : Nat
  off : Nat
  n : Nat
  val : Nat
  val2 : Nat
  grant : Option (Nat × Nat)
  op : Nat
  fpc : BitVec 57
  since : Nat
deriving DecidableEq, Repr

/-- A stamp of a line (R312). -/
structure Stamp where
  wseq : Nat
  rank : Nat
  sep : Nat
deriving DecidableEq, Repr

/-- Member states (Table 15.7, R326). -/
inductive MState where
  | member
  | lagging
  | evicted
  | rejoining
deriving DecidableEq, Repr

/-- Replication state of one die (Table 15.1, R307): the outbound logs by destination with how many of each have been sent, the paddock,
the stamps written, the SEP that every other line's stamp holds, its member state, the cycle its lag began and the backlog of every source
then (R321). -/
structure Repl where
  issued : Nat
  applied : List Nat
  clock : Nat
  gseq : Nat
  sep : Nat
  paddock : List Packet
  outLog : List (List Packet)
  sent : List Nat
  upds : List Upd
  stamps : Table Nat Stamp
  sepRest : Nat
  mstate : MState
  lagSince : Nat
  lagBack : List Nat
deriving DecidableEq, Repr

/-- A request for a strong slot on its way to the capo holder (R314): die, SEQ of the operation, CLOCK at the request. -/
structure SlotReq where
  die : Nat
  sq : Nat
  clock : Nat
deriving DecidableEq, Repr

/-- A granted slot on its way to its die: SEQ of the operation, GS, WSEQ (R314). -/
structure Grant where
  die : Nat
  sq : Nat
  gs : Nat
  wseq : Nat
deriving DecidableEq, Repr

/-- An architected event in progress, with the cycle of its quiesce: a counter wrap or a rejoin (R324, R325). An eviction in progress
is a member whose state is already evicted (R322). -/
inductive Arch where
  | wrap (since : Nat)
  | rejoin (die since : Nat)
deriving DecidableEq, Repr

/-- The capo: holder, next GS, last WSEQ, grants made and the cycle holding began (R314); `handoff` while it travels. -/
structure Capo where
  holder : Nat
  next : Nat
  last : Nat
  grants : Nat
  since : Nat
deriving DecidableEq, Repr

/-! ## Gates (file 15) -/

/-- Gate migration states (Table 15.13); `arriving` is that of a gate that has come from another module whose operations held there have not
drained. -/
inductive GMig where
  | active
  | freezing
  | copying
  | forwarding
  | arriving
deriving DecidableEq, Repr

/-- What a gate operation asks for (Table 15.12). -/
inductive GateAsk where
  | sig (n : Nat)
  | wait (thr : Nat)
  | rd
deriving DecidableEq, Repr

/-- How far a gate operation has come (R333 to R337). -/
inductive GateSt where
  | sent
  | waiting
  | denied
  | answered (v : Nat)
deriving DecidableEq, Repr

/-- A gate operation of a strand held at its word (R333, R337), or of a strand of another module: its module, die and number there, and
whether an old home has forwarded it (R338). -/
structure GateOp where
  id : Nat
  owner : StrandKey
  ctx : Nat
  tenant : Nat
  gid : Nat
  ask : GateAsk
  st : GateSt
  away : Option (Nat × Nat × Nat) := none
  fwd : Bool := false
deriving DecidableEq, Repr

/-- A gate (Table 15.11, R332): `credit` is the exact partial credit of R334 and `at_` the cycle it was brought up to; `delayed` the waiting
signals and their sizes, `logged` the contexts, each with its module, told of a delay in this period; `held` the operations held by a
migration. -/
structure Gate where
  gid : Nat
  home : Nat
  value : Nat
  valid : Bool
  rate : Nat
  burst : Nat
  tokens : Nat
  delayedCount : Nat
  acl : List AclEntry
  wins : List (Nat × Nat)
  credit : Nat
  at_ : Nat
  delayed : List (Nat × Nat)
  logged : List (Nat × Nat)
  mig : GMig
  newHome : Nat
  newMod : Nat
  held : List Nat
deriving DecidableEq, Repr

/-! ## Fabric (files 17 and 18) -/

/-- A fabric key entry of a die (R353): its packet counter. -/
structure FKey where
  live : Bool
  counter : Nat
deriving DecidableEq, Repr

/-- A request to another module that awaits its response (R348), and for whom: a pending operation, a store of a strand that no operation
waits for (R161), or a transfer of an item. `acq` marks an acquire (R163). Identifiers of one strand's accesses rise in program order
(R162). -/
structure GlobReq where
  id : Nat
  die : Nat
  keyid : Nat
  ctx : Nat
  tmod : Nat
  tdie : Nat
  strm : Nat
  spa : Nat
  va : Nat
  ask : GlobAsk
  since : Nat
  owner : Option StrandKey
  op : Option Nat
  item : Option (Nat × Nat)
  etag : Tag
  esz : Nat
  acq : Bool
deriving DecidableEq, Repr

/-- A collective or exchange of one rank on a die (R363 to R380): communicator, place in the order of the communicator, the card, the
engine item that stands for it, how many result bytes have been written (`got` of `need`), and the cycle of its last progress. `tile` is
the tile that a group's end fired (R372), `map` the layout map of an exchange, `dmem` its DMEM. `pos` counts the bytes of a collective
that every rank has passed, `sent` the ranks to which an exchange has sent. `data` is what the rank brings to the present chunk, once it
is read for the fabric, `put` counts the packets of it that have left, and `goal` is the rank to which an exchange is sending. `met` holds
the ranks of other modules whose submission is known here (R366), and of an exchange the ranks that have submitted an equal map (R380). -/
structure Coll where
  id : Nat
  die : Nat
  comm : Nat
  order : Nat
  op : Nat
  dt : Nat
  count : Nat
  root : Nat
  src : Nat
  dst : Nat
  clog : Nat
  prio : Nat
  scope : Nat
  tile : Option Nat
  launch : Nat
  map : Option (BitVec 1024)
  dmem : Bool
  pos : Nat
  sent : List Nat
  got : Nat
  need : Nat
  since : Nat
  item : Nat
  data : Option (List (BitVec 8)) := none
  put : Nat := 0
  goal : Option Nat := none
  met : List Nat := []
deriving DecidableEq, Repr

/-- A collective that has failed before each rank of this module submitted it (R365, R372, R380): context, communicator, its tile or its
place in the order, the cause, and the dies that have still to submit it, where it fails at once. -/
structure Lost where
  ctx : Nat
  comm : Nat
  tile : Option Nat
  order : Nat
  cause : Cause
  left : List Nat
deriving DecidableEq, Repr

/-- One fabric port (R354 to R356): flits sent and not acknowledged, the next sequence number each way, whether it waits for a replay, the
allowances it holds as a sender, the flits in its input buffer, the minimum shares and pools into which firmware divides that, and the
cycles of its discards in the last millisecond. -/
structure Port where
  sent : List Flit
  next : Nat
  expect : Nat
  replay : Bool
  allow : List (Allowance × Nat)
  buf : List Flit
  shares : List (Nat × Nat)
  pools : List (Nat × Nat)
  discards : List Nat
deriving DecidableEq, Repr

/-- The header flit of a packet (Table 17.2). -/
structure FabHeader where
  dmod : Nat
  ddie : Nat
  vc : Nat
  len : Nat
  keyid : Nat
  strm : Nat
  nonce : Nat
  tag : Nat
deriving DecidableEq, Repr

/-- How a packet of a die leaves the module: the context it is for, 0 for none of this module, the key's die, the port by which it goes,
its endpoint, virtual channel and stream (R346, R352). -/
structure Way where
  ctx : Nat
  die : Nat
  keyid : Nat
  via : Nat
  port : Nat
  dmod : Nat
  ddie : Nat
  vc : Nat
  strm : Nat
deriving DecidableEq, Repr

/-- A response that waits for allowances at the port by which its request came (R346, R355). -/
structure Reply where
  way : Way
  tag : Nat
  data : List (BitVec 8)
  err : Bool
deriving DecidableEq, Repr

/-- Telemetry of a die (Table 19.3, R389) with the drops counted by the physical function. -/
structure Telem where
  power : Nat
  tempMax : Nat
  energy : Nat
  throttle : Nat
  cecc : Nat
  uecc : Nat
deriving DecidableEq, Repr

/-! ## Dies and the module -/

/-- One die (files 12, 13, 15, 17). Sparse tables leave out entries at their reset value. `waiting` holds the events whose sources found
the shed's queue full (R265). `turns` holds for each port the communicator whose chunk it took last, and under 16 that of the in-package
links (R373). `periods` counts the budget periods of `period` cycles, the present one having begun at cycle `periodAt`, and `given` holds
what each yard's accounts have received of CORE, HBM and FAB in it (R285, R330). -/
structure Die where
  binds : Table Nat Bind
  rr : Nat
  aborts : Table Nat (Nat × Nat)
  frames : Table Nat Word
  keySlots : List KeySlot
  events : List ShedEvent
  waiting : List ShedEvent
  graphs : Table Nat Graph
  accts : List Acct
  yfence : List Nat
  sfence : List (Nat × Nat)
  comms : Table Nat CommDesc
  keys : Table Nat FKey
  reach : Table Nat (List Nat)
  repl : Repl
  ports : List Port
  telem : Telem
  trigWin : Nat
  collSeq : Table Nat Nat
  turns : Table Nat Nat
  period : Nat
  periods : Nat
  periodAt : Nat
  given : Table Nat (Nat × Nat × Nat)
deriving DecidableEq, Repr

/-- The boot of one die: the stage of Table 19.1 in which it stands, the code of the stage that failed or 0, the seed of its keys
(stage 1, R385), the section digests that it has computed (stage 4), the sections whose repair maps, trims and firmware it has taken over
(stage 5), and the first 80 bytes of its boot measurement (stage 6, Table 19.4). -/
structure DieBoot where
  stage : Nat
  code : Nat
  seed : List (BitVec 8)
  digests : List (List (BitVec 8))
  loaded : List (List (BitVec 8))
  record : List (BitVec 8)
deriving DecidableEq, Repr

/-- The boot status register (Table 19.2), and the boot of each die. -/
structure Boot where
  state : Nat
  failDie : Nat
  failCode : Nat
  series : Nat
  dies : List DieBoot
deriving DecidableEq, Repr

/-- The header of an image (R382 to R386): the series that its version field names, module serial, die stepping and section digests. -/
structure ImgHeader where
  series : Nat
  serial : Nat
  stepping : Nat
  digests : List (List (BitVec 8))
deriving DecidableEq, Repr

/-- What the flash holds (R382 to R386): an image, which is a header, its XMSS signature and the sections; and, unsigned, each die's
helper data. The spec gives no byte layout of it (log 19). -/
structure Image where
  header : ImgHeader
  sig : List (BitVec 8)
  helper : List (List (BitVec 8))
  sections : List (List (BitVec 8))
deriving DecidableEq, Repr

/-- An entry of a log (Tables 13.16): what the physical function's own log holds (R241, R289, R390). -/
structure LogEnt where
  kind : Nat
  detail : Nat
  queue : Nat
  launch : Nat
  arg0 : Nat
  arg1 : Nat
deriving DecidableEq, Repr

/-- The log of the physical function (R241, R289, R390): every entry written, from number 0; the read count; the dropped count; its size. -/
structure PfLog where
  ents : List LogEnt
  read : Nat
  dropped : Nat
  size : Nat
deriving DecidableEq, Repr

/-- An area of a die's HBM that system software has given to a yard and a pen of it, 0xFF for the whole yard: OFFSET `lo` to `hi` − 1
(R229). -/
structure Area where
  die : Nat
  lo : Nat
  hi : Nat
  yard : Nat
  pen : Nat
deriving DecidableEq, Repr

/-- A pen of a yard: its clusters on each die, the budget account it is bound to (R329), and the context that holds it (R331). -/
structure Pen where
  cmask : List Nat
  acct : Nat
  holder : Option Nat
deriving DecidableEq, Repr

/-- What leaves the module: an interrupt (R298), a page request (R266), a packet on the fabric (R346), word of a request discarded where it
arrived (R354), allowances for the sender of a port (R355), gate operations for another module, their withdrawal, the answers to its own,
word of a delay, a gate that moves there, and word that it has moved (R333, R334, R337, R338), word of a collective that a rank has
submitted or that has failed (R365, R366, R372, R380), an attestation (R386), a refused one, what a read of a register answers (R308, R387),
and a configuration retry status (R384). -/
inductive Out where
  | interrupt (hostfn vec : Nat)
  | pageRequest (hostfn ctx num va : Nat) (write : Bool)
  | packet (die port : Nat) (h : FabHeader) (body : FabBody)
  | discarded (die port smod sdie tag : Nat)
  | allowance (die port : Nat) (k : Allowance) (n : Nat)
  | gateAsk (die gid op tenant ctx : Nat) (ask : GateAsk)
  | gateDrop (die gid op : Nat)
  | gateLate (m d tag count : Nat)
  | gateAnswer (m d tag : Nat) (v : Option Nat)
  | gateMove (gid m d : Nat) (g : Gate) (waiting : List GateOp)
  | gateMoved (gid m d : Nat) (acl : List AclEntry)
  | collJoin (die comm order : Nat) (tile : Option Nat) (rank op dt count root : Nat) (map : Option (BitVec 1024))
  | collLost (die comm order : Nat) (tile : Option Nat) (cause : Cause)
  | attestation (die : Nat) (record signature : List (BitVec 8))
  | attestationRefused (die : Nat)
  | register (fn off val : Nat)
  | configRetry (die : Nat)
  | configAnswer (die : Nat)
deriving DecidableEq, Repr

/-- An invalidation command that has been taken from its ring and is not complete (R244): position, OP, VMID, ASID, range and completion
address. -/
structure InvalCmd where
  n : Nat
  op : Nat
  vmid : Nat
  asid : Nat
  lo : Nat
  hi : Nat
  caddr : Nat
  refused : Bool
deriving DecidableEq, Repr

/-- An invalidation ring (R244): the SPA and size in commands of the ring in its function's memory, TAIL as its doorbell last set it, how
many commands have been taken, whether it is stopped as a queue is (R262), and the commands not complete. -/
structure InvalRing where
  base : Nat
  size : Nat
  tail : Nat
  next : Nat
  stopped : Bool
  cmds : List InvalCmd
deriving DecidableEq, Repr

/-- A page pull that firmware has posted (R339): the context, the page's VA and size, the SPA to fill, the source (a byte of this module by
SPA, or the bytes as another module's home answered), and the stage-2 entry that makes the page resident, with its SPA. -/
structure Pull where
  ctx : Nat
  va : Nat
  dst : Nat
  src : Nat ⊕ List (BitVec 8)
  n : Nat
  ent : Nat
  val : BitVec 64
deriving DecidableEq, Repr

/-- What comes from outside, and which agent moves next (log 1): an event with its argument, a strand that issues, a store by the host to
its own memory or, by a host function, to HBM that system software lets it reach (R283), the passing of time, an uncorrectable error that
appears in a line of memory, a count of corrected errors of a die (R230), or what system software sets: the replicated region (R306), a
die's trigger window (R283), the module's identifier (Table 3.3), a pen (R329), an area of HBM given or taken back (R229), the budget period
of a die (R285), an invalidation ring and its doorbell (R244), the read count of the physical function's log (R289), and the image in the
flash (R382); a host's read of an aligned 64-bit word of BAR0 of its function (R387); a page pull (R339); a slice timer of firmware and an
idle shed core that takes an event without a row of its own (R265); one stage of a die's boot, which its hardware may fail (Table 19.1); and
whether the accesses that issue from now on are performed later than they issue (R162); a gate operation of another module at a home of this
one, its withdrawal, a gate whose home moves to this module, word that its old home has drained, word that an operation of this module is
delayed at its home, and word that a gate has moved (R333, R334, R337, R338); the endpoint to which a virtual function is assigned (R387);
the division of a port's input buffer by firmware, and a response that leaves once it has its allowances (R355). -/
inductive Input where
  | ev (i : Instr) (a : EvArg)
  | run (k : StrandKey)
  | hostWrite (die off : Nat) (bytes : List (BitVec 8))
  | elapse (n : Nat)
  | lineError (spa : Nat)
  | corrected (die n : Nat)
  | replRegion (base size : Nat)
  | trigWindow (die off : Nat)
  | moduleId (n : Nat)
  | hostHbm (fn spa : Nat) (bytes : List (BitVec 8))
  | pen (yard num : Nat) (p : Pen)
  | area (a : Area) (given : Bool)
  | period (die ns : Nat)
  | invalRing (fn base size : Nat)
  | invalDoorbell (fn tail : Nat)
  | pfRead (n : Nat)
  | flash (img : Image)
  | bootStage (die : Nat) (ok : Bool)
  | sliceTimer (die acct : Nat)
  | shed (die : Nat)
  | late (on : Bool)
  | gateAway (m d tag tenant ctx gid : Nat) (ask : GateAsk) (fwd : Bool)
  | gateAwayDrop (m d tag : Nat)
  | gateArrive (die : Nat) (g : Gate)
  | gateDrained (gid : Nat)
  | gateLate (op count : Nat)
  | gateMoved (gid m d : Nat) (acl : List AclEntry)
  | vf (fn : Nat) (die : Option Nat)
  | buffers (die port : Nat) (shares pools : List (Nat × Nat))
  | reply (die port : Nat)
  | regRead (fn off : Nat)
  | postCopy (p : Pull)
deriving DecidableEq, Repr

/-- The state of one module (R6) and of the model's own schedule. -/
structure State where
  agenda : List Input
  cur : StrandKey
  arg : EvArg
  turn : Nat
  ran : Nat
  late : Bool
  free : Nat
  cycle : Nat
  mem : List Host.Cell
  loftKey : Table Nat Nat
  bad : List Nat
  tlb : List TlbEnt
  ctxs : Table Nat Ctx
  launches : Table Nat Launch
  groups : Table GroupKey Group
  gangs : Table GroupKey Gang
  cwins : Table GroupKey (List Host.Cell)
  threads : Table ThreadKey Thread
  strands : Table StrandKey Strand
  pend : List Pend
  held : List Held
  items : List Item
  globs : List GlobReq
  colls : List Coll
  losts : List Lost
  replies : List Reply
  gateOps : List GateOp
  gates : Table Nat Gate
  gateSeen : Table Nat Nat
  nextId : Nat
  dies : List Die
  memb : Nat
  epoch : Nat
  quies : Bool
  arch : Option Arch
  capo : Capo
  slotReqs : List SlotReq
  grants : List Grant
  air : List (Nat × Nat × Packet)
  replBase : Nat
  replSize : Nat
  rewrite : List (Nat × Nat)
  deadLinks : List (Nat × Nat)
  repins : Table (Nat × Nat × Nat × Nat) Nat
  yards : Table Nat YardDesc
  pens : Table (Nat × Nat) Pen
  areas : List Area
  pulls : List Pull
  invals : Table Nat InvalRing
  vfs : Table Nat Nat
  quar : Table Nat Nat
  revoked : Table Nat Nat
  boot : Boot
  flash : Image
  modId : Nat
  pfLog : PfLog
  pfDrops : Nat
  out : List Out
deriving DecidableEq, Repr

/-- Faults of the machine itself. Every access of an instruction that meets no byte takes the trap that the spec names; only what
comes from outside can name one that does not exist. -/
inductive Fault where
  /-- Raised by a host's store and by a line error of the agenda at an SPA that names no byte (R228). Safe: no such byte exists. -/
  | noByte (spa : Nat)
deriving DecidableEq, Repr

/-- Refusals of the model. -/
inductive Refusal where
  /-- An instruction whose meaning is not written: raised by the dispatcher only. Safe. -/
  | notModelled (mnemonic : String)
  /-- An instruction word executed in a state in which no strand issues. Safe: the hardware has no such step. -/
  | noStrand
deriving DecidableEq, Repr

/-! ## Reset -/

def Acct.zero : Acct := ⟨0, 0, 0, 0, 0, 0, 0, false⟩
def Repl.zero : Repl :=
  ⟨0, List.replicate 8 0, 0, 0, 0, [], List.replicate 8 [], List.replicate 8 0, [], [], 0, .member, 0,
    List.replicate 8 0⟩
def Port.zero : Port := ⟨[], 0, 0, false, [], [], [], [], []⟩
def Telem.zero : Telem := ⟨0, 0, 0, 0, 0, 0⟩
def KeySlot.zero : KeySlot := ⟨0, 0, .free⟩

/-- A die after module reset (R384): no bind record, frame, key slot, graph, communicator or key; replication state 0 (R307). -/
def Die.zero : Die where
  binds := []
  rr := 0
  aborts := []
  frames := []
  keySlots := List.replicate 32 KeySlot.zero
  events := []
  waiting := []
  graphs := []
  accts := List.replicate 64 Acct.zero
  yfence := []
  sfence := []
  comms := []
  keys := []
  reach := []
  repl := Repl.zero
  ports := List.replicate 16 Port.zero
  telem := Telem.zero
  trigWin := 0
  collSeq := []
  turns := []
  period := 1250000
  periods := 0
  periodAt := 0
  given := []

/-- A die at stage 1 of its boot, and the boot status register at reset (R382, Table 19.2). -/
def DieBoot.zero : DieBoot := ⟨1, 0, [], [], [], []⟩
def Boot.zero : Boot := ⟨0, 0, 0, 0, List.replicate 8 DieBoot.zero⟩
/-- A flash that holds no image. -/
def Image.none : Image := ⟨⟨0, 0, 0, []⟩, [], [], []⟩

/-- A strand key that names nothing: no launch has identifier 0 with a strand before one is placed. -/
def noStrandKey : StrandKey := ⟨⟨0, 0⟩, 0, .a⟩

/-- The module right after a module reset (R382): booting, no context, yard or launch, MEMB 0xFF and EPOCH 0 (R306), every counter
0, memory with nothing listed. -/
def State.reset : State where
  agenda := []
  cur := noStrandKey
  arg := .none
  turn := 0
  ran := 0
  late := false
  free := 0
  cycle := 0
  mem := []
  loftKey := []
  bad := []
  tlb := []
  ctxs := []
  launches := []
  groups := []
  gangs := []
  cwins := []
  threads := []
  strands := []
  pend := []
  held := []
  items := []
  globs := []
  colls := []
  losts := []
  replies := []
  gateOps := []
  gates := []
  gateSeen := []
  nextId := 0
  dies := List.replicate 8 Die.zero
  memb := 0xFF
  epoch := 0
  quies := false
  arch := none
  capo := ⟨0, 0, 0, 0, 0⟩
  slotReqs := []
  grants := []
  air := []
  replBase := 0
  replSize := 0
  rewrite := []
  deadLinks := []
  repins := []
  yards := []
  pens := []
  areas := []
  pulls := []
  invals := []
  vfs := []
  quar := []
  revoked := []
  boot := Boot.zero
  flash := Image.none
  modId := 0
  pfLog := ⟨[], 0, 0, 2 ^ 20⟩
  pfDrops := 0
  out := []

end Sys2Proof.Machine
end

