-- ==== Sys2Proof/Machine/Bits.lean ====
section
/-! DEFINITION. Keyed tables, lists by index, bit fields and byte order (R2, R36). -/

namespace Sys2Proof.Machine

/-! ## Tables -/

/-- The value of a key. -/
def tget [DecidableEq α] : Table α β → α → Option β
  | [], _ => none
  | (k, v) :: t, a => if k = a then some v else tget t a

/-- Setting a key: its entry in place, or a new last one. -/
def tset [DecidableEq α] : Table α β → α → β → Table α β
  | [], a, b => [(a, b)]
  | (k, v) :: t, a, b => if k = a then (a, b) :: t else (k, v) :: tset t a b

/-- Removing a key. -/
def tdel [DecidableEq α] : Table α β → α → Table α β
  | [], _ => []
  | (k, v) :: t, a => if k = a then t else (k, v) :: tdel t a

/-- The value of a key, or a default. -/
def tgetD [DecidableEq α] (t : Table α β) (a : α) (d : β) : β := (tget t a).getD d

/-- Changing the value of a key that is present. -/
def tmod [DecidableEq α] : Table α β → α → (β → β) → Table α β
  | [], _, _ => []
  | (k, v) :: t, a, f => if k = a then (k, f v) :: t else (k, v) :: tmod t a f

/-! ## Lists by index -/

/-- Writing entry `n` of a list; beyond its end nothing. -/
def lset : List α → Nat → α → List α
  | [], _, _ => []
  | _ :: l, 0, a => a :: l
  | x :: l, n + 1, a => x :: lset l n a

/-- Changing entry `n`. -/
def lmod : List α → Nat → (α → α) → List α
  | [], _, _ => []
  | x :: l, 0, f => f x :: l
  | x :: l, n + 1, f => x :: lmod l n f

/-- Entry `n` of a list, or a default. -/
def lget : List α → Nat → α → α
  | [], _, d => d
  | x :: _, 0, _ => x
  | _ :: l, n + 1, d => lget l n d

/-- Removing the first element that satisfies `p`. -/
def dropFirst (p : α → Bool) : List α → List α
  | [] => []
  | x :: l => if p x then l else x :: dropFirst p l

/-! ## Bits -/

/-- `bits(x, hi, lo)` of R36. -/
def bitsOf (x hi lo : Nat) : Nat := x / 2 ^ lo % 2 ^ (hi + 1 - lo)

/-- Bit `n` of a number. -/
def bitOf (x n : Nat) : Bool := x / 2 ^ n % 2 == 1

/-- A flag as a number. -/
def b2n (b : Bool) : Nat := if b then 1 else 0

/-- The number with bit `n` set or cleared. -/
def setBit (x n : Nat) (b : Bool) : Nat := if bitOf x n == b then x else if b then x + 2 ^ n else x - 2 ^ n

/-! ## Bytes -/

abbrev Byte := BitVec 8

/-- The `n` low bytes of a number, least significant first (R2). -/
def toBytes : Nat → Nat → List Byte
  | 0, _ => []
  | n + 1, x => BitVec.ofNat 8 x :: toBytes n (x / 256)

/-- A number from its bytes, least significant first (R2). -/
def ofBytes : List Byte → Nat
  | [] => 0
  | b :: l => b.toNat + 256 * ofBytes l

/-- Bytes `off` to `off + n − 1` of a record, as a number. -/
def fieldAt (l : List Byte) (off n : Nat) : Nat := ofBytes ((l.drop off).take n)

/-- Splitting a list into runs of `n`; the fuel is the length. -/
def chunksGo (n : Nat) : Nat → List α → List (List α)
  | 0, _ => []
  | k + 1, l => if l.isEmpty then [] else l.take n :: chunksGo n k (l.drop n)

def chunks (n : Nat) (l : List α) : List (List α) := chunksGo n l.length l

/-- The 57 low bits of an address (R14, R149). -/
def va57 (x : Nat) : Nat := x % 2 ^ 57

/-- An address as a program counter, bits [1:0] ignored (R15). -/
def pcOf (x : Nat) : BitVec 57 := BitVec.ofNat 57 (x / 4 * 4)

/-! ## Sparse memory -/

/-- What a byte reads as. An unlisted byte reads 0x00 (log 4). -/
def memGet : List Host.Cell → Nat → Byte
  | [], _ => 0#8
  | (k, v) :: t, a => if k = a then v else if a < k then 0#8 else memGet t a

/-- Writing a byte into the canonical form: rising addresses, no listed 0x00. -/
def memSet : List Host.Cell → Nat → Byte → List Host.Cell
  | [], a, b => if b = 0#8 then [] else [(a, b)]
  | (k, v) :: t, a, b =>
    if a < k then if b = 0#8 then (k, v) :: t else (a, b) :: (k, v) :: t
    else if k = a then if b = 0#8 then t else (a, b) :: t
    else (k, v) :: memSet t a b

/-- The canonical form of a memory: addresses strictly rise and no listed byte is 0x00. -/
def memWf : List Host.Cell → Bool
  | [] => true
  | (k, v) :: t => v != 0#8 && (match t with | [] => true | (j, _) :: _ => decide (k < j)) && memWf t

/-- Reading `n` bytes from `a` on. -/
def memRead (m : List Host.Cell) (a : Nat) : Nat → List Byte
  | 0 => []
  | n + 1 => memGet m a :: memRead m (a + 1) n

/-- Writing bytes from `a` on. -/
def memWrite (m : List Host.Cell) (a : Nat) : List Byte → List Host.Cell
  | [] => m
  | b :: l => memWrite (memSet m a b) (a + 1) l

end Sys2Proof.Machine
end

