-- ==== Sys2Proof/Machine/Flags.lean ====
section
/-! DEFINITION. Number formats and the arithmetic log causes (R55 to R69, R95 to R99): exact values, one rounding, and what a
result logs. No state appears here. -/

namespace Sys2Proof.Machine

/-- The causes one word logs, each at most once, appended in the order of the fields (Table 3.7, R73). -/
structure Log where
  invl : Bool := false
  divz : Bool := false
  ovfl : Bool := false
  unfl : Bool := false
deriving DecidableEq, Repr

/-- Merging the logs of several elements or steps (R73). -/
def Log.join (x y : Log) : Log :=
  ⟨x.invl || y.invl, x.divz || y.divz, x.ovfl || y.ovfl, x.unfl || y.unfl⟩

def noLog : Log := {}
def logInvl : Log := { invl := true }
def logDivz : Log := { divz := true }
def logOvfl : Log := { ovfl := true }
def logUnfl : Log := { unfl := true }

/-! ## Two's complement -/

/-- `sext` of Table 2.21 (R36). -/
def sext (x n : Nat) : Int :=
  let y := x % 2 ^ n
  if y < 2 ^ (n - 1) then y else (y : Int) - 2 ^ n

/-- The low 32 bits of an integer, `k` of R72. -/
def low32 (x : Int) : Word := BitVec.ofInt 32 x

/-- The low 64 bits of an integer. -/
def low64 (x : Int) : BitVec 64 := BitVec.ofInt 64 x

/-- Clamping to a range (R55). -/
def clampInt (lo hi x : Int) : Int := if x < lo then lo else if hi < x then hi else x

/-! ## Exact non-negative reals and one rounding -/

/-- A non-negative real in [m 2^e, (m+1) 2^e), equal to m 2^e exactly when `st` is false. -/
structure Mag where
  m : Nat
  e : Int
  st : Bool := false
deriving DecidableEq, Repr

def Mag.isZero (x : Mag) : Bool := x.m == 0 && !x.st

/-- The exponent of the leading one bit. -/
def Mag.top (x : Mag) : Int := (Nat.log2 x.m : Int) + x.e

/-- The multiple of 2^q that `x` rounds to under a mode, as the multiplier (R57, `rne` of Table 2.21). `neg` is the sign. A real
with `st` set carries at least two bits below q. -/
def Mag.round (x : Mag) (mode : RMode) (neg : Bool) (q : Int) : Nat :=
  if q ≤ x.e then x.m * 2 ^ (x.e - q).toNat
  else
    let sh := (q - x.e).toNat
    let fl := x.m / 2 ^ sh
    let r := x.m % 2 ^ sh
    let rest := r != 0 || x.st
    let up := match mode with
      | .rn => decide (2 * r > 2 ^ sh) || (2 * r == 2 ^ sh && (x.st || fl % 2 == 1))
      | .rz => false
      | .rd => neg && rest
      | .ru => !neg && rest
    if up then fl + 1 else fl

/-- What a floating-point code stands for: a NaN, an infinity, or a finite value with the sign of its zero. -/
inductive FVal where
  | nan (sig : Bool)
  | inf (neg : Bool)
  | fin (neg : Bool) (m : Nat) (e : Int)
deriving DecidableEq, Repr

/-- A binary format of Table 3.6: exponent bits and fraction bits (R56). -/
structure Fmt where
  eb : Nat
  mb : Nat
deriving DecidableEq, Repr

def f16 : Fmt := ⟨5, 10⟩
def bf16 : Fmt := ⟨8, 7⟩
def f32 : Fmt := ⟨8, 23⟩
def f64 : Fmt := ⟨11, 52⟩

def Fmt.bias (f : Fmt) : Int := 2 ^ (f.eb - 1) - 1
/-- The quantum of the subnormals, as a power of two. -/
def Fmt.qmin (f : Fmt) : Int := 1 - f.bias - f.mb
def Fmt.infCode (f : Fmt) : Nat := (2 ^ f.eb - 1) * 2 ^ f.mb
/-- The canonical NaN (Table 3.6). -/
def Fmt.nanCode (f : Fmt) : Nat := f.infCode + 2 ^ (f.mb - 1)
def Fmt.signed (f : Fmt) (neg : Bool) (c : Nat) : Nat := if neg then 2 ^ (f.eb + f.mb) + c else c

/-- Reading a code of a binary format (R56). -/
def Fmt.dec (f : Fmt) (x : Nat) : FVal :=
  let s := x / 2 ^ (f.eb + f.mb) % 2 == 1
  let ex := x / 2 ^ f.mb % 2 ^ f.eb
  let fr := x % 2 ^ f.mb
  if ex == 2 ^ f.eb - 1 then
    if fr == 0 then .inf s else .nan (decide (fr < 2 ^ (f.mb - 1)))
  else if ex == 0 then .fin s fr f.qmin
  else .fin s (2 ^ f.mb + fr) (f.qmin + ex - 1)

/-- A code and what it logs. -/
abbrev FRes := Nat × Log

/-- `rne_fmt` for a finite real: one rounding, overflow by mode, OVFL and UNFL of Table 3.7 (R57, R58). -/
def Fmt.enc (f : Fmt) (mode : RMode) (neg : Bool) (x : Mag) : FRes :=
  if x.isZero then (f.signed neg 0, noLog)
  else
    let q := max (x.top - f.mb) f.qmin
    let r := x.round mode neg q
    if r == 0 then (f.signed neg 0, logUnfl)
    else
      let code := (q - f.qmin).toNat * 2 ^ f.mb + r
      if code < f.infCode then (f.signed neg code, noLog)
      else
        let toInf := match mode with
          | .rn => true
          | .rz => false
          | .rd => neg
          | .ru => !neg
        (f.signed neg (if toInf then f.infCode else f.infCode - 1), logOvfl)

/-- The canonical NaN, with INVL where a rule logs it (R58). -/
def Fmt.nanRes (f : Fmt) (invl : Bool) : FRes := (f.nanCode, if invl then logInvl else noLog)

def FVal.isSig : FVal → Bool
  | .nan s => s
  | _ => false

def FVal.isNan : FVal → Bool
  | .nan _ => true
  | _ => false

def FVal.negate : FVal → FVal
  | .nan s => .nan s
  | .inf n => .inf (!n)
  | .fin n m e => .fin (!n) m e

/-- Converting a value to a format, one rounding (R57, R60). -/
def Fmt.conv (f : Fmt) (mode : RMode) (v : FVal) : FRes :=
  match v with
  | .nan s => f.nanRes s
  | .inf n => (f.signed n f.infCode, noLog)
  | .fin n m e => f.enc mode n ⟨m, e, false⟩

/-- The exact signed sum of two dyadics, over the lower of the two exponents. -/
def exactSum (n1 : Bool) (m1 : Nat) (e1 : Int) (n2 : Bool) (m2 : Nat) (e2 : Int) : Int × Int :=
  let e := min e1 e2
  let a : Int := m1 * 2 ^ (e1 - e).toNat
  let b : Int := m2 * 2 ^ (e2 - e).toNat
  ((if n1 then -a else a) + (if n2 then -b else b), e)

/-- The sum of two finite values, with the sign of an exact zero sum as R57 gives it. -/
def Fmt.addFin (f : Fmt) (mode : RMode) (n1 : Bool) (m1 : Nat) (e1 : Int) (n2 : Bool) (m2 : Nat) (e2 : Int) : FRes :=
  let s := exactSum n1 m1 e1 n2 m2 e2
  if s.1 == 0 then
    let neg := if m1 == 0 && m2 == 0 && n1 == n2 then n1 else mode == .rd
    (f.signed neg 0, noLog)
  else f.enc mode (decide (s.1 < 0)) ⟨s.1.natAbs, s.2, false⟩

/-- Addition (R57, R87). -/
def Fmt.add (f : Fmt) (mode : RMode) (a b : FVal) : FRes :=
  match a, b with
  | .nan s, y => f.nanRes (s || y.isSig)
  | _, .nan s => f.nanRes s
  | .inf n, .inf k => if n == k then (f.signed n f.infCode, noLog) else f.nanRes true
  | .inf n, .fin .. => (f.signed n f.infCode, noLog)
  | .fin .., .inf n => (f.signed n f.infCode, noLog)
  | .fin n1 m1 e1, .fin n2 m2 e2 => f.addFin mode n1 m1 e1 n2 m2 e2

/-- Subtraction (R87). -/
def Fmt.sub (f : Fmt) (mode : RMode) (a b : FVal) : FRes := f.add mode a b.negate

/-- Multiplication (R87). -/
def Fmt.mul (f : Fmt) (mode : RMode) (a b : FVal) : FRes :=
  match a, b with
  | .nan s, y => f.nanRes (s || y.isSig)
  | _, .nan s => f.nanRes s
  | .inf n, .inf k => (f.signed (n != k) f.infCode, noLog)
  | .inf n, .fin k m _ => if m == 0 then f.nanRes true else (f.signed (n != k) f.infCode, noLog)
  | .fin k m _, .inf n => if m == 0 then f.nanRes true else (f.signed (n != k) f.infCode, noLog)
  | .fin n1 m1 e1, .fin n2 m2 e2 => f.enc mode (n1 != n2) ⟨m1 * m2, e1 + e2, false⟩

/-- Whether a product is 0 × ∞. -/
def zeroTimesInf : FVal → FVal → Bool
  | .inf _, .fin _ m _ => m == 0
  | .fin _ m _, .inf _ => m == 0
  | _, _ => false

/-- The fused a × b + d, rounded once (R57, R87). -/
def Fmt.fma (f : Fmt) (mode : RMode) (a b d : FVal) : FRes :=
  if zeroTimesInf a b then f.nanRes true
  else if a.isNan || b.isNan || d.isNan then f.nanRes (a.isSig || b.isSig || d.isSig)
  else
    match a, b, d with
    | .fin n1 m1 e1, .fin n2 m2 e2, .fin n3 m3 e3 => f.addFin mode (n1 != n2) (m1 * m2) (e1 + e2) n3 m3 e3
    | .fin _ _ _, .fin _ _ _, .inf n => (f.signed n f.infCode, noLog)
    | x, y, z =>
      let neg := (match x with | .inf n => n | .fin n _ _ => n | .nan _ => false) !=
        (match y with | .inf n => n | .fin n _ _ => n | .nan _ => false)
      match z with
      | .inf n => if n == neg then (f.signed n f.infCode, noLog) else f.nanRes true
      | _ => (f.signed neg f.infCode, noLog)

/-- Division (R95). -/
def Fmt.div (f : Fmt) (a b : FVal) : FRes :=
  match a, b with
  | .nan s, y => f.nanRes (s || y.isSig)
  | _, .nan s => f.nanRes s
  | .inf _, .inf _ => f.nanRes true
  | .inf n, .fin k _ _ => (f.signed (n != k) f.infCode, noLog)
  | .fin n _ _, .inf k => (f.signed (n != k) 0, noLog)
  | .fin n1 m1 e1, .fin n2 m2 e2 =>
    if m2 == 0 then if m1 == 0 then f.nanRes true else (f.signed (n1 != n2) f.infCode, logDivz)
    else
      let sh := 2 * f.mb + 16
      let num := m1 * 2 ^ sh
      f.enc .rn (n1 != n2) ⟨num / m2, e1 - e2 - sh, num % m2 != 0⟩

/-- The integer square root, one result bit a round from bit `k - 1` down. -/
def isqrtGo : Nat → Nat → Nat → Nat
  | 0, _, r => r
  | k + 1, n, r => if (r + 2 ^ k) * (r + 2 ^ k) ≤ n then isqrtGo k n (r + 2 ^ k) else isqrtGo k n r

def isqrt (n : Nat) : Nat := isqrtGo (Nat.log2 n / 2 + 1) n 0

/-- Square root (R95). -/
def Fmt.sqrt (f : Fmt) (a : FVal) : FRes :=
  match a with
  | .nan s => f.nanRes s
  | .inf n => if n then f.nanRes true else (f.infCode, noLog)
  | .fin n m e =>
    if m == 0 then (f.signed n 0, noLog)
    else if n then f.nanRes true
    else
      let odd := e % 2
      let sh := 2 * f.mb + 16
      let x := m * 2 ^ (2 * sh + odd.toNat)
      let r := isqrt x
      f.enc .rn false ⟨r, (e - odd) / 2 - sh, r * r != x⟩

/-- The order of two values that are not NaN, −0 equal to +0: the sign of a − b. -/
def FVal.cmp : FVal → FVal → Ordering
  | .inf n, .inf k => if n == k then .eq else if n then .lt else .gt
  | .inf n, _ => if n then .lt else .gt
  | _, .inf k => if k then .gt else .lt
  | .fin n1 m1 e1, .fin n2 m2 e2 => compare (exactSum n1 m1 e1 (!n2) m2 e2).1 0
  | _, _ => .eq

def FVal.isNeg : FVal → Bool
  | .inf n => n
  | .fin n _ _ => n
  | .nan _ => false

/-- minimumNumber and maximumNumber on the codes themselves (R59): −0 below +0, the other operand beside one NaN. -/
def Fmt.minmax (f : Fmt) (wantMax : Bool) (a b : Nat) : FRes :=
  let x := f.dec a
  let y := f.dec b
  let lg := if x.isSig || y.isSig then logInvl else noLog
  if x.isNan && y.isNan then (f.nanCode, lg)
  else if x.isNan then (b, lg)
  else if y.isNan then (a, lg)
  else
    let aLess := match x.cmp y with
      | .lt => true
      | .gt => false
      | .eq => x.isNeg
    (if aLess == wantMax then b else a, lg)

/-- FRND: rounding to an integral value of the same format, which keeps zeros, infinities and the sign of a zero result (R87). -/
def Fmt.rint (f : Fmt) (mode : RMode) (a : Nat) : FRes :=
  match f.dec a with
  | .nan s => f.nanRes s
  | .inf _ => (a, noLog)
  | .fin n m e => (f.enc mode n ⟨Mag.round ⟨m, e, false⟩ mode n 0, 0, false⟩)

/-- The sign bit set or inverted on a value that is not NaN; a NaN gives the canonical NaN (FABS, FNEG of R87). -/
def Fmt.withSign (f : Fmt) (g : Bool → Bool) (a : Nat) : FRes :=
  match f.dec a with
  | .nan s => f.nanRes s
  | .inf n => (f.signed (g n) f.infCode, noLog)
  | .fin n _ _ => (f.signed (g n) (a % 2 ^ (f.eb + f.mb)), noLog)

/-- Conversion to an integer range: truncation, then saturation, INVL on NaN and saturation (R60). -/
def toIntSat (lo hi : Int) : FVal → Int × Log
  | .nan _ => (0, logInvl)
  | .inf n => (if n then lo else hi, logInvl)
  | .fin n m e =>
    let t : Int := Mag.round ⟨m, e, false⟩ .rz n 0
    let v := if n then -t else t
    if v < lo then (lo, logInvl) else if hi < v then (hi, logInvl) else (v, noLog)

/-- An integer as an exact value. -/
def ofIntVal (x : Int) : FVal := .fin (decide (x < 0)) x.natAbs 0

/-! ## Narrow formats -/

/-- The fields of a format register (Table 3.8, R61). -/
structure NFmt where
  sign : Bool
  e : Nat
  m : Nat
  bias : Int
  policy : Nat
  nzn : Bool
deriving DecidableEq, Repr

def NFmt.ofWord (w : Word) : NFmt :=
  let x := w.toNat
  ⟨x % 2 == 1, x / 2 % 8, x / 16 % 8, sext (x / 256) 8, x / 2 ^ 16 % 4, x / 2 ^ 18 % 2 == 1⟩

/-- The conditions of R62 on one format word. -/
def fmtWordOk (w : Word) : Bool :=
  let x := w.toNat
  let f := NFmt.ofWord w
  let s := if f.sign then 1 else 0
  x / 2 ^ 19 == 0 && x / 128 % 2 == 0 && decide (s + f.e + f.m ≤ 8) && decide (1 ≤ f.e + f.m) && f.policy != 3 &&
    (f.policy != 2 || decide (1 ≤ f.e)) && (!f.nzn || f.sign)

/-- Element width w (R63). -/
def NFmt.width (f : NFmt) : Nat := (if f.sign then 1 else 0) + f.e + f.m

/-- Whether elements sit in 8-bit containers (R63). -/
def NFmt.wide (f : NFmt) : Bool := decide (5 ≤ f.width)

/-- The narrow tag of format k (R54). -/
def NFmt.tagOf (f : NFmt) (k : Nat) : Tag := BitVec.ofNat 5 (if f.wide then 16 + k else 24 + k)

/-- The exponent of the lowest mantissa bit of magnitude codes with E at most 1 (R64). -/
def NFmt.q0 (f : NFmt) : Int := if f.e == 0 then -f.bias else 1 - f.bias - f.m

/-- The largest magnitude code that is not special (R65). -/
def NFmt.maxCode (f : NFmt) : Nat :=
  let all := 2 ^ (f.e + f.m) - 1
  match f.policy with
  | 1 => all - 1
  | 2 => (2 ^ f.e - 1) * 2 ^ f.m - 1
  | _ => all

def NFmt.signed (f : NFmt) (neg : Bool) (c : Nat) : Nat := if neg && f.sign then 2 ^ (f.e + f.m) + c else c

/-- The canonical NaN of a format, where it has one (R65). -/
def NFmt.nanCode (f : NFmt) : Option Nat :=
  if f.nzn then some (2 ^ (f.e + f.m))
  else if f.policy == 1 then some (2 ^ (f.e + f.m) - 1)
  else if f.policy == 2 && decide (1 ≤ f.m) then some ((2 ^ f.e - 1) * 2 ^ f.m + 2 ^ (f.m - 1))
  else none

/-- Reading an element of a narrow format (R63, R64). -/
def NFmt.dec (f : NFmt) (c : Nat) : FVal :=
  let mag := c % 2 ^ (f.e + f.m)
  let s := f.sign && c / 2 ^ (f.e + f.m) % 2 == 1
  let ex := mag / 2 ^ f.m
  let fr := mag % 2 ^ f.m
  if f.policy == 1 && mag == 2 ^ (f.e + f.m) - 1 then .nan false
  else if f.policy == 2 && ex == 2 ^ f.e - 1 then if fr == 0 then .inf s else .nan false
  else if f.nzn && s && mag == 0 then .nan false
  else if f.e == 0 || ex == 0 then .fin s fr f.q0
  else .fin s (2 ^ f.m + fr) (f.q0 + ex - 1)

/-- A zero result: the negative-zero code only for a negative value in a format with SIGN and without NZN (R66, step 7). -/
def NFmt.zero (f : NFmt) (neg : Bool) : Nat := if neg && f.sign && !f.nzn then 2 ^ (f.e + f.m) else 0

/-- A signed magnitude code, a zero one through step 7 of R66. -/
def NFmt.place (f : NFmt) (neg : Bool) (c : Nat) : Nat := if c == 0 then f.zero neg else f.signed neg c

/-- `rne_fmt(x, fmtk, mode)`, the seven steps of R66. -/
def NFmt.enc (f : NFmt) (mode : RMode) (v : FVal) : FRes :=
  match v with
  | .nan s =>
    match f.nanCode with
    | some c => (c, if s then logInvl else noLog)
    | none => (0, logInvl)
  | .inf n =>
    if n && !f.sign then (0, logInvl)
    else if f.policy == 2 then (f.signed n ((2 ^ f.e - 1) * 2 ^ f.m), noLog)
    else (f.place n f.maxCode, noLog)
  | .fin n m e =>
    if m == 0 then (f.zero n, noLog)
    else
      let x : Mag := ⟨m, e, false⟩
      let q := if f.e == 0 then f.q0 else max (x.top - f.m) f.q0
      let r := x.round mode n q
      if r == 0 then (f.zero n, logUnfl)
      else if n && !f.sign then (0, logInvl)
      else
        let code := (q - f.q0).toNat * 2 ^ f.m + r
        if code ≤ f.maxCode then (f.signed n code, noLog)
        else if f.policy == 2 && mode == .rn then (f.signed n ((2 ^ f.e - 1) * 2 ^ f.m), logOvfl)
        else (f.place n f.maxCode, logOvfl)

/-- The value of a scale byte (R67): none for the NaN code. -/
def scaleExp (c : Nat) : Option Int := if c == 255 then none else some ((c : Int) - 127)

/-- Multiplying by a scale byte, exactly (R67). -/
def scaleVal (v : FVal) (c : Nat) : FVal :=
  match scaleExp c with
  | none => .nan false
  | some k =>
    match v with
    | .fin n m e => .fin n m (e + k)
    | x => x

/-! ## The logarithmic format -/

/-- An lns32 value (R68). -/
inductive LVal where
  | nan
  | zero
  | inf (neg : Bool)
  | fin (neg : Bool) (l : Int)
deriving DecidableEq, Repr

def lnsZero : Nat := 0x40000000
def lnsNan : Nat := 0xC0000000
def lnsInf (neg : Bool) : Nat := if neg then 0xBFFFFFFF else 0x3FFFFFFF

/-- Reading an lns32 code (R68). -/
def lnsDec (x : Nat) : LVal :=
  let s := x / 2 ^ 31 % 2 == 1
  let l := sext x 31
  if l == -(2 ^ 30) then if s then .nan else .zero
  else if l == 2 ^ 30 - 1 then .inf s
  else .fin s l

/-- The code of a finite logarithm in range. -/
def lnsCode (neg : Bool) (l : Int) : Nat := (if neg then 2 ^ 31 else 0) + (l % 2 ^ 31).toNat

/-- Placing a finite result logarithm (R69). -/
def lnsPlace (neg : Bool) (l : Int) : FRes :=
  if l > 2 ^ 30 - 2 then (lnsCode neg (2 ^ 30 - 2), logOvfl)
  else if l < -(2 ^ 30) + 1 then (lnsCode neg (-(2 ^ 30) + 1), logUnfl)
  else (lnsCode neg l, noLog)

def lnsInfRes (neg : Bool) (lg : Log := {}) : FRes := (lnsInf neg, lg)
def lnsZeroRes : FRes := (lnsZero, noLog)
def lnsNanRes (invl : Bool) : FRes := (lnsNan, if invl then logInvl else noLog)

/-- The nearest integer to num / 2^k, ties to even (`rne` with q = 0, R36). -/
def rneShift (num : Int) (k : Nat) : Int :=
  let fl := num / 2 ^ k
  let r := num % 2 ^ k
  if 2 * r > 2 ^ k || (2 * r == 2 ^ k && fl % 2 == 1) then fl + 1 else fl

/-- 2^(2^−i) for i = 1 to 23, in units of 2^−200, rounded down (log 8). -/
def rootsLo : List Nat := [
   0x16a09e667f3bcc908b2fb1366ea957d3e3adec17512775099da,
   0x1306fe0a31b7152de8d5a46305c85edecbc27343629f502f1af,
   0x1172b83c7d517adcdf7c8c50eb14a792035509ff7d758693f23,
   0x10b5586cf9890f6298b92b71842a98364291408b3ceb0a2a2ba,
   0x1059b0d31585743ae7c548eb68ca417fe53e3495f7df4baf84a,
   0x102c9a3e778060ee6f7caca4f7a29bde93d70a2cabc5cb89ba1,
   0x10163da9fb33356d84a66ae336dcdfa4003ec04c360be240407,
   0x100b1afa5abcbed6129ab13ec11dc954455b8187f0c9741eb3b,
   0x10058c86da1c09ea1ff19d294cf2f679c68bf05eb63f5c41c7a,
   0x1002c605e2e8cec506d21bfc89a23a010806c0a42d5dae7e093,
   0x100162f3904051fa128bca9c55c31e5e06ddd31155fe06c40ed,
   0x1000b175effdc76ba38e31671ca939726694630e2f50ba33128]

def rootsHi : List Nat := [
   0x100058ba01fb9f96d6cacd4b180917c3e43a86f9ed9b4ced905,
   0x10002c5cc37da9491d0985c348c68e7b3d505d939d869b9e7bc,
   0x1000162e525ee054754457d5995292026d9d47870c82f452393,
   0x10000b17255775c040618bf4a4ade83fca8f8cfdfc7eb1dbf36,
   0x1000058b91b5bc9ae2eed81e9b7d4cfac1b1b76fbf41b08a88e,
   0x100002c5c89d5ec6ca4d7c8acc017b7c9d9cdf6f672d9a286ee,
   0x10000162e43f4f831060e02d839a9d16d6fb332d9babc52de46,
   0x100000b1721bcfc99d9f890ea069117637d190cb3e159dfe87b,
   0x10000058b90cf1e6d97f9ca14dbcc16289fa75ffd0b14cf252e,
   0x1000002c5c863b73f016468f6bac5ca2c11f6d72bc10201528a,
   0x100000162e430e5a18f6119e3c02282a5f70f2c46b0dd191fc2]

/-- Multiplying the roots that the bits of a 23-bit fraction select, most significant bit first. -/
def exp2Go : List Nat → Nat → Nat → Nat → Nat
  | [], _, _, acc => acc
  | r :: rs, k, frac, acc =>
    exp2Go rs (k - 1) frac (if frac / 2 ^ (k - 1) % 2 == 1 then acc * r / 2 ^ 200 else acc)

/-- 2^(frac / 2^23) in units of 2^−200, within 2^−190 (log 8). -/
def exp2Frac (frac : Nat) : Nat := exp2Go (rootsLo ++ rootsHi) 23 frac (2 ^ 200)

/-- `k` binary digits of the logarithm of x / 2^200 in [1, 2), by repeated squaring. -/
def log2Digits : Nat → Nat → Nat → Nat
  | 0, _, acc => acc
  | k + 1, x, acc =>
    let y := x * x / 2 ^ 200
    if 2 ^ 201 ≤ y then log2Digits k (y / 2) (2 * acc + 1) else log2Digits k y (2 * acc)

/-- log2 of m > 0, in units of 2^−80 (log 8). -/
def log2Fix (m : Nat) : Int :=
  let t := Nat.log2 m
  let x := if t ≤ 200 then m * 2 ^ (200 - t) else m / 2 ^ (t - 200)
  (t : Int) * 2 ^ 80 + log2Digits 80 x 0

/-- log2 e and ln 2 in units of 2^−256 (log 8). -/
def log2eFix : Nat := 0x171547652b82fe1777d0ffda0d23a7d11d6aef551bad2b4b1164a2cd9a342648f
def ln2Fix : Nat := 0xb17217f7d1cf79abc9e3b39803f2f6af40f343267298b62d8a0d175b8baafa2b

/-- LNCV (R96). -/
def lnsOfF32 (a : FVal) : FRes :=
  match a with
  | .nan s => lnsNanRes s
  | .inf n => lnsInfRes n
  | .fin n m e => if m == 0 then lnsZeroRes else lnsPlace n (rneShift (log2Fix m + e * 2 ^ 80) 57)

/-- LNBK (R96). -/
def f32OfLns (a : LVal) : FRes :=
  match a with
  | .nan => f32.nanRes false
  | .zero => (0, noLog)
  | .inf n => (f32.signed n f32.infCode, noLog)
  | .fin n l =>
    let frac := (l % 2 ^ 23).toNat
    f32.enc .rn n ⟨exp2Frac frac, l / 2 ^ 23 - 200, frac != 0⟩

/-- LEXP (R97). -/
def lnsExp (a : FVal) : FRes :=
  match a with
  | .nan s => lnsNanRes s
  | .inf n => if n then lnsZeroRes else lnsInfRes false
  | .fin n m e =>
    let p : Mag := ⟨m * log2eFix, e - 256 + 23, m != 0⟩
    let r : Int := p.round .rn n 0
    lnsPlace false (if n then -r else r)

/-- LLOG (R97). -/
def f32Log (a : LVal) : FRes :=
  match a with
  | .nan => f32.nanRes false
  | .zero => (f32.signed true f32.infCode, noLog)
  | .inf n => if n then f32.nanRes true else (f32.infCode, noLog)
  | .fin n l =>
    if n then f32.nanRes true
    else f32.enc .rn (decide (l < 0)) ⟨l.natAbs * ln2Fix, -23 - 256, l != 0⟩

/-- LMUL (Table 4.8). -/
def lnsMul (a b : LVal) : FRes :=
  match a, b with
  | .nan, _ => lnsNanRes false
  | _, .nan => lnsNanRes false
  | .zero, .inf _ => lnsNanRes true
  | .inf _, .zero => lnsNanRes true
  | .zero, _ => lnsZeroRes
  | _, .zero => lnsZeroRes
  | .inf n, .inf k => lnsInfRes (n != k)
  | .inf n, .fin k _ => lnsInfRes (n != k)
  | .fin n _, .inf k => lnsInfRes (n != k)
  | .fin n l, .fin k j => lnsPlace (n != k) (l + j)

/-- The sign of an lns32 zero is 0. -/
def LVal.neg : LVal → Bool
  | .inf n => n
  | .fin n _ => n
  | _ => false

/-- LDIV (Table 4.8). -/
def lnsDiv (a b : LVal) : FRes :=
  match a, b with
  | .nan, _ => lnsNanRes false
  | _, .nan => lnsNanRes false
  | .zero, .zero => lnsNanRes true
  | .inf _, .inf _ => lnsNanRes true
  | .inf n, .zero => lnsInfRes n logDivz
  | .fin n _, .zero => lnsInfRes n logDivz
  | .zero, _ => lnsZeroRes
  | .fin _ _, .inf _ => lnsZeroRes
  | .inf n, .fin k _ => lnsInfRes (n != k)
  | .fin n l, .fin k j => lnsPlace (n != k) (l - j)

/-- LSQR (Table 4.8). -/
def lnsSqrt (a : LVal) : FRes :=
  match a with
  | .nan => lnsNanRes false
  | .zero => lnsZeroRes
  | .inf n => if n then lnsNanRes true else lnsInfRes false
  | .fin n l => if n then lnsNanRes true else lnsPlace false (rneShift l 1)

/-- LPOW, b an integer read as signed (Table 4.8). -/
def lnsPow (a : LVal) (b : Int) : FRes :=
  if b == 0 then (0, noLog)
  else
    match a with
    | .nan => lnsNanRes false
    | .zero => if b > 0 then lnsZeroRes else lnsInfRes false logDivz
    | .inf n => if b > 0 then lnsInfRes (n && b % 2 == 1) else lnsZeroRes
    | .fin n l => lnsPlace (n && b % 2 == 1) (l * b)

/-- 2^31 log2(1 + g 2^(−q 2^−11)), rounded to nearest, with g = −1 when `minus` (R99). -/
def lnsKnot (q : Nat) (minus : Bool) : Int :=
  let y := powNeg (q * 2 ^ 12)
  let z := if minus then 2 ^ 200 - y else 2 ^ 200 + y
  rneShift (log2Fix z - 200 * 2 ^ 80) 49
where
  /-- 2^(−t 2^−23) in units of 2^−200. -/
  powNeg (t : Nat) : Nat :=
    let frac := (2 ^ 23 - t % 2 ^ 23) % 2 ^ 23
    let whole := if t % 2 ^ 23 == 0 then t / 2 ^ 23 else t / 2 ^ 23 + 1
    exp2Frac frac / 2 ^ whole

/-- The correction of R99 for a difference t of logarithms. -/
def lnsCorr (t : Nat) (minus : Bool) : Int :=
  if 25 * 2 ^ 23 ≤ t then 0
  else if minus && decide (t < 2 ^ 23) then
    rneShift (log2Fix (2 ^ 200 - lnsKnot.powNeg t) - 200 * 2 ^ 80) 57
  else
    let q := t / 2 ^ 12
    let r : Int := (t % 2 ^ 12 : Nat)
    rneShift (lnsKnot q minus * (2 ^ 12 - r) + lnsKnot (q + 1) minus * r) 20

/-- LADD (R99). -/
def lnsAdd (a b : LVal) : FRes :=
  match a, b with
  | .nan, _ => lnsNanRes false
  | _, .nan => lnsNanRes false
  | .inf n, .inf k => if n == k then lnsInfRes n else lnsNanRes true
  | .inf n, _ => lnsInfRes n
  | _, .inf k => lnsInfRes k
  | .zero, .zero => lnsZeroRes
  | .zero, .fin n l => (lnsCode n l, noLog)
  | .fin n l, .zero => (lnsCode n l, noLog)
  | .fin sx lx, .fin sy ly =>
    let x := if lx ≥ ly then (sx, lx, sy, ly) else (sy, ly, sx, lx)
    let t := (x.2.1 - x.2.2.2).toNat
    if x.1 != x.2.2.1 && t == 0 then lnsZeroRes
    else lnsPlace x.1 (x.2.1 + lnsCorr t (x.1 != x.2.2.1))

/-- Inverting the sign of an lns32 value; NaN stays NaN and zero zero (R99). -/
def LVal.negate : LVal → LVal
  | .nan => .nan
  | .zero => .zero
  | .inf n => .inf (!n)
  | .fin n l => .fin (!n) l

end Sys2Proof.Machine
end

