-- ==== Sys2Proof/Machine/Access.lean ====
section
/-! DEFINITION. Reading and changing the parts of the state, the machine's clock, and the form in which a word's meaning is
written: a computation over the state that may stop. -/

namespace Sys2Proof

/-! ## Coded enumerations -/

/-- The codes of Table 5.1 (R101). -/
def Cause.code : Cause → Nat
  | .ilop => 0x01
  | .irsv => 0x02
  | .istr => 0x03
  | .iqpt => 0x04
  | .icls => 0x05
  | .winf => 0x06
  | .ftag => 0x07
  | .aseg => 0x08
  | .abnd => 0x09
  | .aprm => 0x0A
  | .aaln => 0x0B
  | .anrs => 0x0C
  | .gden => 0x0D
  | .rplx => 0x0E
  | .hpsn => 0x0F
  | .rvto => 0x10
  | .qdlk => 0x11
  | .trap => 0x12

def StrandKind.other : StrandKind → StrandKind
  | .a => .x
  | .x => .a

/-- The thread of a strand. -/
def StrandKey.thread (k : StrandKey) : Machine.ThreadKey := ⟨k.grp, k.tid⟩

end Sys2Proof

namespace Sys2Proof.Machine

/-! ## Parts of the state -/

def State.strand (s : State) (k : StrandKey) : Option Strand := tget s.strands k
def State.setStrand (s : State) (k : StrandKey) (x : Strand) : State := { s with strands := tset s.strands k x }
def State.modStrand (s : State) (k : StrandKey) (f : Strand → Strand) : State := { s with strands := tmod s.strands k f }
def State.thread (s : State) (k : ThreadKey) : Option Thread := tget s.threads k
def State.setThread (s : State) (k : ThreadKey) (x : Thread) : State := { s with threads := tset s.threads k x }
def State.modThread (s : State) (k : ThreadKey) (f : Thread → Thread) : State := { s with threads := tmod s.threads k f }
def State.group (s : State) (g : GroupKey) : Option Group := tget s.groups g
def State.modGroup (s : State) (g : GroupKey) (f : Group → Group) : State := { s with groups := tmod s.groups g f }
def State.launch (s : State) (l : Nat) : Option Launch := tget s.launches l
def State.modLaunch (s : State) (l : Nat) (f : Launch → Launch) : State := { s with launches := tmod s.launches l f }
def State.ctx (s : State) (c : Nat) : Option Ctx := tget s.ctxs c
def State.modCtx (s : State) (c : Nat) (f : Ctx → Ctx) : State := { s with ctxs := tmod s.ctxs c f }
def State.die (s : State) (d : Nat) : Die := lget s.dies d Die.zero
def State.modDie (s : State) (d : Nat) (f : Die → Die) : State := { s with dies := lmod s.dies d f }
def State.setFree (s : State) (n : Nat) : State := { s with free := n }

/-- A context that is valid and not being torn down (R260). -/
def State.liveCtx (s : State) (c : Nat) : Option Ctx :=
  match s.ctx c with
  | some x => if x.valid && !x.dying then some x else none
  | none => none

/-- A thread's queue by name. -/
def Thread.q (t : Thread) : QName → Queue
  | .lq => t.lq
  | .sq => t.sq
  | .xq => t.xq
  | .aq => t.aq
  | .mqOut => t.mqOut
  | .mqIn => t.mqIn
  | .cqOut => t.cqOut
  | .cqIn => t.cqIn

def Thread.setQ (t : Thread) (n : QName) (x : Queue) : Thread :=
  match n with
  | .lq => { t with lq := x }
  | .sq => { t with sq := x }
  | .xq => { t with xq := x }
  | .aq => { t with aq := x }
  | .mqOut => { t with mqOut := x }
  | .mqIn => { t with mqIn := x }
  | .cqOut => { t with cqOut := x }
  | .cqIn => { t with cqIn := x }

def allQueues : List QName := [.lq, .sq, .xq, .aq, .mqOut, .mqIn, .cqOut, .cqIn]

/-! ## Time -/

/-- Core cycles of a time in nanoseconds, at 1.25 GHz (R7). -/
def cyclesOfNs (n : Nat) : Nat := n * 5 / 4

/-- Module time in nanoseconds (R296). -/
def State.ns (s : State) : Nat := s.cycle * 4 / 5

/-- 2^20 core cycles, the limit of RVTO and QDLK (R124, R126). -/
def stallLimit : Nat := 2 ^ 20

/-! ## Free values -/

/-- One free value, and the counter past it (log 2). -/
def State.drawNat (s : State) : Nat × State := (Config.freeNat s.free, s.setFree (s.free + 1))
def State.drawBool (s : State) : Bool × State := (Config.freeBool s.free, s.setFree (s.free + 1))

/-! ## The form of a meaning -/

/-- What a fault record carries beside its place (Table 5.2): cause, TRAP code, address, slot with element, and whether SLV marks these as
valid (R148). `errs` are the malformed translation entries met: stage 2 or not, and the entry's SPA (R241). `evs` are events that
the word raised before its trap (R168). -/
structure TrapInfo where
  cause : Cause
  code : Nat := 0
  va : Nat := 0
  slot : Option (Nat × Nat) := none
  slv : Bool := true
  errs : List (Bool × Nat) := []
  evs : List LogEnt := []
deriving DecidableEq, Repr

/-- Why a word's meaning stops before its effect: a precise trap, with the state in which it was found; a block (R119), after which
the word is tried again; the use of a fenced or failed structure, which kills the launch (R341); and the stops of the model. -/
inductive Stop where
  | trap (t : TrapInfo) (at_ : State)
  | block (why : Block)
  | blast (die cls num : Nat)
  | fault (f : Fault)
  | refuse (r : Refusal)

/-- A word's meaning: a computation over the state. -/
abbrev Exec := StateT State (Except Stop)

def stop (x : Stop) : Exec α := fun _ => .error x

/-- Taking a precise trap: nothing after it happens (`trap` of R36). -/
def trapWith (t : TrapInfo) : Exec α := fun s => .error (.trap t s)
def trap (c : Cause) : Exec α := trapWith { cause := c }
def block (b : Block) : Exec α := stop (.block b)

/-- A check: the trap unless the condition holds. -/
def check (ok : Bool) (c : Cause) : Exec Unit := if ok then pure () else trap c

/-- An operation on the state that cannot stop. -/
def act (f : State → State) : Exec Unit := fun s => .ok ((), f s)

/-- A part of the state, or the model's refusal where there is none. -/
def need (o : Option α) : Exec α :=
  match o with
  | some x => pure x
  | none => stop (.refuse .noStrand)

/-- An operation on the state that gives a value. -/
def actGet (f : State → α × State) : Exec α := fun s => .ok (f s)

end Sys2Proof.Machine
end

