-- ==== Sys2Proof/Machine/Aes.lean ====
section
/-! DEFINITION. The cipher of the loft key engine (R234): AES with a key of 128 bits, and XTS over a data unit of 64 bytes, as the two
standards that the spec names define them. -/

namespace Sys2Proof.Machine

/-! ## The field of 2^8 elements -/

/-- Twice an element, modulo x^8 + x^4 + x^3 + x + 1. -/
def aesTwice (a : Nat) : Nat := if a < 128 then 2 * a else (2 * a).xor 0x11B

/-- The product of two elements, `n` bits of the second being left. -/
def aesMulGo : Nat → Nat → Nat → Nat
  | 0, _, _ => 0
  | n + 1, a, b => (if b % 2 == 1 then a else 0).xor (aesMulGo n (aesTwice a) (b / 2))

def aesMul (a b : Nat) : Nat := aesMulGo 8 a b

/-- The inverse of an element, 0 for 0: its power of 254, by seven squarings. -/
def aesInv (a : Nat) : Nat :=
  ((List.range 7).foldl (fun (x : Nat × Nat) _ => (aesMul x.1 x.1, aesMul x.2 (aesMul x.1 x.1))) (a, 1)).2

/-- A byte with each bit the sum of the bits of `a` at the distances `l` above it, around. -/
def aesMix (l : List Nat) (a : Nat) : Nat := l.foldl (fun x i => x.xor (a * 2 ^ (8 - i) / 256 % 256 + a * 2 ^ (8 - i) % 256)) 0

/-- The substitution of a byte, and its inverse. -/
def aesSub (a : Nat) : Nat := (aesMix [0, 4, 5, 6, 7] (aesInv a)).xor 0x63
def aesUnsub (a : Nat) : Nat := aesInv ((aesMix [2, 5, 7] a).xor 0x05)

/-! ## A block: 16 bytes, column after column -/

def xorBytes (a b : List Nat) : List Nat := List.zipWith Nat.xor a b

/-- Row r of the block turned by r columns; by 4 − r for the inverse. -/
def aesRows (inv : Bool) (l : List Nat) : List Nat :=
  (List.range 16).map fun i => lget l ((4 * (i / 4 + (if inv then 4 - i % 4 else i % 4)) + i % 4) % 16) 0

/-- Each column times the circulant matrix with the first row `m`. -/
def aesCols (m l : List Nat) : List Nat :=
  (List.range 16).map fun i => (List.range 4).foldl (fun x j => x.xor (aesMul (lget m ((j + 4 - i % 4) % 4) 0) (lget l (i / 4 * 4 + j) 0))) 0

/-- The words of the key schedule after the first four, last one first. -/
def aesExpand : Nat → Nat → Nat → List (List Nat) → List (List Nat)
  | 0, _, _, ws => ws
  | n + 1, i, rc, ws =>
    let t := lget ws 0 []
    let t := if i % 4 == 0 then xorBytes ((t.drop 1 ++ t.take 1).map aesSub) [rc, 0, 0, 0] else t
    aesExpand n (i + 1) (if i % 4 == 0 then aesTwice rc else rc) (xorBytes (lget ws 3 []) t :: ws)

/-- The eleven round keys of a key. -/
def aesKeys (key : List Nat) : List (List Nat) := chunks 16 (aesExpand 40 4 1 (chunks 4 key).reverse).reverse.flatten

def aesEnc (key l : List Nat) : List Nat :=
  let ks := aesKeys key
  let round := fun (l : List Nat) (i : Nat) =>
    let l := aesRows false (l.map aesSub)
    xorBytes (if i == 10 then l else aesCols [2, 3, 1, 1] l) (lget ks i [])
  ((List.range 10).map (· + 1)).foldl round (xorBytes l (lget ks 0 []))

def aesDec (key l : List Nat) : List Nat :=
  let ks := aesKeys key
  let round := fun (l : List Nat) (i : Nat) =>
    let l := xorBytes l (lget ks (10 - i) [])
    (aesRows true (if i == 0 then l else aesCols [14, 11, 13, 9] l)).map aesUnsub
  xorBytes ((List.range 10).foldl round l) (lget ks 0 [])

/-! ## XTS (R234) -/

/-- The 16 bytes of a number, as numbers. -/
def bytes16 (n : Nat) : List Nat := (toBytes 16 n).map (·.toNat)

/-- The tweak of the next block: times x in the field of 2^128 elements. -/
def xtsNext (t : Nat) : Nat := if t < 2 ^ 127 then 2 * t else (2 * t - 2 ^ 128).xor 0x87

/-- The blocks of a data unit under the tweak `t` of the first; `f` is the cipher or its inverse. -/
def xtsGo (f : List Nat → List Nat) : Nat → List (List Nat) → List Nat
  | _, [] => []
  | t, b :: l => xorBytes (f (xorBytes b (bytes16 t))) (bytes16 t) ++ xtsGo f (xtsNext t) l

/-- A data unit under a key pair, the data key being the low half; the tweak is the unit's number. -/
def xts (dec : Bool) (pair unit : Nat) (l : List Byte) : List Byte :=
  let k := bytes16 (pair % 2 ^ 128)
  let t := ofBytes ((aesEnc (bytes16 (pair / 2 ^ 128)) (bytes16 unit)).map (BitVec.ofNat 8))
  (xtsGo (if dec then aesDec k else aesEnc k) t (chunks 16 (l.map (·.toNat)))).map (BitVec.ofNat 8)

/-- A data unit written under one key pair and read under another. -/
def rekey (old new unit : Nat) (l : List Byte) : List Byte := if old == new then l else xts true new unit (xts false old unit l)

end Sys2Proof.Machine
end

