-- ==== Sys2Proof/Machine/Mem.lean ====
section
/-! DEFINITION. System physical memory (file 12): SPAs, HBM, the loft with its key engine, host memory, the scratchpad windows. -/

namespace Sys2Proof.Machine

/-- The SPACE, DIE and OFFSET fields of an SPA (Table 12.1, R228). -/
def spaSpace (a : Nat) : Nat := bitsOf a 51 49
def spaDie (a : Nat) : Nat := bitsOf a 48 46
def spaOff (a : Nat) : Nat := bitsOf a 45 0
def mkSpa (space die off : Nat) : Nat := space * 2 ^ 49 + die * 2 ^ 46 + off

def hbmBytes : Nat := 384 * 2 ^ 30
def loftBytes : Nat := 768 * 2 ^ 20

/-- Whether an SPA names a byte (R228). -/
def namesByte (a : Nat) : Bool :=
  decide (a < 2 ^ 52) &&
    match spaSpace a with
    | 0 => decide (spaOff a < hbmBytes)
    | 1 => decide (spaOff a < loftBytes)
    | 2 => spaDie a == 0 || spaDie a == 4
    | _ => false

/-! ## The loft -/

/-- The frame of loft OFFSET `off` (R231). -/
def frameOfOff (off : Nat) : Nat := off / 65536

/-- The frame that holds slice-linear offset `lin` of core `c` (R172, R231). -/
def frameOfLin (c lin : Nat) : Nat := 128 * c + lin / 65536

/-- The SPA of slice-linear offset `lin` of core `c` of a die (R231). -/
def spaOfLin (die c lin : Nat) : Nat := mkSpa 1 die (65536 * frameOfLin c lin + lin % 65536)

/-- The frame ownership entry of a frame (Table 12.2). -/
def State.frame (s : State) (die f : Nat) : Word := tgetD (s.die die).frames f 0#32

def frameValid (w : Word) : Bool := w.getLsbD 0
def frameYard (w : Word) : Nat := bitsOf w.toNat 5 1
def frameKslot (w : Word) : Nat := bitsOf w.toNat 10 6
def framePen (w : Word) : Nat := bitsOf w.toNat 23 16
def frameQuar (w : Word) : Bool := w.getLsbD 24

/-- Whether a loft access of a yard is admitted to a frame (R233). -/
def State.frameOk (s : State) (die f yard : Nat) : Bool :=
  let w := s.frame die f
  decide (f < 12288) && frameValid w && !frameQuar w && frameYard w == yard

/-- The key pair that a frame's KSLOT holds (R234, R235). -/
def State.frameKey (s : State) (die f : Nat) : Nat :=
  (lget (s.die die).keySlots (frameKslot (s.frame die f)) KeySlot.zero).keys

/-- The data unit of 64 bytes with number `u` as the key engine reads it now (R234): its ciphertext was made under the key pair of its
last write, and is decrypted under the present one (R236, log 9). -/
def State.loftUnit (s : State) (u : Nat) : List Byte :=
  rekey (tgetD s.loftKey u 0) (s.frameKey (spaDie (64 * u)) (frameOfOff (spaOff (64 * u)))) u (memRead s.mem (64 * u) 64)

/-- A loft byte: as written where its unit was written under the same keys. -/
def State.loftByte (s : State) (a : Nat) : Byte :=
  if tgetD s.loftKey (a / 64) 0 == s.frameKey (spaDie a) (frameOfOff (spaOff a)) then memGet s.mem a
  else lget (s.loftUnit (a / 64)) (a % 64) 0#8

/-- Writing one loft byte: its unit is read, merged and written under the present key (R234). -/
def State.setLoftByte (s : State) (a : Nat) (b : Byte) : State :=
  let u := a / 64
  let old := tgetD s.loftKey u 0
  let now := s.frameKey (spaDie a) (frameOfOff (spaOff a))
  if old == now then { s with mem := memSet s.mem a b }
  else { s with mem := memSet (memWrite s.mem (64 * u) (s.loftUnit u)) a b, loftKey := tset s.loftKey u now }

/-- Reading `n` bytes of system memory. -/
def State.readSpa (s : State) (a : Nat) : Nat → List Byte
  | 0 => []
  | n + 1 => (if spaSpace a == 1 then s.loftByte a else memGet s.mem a) :: s.readSpa (a + 1) n

/-- Writing bytes of system memory. -/
def State.writeSpa (s : State) (a : Nat) : List Byte → State
  | [] => s
  | b :: l => (if spaSpace a == 1 then s.setLoftByte a b else { s with mem := memSet s.mem a b }).writeSpa (a + 1) l

/-- An n64 of system memory (R112). -/
def State.read64 (s : State) (a : Nat) : Nat := ofBytes (s.readSpa a 8)

/-! ## Scratchpad windows -/

/-- Reading a core window (R155). -/
def State.readCore (s : State) (g : GroupKey) (off n : Nat) : List Byte :=
  match s.group g with
  | some x => memRead x.win off n
  | none => List.replicate n 0#8

def State.writeCore (s : State) (g : GroupKey) (off : Nat) (l : List Byte) : State :=
  s.modGroup g fun x => { x with win := memWrite x.win off l }

/-- Reading a cluster window, held under its owner (R195). -/
def State.readClus (s : State) (g : GroupKey) (off n : Nat) : List Byte := memRead (tgetD s.cwins g []) off n

def State.writeClus (s : State) (g : GroupKey) (off : Nat) (l : List Byte) : State :=
  { s with cwins := tset s.cwins g (memWrite (tgetD s.cwins g []) off l) }

/-- The owner of a group's cluster window (R195). -/
def Group.ownerKey (x : Group) (g : GroupKey) : GroupKey := ⟨g.launch, x.owner⟩

/-! ## The replicated region and failed lines -/

/-- The SPA of an offset of the repl region in a die's replica (R306). -/
def State.replSpa (s : State) (die off : Nat) : Nat := mkSpa 0 die (s.replBase + off)

/-- Whether an HBM OFFSET lies in the replicated region (R242, R306). -/
def State.inRepl (s : State) (off : Nat) : Bool :=
  decide (s.replBase ≤ off) && decide (off < s.replBase + s.replSize)

/-- Whether a structure of a die is fenced (R341). -/
def State.isFenced (s : State) (die cls num : Nat) : Bool := (s.die die).sfence.contains (cls, num)

/-- The HBM channel of an OFFSET: a hash of its bits [45:8] into 192 channels (R229). -/
def hbmChan (off : Nat) : Nat := Config.hbmChannel (off / 256) % 192

/-- The failed lines among `n` bytes of system memory. -/
def State.badLine (s : State) (a n : Nat) : Option Nat := s.bad.find? fun l => decide (a / 32 ≤ l) && decide (l ≤ (a + n - 1) / 32)

/-- The structure that an access to an SPA would use and that is fenced or has failed there: an HBM channel, a loft sub-slice, or a key slot
(Table 15.15, R230, R341). Nothing of it is looked at while no fence and no failed line exists. -/
def State.badAt (s : State) (a : Nat) (n : Nat) (reads : Bool) : Option (Nat × Nat) :=
  let d := spaDie a
  match spaSpace a with
  | 0 =>
    match if reads then s.badLine a n else none with
    | some l => some (1, hbmChan (spaOff (32 * l)))
    | none =>
      if (s.die d).sfence.any fun x => x.1 == 1 then
        let o := spaOff a
        (((List.range ((o + n - 1) / 256 + 1 - o / 256)).map fun i => hbmChan (o / 256 * 256 + 256 * i)).find?
          fun c => s.isFenced d 1 c).map fun c => (1, c)
      else none
  | 1 =>
    if (s.die d).sfence.isEmpty then none
    else
      let f := frameOfOff (spaOff a)
      (List.range (frameOfOff (spaOff a + n - 1) + 1 - f)).findSome? fun i =>
        let k := frameKslot (s.frame d (f + i))
        if s.isFenced d 2 ((f + i) / 8) then some (2, (f + i) / 8) else if s.isFenced d 9 k then some (9, k) else none
  | _ => none

/-- A 64-bit counter of telemetry after `n` more: it never decreases (R389), so it stays at its greatest value (DESIGN CHOICE, log 66). -/
def count64 (c n : Nat) : Nat := min (2 ^ 64 - 1) (c + n)

/-- Whether the host would answer a read with an error (R168). -/
def State.hostBad (s : State) (a n : Nat) : Bool := spaSpace a == 2 && (s.badLine a n).isSome

/-- A store that overwrites a whole failed line repairs it (R230). -/
def State.repair (s : State) (a n : Nat) : State :=
  if s.bad.isEmpty then s
  else { s with bad := s.bad.filter fun l => !(decide (a ≤ 32 * l) && decide (32 * l + 32 ≤ a + n)) }

/-! ## Yards, and the reach of a request (R242, R328, R346) -/

/-- A yard that nobody has described, at the reset values of Table 15.10. -/
def noYard : YardDesc := ⟨false, 0, 0, 0, [], 0, 0, 0, 2000⟩
def State.yard (s : State) (n : Nat) : YardDesc := tgetD s.yards n noYard

/-- The dies on which a yard holds clusters, ascending (R343). -/
def yardDies (y : YardDesc) : List Nat := (List.range 8).filter fun d => lget y.cmask d 0 != 0

/-- The die whose front end serves a context's queues: the first die of its yard. The spec names none (log 15). -/
def State.yardHome (s : State) (yard : Nat) : Nat := (yardDies (s.yard yard)).headD 0
def State.homeDie (s : State) (c : Ctx) : Nat := s.yardHome c.d.yard

/-- Whether the in-package link between two dies has failed. -/
def State.linkDead (s : State) (a b : Nat) : Bool := a != b && (s.deadLinks.contains (a, b) || s.deadLinks.contains (b, a))

/-- Whether an area holds an OFFSET. -/
def Area.holds (a : Area) (off : Nat) : Bool := decide (a.lo ≤ off) && decide (off < a.hi)

/-- Whether the home of `n` bytes admits a request under a key: they are HBM that yards of that key own, outside the replicated region
(R229, R242). -/
def State.globAdmits (s : State) (die spa n keyid : Nat) : Bool :=
  let off := spaOff spa
  let mine := fun (a : Area) => a.die == die && (s.yard a.yard).valid && (s.yard a.yard).keyid == keyid
  spaSpace spa == 0 && namesByte (spa + (n - 1)) && !s.inRepl off && !s.inRepl (off + (n - 1)) &&
    (List.range ((off % 32 + n + 31) / 32)).all fun i => s.areas.any fun a => mine a && a.holds (off / 32 * 32 + 32 * i)

end Sys2Proof.Machine
end

