-- ==== Sys2Proof/Machine/Xlate.lean ====
section
/-! DEFINITION. Two-stage translation, the cached entries, and the agreement of a translation with a segment (R237 to R247). -/

namespace Sys2Proof.Machine

/-- Kinds of access (R240). -/
inductive AKind where
  | read
  | write
  | rmw
  | fetch
deriving DecidableEq, Repr

/-- What a valid translation yields (R240). -/
structure Xl where
  spa : Nat
  r : Bool
  w : Bool
  x : Bool
  sc : Bool
  kind : Nat
deriving DecidableEq, Repr

/-- A translation ends valid, or not valid with the malformed entries met (R241): stage 2 or not, and the entry's SPA; or at a table entry
in a failed line or a fenced structure (R230, R341). -/
inductive XRes where
  | ok (x : Xl)
  | notValid (errs : List (Bool × Nat))
  | failed (die cls num : Nat)
deriving DecidableEq, Repr

/-- The input bits that index each level (Table 12.3). -/
def lvlShift : Nat → Nat
  | 0 => 48
  | 1 => 39
  | 2 => 30
  | 3 => 21
  | _ => 16

def lvlIndex (lvl x : Nat) : Nat := x / 2 ^ lvlShift lvl % (if lvl == 4 then 32 else 512)

/-- What a leaf maps (Table 12.3). -/
def lvlSize (lvl : Nat) : Nat := 2 ^ lvlShift lvl

/-- Fields of a translation entry (Table 12.4). -/
def entLeaf (e : Nat) : Bool := bitOf e 1
def entAddr (e : Nat) : Nat := bitsOf e 51 8 * 256
def entKind (e : Nat) : Nat := bitsOf e 7 6

/-- The malformed entries of R241, but for the SPA of a stage-2 leaf. -/
def entBad (e lvl : Nat) (stage2 : Bool) : Bool :=
  bitsOf e 63 52 != 0 ||
    (if entLeaf e then
      decide (lvl < 2) || entAddr e % lvlSize lvl != 0 || (if stage2 then bitOf e 5 else entKind e != 0)
    else
      lvl == 4 || bitsOf e 7 2 != 0 || (decide (lvl < 3) && entAddr e % 4096 != 0))

/-- Whether a stage-2 leaf's SPACE agrees with its KIND (Table 12.5). -/
def kindSpaceOk (kind spa : Nat) : Bool :=
  namesByte spa &&
    match kind with
    | 0 => spaSpace spa == 0 || spaSpace spa == 1
    | 1 => spaSpace spa == 0
    | 2 => spaSpace spa == 2
    | _ => spaSpace spa == 0

/-- The values of the entry at an SPA that are cached and not invalidated (R243). -/
def State.entCached (s : State) (stage2 : Bool) (vmid asid spa : Nat) : List (BitVec 64) :=
  s.tlb.filterMap fun t => if t.stage2 == stage2 && t.vmid == vmid && (stage2 || t.asid == asid) && t.spa == spa then some t.val else none

/-- The values a walk may use for the entry at an SPA: those cached, and memory's (R243), which is none where its line has failed. -/
def State.entVals (s : State) (stage2 : Bool) (vmid asid spa : Nat) : List (Option (BitVec 64)) :=
  let now := if (s.badAt spa 8 true).isSome then none else some (BitVec.ofNat 64 (s.read64 spa))
  ((s.entCached stage2 vmid asid spa).map some).filter (· != now) ++ [now]

/-- Whether an entry is valid: V, and not malformed (R241). -/
def entValid (e lvl : Nat) (stage2 : Bool) : Bool :=
  bitOf e 0 && !entBad e lvl stage2 && (!stage2 || !entLeaf e || kindSpaceOk (entKind e) (entAddr e))

/-- Reading one entry: where cached values differ from memory, which one is used is open (R243, log 2). A valid entry is cached. Memory's
entry in a failed line or a fenced structure is none. -/
def State.readEnt (s : State) (stage2 : Bool) (lvl vmid asid spa gpa lo hi : Nat) : Option Nat × State :=
  let vs := s.entVals stage2 vmid asid spa
  let (v, s1) :=
    match vs with
    | [v] => (v, s)
    | _ => (lget vs (Config.freeNat s.free % vs.length) none, s.setFree (s.free + 1))
  match v with
  | none => (none, s1)
  | some v =>
    let t : TlbEnt := ⟨stage2, vmid, if stage2 then 0 else asid, lo, hi, spa, gpa, v⟩
    (some v.toNat, if entValid v.toNat lvl stage2 && !s1.tlb.contains t then { s1 with tlb := t :: s1.tlb } else s1)

/-- How a walk ends at a table entry that has failed (R230). -/
def State.failedAt (s : State) (spa : Nat) : XRes :=
  match s.badAt spa 8 true with
  | some (c, n) => .failed (spaDie spa) c n
  | none => .notValid []

/-- The stage-2 walk from a table at SPA `t` (R240); levels still to visit are the fuel. An entry with V = 0 is not valid whatever its
other bits, and no walk error is raised for it; nor for a table address that names no byte, which ends the walk as not valid: the spec
states neither (DESIGN CHOICE, log 45). -/
def walk2 (vmid root x : Nat) : Nat → Nat → Nat → State → Except XRes (Nat × Nat) × State
  | 0, _, _, s => (.error (.notValid []), s)
  | fuel + 1, lvl, t, s =>
    let a := t + 8 * lvlIndex lvl x
    let lo := x / lvlSize lvl * lvlSize lvl
    if !namesByte a then (.error (.notValid []), s)
    else
      match s.readEnt true lvl vmid 0 a 0 lo (lo + lvlSize lvl) with
      | (none, s) => (.error (s.failedAt a), s)
      | (some e, s) =>
        if !bitOf e 0 then (.error (.notValid []), s)
        else if entBad e lvl true then (.error (.notValid [(true, a)]), s)
        else if entLeaf e then
          let spa := entAddr e + x % lvlSize lvl
          if kindSpaceOk (entKind e) spa then (.ok (e, spa), s) else (.error (.notValid [(true, a)]), s)
        else walk2 vmid root x fuel (lvl + 1) (entAddr e) s

/-- Stage 2 for a GPA. -/
def stage2 (d : CtxDesc) (gpa : Nat) (s : State) : Except XRes (Nat × Nat) × State :=
  if 2 ^ 52 ≤ gpa then (.error (.notValid []), s) else walk2 d.vmid d.root2 gpa 5 0 d.root2 s

/-- The stage-1 walk: each table address is a GPA that stage 2 translates, with R and KIND 0 (R240). -/
def walk1 (d : CtxDesc) (x : Nat) : Nat → Nat → Nat → State → Except XRes (Nat × Nat) × State
  | 0, _, _, s => (.error (.notValid []), s)
  | fuel + 1, lvl, t, s =>
    let g := t + 8 * lvlIndex lvl x
    match stage2 d g s with
    | (.error er, s) => (.error er, s)
    | (.ok (e2, a), s) =>
      if !bitOf e2 2 || entKind e2 != 0 then (.error (.notValid []), s)
      else
        let lo := x / lvlSize lvl * lvlSize lvl
        match s.readEnt false lvl d.vmid d.asid a g lo (lo + lvlSize lvl) with
        | (none, s) => (.error (s.failedAt a), s)
        | (some e, s) =>
          if !bitOf e 0 then (.error (.notValid []), s)
          else if entBad e lvl false then (.error (.notValid [(false, a)]), s)
          else if entLeaf e then (.ok (e, entAddr e + x % lvlSize lvl), s)
          else walk1 d x fuel (lvl + 1) (entAddr e) s

/-- The translation of a virtual address for a context (R240). -/
def xlate (d : CtxDesc) (va : Nat) (s : State) : XRes × State :=
  match walk1 d (va57 va) 5 0 d.root1 s with
  | (.error er, s) => (er, s)
  | (.ok (e1, gpa), s) =>
    match stage2 d gpa s with
    | (.error er, s) => (er, s)
    | (.ok (e2, spa), s) =>
      (.ok ⟨spa, bitOf e1 2 && bitOf e2 2, bitOf e1 3 && bitOf e2 3, bitOf e1 4 && bitOf e2 4, bitOf e1 5, entKind e2⟩, s)

/-- Whether the permissions of a translation admit a kind of access (R240). -/
def Xl.permits (x : Xl) : AKind → Bool
  | .read => x.r
  | .write => x.w
  | .rmw => x.r && x.w
  | .fetch => x.r && x.x

/-- Whether a translation agrees with the segment of an access from a die (Table 12.5, R151, R242). `ep` is the endpoint die of a
glob access. A page that stage 2 gives the replicated region under KIND 0 serves no segment, since only the replication units write the
region (R306, DEDUCED, log 57). -/
def State.segAgrees (s : State) (die yard : Nat) (seg : Seg) (epDie : Nat) (x : Xl) : Bool :=
  match seg with
  | .priv | .chip => x.kind == 0 && spaSpace x.spa == 0 && spaDie x.spa == die && !s.inRepl (spaOff x.spa)
  | .loft => x.kind == 0 && spaSpace x.spa == 1 && spaDie x.spa == die && s.frameOk die (frameOfOff (spaOff x.spa)) yard
  | .repl => x.kind == 1 && spaSpace x.spa == 0 && spaDie x.spa == 0 && s.inRepl (spaOff x.spa)
  | .glob => x.kind == 3 && spaSpace x.spa == 0 && spaDie x.spa == epDie
  | .host => x.kind == 2
  | .core | .clus => false

/-! ## What the device reads and writes on a context's behalf (R390) -/

/-- Where a translation's byte lies for a die: a replicated page is read in that die's replica (R306). -/
def Xl.localSpa (x : Xl) (die : Nat) : Nat := if x.kind == 1 then mkSpa 0 die (spaOff x.spa) else x.spa

/-- Whether an access that a die makes for a context through a page is answered with an error: a host line in error (R168), a page behind a
failed link, or a KIND 3 page that its home refuses (R242, R346). The spec names no module for a KIND 3 page that no record reaches: it is
this one (log 43). -/
def State.answersError (s : State) (die keyid : Nat) (x : Xl) (n : Nat) : Bool :=
  (x.kind != 1 && s.linkDead die (spaDie x.spa)) ||
    match x.kind with
    | 2 => s.hostBad x.spa n
    | 3 => !s.globAdmits (spaDie x.spa) x.spa n keyid
    | _ => false

/-- Whether a page is one of those that the device may use for a context: a loft frame is its yard's and not quarantined (R233), and what a
KIND 0 page names is not the replicated region (R306). -/
def State.devPage (s : State) (yard : Nat) (x : Xl) : Bool :=
  x.kind != 0 ||
    (if spaSpace x.spa == 1 then s.frameOk (spaDie x.spa) (frameOfOff (spaOff x.spa)) yard else !s.inRepl (spaOff x.spa))

/-- Whether a die may read `n` bytes, or write them, through a page for a context. Nothing is written to a replicated page (R390). -/
def State.devMay (s : State) (d : CtxDesc) (die : Nat) (x : Xl) (n : Nat) (reads writes : Bool) : Bool :=
  (!reads || x.r || writes) && (!writes || (x.w && x.kind != 1)) && s.devPage d.yard x && (s.badAt (x.localSpa die) n reads).isNone &&
    !s.answersError die d.keyid x n

/-- A malformed entry met by an access of the device: the address translated, whether it stands in stage 2, and its SPA (R241). -/
abbrev WalkErr := Nat × Bool × Nat

/-- The malformed entries met by a translation that is not valid. -/
def XRes.errs (va : Nat) : XRes → List WalkErr
  | .notValid e => e.map (va, ·)
  | .ok _ | .failed .. => []

/-- Reading `n` bytes at a virtual address for the device, by die `die`, with the malformed entries met: none where it cannot be read. The
bytes lie on one page. -/
def devReadE (d : CtxDesc) (die va n : Nat) (s : State) : Option (List Byte) × List WalkErr × State :=
  match xlate d va s with
  | (.ok x, s) => (if s.devMay d die x n true false then some (s.readSpa (x.localSpa die) n) else none, [], s)
  | (e, s) => (none, e.errs va, s)

/-- The word that the device's compare-and-swap finds at a virtual address that it may write (R105). -/
def devWordE (d : CtxDesc) (die va : Nat) (s : State) : Option Nat × List WalkErr × State :=
  match xlate d va s with
  | (.ok x, s) => (if s.devMay d die x 4 true true then some (ofBytes (s.readSpa x.spa 4)) else none, [], s)
  | (e, s) => (none, e.errs va, s)

/-- Writing bytes at a virtual address for the device: false where it cannot be written (R390). -/
def devWriteE (d : CtxDesc) (die va : Nat) (l : List Byte) (s : State) : Bool × List WalkErr × State :=
  match xlate d va s with
  | (.ok x, s) =>
    if s.devMay d die x l.length false true then (true, [], (s.writeSpa x.spa l).repair x.spa l.length) else (false, [], s)
  | (e, s) => (false, e.errs va, s)

end Sys2Proof.Machine
end

