-- ==== Sys2Proof/Machine/Logs.lean ====
section
/-! DEFINITION. The rings the device writes: control blocks, the context event log, the arithmetic log, user rings and completion
words (R112 to R115, R264, R289, R290, R298, R299, R390). -/

namespace Sys2Proof.Machine

/-- How an append ended (R114): written as entry n, ring full, control block not accessible, or entry n not writable, `counted` saying
whether the dropped count could be raised. -/
inductive Append where
  | done (n : Nat)
  | full
  | noBlock
  | noEntry (n : Nat) (counted : Bool)
deriving DecidableEq, Repr

/-- The address of entry n of a ring (R113, R289, R298). -/
def entryAddr (base size esz n : Nat) : Nat := base + 64 + esz * (n % size)

/-- Adding one to the dropped count; false where it cannot be updated (R112, R114). The malformed entries met come with it. -/
def countDrop (d : CtxDesc) (die base : Nat) (s : State) : Bool × List WalkErr × State :=
  match devReadE d die (base + 16) 8 s with
  | (some l, _, s) => devWriteE d die (base + 16) (toBytes 8 (ofBytes l + 1)) s
  | (none, e, s) => (false, e, s)

/-- Appending an entry to a ring with the control block of R112, under the rules of R114, with the malformed entries met. -/
def appendRing (d : CtxDesc) (die base size esz : Nat) (entry : Nat → List Byte) (s : State) : Append × List WalkErr × State :=
  match devReadE d die base 16 s with
  | (none, e, s) => (.noBlock, e, s)
  | (some cb, _, s) =>
    let w := fieldAt cb 0 8
    let r := fieldAt cb 8 8
    if (w + 2 ^ 64 - r) % 2 ^ 64 < size then
      match devWriteE d die base (toBytes 8 (w + 1)) s with
      | (false, e, s) => (.noBlock, e, s)
      | (true, _, s) =>
        match devWriteE d die (entryAddr base size esz w) (entry w) s with
        | (true, _, s) => (.done w, [], s)
        | (false, e, s) =>
          let c := countDrop d die base s
          (.noEntry w c.1, e ++ c.2.1, c.2.2)
    else
      let c := countDrop d die base s
      (if c.1 then .full else .noBlock, c.2)

/-! ## Event logs -/

/-- An entry of the physical function's log, dropped and counted where the log is full (R114, R289). -/
def State.pfEvent (s : State) (e : LogEnt) : State :=
  let p := s.pfLog
  { s with pfLog := if p.ents.length - p.read < p.size then { p with ents := p.ents ++ [e] } else { p with dropped := p.dropped + 1 } }
def State.pfDrop (s : State) : State := { s with pfDrops := s.pfDrops + 1 }

/-- The kinds of Table 13.17, 15.8 and R379. -/
def evLaunchEnd : Nat := 0x01
def evRefused : Nat := 0x02
def evFaultKill : Nat := 0x03
def evTKilled : Nat := 0x04
def evWalkErr : Nat := 0x05
def evLogFail : Nat := 0x06
def evHostErr : Nat := 0x07
def evCopyFail : Nat := 0x08
def evQErr : Nat := 0x09
def evGraphEnd : Nat := 0x0A
def evGraphErr : Nat := 0x0B
def evDebt : Nat := 0x0C
def evWdog : Nat := 0x0D
def evReplLag : Nat := 0x30
def evReplEvict : Nat := 0x31
def evReplJoin : Nat := 0x32
def evReplWrap : Nat := 0x33
def evReplLost : Nat := 0x34
def evReplFix : Nat := 0x35
def evGateDelay : Nat := 0x36
def evGateMove : Nat := 0x37
def evBlast : Nat := 0x38
def evPullFail : Nat := 0x39
def evUser : Nat := 0x40
def evFabErr : Nat := 0x50
def evCollFail : Nat := 0x51

/-- A context event log entry (Table 13.16). -/
def eventBytes (e : LogEnt) (n : Nat) : List Byte :=
  toBytes 1 e.kind ++ toBytes 1 e.detail ++ toBytes 2 e.queue ++ toBytes 4 (n + 1) ++ toBytes 8 e.launch ++
    toBytes 8 e.arg0 ++ toBytes 8 e.arg1

/-- Entry `n` of the physical function's log, in the format of the context event log (R289), and the log's control block (R112). -/
def State.pfBytes (s : State) (n : Nat) : List Byte :=
  match s.pfLog.ents[n]? with
  | some e => eventBytes e n
  | none => []
def State.pfControl (s : State) : List Byte :=
  toBytes 8 s.pfLog.ents.length ++ toBytes 8 s.pfLog.read ++ toBytes 8 s.pfLog.dropped ++ toBytes 40 0

/-- The stage-2 walk errors among those met (R241). -/
def pfWalk (l : List WalkErr) (s : State) : State :=
  l.foldl (fun s e => if e.2.1 then s.pfEvent ⟨evWalkErr, 1, 0xFFFF, 0, e.2.2, e.1⟩ else s) s

/-- Logging an event of a context (R289, R390). Nothing is logged for a context that is not valid or is being torn down (R260). A
stage-1 walk error met by the append itself is an event that cannot be made, and is not reported in the same log again (R390). -/
def logEvent (c : Nat) (e : LogEnt) (s : State) : State :=
  match s.liveCtx c with
  | none => s
  | some x =>
    if x.d.evsize == 0 then s
    else
      match appendRing x.d (s.homeDie x) x.d.evbase x.d.evsize 32 (eventBytes e) s with
      | (.done _, _, s) => s
      | (.full, _, s) => s
      | (.noBlock, er, s) => (pfWalk er s).pfDrop.pfEvent ⟨evLogFail, 3, 0xFFFF, 0, x.d.evbase, 0⟩
      | (.noEntry n counted, er, s) =>
        let a := entryAddr x.d.evbase x.d.evsize 32 n
        let s := pfWalk er s
        (if counted then s else s.pfDrop).pfEvent ⟨evLogFail, 3, 0xFFFF, 0, a, n⟩

/-- An event without a queue. -/
def logPlain (c kind detail launch arg0 arg1 : Nat) (s : State) : State :=
  logEvent c ⟨kind, detail, 0xFFFF, launch, arg0, arg1⟩ s

/-- Walk errors: stage 1 to the context's log, stage 2 to the physical function's (R241). -/
def logWalk (c launch va : Nat) : List (Bool × Nat) → State → State
  | [], s => s
  | (true, spa) :: l, s => logWalk c launch va l (s.pfEvent ⟨evWalkErr, 1, 0xFFFF, launch, spa, va⟩)
  | (false, spa) :: l, s => logWalk c launch va l (logPlain c evWalkErr 1 launch spa va s)

/-- The walk errors of the device's own accesses (R241). -/
def logWalks (c : Nat) (l : List WalkErr) (s : State) : State := l.foldl (fun s e => logWalk c 0 e.1 [e.2] s) s

/-- Reading for the device on behalf of a context, its walk errors logged (R241). The access is not charged to the context's account (DEDUCED,
log 35). -/
def devRead (d : CtxDesc) (die va n : Nat) (s : State) : Option (List Byte) × State :=
  match devReadE d die va n s with
  | (r, e, s) => (r, logWalks d.ctxid e s)

/-- Writing for the device on behalf of a context, its walk errors logged (R241): false where it cannot be written (R390). The access is not
charged to the context's account (DEDUCED, log 35). -/
def devWrite (d : CtxDesc) (die va : Nat) (l : List Byte) (s : State) : Bool × State :=
  match devWriteE d die va l s with
  | (r, e, s) => (r, logWalks d.ctxid e s)

/-- Appending to a ring of a context, the walk errors logged (R114, R241). -/
def appendFor (d : CtxDesc) (die base size esz : Nat) (entry : Nat → List Byte) (s : State) : Append × State :=
  match appendRing d die base size esz entry s with
  | (r, e, s) => (r, logWalks d.ctxid e s)

/-- Logging to every context that satisfies a condition, in table order. -/
def logAll (p : Ctx → Bool) (e : LogEnt) : List (Nat × Ctx) → State → State
  | [], s => s
  | (c, x) :: l, s => logAll p e l (if p x then logEvent c e s else s)

/-- Replication events go to every context with REPL set (R327). -/
def logRepl (kind detail arg0 arg1 : Nat) (s : State) : State :=
  logAll (fun x => x.d.repl) ⟨kind, detail, 0xFFFF, 0, arg0, arg1⟩ s.ctxs s

/-- A completion word or HEAD value written for a context (R264, R262, R390). -/
def writeForCtx (c va : Nat) (l : List Byte) (s : State) : State :=
  match s.liveCtx c with
  | none => s
  | some x =>
    match devWrite x.d (s.homeDie x) va l s with
    | (true, s) => s
    | (false, s) => logPlain c evLogFail 4 0 va 0 s

/-! ## The arithmetic log -/

/-- Codes of the arithmetic causes, and their ALOG_MASK bits, in order (Table 5.3, R112). -/
def Log.causes (l : Log) : List (Nat × Nat) :=
  (if l.invl then [(0x20, 0)] else []) ++ (if l.divz then [(0x21, 1)] else []) ++
    (if l.ovfl then [(0x22, 2)] else []) ++ (if l.unfl then [(0x23, 3)] else [])

/-- An arithmetic log entry (Table 5.3). -/
def alogBytes (cause : Nat) (x : Bool) (tid glin : Nat) (cpc launch : Nat) (n : Nat) : List Byte :=
  toBytes 4 (cause + 256 * b2n x + 65536 * tid) ++ toBytes 8 glin ++ toBytes 4 (n + 1) ++ toBytes 8 cpc ++ toBytes 8 launch

/-- One `alog` call (R114). -/
def alogOne (l : Launch) (die : Nat) (cause bit : Nat) (x : Bool) (tid glin cpc : Nat) (s : State) : State :=
  if l.rc.alogSize == 0 || !bitOf l.rc.alogMask bit then s
  else
    match s.liveCtx l.ctx with
    | none => s
    | some c =>
      match appendFor c.d die l.rc.alogBase l.rc.alogSize 32 (alogBytes cause x tid glin cpc l.id) s with
      | (.done _, s) => s
      | (.full, s) => s
      | (.noBlock, s) => logPlain l.ctx evLogFail 0 l.id l.rc.alogBase 0 s.pfDrop
      | (.noEntry n _, s) => logPlain l.ctx evLogFail 0 l.id (entryAddr l.rc.alogBase l.rc.alogSize 32 n) n s

def alogList (l : Launch) (die : Nat) (x : Bool) (tid glin cpc : Nat) : List (Nat × Nat) → State → State
  | [], s => s
  | (c, b) :: t, s => alogList l die x tid glin cpc t (alogOne l die c b x tid glin cpc s)

/-- The entries of one instruction, one for each cause, in the order of R73. -/
def alogFor (k : StrandKey) (tid : Nat) (cpc : BitVec 57) (lg : Log) (s : State) : State :=
  if lg.causes.isEmpty then s
  else
    match s.launch k.grp.launch, s.group k.grp with
    | some l, some g => alogList l g.die (k.kind == .x) tid k.grp.glin cpc.toNat lg.causes s
    | _, _ => s

/-! ## User rings -/

def ringOf (x : Ctx) (r : Nat) : URing := lget x.d.urings r ⟨0, 0, 0, 0⟩

/-- Sending a ring's interrupt: vector VECBASE + k of the context's host function (R298). For a context with no host function the spec does
not say what becomes of it: it goes to function 0, which nobody is (DESIGN CHOICE, log 62). -/
def sendRingInt (c r : Nat) (s : State) : State :=
  match s.ctx c with
  | none => s
  | some x =>
    let s := s.modCtx c fun y => { y with rings := tset y.rings r ⟨0, 0⟩ }
    { s with out := s.out ++ [.interrupt x.d.hostfn (x.d.vecbase + r)] }

/-- Counting an entry toward the interrupt: at once without coalescing, or when COALN entries wait (R298). -/
def ringWritten (c r : Nat) (s : State) : State :=
  match s.ctx c with
  | none => s
  | some x =>
    let u := ringOf x r
    let rt := tgetD x.rings r ⟨0, 0⟩
    let rt' : URingRt := ⟨rt.unsent + 1, if rt.unsent == 0 then s.cycle else rt.since⟩
    let s := s.modCtx c fun y => { y with rings := tset y.rings r rt' }
    if (u.coalt == 0 && u.coaln == 0) || (u.coaln != 0 && decide (u.coaln ≤ rt'.unsent)) then sendRingInt c r s else s

/-- Appending to a user ring, with the status that ULOG returns (R298, R299). A control block that cannot be read or updated gives status 3,
as an entry that cannot be written does (DESIGN CHOICE, log 63). The accesses are made by `die`, that of the group for a ULOG (DESIGN
CHOICE, log 15). -/
def appendURing (c launch die r payload tid : Nat) (x : Bool) (s : State) : Nat × State :=
  match s.liveCtx c with
  | none => (2, s)
  | some cx =>
    let u := ringOf cx r
    if u.size == 0 then (2, s)
    else
      let entry := fun n => toBytes 8 payload ++ toBytes 4 (n + 1) ++ toBytes 2 tid ++ toBytes 1 r ++ toBytes 1 (b2n x)
      match appendFor cx.d die u.base u.size 16 entry s with
      | (.done _, s) => (0, ringWritten c r s)
      | (.full, s) => (1, s)
      | (.noBlock, s) => (3, logPlain c evLogFail 1 launch u.base 0 s.pfDrop)
      | (.noEntry n _, s) => (3, logPlain c evLogFail 1 launch (entryAddr u.base u.size 16 n) n s)

end Sys2Proof.Machine
end

