-- ==== Sys2Proof/Machine/Ops.lean ====
section
/-! DEFINITION. Queues, registers, regions, pending operations, the end of strands and groups, taking a precise trap and returning
from one (R25, R84, R85, R104 to R111, R122, R134, R277). -/

namespace Sys2Proof.Machine

/-! ## Queues (R122) -/

/-- How many of the next `n` pushes occupy an entry: a replayed push does not (R138). -/
def Queue.live (q : Queue) (n : Nat) : Nat := n - q.s

/-- Whether `n` entries can be pushed or reserved now (R122). -/
def Queue.room (q : Queue) (n : Nat) : Bool := decide (q.p - q.c + q.live n ≤ q.depth)

/-- Pushing one value, or dropping a replayed push (R122, R138). -/
def Queue.push (q : Queue) (v : TVal) : Queue :=
  if 0 < q.s then { q with s := q.s - 1 } else { q with ents := q.ents ++ [some v], p := q.p + 1 }

/-- Reserving one entry (R122): its number, or none for a replayed one (R138). -/
def Queue.reserve (q : Queue) : Option Nat × Queue :=
  if 0 < q.s then (none, { q with s := q.s - 1 }) else (some q.p, { q with ents := q.ents ++ [none], p := q.p + 1 })

/-- Delivering into a reserved entry (R122). An entry a discard removed takes nothing. -/
def Queue.deliver (q : Queue) (n : Nat) (v : TVal) : Queue :=
  if q.c ≤ n && n < q.p then { q with ents := lset q.ents (n - q.c) (some v) } else q

/-- The entry a pop takes, if it is there and delivered (R122). -/
def Queue.front (q : Queue) (i : Nat) : Option TVal :=
  if q.q + i < q.p then lget q.ents (q.q + i - q.c) none else none

/-- Whether `n` entries can be popped now. -/
def Queue.ready (q : Queue) (n : Nat) : Bool := (List.range n).all fun i => (q.front i).isSome

/-- `n` pops: the entries stay held until a commit (R122). -/
def Queue.popN (q : Queue) (n : Nat) : Queue := { q with q := q.q + n }

/-- Committing the pops: C := Q (R122). -/
def Queue.commit (q : Queue) : Queue := { q with ents := q.ents.drop (q.q - q.c), c := q.q }

/-- The queue that a strand pops through a port number (Table 2.4), `mq` and `cq` being the inbound ones. -/
def popPort (k : StrandKind) (n : Nat) : Option QName :=
  match k, n with
  | .a, 121 => some .sq
  | .a, 123 => some .aq
  | .a, 125 => some .cqIn
  | .x, 120 => some .lq
  | .x, 122 => some .xq
  | .x, 124 => some .mqIn
  | _, _ => none

/-- The queue that a strand pushes through a port number (Table 2.4), `mq` and `cq` being the outbound ones. -/
def pushPort (k : StrandKind) (n : Nat) : Option QName :=
  match k, n with
  | .a, 120 => some .lq
  | .a, 122 => some .xq
  | .a, 125 => some .cqOut
  | .x, 121 => some .sq
  | .x, 123 => some .aq
  | .x, 124 => some .mqOut
  | _, _ => none

/-- The queues whose entries a strand's commit releases: those it pops, and its outbound engine queue, whose entries its commit
instructions consume (R122, R123, R134). -/
def poppedBy : StrandKind → List QName
  | .a => [.sq, .aq, .cqIn, .cqOut]
  | .x => [.lq, .xq, .mqIn, .mqOut]

/-- The strand that pushes a queue; none where an engine does (R123). -/
def pusherOf : QName → Option StrandKind
  | .lq => some .a
  | .xq => some .a
  | .cqOut => some .a
  | .sq => some .x
  | .aq => some .x
  | .mqOut => some .x
  | .mqIn => none
  | .cqIn => none

/-- The strand that pops a queue; none where an engine does. -/
def popperOf : QName → Option StrandKind
  | .lq => some .x
  | .xq => some .x
  | .mqIn => some .x
  | .sq => some .a
  | .aq => some .a
  | .cqIn => some .a
  | .mqOut => none
  | .cqOut => none

/-- Whether a strand of a thread has ended, or is not there. -/
def State.hasEnded (s : State) (k : StrandKey) : Bool :=
  match s.strand k with
  | some x => x.phase == .ended
  | none => true

def State.modQ (s : State) (t : ThreadKey) (n : QName) (f : Queue → Queue) : State :=
  s.modThread t fun x => { x.setQ n (f (x.q n)) with act := s.cycle }

/-- Popping the entries of a word that issues later than it read them. -/
def State.popAll (s : State) (t : ThreadKey) : List (QName × Nat) → State
  | [] => s
  | (n, i) :: l => (s.modQ t n (·.popN i)).popAll t l

/-! ## Registers (R28, R29) -/

/-- Writing a physical register, value and tag together (R45). What a discard would have put back there is written over with it. -/
def Strand.setPhys (x : Strand) (n : Nat) (v : TVal) : Strand :=
  { x with regs := lset x.regs n v, prov := x.prov.filter (·.reg != n) }

/-- A part of operation `op`, which has not committed, writes a physical register: what it held is kept (R44). -/
def Strand.setProv (x : Strand) (op n : Nat) (v : TVal) : Strand :=
  { x with regs := lset x.regs n v, prov := ⟨n, op, lget x.regs n ⟨0#32, 0#5⟩⟩ :: x.prov }

/-- What is kept, the latest first, once operation `op` is complete: of the registers that it wrote nothing that it or an earlier
operation overwrote. -/
def settleProv (op : Nat) : List Nat → List Prov → List Prov
  | _, [] => []
  | done, e :: l =>
    if e.op == op then settleProv op (e.reg :: done) l
    else if done.contains e.reg then settleProv op done l
    else e :: settleProv op done l

/-- Putting back what the parts of squashed operations overwrote, the latest first (R44, R137). -/
def Strand.unprov (x : Strand) : Strand :=
  { x with regs := x.prov.foldl (fun r e => lset r e.reg e.old) x.regs, prov := [] }

/-- Predicates (R80). -/
def Strand.pred (x : Strand) (n : BitVec 7) : Bool := x.preds.getLsbD n.toNat
def Strand.setPred (x : Strand) (n : BitVec 7) (b : Bool) : Strand :=
  { x with preds := BitVec.ofNat 128 (setBit x.preds.toNat n.toNat b) }

/-- The flags that are not clear, as a mask (R18, R25). -/
def Strand.pendingMask (x : Strand) : Nat :=
  (List.range 12).foldl (fun m i => if lget x.flags i 0 != 0 then m + 2 ^ i else m) 0

/-! ## Where a strand stands in its clause (R14, R18, R19) -/

/-- Fields of the clause header (Table 2.1). -/
def hdrWait (h : Word) : Nat := bitsOf h.toNat 31 20
def hdrFlagA (h : Word) : Nat := bitsOf h.toNat 19 16
def hdrFlagB (h : Word) : Nat := bitsOf h.toNat 15 12
def hdrLen (h : Word) : Nat := bitsOf h.toNat 11 8
def hdrGen (h : Word) : Bool := h.getLsbD 7
def hdrPred (h : Word) : BitVec 7 := h.extractLsb' 0 7

/-- The header of the following clause: clause PC + 4 × (LEN + 2) (R83). -/
def Strand.nextHdr (x : Strand) : BitVec 57 := x.cpc + BitVec.ofNat 57 (4 * (hdrLen x.hdr + 2))

/-- The index of the body word at the program counter. -/
def Strand.idx (x : Strand) : Nat := (x.pc - x.cpc).toNat / 4 - 1

/-- The body word that issues next, and the word after it in the body. -/
def Strand.word (x : Strand) : Option Word := x.body[x.idx]?
def Strand.litWord (x : Strand) : Option Word := x.body[x.idx + 1]?

/-- Whether a word of `len` words at the program counter is the last of its clause. -/
def Strand.isLast (x : Strand) (len : Nat) : Bool := decide (x.body.length ≤ x.idx + len)

/-- Going to a clause header that is not yet entered (R15, R18). A handler's words leave the mark `redo` alone (R135). -/
def Strand.goto (x : Strand) (a : BitVec 57) : Strand :=
  { x with cpc := a, pc := a, phase := .header, inside := false, blk := .none, redo := x.redo && x.inHandler }

/-- Going on after a word of `len` words: the next body word, or the next clause header (R18). -/
def Strand.advance (x : Strand) (len : Nat) : Strand :=
  if x.isLast len then x.goto x.nextHdr
  else { x with pc := x.pc + BitVec.ofNat 57 (4 * len), phase := .body, blk := .none, redo := x.redo && x.inHandler }

/-- The point after a word, as a region-start point names it (R19, R134). -/
def Strand.pointAfter (x : Strand) (len : Nat) : BitVec 57 × BitVec 57 :=
  if x.isLast len then (x.nextHdr, x.nextHdr) else (x.cpc, x.pc + BitVec.ofNat 57 (4 * len))

/-- Standing again at a point (R19): at a header every step of R18, inside a clause the first three. -/
def Strand.resume (x : Strand) (cpc w : BitVec 57) : Strand :=
  { x with cpc := cpc, pc := w, phase := .header, inside := cpc != w, blk := .none }

/-- Whether a strand that goes on from its region-start point stands at that point (R84, R135). -/
def Strand.again (x : Strand) : Bool := x.redo && !x.inHandler && x.pc == x.rgn.w && x.cpc == x.rgn.cpc

/-! ## Pending operations (R25) -/

/-- The data registers a strand names by physical number, for a delivery. -/
def deliver (k : StrandKey) (d : Dest) (s : State) : State :=
  match d with
  | .reg n v => s.modStrand k (·.setPhys n v)
  | .port q n v => s.modQ k.thread q (·.deliver n v)
  | .pred n v => s.modStrand k (·.setPred (BitVec.ofNat 7 n) v)
  | .slot n v => s.modGroup k.grp fun g => { g with slots := lset g.slots n v }
  | .lslot n v => s.modGroup k.grp fun g => { g with lslots := lset g.lslots n v }

def deliverAll (k : StrandKey) : List Dest → State → State
  | [], s => s
  | d :: l, s => deliverAll k l (deliver k d s)

/-- A value for the places of an operation, in order (R25). -/
def destsOf : List Place → List TVal → List Dest
  | [], _ => []
  | _, [] => []
  | .reg n :: l, v :: vs => .reg n v :: destsOf l vs
  | .port q n :: l, v :: vs => .port q n v :: destsOf l vs
  | .drop :: l, _ :: vs => destsOf l vs

def State.pendOf (s : State) (id : Nat) : Option Pend := s.pend.find? (·.id == id)
def State.modPend (s : State) (id : Nat) (f : Pend → Pend) : State :=
  { s with pend := s.pend.map fun p => if p.id == id then f p else p }

/-- The end of an operation: its log entries, its flag or its waiting strand (R25, R72). -/
def finishPend (p : Pend) (s : State) : State :=
  let s := { s with pend := s.pend.filter (·.id != p.id) }
  let s := alogFor p.owner p.owner.tid p.cpc ⟨p.invl, p.divz, p.ovfl, p.unfl⟩ s
  s.modStrand p.owner fun x =>
    let x := { x with prov := settleProv p.id [] x.prov }
    match p.flag with
    | some f => { x with flags := lmod x.flags f (· - 1) }
    | none => if x.phase == .sync p.id then { x with phase := .body }.advance p.len else x

/-- Whether an operation waits for nothing but its deliveries. -/
def PendKind.isReady : PendKind → Bool
  | .ready | .strongDone .. => true
  | .bar .. | .item _ | .glob _ | .strong .. | .rsync .. | .replStore .. | .gate _ | .held | .data _ => false

/-- A delivery of an operation with others still to make: into a register what it held is kept, unless the operation has committed
(R44). -/
def deliverPart (p : Pend) (d : Dest) (s : State) : State :=
  match d with
  | .reg n v => if p.committed then deliver p.owner d s else s.modStrand p.owner (·.setProv p.id n v)
  | .port .. | .pred .. | .slot .. | .lslot .. => deliver p.owner d s

/-- One indivisible part of a ready operation: a delivery, and after the last one its end (R25, R26). -/
def pendPart (p : Pend) (part : Nat) (s : State) : State :=
  match p.dests[part]? with
  | none => if p.dests.isEmpty then finishPend p s else s
  | some d =>
    let p' := { p with dests := p.dests.eraseIdx part }
    if p'.dests.isEmpty then finishPend p' (deliver p.owner d s) else (deliverPart p d s).modPend p.id fun _ => p'

/-- All parts of a ready operation at once. -/
def pendWhole (p : Pend) (s : State) : State := finishPend { p with dests := [] } (deliverAll p.owner p.dests s)

/-! ## Regions (R84, R134, R135) -/

/-- Whether a flagged wait at a barrier is pending, behind which commits, RGN and arrivals wait (R134). -/
def State.barWaiting (s : State) (k : StrandKey) : Bool :=
  s.pend.any fun p => p.owner == k && (match p.kind with | .bar .. => true | _ => false)

/-- The counts P of the queues a strand pushes, recorded with its region-start point (R134). -/
def Thread.pushed (t : Thread) : StrandKind → Nat × Nat × Nat
  | .a => (t.lq.p, t.xq.p, t.cqOut.p)
  | .x => (t.sq.p, t.aq.p, t.mqOut.p)

/-- Releasing what a strand has popped: C := Q on the queues of `poppedBy` (R134). -/
def Thread.release (t : Thread) (l : List QName) : Thread := l.foldl (fun t n => t.setQ n (t.q n).commit) t

/-- The three effects of a commit, with the region-start point at `pt` and token `tok` (R134, R135). Inside a handler the point
stays where it was (R111). -/
def commitAt (k : StrandKey) (pt : BitVec 57 × BitVec 57) (tok : Option Token) (s : State) : State :=
  let s := { s with
    pend := s.pend.map fun (p : Pend) => if p.owner == k then { p with committed := true } else p
    held := s.held.map fun (h : Held) => if h.owner == k then { h with committed := true } else h }
  let s := s.modThread k.thread (·.release (poppedBy k.kind))
  let p0 := match s.thread k.thread with
    | some t => t.pushed k.kind
    | none => (0, 0, 0)
  s.modStrand k fun x =>
    let x := { x with prov := [] }
    if x.inHandler then x
    else { x with rgn := ⟨pt.1, pt.2, x.wb, tok, p0.1, p0.2.1, p0.2.2⟩ }

/-- The commit of a word of `len` words at its issue (R134). -/
def commitWord (k : StrandKey) (len : Nat) (s : State) : State :=
  match s.strand k with
  | some x => commitAt k (x.pointAfter len) none s
  | none => s

/-! ## Gang barriers at the end of a group (R224) -/

/-- Groups of a gang that have not ended: keys with their sizes. -/
def State.gangLive (s : State) (o : GroupKey) : List (GroupKey × Group) :=
  s.groups.filter fun e => e.1.launch == o.launch && e.2.owner == o.glin && e.2.gang && e.2.life != .ended

def State.gangThreads (s : State) (o : GroupKey) : Nat := ((s.gangLive o).map fun e => e.2.size).sum

def GangBar.total (b : GangBar) : Nat := (b.arr.map (·.2)).sum

/-- Completing a generation (Table 6.2, R224). -/
def GangBar.complete (b : GangBar) : GangBar := { b with gen := (b.gen + 1) % 65536, collecting := false, live := false, arr := [] }

/-- A generation opened with `zr` completes when the arrivals equal LIVE and are not 0 (R224). One whose arrivals already exceed LIVE, since
two strands of a thread have arrived, completes no more (DESIGN CHOICE, log 60). -/
def GangBar.settle (b : GangBar) (live : Nat) : GangBar :=
  if b.collecting && b.live && b.total != 0 && b.total == live then b.complete else b

/-- The end of a group withdraws its arrivals from a generation opened with `zr` (R224). -/
def gangLeave (g : GroupKey) (o : GroupKey) (s : State) : State :=
  let live := s.gangThreads o
  { s with gangs := tmod s.gangs o fun x =>
      { x with bars := x.bars.map fun b => (if b.live then { b with arr := tdel b.arr g.glin } else b).settle live } }

/-! ## Waits at barriers (R131, R132, R134) -/

/-- GEN of a barrier as a strand's group sees it. -/
def State.barGen (s : State) (g : GroupKey) (gang : Bool) (num : Nat) : Nat :=
  match s.group g with
  | some x =>
    if gang then
      match tget s.gangs (x.ownerKey g) with
      | some y => (lget y.bars num ⟨0, false, 0, false, []⟩).gen
      | none => 0
    else (lget x.bars num ⟨0, false, 0, 0⟩).gen
  | none => 0

/-- A wait whose generation has completed. -/
def State.barMet (s : State) (p : Pend) : Bool :=
  match p.kind with
  | .bar gang num gen => s.barGen p.owner.grp gang num != gen
  | _ => false

/-- Every wait at a barrier completes when GEN changes from the value that it joined (R131). -/
def wakeBars (s : State) : State := (s.pend.filter s.barMet).foldl (fun s p => finishPend p s) s

/-! ## Shed events (R265) -/

/-- The ordering lock of a queue's events (R265). -/
def queueLock (c q : Nat) : Nat := (c * 64 + q) % 256

/-- The entries of a shed event queue (R265). -/
def shedRoom : Nat := 4096

/-- Raising an event on a die. Doorbells and triggers of one source coalesce: a pending one sets its mark. A source that finds the queue
full holds its event (R265). -/
def raiseShed (die : Nat) (e : ShedEvent) (s : State) : State :=
  s.modDie die fun d =>
    let same := fun (x : ShedEvent) => x.kind == e.kind && x.ctx == e.ctx && x.a0 == e.a0
    let mark := fun (l : List ShedEvent) => l.map fun x => if same x then { x with again := true } else x
    if (e.kind == .doorbell || e.kind == .trigger) && (d.events.any same || d.waiting.any same) then
      { d with events := mark d.events, waiting := mark d.waiting }
    else if d.waiting.isEmpty && d.events.length < shedRoom then { d with events := d.events ++ [e] }
    else { d with waiting := d.waiting ++ [e] }

/-- The sources that hold events put them into the queue as it has room, the oldest first (R265). -/
def Die.letIn (d : Die) : Die :=
  let n := shedRoom - d.events.length
  { d with events := d.events ++ d.waiting.take n, waiting := d.waiting.drop n }

/-- Taking an event off a die's queue. One whose mark is set stays, to be handled again. -/
def shedPop (die : Nat) (e : ShedEvent) (s : State) : State :=
  s.modDie die fun d =>
    { d with events := if e.again then d.events.map fun y => if y == e then { y with again := false } else y else d.events.erase e }.letIn

/-- Whether an event is the oldest of its lock in a die's queue (R265). -/
def Die.oldest (d : Die) (e : ShedEvent) : Bool := d.events.find? (·.lock == e.lock) == some e

/-- Whether a source of a kind holds an event, and so stalls (R265). -/
def Die.stalls (d : Die) (k : ShedKind) : Bool := d.waiting.any (·.kind == k)

/-! ## Ends and kills (R85, R109, R277) -/

/-- Whether every group of a bind record has been placed and has ended (R271). -/
def State.bindDone (s : State) (b : Bind) : Bool :=
  b.valid && b.next == b.gcount &&
    (s.groups.all fun e => !(e.1.launch == b.launch && b.gfirst ≤ e.1.glin && e.1.glin < b.gfirst + b.gcount) || e.2.life == .ended)

/-- Clearing the finished bind records of a die and raising BINDDONE for each (R271). -/
def clearBinds (die : Nat) : List (Nat × Bind) → State → State
  | [], s => s
  | (n, b) :: l, s =>
    if s.bindDone b then
      clearBinds die l (raiseShed die ⟨.binddone, b.ctx, 0, b.launch, n, false⟩
        (s.modDie die fun d => { d with binds := tmod d.binds n fun b => { b with valid := false } }))
    else clearBinds die l s

/-! ## Engine items and collectives -/

/-- A work item with nothing but its submitter. -/
def Item.blank (id die ctx : Nat) (owner : StrandKey) (kind : ItemKind) : Item where
  id := id
  die := die
  ctx := ctx
  owner := owner
  kind := kind
  regions := []
  held := false
  moves := []
  whole := false
  split := none
  colsLeft := []
  box := none
  handle := none
  inbound := false
  counts := false
  total := 0
  landed := 0
  arrived := 0
  tok := none
  sq := 0
  paused := none
  fail := none
  arr := none
  denied := 0
  cpc := 0#57
  invl := false
  ovfl := false
  unfl := false

/-- Accepting an item: the last of its die's order (R199). -/
def State.accept (s : State) (w : Item) : State := { s with items := s.items ++ [w] }

/-- Whether a collective of a context that has failed is the one that a submission of a die matches (R365, R372, R380). -/
def Lost.hits (x : Lost) (ctx : Nat) (c : Coll) : Bool :=
  x.ctx == ctx && x.comm == c.comm && x.tile == c.tile && (x.tile.isSome || x.order == c.order) && x.left.contains c.die

/-- The progress of a submitted collective: one that has failed already on another rank fails at once (R365, R372, R380). -/
def joinColl (ctx : Nat) (c : Coll) (s : State) : State :=
  let s := { s with colls := s.colls ++ [c] }
  match s.losts.find? (·.hits ctx c) with
  | none => s
  | some x =>
    { s with
      losts := (s.losts.map fun (y : Lost) => if y == x then { y with left := y.left.erase c.die } else y).filter fun (y : Lost) => !y.left.isEmpty
      items := s.items.map fun (w : Item) => if w.id == c.item && w.fail.isNone then { w with fail := some x.cause } else w }

/-- Submitting a collective: its engine item, accepted last of its die's order, and its progress (R364, R366). -/
def addColl (w : Item) (c : Coll) (s : State) : State := joinColl w.ctx c (s.accept w)

/-- The collective that the end of a group fires for its result tile (R371, R372). -/
def fireTile (l : Launch) (g : GroupKey) (x : Group) (s : State) : State :=
  let comm := l.rc.collComm - 1
  let n := (tgetD (s.die x.die).comms comm ⟨false, false, 0, 0, 0, 0, 0, 0, 0⟩).nranks
  let op := bitsOf l.rc.collOp 3 0
  let b := l.rc.tileB
  let src := l.rc.tileSrc + g.glin * b
  let need := if op == 0 then b else b / n
  let dst := l.rc.collDst + g.glin * need
  let w := { Item.blank s.nextId x.die l.ctx ⟨g, 0x7FF, .a⟩ .coll with
    regions := [⟨.mem .chip, src, src + b, false⟩, ⟨.mem .chip, dst, dst + need, true⟩], total := need }
  let c : Coll :=
    { id := s.nextId + 1, die := x.die, comm := comm, order := 0, op := op, dt := bitsOf l.rc.collOp 7 4, count := need / 4,
      root := 0, src := src, dst := dst, clog := 16, prio := bitsOf l.rc.collOp 10 8,
      scope := (lget l.rc.tiers 1 ⟨0, 0, 0, 0, 0⟩).scope, tile := some g.glin, launch := l.id, map := none, dmem := true, pos := 0, sent := [], got := 0,
      need := need, since := s.cycle, item := s.nextId }
  addColl w c ({ s with nextId := s.nextId + 2 }.modLaunch l.id fun l => { l with fired := g.glin :: l.fired })

/-! ## The end of a group -/

/-- The account of a context (R259), and the balances of a die's account. -/
def State.acct (s : State) (die n : Nat) : Acct := lget (s.die die).accts n Acct.zero
def State.modAcct (s : State) (die n : Nat) (f : Acct → Acct) : State :=
  s.modDie die fun d => { d with accts := lmod d.accts n f }
/-- What an account uses up; one of whose balances then reaches zero raises SLICE (R265, R286). -/
def State.spend (s : State) (die n : Nat) (f : Acct → Acct) : State :=
  let a := s.acct die n
  let b := f a
  let s := s.modAcct die n fun _ => b
  if (0 < a.core && b.core ≤ 0) || (0 < a.hbm && b.hbm ≤ 0) || (0 < a.fab && b.fab ≤ 0) then
    raiseShed die ⟨.slice, 0, 0, n, 0, false⟩ s
  else s
def State.acctOf (s : State) (c : Nat) : Nat :=
  match s.ctx c with
  | some x => x.d.bclass
  | none => 0

/-- Whether a group holds its core beyond its DRAIN_LIMIT (R288). -/
def Life.overruns : Life → Bool
  | .overrunning => true
  | .discarding => true
  | .running | .draining | .saved | .ended => false

/-- The end of a group's overrun is logged with what it has been charged (R288, R290). -/
def logDebt (g : GroupKey) (x : Group) (s : State) : State :=
  match s.launch g.launch with
  | some l =>
    if x.life.overruns then
      let a := s.acctOf l.ctx
      logPlain l.ctx evDebt a l.id (x.size * (s.cycle - x.since)) (s.acct x.die a).debt s
    else s
  | none => s

/-- The latest repl store of each die among a group's strands (R276). -/
def joinOuts (g : GroupKey) (t : Table Nat Nat) (l : List (StrandKey × Strand)) : Table Nat Nat :=
  l.foldl (fun t e =>
    match e.2.replOut with
    | some (d, n) => if e.1.grp == g && tgetD t d 0 < n then tset t d n else t
    | none => t) t

/-- Whether a request is for an operation that satisfies a condition. -/
def State.reqOf (s : State) (c : Pend → Bool) (r : GlobReq) : Bool := r.op.any fun o => s.pend.any fun p => p.id == o && c p

/-- Whether the home of a gate is on another module: it has moved there, or was made there and never came (R332, R338). -/
def State.gateFar (s : State) (gid : Nat) : Bool :=
  match tget s.gates gid with
  | some g => decide (8 ≤ g.home)
  | none => bitsOf gid 35 16 != s.modId

/-- Gate operations are withdrawn: a home on another module is told of those that it has not answered (R337). -/
def dropGates (p : GateOp → Bool) (s : State) : State :=
  { s with
    gateOps := s.gateOps.filter fun o => !p o
    out := s.out ++ s.gateOps.filterMap fun (o : GateOp) =>
      if p o && o.away.isNone && (o.st == .sent || o.st == .waiting) && s.gateFar o.gid then
        some (.gateDrop (((s.group o.owner.grp).map (·.die)).getD 0) o.gid o.id)
      else none }

/-- The end of a group (R277): its strands and threads are gone, what it had not committed is squashed, its gang goes on without it,
its launch counts it, and its bind record may be done. Its committed engine items run to completion (R109), those still held on a
handle too: nothing is left that could free the handle (DEDUCED, log 34). A group that ends of itself fires its tile (R372). -/
def endGroup (g : GroupKey) (fires : Bool) (s : State) : State :=
  match s.group g with
  | none => s
  | some x =>
    if x.life == .ended then s
    else
      let s := s.modLaunch g.launch fun l => { l with outs := joinOuts g l.outs s.strands, ended := l.ended + 1 }
      let s := logDebt g x s
      let gone := fun (p : Pend) => p.owner.grp == g && !(p.committed && match p.kind with | .gate _ => false | _ => true)
      let s := { s with
        strands := s.strands.filter fun e => e.1.grp != g
        threads := s.threads.filter fun e => e.1.grp != g
        pend := s.pend.filter fun p => !gone p
        globs := s.globs.filter fun (r : GlobReq) => !s.reqOf gone r
        held := s.held.filter fun (h : Held) => h.owner.grp != g || h.committed
        items := s.items.map fun (w : Item) => if w.owner.grp == g then { w with held := false } else w }
      let s := (dropGates (·.owner.grp == g) s).modGroup g fun y => { y with life := .ended, circ := [] }
      let s := if x.gang then wakeBars (gangLeave g (x.ownerKey g) s) else s
      let s := clearBinds x.die (s.die x.die).binds s
      match s.launch g.launch with
      | some l =>
        if fires && l.rc.collComm != 0 && !l.killed then fireTile l g x s else s
      | none => s

def endGroups (fires : Bool) : List GroupKey → State → State
  | [], s => s
  | g :: l, s => endGroups fires l (endGroup g fires s)

/-- Revoking every bind record of a launch (R272). -/
def revokeBinds (p : Bind → Bool) (s : State) : State :=
  { s with dies := s.dies.map fun d =>
      { d with binds := d.binds.map fun e => if p e.2 then (e.1, { e.2 with valid := false }) else e } }

/-- Killing a launch (R109): no further group is placed, and every group of it ends. -/
def killLaunch (l : Nat) (s : State) : State :=
  let s := s.modLaunch l fun x => { x with killed := true }
  let s := revokeBinds (·.launch == l) s
  endGroups false ((s.groups.filter fun e => e.1.launch == l && e.2.life != .ended).map (·.1)) s

/-- The kill of a launch that uses a failed or fenced structure (R341), with its BLAST event. -/
def blastLaunch (l cls num : Nat) (s : State) : State :=
  match s.launch l with
  | some x =>
    let yp := match s.ctx x.ctx with
      | some c => c.d.yard * 256 + c.d.pen
      | none => 0
    killLaunch l (logPlain x.ctx evBlast cls l num yp s)
  | none => s

/-! ## The fault record and taking a trap (R104 to R107) -/

/-- The words of a fault record (Table 5.2). -/
def faultWords (k : StrandKey) (x : Strand) (fa : FaultAt) (t : TrapInfo) : List Word :=
  let w := fun (n : Nat) => BitVec.ofNat 32 n
  let fpc := match fa with
    | .fetch => t.va
    | .header => x.cpc.toNat
    | .word => x.pc.toNat
  let (insn, lit) := match fa with
    | .word =>
      match x.word with
      | some v => (v.toNat, if isXForm v then ((x.litWord).getD 0#32).toNat else 0)
      | none => (0, 0)
    | _ => (0, 0)
  let (slot, elem) := match t.slot with
    | some (sl, e) => (256 * b2n t.slv + sl, e)
    | none => (0, 0)
  let va := va57 t.va
  [w (t.cause.code + 256 * b2n (k.kind == .x) + 512 * b2n x.inHandler + 65536 * t.code), w k.tid, w k.grp.launch,
   w (k.grp.launch / 2 ^ 32), w k.grp.glin, w (k.grp.glin / 2 ^ 32), w fpc, w (fpc / 2 ^ 32), w x.cpc.toNat,
   w (x.cpc.toNat / 2 ^ 32), w va, w (va / 2 ^ 32), w insn, w lit, w (slot + 65536 * (elem / 2 ^ 32 % 256)), w elem]

/-- The bytes of one line of a record whose word `w0` is not yet written. -/
def faultLine (rec_ : List Word) (i : Nat) : List Byte :=
  (List.range 8).flatMap fun j => toBytes 4 (if i + j == 0 then 0xFFFFFFFF else (lget rec_ (8 * i + j) 0#32).toNat)

/-- Writing the record to FAULT_AREA (R105): the slot is claimed by a compare-and-swap that expects 0, `w1` to `w15` follow, and `w0` comes
last. A claimed slot counts a dropped fault; a write that fails counts one too and is logged, and what it had claimed stays. -/
def writeFault (k : StrandKey) (l : Launch) (rec_ : List Word) (s : State) : State :=
  if l.rc.faultArea == 0 then s
  else
    match s.liveCtx l.ctx with
    | none => s
    | some c =>
      let a := l.rc.faultArea + 128 * k.tid + 64 * b2n (k.kind == .x)
      let drop := fun (s : State) => s.modLaunch l.id fun y => { y with dfc := y.dfc + 1 }
      let fails := fun (s : State) => drop (logPlain l.ctx evLogFail 2 l.id a 0 s)
      let die := ((s.group k.grp).map (·.die)).getD (s.homeDie c)
      match devWordE c.d die a s with
      | (none, e, s) => fails (logWalks l.ctx e s)
      | (some w0, _, s) =>
        if w0 != 0 then drop s
        else
          match devWriteE c.d die a (faultLine rec_ 0) s with
          | (false, e, s) => fails (logWalks l.ctx e s)
          | (true, _, s) =>
            match devWriteE c.d die (a + 32) (faultLine rec_ 1) s with
            | (false, e, s) => fails (logWalks l.ctx e s)
            | (true, _, s) =>
              match devWriteE c.d die a (toBytes 4 (lget rec_ 0 0#32).toNat) s with
              | (false, e, s) => fails (logWalks l.ctx e s)
              | (true, _, s) => s

/-- Where a skip goes on after a fault (R108): past the faulting word, or at the next clause header. -/
def Strand.skipPoint (x : Strand) (fa : FaultAt) : BitVec 57 × Bool :=
  match fa with
  | .fetch => (x.cpc, false)
  | .header => (x.nextHdr, false)
  | .word =>
    match x.word with
    | some w =>
      let len := if isXForm w then 2 else 1
      if isTransfer w || x.isLast len then (x.nextHdr, false) else (x.pc + BitVec.ofNat 57 (4 * len), true)
    | none => (x.nextHdr, false)

/-- The record of a precise trap (R104, R105): walk errors are logged, and the record goes to sr.fault and to FAULT_AREA. -/
def recordTrap (k : StrandKey) (fa : FaultAt) (t : TrapInfo) (s : State) : State :=
  match s.strand k, s.launch k.grp.launch with
  | some x, some l =>
    let rec_ := faultWords k x fa t
    let s := logWalk l.ctx l.id t.va t.errs s
    let s := t.evs.foldl (fun s e => logEvent l.ctx e s) s
    let s := s.modStrand k fun y => { y with fault := rec_ }
    writeFault k l rec_ s
  | _, _ => s

/-- What follows the record (R106, R107, R109, R110): the strand enters its handler, or the launch is killed where there is none or
the strand is in it. -/
def enterTrap (k : StrandKey) (fa : FaultAt) (code : Nat) (s : State) : State :=
  match s.strand k, s.launch k.grp.launch with
  | some x, some l =>
    let h := match k.kind with
      | .a => l.rc.aHandler
      | .x => l.rc.xHandler
    if h != 0 && !x.inHandler then
      let sk := x.skipPoint fa
      s.modStrand k fun y =>
        { y with inHandler := true, hWb := y.wb, hCpc := y.cpc, hFpc := y.pc, hAt := fa, hSkip := sk.1, hSkipIn := sk.2,
                 wb := l.rc.handlerWb }.goto (pcOf h)
    else
      let w := fun i => (lget x.fault i 0#32).toNat
      killLaunch l.id (logPlain l.ctx evFaultKill code l.id (w 0 + 2 ^ 32 * w 1) (w 6 + 2 ^ 32 * w 7) s)
  | _, _ => s

/-- TAKING A PRECISE TRAP (R104 to R107, R109, R110). `s` is the state before the faulting word, so every entry that it popped is
back in its queue (R51). -/
def takeTrap (k : StrandKey) (fa : FaultAt) (t : TrapInfo) (s : State) : State :=
  enterTrap k fa t.cause.code (recordTrap k fa t s)

/-- A trap that several strands take at once at the words they stand at (R124, R126): every record is written before any kill. -/
def takeTraps (ks : List StrandKey) (t : TrapInfo) (s : State) : State :=
  ks.foldl (fun s k => enterTrap k .word t.cause.code s) (ks.foldl (fun s k => recordTrap k .word t s) s)

/-- THE RETURN FROM A HANDLER (R108): the in-handler state ends, WB is restored, and the strand retries the faulting word or header,
or goes on past it. -/
def Strand.tret (x : Strand) (skip : Bool) : Strand :=
  let y := { x with inHandler := false, wb := x.hWb, redo := x.redo && !(skip && x.hAt != FaultAt.fetch) }
  match x.hAt with
  | .fetch => y.resume x.hCpc x.hCpc
  | .header => if skip then y.goto x.hSkip else y.resume x.hCpc x.hCpc
  | .word =>
    if skip then if x.hSkipIn then y.resume x.hCpc x.hSkip else y.goto x.hSkip
    else y.resume x.hCpc x.hFpc

end Sys2Proof.Machine
end

