-- ==== Sys2Proof/Machine/Contain.lean ====
section
/-! DEFINITION. Containment: who holds state in a shared structure, uncorrectable errors and fences (R340, R341, R388); and the running
of a word's meaning. -/

namespace Sys2Proof.Machine

/-! ## Ownership (R340, Table 15.15) -/

/-- Whether a frame is held by the pair of a context: its pen, or its whole yard (Table 12.2). -/
def frameHolder (w : Word) (d : CtxDesc) : Bool := frameValid w && frameYard w == d.yard && (framePen w == 0xFF || framePen w == d.pen)

/-- The unit of a cluster in which an item stands: 0 the copy unit, 1 the tile engine (R197). -/
def ItemKind.unit : ItemKind → Option Nat
  | .cpt | .cps | .job _ => some 0
  | .tmov => some 1
  | .array | .node .. | .mcst _ | .coll => none

/-- The structure of class 3 that serves an item: its number is twice the cluster's, plus one for the tile engine. -/
def State.unitOf (s : State) (w : Item) : Option (Nat × Nat) :=
  match w.kind.unit, s.group w.owner.grp with
  | some u, some x => some (x.die, 2 * (x.core / 8) + u)
  | _, _ => none

/-- Whether a launch of a context holds state in a structure of a die. Class 0, a core, is a block that a governor may fence (R388);
class 4 numbers a link by the die at its other end; class 6 has the queues as 0 and graph memory as 1. -/
def State.holds (s : State) (die cls num : Nat) (l : Launch) (c : Ctx) : Bool :=
  let d := c.d
  let x := s.die die
  let mine := fun (p : Packet) => p.ctx == l.ctx
  match cls with
  | 0 => s.groups.any fun e => e.1.launch == l.id && e.2.die == die && e.2.core == num && e.2.life != .ended && e.2.life != .saved
  | 1 => s.areas.any fun a => a.die == die && a.yard == d.yard && (a.pen == 0xFF || a.pen == d.pen) &&
      (List.range ((a.hi - a.lo) / 256)).any fun i => hbmChan (a.lo + 256 * i) == num
  | 2 => (List.range 8).any fun i => frameHolder (s.frame die (8 * num + i)) d
  | 3 => s.items.any fun (w : Item) => w.owner.grp.launch == l.id && s.unitOf w == some (die, num)
  | 4 =>
    s.air.any (fun a => ((a.1 == die && a.2.1 == num) || (a.1 == num && a.2.1 == die)) && mine a.2.2) ||
      s.globs.any fun (r : GlobReq) => r.ctx == l.ctx && ((r.die == die && r.tdie == num) || (r.die == num && r.tdie == die))
  | 5 =>
    let p := lget x.ports num Port.zero
    p.sent.any (fun (f : Flit) => f.ctx == l.ctx) || tgetD p.allow (.share d.keyid) 0 != 0 || tgetD p.shares d.keyid 0 != 0
  | 6 =>
    if num == 0 then s.homeDie c == die && c.queues.any fun q => q.2.cmd.isSome || q.2.head != q.2.tail
    else x.graphs.any fun g => g.2.ctx == l.ctx
  | 7 => x.repl.paddock.any mine || x.repl.outLog.any fun o => o.any mine
  | 8 => s.gates.any fun g => g.2.home == die && g.2.acl.any fun a => a.tenant == d.tenant && (a.sig || a.wait || a.read)
  | 9 =>
    let k := lget x.keySlots num KeySlot.zero
    k.state == .live && k.keyid == (s.yard d.yard).keyid
  | _ => false

/-- The launches of a blast set. -/
def State.blastSet (s : State) (die cls num : Nat) : List Nat :=
  (s.launches.filter fun e => match s.ctx e.2.ctx with
    | some c => !e.2.killed && s.holds die cls num e.2 c
    | none => false).map (·.1)

/-! ## Uncorrectable errors (R341) -/

/-- An uncorrectable error in a structure: its blast set is killed, the engine work in it fails, and it is fenced, which the physical
function's log records (R289, log 47). What only uses it later fails when it does. -/
def uncorrectable (die cls num : Nat) (s : State) : State :=
  if s.isFenced die cls num then s
  else
    let l := s.blastSet die cls num
    let s := s.modDie die fun d =>
      { d with sfence := (cls, num) :: d.sfence, telem := { d.telem with uecc := count64 d.telem.uecc 1 } }
    let s := (raiseShed die ⟨.error, 0, 0, cls, num, false⟩ s).pfEvent ⟨evBlast, cls, 0xFFFF, 0, num, 0⟩
    let s := { s with items := s.items.map fun (w : Item) =>
        if cls == 3 && s.unitOf w == some (die, num) then { w with fail := some .hpsn } else w }
    l.foldl (fun s n => blastLaunch n cls num s) s

/-- The use of a structure that has failed or is fenced: the error is delivered, and the launch that met it is killed (R230, R341). -/
def blastUse (l die cls num : Nat) (s : State) : State :=
  let s := uncorrectable die cls num s
  match s.launch l with
  | some x => if x.killed then s else blastLaunch l cls num s
  | none => s

/-- A strand whose word waits, since when it has waited for that: a word that is tried again on a queue waits on (R119, R124). -/
def Strand.waits (b : Block) (now : Nat) (x : Strand) : Strand :=
  { x with blk := b, blkAt := if x.blk == b || (x.blk == .again && b == .queue) then x.blkAt else now }

/-- Running the meaning of the word that the strand issues: its effect, the trap it takes, or the block under which it waits
(R71, R103, R119). -/
def runWord (k : StrandKey) (m : Exec Unit) (s : State) : Host.Outcome State Fault Refusal :=
  match m s with
  | .ok (_, s') => .next s'
  | .error (.trap t at_) => .next (takeTrap k .word t { s with tlb := at_.tlb, free := at_.free, dies := at_.dies })
  | .error (.block b) =>
    .next (s.modStrand k (·.waits b s.cycle))
  | .error (.blast d c n) => .next (blastUse k.grp.launch d c n s)
  | .error (.fault f) => .fault f
  | .error (.refuse r) => .refused r

end Sys2Proof.Machine
end

