-- ==== Sys2Proof/Machine/Operands.lean ====
section
/-! DEFINITION. Operands: register fields, queue ports, windows and tags, and the order of a word's checks (R28 to R35, R51, R71). -/

namespace Sys2Proof.Machine

/-! ## Fields (R28 to R31, R35) -/

/-- A group of `w` registers starts at a multiple of `w`; queue ports and `zr` are named alone (R30). -/
def alignedReg (n : RegNo) (w : Nat) : Bool := (decide (120 ≤ n.toNat) && n != 127#7) || n.toNat % w == 0

/-- Whether a strand may read a field, or write it (R31, Table 2.4); 127 is neither (Table 2.3). -/
def canRead (k : StrandKind) (n : RegNo) : Bool :=
  decide (n.toNat < 120) || n.toNat == 126 || (popPort k n.toNat).isSome
def canWrite (k : StrandKind) (n : RegNo) : Bool :=
  decide (n.toNat < 120) || n.toNat == 126 || (pushPort k n.toNat).isSome

/-- Whether `w` registers from field `n` lie inside the allocation (R29). -/
def Strand.inWindow (x : Strand) (n : RegNo) (w : Nat) : Bool :=
  decide (120 ≤ n.toNat) || decide (x.wb + n.toNat + w ≤ x.regs.length)

/-- The tags an operand accepts (R51): any; a listed one; or on the two registers of a pair a low and a high tag. -/
inductive Accept where
  | any
  | one (l : List Tag)
  | pair (lo hi : Tag)
deriving DecidableEq, Repr

/-- The int tags (Table 3.5). -/
def Accept.int : Accept := .one [1#5, 2#5]
def Accept.f32 : Accept := .one [3#5]
def Accept.f64 : Accept := .pair 11#5 12#5
def Accept.i64 : Accept := .pair 13#5 14#5
def Accept.lns : Accept := .one [10#5]

/-- Whether register `i` of an operand may carry a tag (R51, R52). -/
def Accept.ok (c : Accept) (i : Nat) (t : Tag) : Bool :=
  match c with
  | .any => true
  | .one l => l.contains t
  | .pair lo hi => t == (if i == 0 then lo else hi)

/-- The tag that reading `zr` yields (R31). -/
def Accept.zrTag (c : Accept) (i : Nat) : Tag :=
  match c with
  | .any => 0#5
  | .one l => if l.contains 0#5 then 0#5 else if l.contains 1#5 && l.contains 2#5 then 1#5 else l.headD 0#5
  | .pair lo hi => if i == 0 then lo else hi

def tagsOkGo (c : Accept) : Nat → List TVal → Bool
  | _, [] => true
  | i, v :: l => c.ok i v.tag && tagsOkGo c (i + 1) l

/-- The tag check of one operand (R51). -/
def Accept.okAll (c : Accept) (l : List TVal) : Bool := tagsOkGo c 0 l

/-- An operand that a word reads: field, registers and accepted tags. -/
structure Opnd where
  n : RegNo
  w : Nat := 1
  acc : Accept := .any
deriving DecidableEq, Repr

/-- What the checks of a word need (R35): its class, its length, whether it is a control transfer, whether a field or immediate is
out of its range, the operands it reads in the order a, b, d (R31), the fields it writes, and further registers of the window that
it uses (R186). -/
structure WordForm where
  cls : Nat
  len : Nat := 1
  transfer : Bool := false
  rsv : Bool := false
  a : Option Opnd := none
  b : Option Opnd := none
  d : Option Opnd := none
  out : Option (RegNo × Nat) := none
  more : Option (RegNo × Nat) := none
deriving DecidableEq, Repr

/-- Table 2.5. -/
def classOk (c : Nat) (k : StrandKind) : Bool :=
  if c == 5 || c == 6 || c == 7 || c == 11 then k == .x
  else if c == 9 || c == 10 || c == 12 || c == 13 then k == .a
  else true

/-- The operands a word reads, in order. -/
def WordForm.ins (sp : WordForm) : List Opnd := sp.a.toList ++ sp.b.toList ++ sp.d.toList

/-- The encoding or window fault of a word, first in the order of R35. -/
def WordForm.encFault (sp : WordForm) (k : StrandKind) (x : Strand) : Option Cause :=
  if !classOk sp.cls k then some .istr
  else if sp.transfer && !x.isLast sp.len then some .icls
  else if sp.rsv || sp.ins.any (fun o => !alignedReg o.n o.w) || sp.out.any (fun o => !alignedReg o.1 o.2) then some .irsv
  else if sp.ins.any (fun o => !canRead k o.n) || sp.out.any (fun o => !canWrite k o.1) then some .iqpt
  else if sp.ins.any (fun o => !x.inWindow o.n o.w) || sp.out.any (fun o => !x.inWindow o.1 o.2) ||
    sp.more.any (fun o => !x.inWindow o.1 o.2) then some .winf
  else none

/-! ## Reading -/

/-- The strand whose word issues. -/
def curStrand : Exec (StrandKey × Strand) := fun s =>
  match s.strand s.cur with
  | some x => .ok ((s.cur, x), s)
  | none => .error (.refuse .noStrand)

/-- `w` registers of the window from field `n`. -/
def Strand.regsAt (x : Strand) (n : RegNo) : Nat → List TVal
  | w => (List.range w).map fun i => lget x.regs (x.wb + n.toNat + i) ⟨0#32, 0#5⟩

/-- Popping `w` entries (R122), or blocking; QDLK at once where the port is empty and the strand that pushes it has ended (R85). -/
def popVals (k : StrandKey) (q : QName) (w : Nat) : Exec (List TVal) := fun s =>
  match s.thread k.thread with
  | none => .error (.refuse .noStrand)
  | some t =>
    let qu := t.q q
    if qu.ready w then
      .ok ((List.range w).map fun i => (qu.front i).getD ⟨0#32, 0#5⟩, s.modQ k.thread q (·.popN w))
    else
      match pusherOf q with
      | some p =>
        if qu.p ≤ qu.q && s.hasEnded { k with kind := p } then .error (.trap { cause := .qdlk } s) else .error (.block .queue)
      | none => .error (.block .queue)

/-- `reg(n)` of Table 2.21 for an operand (R28 to R31). -/
def readOpnd (k : StrandKey) (x : Strand) (o : Opnd) : Exec (List TVal) :=
  if o.n.toNat < 120 then pure (x.regsAt o.n o.w)
  else
    match popPort k.kind o.n.toNat with
    | some q => popVals k q o.w
    | none => pure ((List.range o.w).map fun i => ⟨0#32, o.acc.zrTag i⟩)

def readOpt (k : StrandKey) (x : Strand) (o : Option Opnd) : Exec (List TVal) :=
  match o with
  | some o => readOpnd k x o
  | none => pure []

/-- The tag check of an operand that the word reads. -/
def tagsOk (o : Option Opnd) (l : List TVal) : Bool :=
  match o with
  | some o => o.acc.okAll l
  | none => true

/-- The operand values of a word and where it stands. -/
structure Vals where
  k : StrandKey
  x : Strand
  a : List TVal
  b : List TVal
  d : List TVal

/-- The steps 1 to 4 of R71: encoding and window faults, reads in the order a, b, d, tags. `va` is the address that an FTAG records
(R146). -/
def readWordAt (sp : WordForm) (va : Vals → Nat) : Exec Vals := do
  let (k, x) ← curStrand
  match sp.encFault k.kind x with
  | some c => trap c
  | none =>
    let a ← readOpt k x sp.a
    let b ← readOpt k x sp.b
    let d ← readOpt k x sp.d
    if tagsOk sp.a a && tagsOk sp.b b && tagsOk sp.d d then pure ⟨k, x, a, b, d⟩
    else trapWith { cause := .ftag, va := va ⟨k, x, a, b, d⟩ }

/-- The same for a word whose FTAG records no address. -/
def readWord (sp : WordForm) : Exec Vals := readWordAt sp fun _ => 0

/-! ## Writing -/

/-- Writing `vs` to registers from physical number `n` on. -/
def Strand.setRegs (x : Strand) (n : Nat) : List TVal → Strand
  | [] => x
  | v :: l => (x.setPhys n v).setRegs (n + 1) l

/-- Whether the strand that alone pops a queue has ended, so that a push is discarded (R85). -/
def State.deadPort (s : State) (k : StrandKey) (q : QName) : Bool :=
  match popperOf q with
  | some p => s.hasEnded { k with kind := p }
  | none => false

/-- Pushing values, all together (R122). -/
def Queue.pushAll (q : Queue) : List TVal → Queue
  | [] => q
  | v :: l => (q.push v).pushAll l

def pushVals (k : StrandKey) (q : QName) (vs : List TVal) : Exec Unit := fun s =>
  match s.thread k.thread with
  | none => .error (.refuse .noStrand)
  | some t =>
    if s.deadPort k q || vs.isEmpty then .ok ((), s)
    else if (t.q q).room vs.length then .ok ((), s.modQ k.thread q (·.pushAll vs))
    else .error (.block .queue)

/-- `setreg(n, v)` of Table 2.21 (R28 to R31), the window base being that of `x`. -/
def writeVals (k : StrandKey) (x : Strand) (n : RegNo) (vs : List TVal) : Exec Unit :=
  if n.toNat < 120 then act (·.modStrand k (·.setRegs (x.wb + n.toNat) vs))
  else
    match pushPort k.kind n.toNat with
    | some q => pushVals k q vs
    | none => pure ()

/-- Log entries, then the next word (R71 step 7, R18). -/
def done (v : Vals) (len : Nat) (lg : Log) : Exec Unit :=
  act fun s => (alogFor v.k v.k.tid v.x.cpc lg s).modStrand v.k (·.advance len)

/-- A word that computes register or queue values from its operands: classes 0x0, 0x1, 0x3, 0x5 and 0x6 (R71). -/
def valueWord (sp : WordForm) (f : Vals → List TVal × Log) : Exec Unit := do
  let v ← readWord sp
  let r := f v
  match sp.out with
  | some o => writeVals v.k v.x o.1 r.1
  | none => pure ()
  done v sp.len r.2

/-- A word that computes a predicate (R79, R80). -/
def predWord (sp : WordForm) (pd : BitVec 7) (f : Vals → Bool × Log) : Exec Unit := do
  let v ← readWord sp
  let r := f v
  act (·.modStrand v.k (·.setPred pd r.1))
  done v sp.len r.2

/-! ## Values of operands -/

/-- The bits of a one-register operand, and of a pair, low word first (R30). -/
def v32 (l : List TVal) : Nat := (l.headD ⟨0#32, 0#5⟩).bits.toNat
def v64 (l : List TVal) : Nat := v32 l + 2 ^ 32 * v32 (l.drop 1)
/-- The tag of the first register of an operand. -/
def vtag (l : List TVal) : Tag := (l.headD ⟨0#32, 0#5⟩).tag

/-- A one-register result. -/
def ret1 (t : Tag) (w : Word) (lg : Log := {}) : List TVal × Log := ([⟨w, t⟩], lg)
/-- A pair result with its low and high tags. -/
def ret2 (lo hi : Tag) (w : BitVec 64) (lg : Log := {}) : List TVal × Log :=
  ([⟨w.extractLsb' 0 32, lo⟩, ⟨w.extractLsb' 32 32, hi⟩], lg)

/-! ## Long-latency words (R24 to R27) -/

/-- The completion flag a long-latency word selects; none when it is synchronous (R24, R25). -/
def Strand.selFlag (x : Strand) (fb : Bool) : Option Nat :=
  let f := if fb then hdrFlagB x.hdr else hdrFlagA x.hdr
  if f == 15 then none else some f

/-- A count of 15 stalls the word at issue (R25). -/
def flagRoom (x : Strand) (fb : Bool) : Exec Unit :=
  match x.selFlag fb with
  | some f => if 15 ≤ lget x.flags f 0 then block .flag else pure ()
  | none => pure ()

/-- Reserving queue entries in order (R122), each a replayed one dropped (R138). -/
def Queue.reserveAll (q : Queue) : Nat → List (Option Nat) × Queue
  | 0 => ([], q)
  | n + 1 =>
    let r := q.reserve
    let t := r.2.reserveAll n
    (r.1 :: t.1, t.2)

/-- The places of a long-latency result: physical registers named at issue (R82), reserved queue entries, or none. -/
def places (k : StrandKey) (x : Strand) (n : RegNo) (w : Nat) : Exec (List Place) :=
  if n.toNat < 120 then pure ((List.range w).map fun i => .reg (x.wb + n.toNat + i))
  else
    match pushPort k.kind n.toNat with
    | none => pure (List.replicate w .drop)
    | some q => fun s =>
      match s.thread k.thread with
      | none => .error (.refuse .noStrand)
      | some t =>
        if s.deadPort k q then .ok (List.replicate w .drop, s)
        else if (t.q q).room w then
          let r := (t.q q).reserveAll w
          .ok (r.1.map fun
            | some i => .port q i
            | none => .drop, s.modQ k.thread q fun _ => r.2)
        else .error (.block .queue)

/-- Whether every place is a register or nowhere, or its queue has room for it. -/
def placesRoom (k : StrandKey) (n : RegNo) (w : Nat) : Exec Unit :=
  match pushPort k.kind n.toNat with
  | none => pure ()
  | some q => fun s =>
    match s.thread k.thread with
    | none => .error (.refuse .noStrand)
    | some t => if n.toNat < 120 || s.deadPort k q || (t.q q).room w then .ok ((), s) else .error (.block .queue)

/-- A fresh identifier of an operation, item or request. -/
def freshId : Exec Nat := fun s => .ok (s.nextId, { s with nextId := s.nextId + 1 })

/-- A pending operation with nothing decided but its owner. -/
def Pend.blank (id : Nat) (k : StrandKey) (x : Strand) (fb : Bool) (len : Nat) : Pend :=
  { id := id, owner := k, flag := x.selFlag fb, committed := false, cpc := x.cpc, fpc := x.pc, len := len, kind := .ready, places := [],
    tags := [], dests := [], invl := false, divz := false, ovfl := false, unfl := false }

def Pend.withLog (p : Pend) (lg : Log) : Pend :=
  { p with invl := lg.invl, divz := lg.divz, ovfl := lg.ovfl, unfl := lg.unfl }

/-- Issuing a pending operation: its flag counts it and the strand goes on, or the strand waits in the word until it completes
(R25). -/
def issuePend (p : Pend) (s : State) : State :=
  let s := { s with pend := s.pend ++ [p] }
  s.modStrand p.owner fun x =>
    match p.flag with
    | some f => { x with flags := lmod x.flags f (· + 1) }.advance p.len
    | none => { x with phase := .sync p.id, blk := .none }

/-- A word of class 0x7 (R94): operands read and result fixed at issue; the result and the log entries come at completion, at once
when the word is synchronous. -/
def mathWord (fb : Bool) (sp : WordForm) (f : Vals → List TVal × Log) : Exec Unit := do
  let v ← readWord sp
  flagRoom v.x fb
  let r := f v
  match v.x.selFlag fb with
  | none =>
    match sp.out with
    | some o => writeVals v.k v.x o.1 r.1
    | none => pure ()
    done v sp.len r.2
  | some _ =>
    let pl ← match sp.out with
      | some o => places v.k v.x o.1 o.2
      | none => pure []
    let id ← freshId
    act (issuePend ({ Pend.blank id v.k v.x fb sp.len with dests := destsOf pl r.1 }.withLog r.2))

end Sys2Proof.Machine
end

