-- ==== Sys2Proof/Machine/Fresh.lean ====
section
/-! DEFINITION. Strands, threads and groups as they stand at their start, and the default launch record and context that a word
placed for the fetch runs in (R43, R121, R131, R173, R174, R202). -/

namespace Sys2Proof.Machine

def Queue.empty (depth : Nat) : Queue := ⟨depth, [], 0, 0, 0, 0⟩

/-- A thread at its start: the queues of QDEPTH, empty (Table 3.2, R121). -/
def Thread.fresh (slot now : Nat) (depth : List Nat) : Thread :=
  let q := fun i => Queue.empty (lget depth i 4)
  ⟨slot, now, q 0, q 1, q 2, q 3, q 4, q 4, q 5, q 5⟩

/-- A strand at its start (Table 3.1): at its entry header, not yet entered. -/
def Strand.fresh (entry : BitVec 57) (alloc : Nat) : Strand where
  cpc := entry
  pc := entry
  hdr := 0#32
  body := []
  phase := .header
  inside := false
  regs := List.replicate alloc ⟨0#32, 0#5⟩
  wb := 0
  preds := 0#128
  flags := List.replicate 12 0
  fault := List.replicate 16 0#32
  inHandler := false
  hWb := 0
  hCpc := 0#57
  hFpc := 0#57
  hAt := .word
  hSkip := 0#57
  hSkipIn := false
  rgn := ⟨entry, entry, 0, none, 0, 0, 0⟩
  redo := false
  prov := []
  replOut := none
  seqCopy := 0
  seqFab := 0
  blk := .none
  blkAt := 0

def Bar.zero : Bar := ⟨0, false, 0, 0⟩
def GangBar.zero : GangBar := ⟨0, false, 0, false, []⟩
def Tile.zero : Tile := ⟨List.replicate 128 0, List.replicate 128 .fin, 0, 0, false⟩
def Handle.zero : Handle := ⟨.free, false, false, false, 0#32, 0#32, 0, 0, 0, 0, 0, false, 0⟩

/-- A group at its placement: preloaded record slots, barriers, window, tiles and handles at their reset values (R131, R143, R155,
R174, R202). -/
def Group.fresh (rc : LaunchRec) (size die core owner now : Nat) (gang : Bool) : Group where
  size := size
  die := die
  core := core
  life := .running
  since := now
  owner := owner
  gang := gang
  slots := (List.range 32).map fun i => lget rc.brec i 0#256
  lslots := List.replicate 8 0#512
  bars := List.replicate 16 Bar.zero
  circ := []
  win := []
  handles := List.replicate rc.handles Handle.zero
  tiles := List.replicate rc.accs Tile.zero

/-! ## A word placed for the fetch -/

def CtxDesc.blank : CtxDesc where
  yard := 0
  pen := 0
  repl := false
  ctxid := 1
  vmid := 0
  asid := 0
  root1 := 0
  root2 := 0
  keyid := 0
  tenant := 0
  bclass := 0
  hostfn := 0
  qtable := 0
  evbase := 0
  evsize := 0
  vecbase := 0
  dbidx := 0
  urings := []

/-- The launch record under which a placed word runs: the largest of each group resource, no handler and no log. -/
def LaunchRec.blank : LaunchRec where
  overlap := false
  discardOk := false
  replUse := true
  prio := 0
  tierCount := 3
  barriers := 16
  accs := 16
  aAlloc := 128
  xAlloc := 128
  qdepth := [16, 16, 16, 16, 16, 16]
  aEntry := 0
  xEntry := 0
  scratch := 2 ^ 19
  cluster := 2 ^ 23
  handles := 128
  handlerWb := 0
  drainLimit := 0
  params := 0
  aHandler := 0
  xHandler := 0
  faultArea := 0
  alogBase := 0
  alogSize := 0
  alogMask := 0
  collComm := 0
  collOp := 0
  collMap := 0
  collDst := 0
  tileSrc := 0
  tileB := 0
  tiers := [⟨1, 1, 1, 0, 0⟩, ⟨1, 1, 1, 0, 1⟩, ⟨1, 1, 1, 2, 3⟩]
  fmt := List.replicate 8 0x00010739#32
  brec := List.replicate 8 0#256

/-- The clause header of a body of `n` words with no flag and no guard (Table 2.1). -/
def plainHdr (n : Nat) : Word := BitVec.ofNat 32 (0x000FF000 + 256 * (n - 1))

/-- The strand whose body is the placed words. -/
def Strand.holding (x : Strand) (body : List Word) : Strand :=
  { x with hdr := plainHdr body.length, body := body, pc := x.cpc + 4#57, phase := .body, inside := false, blk := .none }

end Sys2Proof.Machine
end

