-- ==== Sys2Proof/Machine/Items.lean ====
section
/-! DEFINITION. Engine work items: footprints, the edges between them, and acceptance (R197 to R199). -/

namespace Sys2Proof.Machine

/-- Whether two regions overlap and at least one is written (R198, R199). -/
def Region.conflicts (r q : Region) : Bool :=
  r.space == q.space && (r.write || q.write) && decide (max r.lo q.lo < min r.hi q.hi)

/-- The segment whose bytes a page holds, by its KIND (Table 12.5). -/
def Xl.seg (p : Xl) : Seg :=
  match p.kind with
  | 0 => if spaSpace p.spa == 1 then .loft else .chip
  | 1 => .repl
  | 2 => .host
  | _ => .glob

/-- The bytes from `lo` to `hi` − 1 of one page, in the space that its page gives them: slice-linear offsets for loft, and virtual addresses
otherwise. A page that is not mapped holds none. -/
def State.pageRegion (s : State) (d : CtxDesc) (lo hi : Nat) (wr : Bool) : Option Region :=
  match (xlate d lo s).1 with
  | .ok p =>
    match p.seg with
    | .loft =>
      let f := frameOfOff (spaOff p.spa)
      let lin := 65536 * (f % 128) + spaOff p.spa % 65536
      some ⟨.loft (spaDie p.spa) (f / 128), lin, lin + (hi - lo), wr⟩
    | .glob => some ⟨.glob s.modId (spaDie p.spa), lo, hi, wr⟩
    | g => some ⟨.mem g, lo, hi, wr⟩
  | .notValid _ | .failed .. => none

/-- A region in the space in which it is compared at present (R198). -/
def State.resolve (s : State) (ctx : Nat) (r : Region) : List Region :=
  match r.space, s.ctx ctx with
  | .va, some c =>
    (List.range ((r.lo % 65536 + (r.hi - r.lo) + 65535) / 65536)).filterMap fun i =>
      s.pageRegion c.d (max r.lo (r.lo / 65536 * 65536 + 65536 * i)) (min r.hi (r.lo / 65536 * 65536 + 65536 * (i + 1))) r.write
  | .va, none => []
  | _, _ => [r]

def State.regionsOf (s : State) (w : Item) : List Region := w.regions.flatMap (s.resolve w.ctx)

/-- Whether `w` has an edge from the earlier item `e` (R198, R199). -/
def State.edge (s : State) (w e : Item) : Bool :=
  e.die == w.die && e.ctx == w.ctx && (s.regionsOf e).any fun r => (s.regionsOf w).any r.conflicts

/-- Array commands of one circle on one tile keep their order (R181). -/
def Item.arrayBehind (w e : Item) : Bool :=
  e.owner.grp == w.owner.grp &&
    match w.arr, e.arr with
    | some a, some b => a.circle == b.circle && a.tile == b.tile
    | _, _ => false

/-- Whether every item that was accepted before item `id`, and on which it has an edge, has completed: items stand in the order of
acceptance, and a completed item is gone (R199). -/
def State.edgesMet (s : State) (w : Item) : List Item → Bool
  | [] => true
  | e :: l => if e.id == w.id then true else !(s.edge w e || w.arrayBehind e) && s.edgesMet w l

def State.itemFree (s : State) (w : Item) : Bool := s.edgesMet w s.items

def State.item (s : State) (id : Nat) : Option Item := s.items.find? (·.id == id)
def State.modItem (s : State) (id : Nat) (f : Item → Item) : State :=
  { s with items := s.items.map fun w => if w.id == id then f w else w }
def State.dropItem (s : State) (id : Nat) : State := { s with items := s.items.filter (·.id != id) }

/-- The yard of a context. -/
def State.yardOf (s : State) (ctx : Nat) : Nat :=
  match s.ctx ctx with
  | some c => c.d.yard
  | none => 0

/-- The context of a group's launch. -/
def State.ctxOf (s : State) (g : GroupKey) : Nat :=
  match s.launch g.launch with
  | some l => l.ctx
  | none => 0

/-- Bytes of slice-linear offsets of a core's loft slice (R172, R231). -/
def State.readLin (s : State) (die core : Nat) : Nat → Nat → List Byte
  | _, 0 => []
  | lin, n + 1 => s.loftByte (spaOfLin die core lin) :: s.readLin die core (lin + 1) n

def State.writeLin (s : State) (die core lin : Nat) : List Byte → State
  | [] => s
  | b :: l => (s.setLoftByte (spaOfLin die core lin) b).writeLin die core (lin + 1) l

/-- Whether every frame of a slice-linear range is one that a yard may use (R172, R233). -/
def State.linOk (s : State) (die core yard lin n : Nat) : Bool :=
  decide (lin + n ≤ 16 * 2 ^ 19) &&
    (List.range ((lin % 65536 + n + 65535) / 65536)).all fun i => s.frameOk die (frameOfLin core (lin + 65536 * i)) yard

end Sys2Proof.Machine
end

