-- ==== Sys2Proof/Machine/Integer.lean ====
section
/-! DEFINITION. Class 0x0, integer (R74, R75, Table 4.1), with the forms that the register classes share. -/

namespace Sys2Proof.Machine

/-! ## Forms -/

/-- An R word with one-register operands a and b and destination d. -/
def form3 (cls : Nat) (d a b : RegNo) (ta tb : Accept) : WordForm :=
  { cls := cls, a := some { n := a, acc := ta }, b := some { n := b, acc := tb }, out := some (d, 1) }

/-- An R or I word with one-register operand a and destination d. -/
def form2 (cls : Nat) (d a : RegNo) (ta : Accept) : WordForm :=
  { cls := cls, a := some { n := a, acc := ta }, out := some (d, 1) }

/-- As `form3`, with d read as well. -/
def form4 (cls : Nat) (d a b : RegNo) (ta tb td : Accept) : WordForm :=
  { form3 cls d a b ta tb with d := some { n := d, acc := td } }

/-- An R word over pairs. -/
def formP3 (cls : Nat) (d a b : RegNo) (t : Accept) : WordForm :=
  { cls := cls, a := some { n := a, w := 2, acc := t }, b := some { n := b, w := 2, acc := t }, out := some (d, 2) }

/-! ## Readings of operands -/

/-- An operand read as unsigned and as signed (R72). -/
def nval (l : List TVal) : Int := v32 l
def ival (l : List TVal) : Int := sext (v32 l) 32

/-- An int word with the tag of a, or a fixed tag. -/
def intWord (d a b : RegNo) (f : List TVal → List TVal → Int) (s : State) : Host.Outcome State Fault Refusal :=
  runWord s.cur (valueWord (form3 0 d a b .int .int) fun v => ret1 (vtag v.a) (low32 (f v.a v.b))) s

def intWordAs (t : Tag) (d a b : RegNo) (f : List TVal → List TVal → Int × Log) (s : State) : Host.Outcome State Fault Refusal :=
  runWord s.cur (valueWord (form3 0 d a b .int .int) fun v => let r := f v.a v.b; ret1 t (low32 r.1) r.2) s

def i32Tag : Tag := 1#5
def n32Tag : Tag := 2#5

/-- Division by zero returns 0xFFFFFFFF, the remainder by zero the dividend; both log DIVZ (R55). -/
def divLog (x y : Int) : Int × Log := if y == 0 then (0xFFFFFFFF, logDivz) else (Int.tdiv x y, noLog)
def remLog (x y : Int) : Int × Log := if y == 0 then (x, logDivz) else (Int.tmod x y, noLog)

/-! ## Table 4.1 -/

def execIadd (d a b : RegNo) (s : State) : Host.Outcome State Fault Refusal := intWord d a b (fun x y => nval x + nval y) s

def execIaddi (d a : RegNo) (im : BitVec 7) (s : State) : Host.Outcome State Fault Refusal :=
  runWord s.cur (valueWord (form2 0 d a .int) fun v => ret1 (vtag v.a) (low32 (nval v.a + sext im.toNat 7))) s

def execIsub (d a b : RegNo) (s : State) : Host.Outcome State Fault Refusal := intWord d a b (fun x y => nval x - nval y) s
def execImul (d a b : RegNo) (s : State) : Host.Outcome State Fault Refusal := intWord d a b (fun x y => nval x * nval y) s

def execImulhI (d a b : RegNo) (s : State) : Host.Outcome State Fault Refusal :=
  intWordAs i32Tag d a b (fun x y => (ival x * ival y / 2 ^ 32, noLog)) s

def execImulhN (d a b : RegNo) (s : State) : Host.Outcome State Fault Refusal :=
  intWordAs n32Tag d a b (fun x y => (nval x * nval y / 2 ^ 32, noLog)) s

def execImad (d a b : RegNo) (s : State) : Host.Outcome State Fault Refusal :=
  runWord s.cur (valueWord (form4 0 d a b .int .int .int) fun v =>
    ret1 (vtag v.d) (low32 (nval v.a * nval v.b + nval v.d))) s

/-- The exact 64-bit product as a pair (R74). -/
def wideWord (d a b : RegNo) (f : List TVal → List TVal → Int) (s : State) : Host.Outcome State Fault Refusal :=
  runWord s.cur (valueWord { form3 0 d a b .int .int with out := some (d, 2) } fun v =>
    ret2 13#5 14#5 (low64 (f v.a v.b))) s

def execImulwI (d a b : RegNo) (s : State) : Host.Outcome State Fault Refusal := wideWord d a b (fun x y => ival x * ival y) s
def execImulwN (d a b : RegNo) (s : State) : Host.Outcome State Fault Refusal := wideWord d a b (fun x y => nval x * nval y) s

def execIdivI (d a b : RegNo) (s : State) : Host.Outcome State Fault Refusal :=
  intWordAs i32Tag d a b (fun x y => divLog (ival x) (ival y)) s
def execIdivN (d a b : RegNo) (s : State) : Host.Outcome State Fault Refusal :=
  intWordAs n32Tag d a b (fun x y => divLog (nval x) (nval y)) s
def execIremI (d a b : RegNo) (s : State) : Host.Outcome State Fault Refusal :=
  intWordAs i32Tag d a b (fun x y => remLog (ival x) (ival y)) s
def execIremN (d a b : RegNo) (s : State) : Host.Outcome State Fault Refusal :=
  intWordAs n32Tag d a b (fun x y => remLog (nval x) (nval y)) s

def execIminI (d a b : RegNo) (s : State) : Host.Outcome State Fault Refusal :=
  intWordAs i32Tag d a b (fun x y => (min (ival x) (ival y), noLog)) s
def execIminN (d a b : RegNo) (s : State) : Host.Outcome State Fault Refusal :=
  intWordAs n32Tag d a b (fun x y => (min (nval x) (nval y), noLog)) s
def execImaxI (d a b : RegNo) (s : State) : Host.Outcome State Fault Refusal :=
  intWordAs i32Tag d a b (fun x y => (max (ival x) (ival y), noLog)) s
def execImaxN (d a b : RegNo) (s : State) : Host.Outcome State Fault Refusal :=
  intWordAs n32Tag d a b (fun x y => (max (nval x) (nval y), noLog)) s

def execIabs (d a : RegNo) (s : State) : Host.Outcome State Fault Refusal :=
  runWord s.cur (valueWord (form2 0 d a .int) fun v => ret1 i32Tag (low32 (ival v.a).natAbs)) s
def execIneg (d a : RegNo) (s : State) : Host.Outcome State Fault Refusal :=
  runWord s.cur (valueWord (form2 0 d a .int) fun v => ret1 i32Tag (low32 (-nval v.a))) s

/-- Clamping to the range of a type (R55). -/
def clampI (x : Int) : Int × Log := (clampInt (-(2 ^ 31)) (2 ^ 31 - 1) x, noLog)
def clampN (x : Int) : Int × Log := (clampInt 0 (2 ^ 32 - 1) x, noLog)

def execIaddsI (d a b : RegNo) (s : State) : Host.Outcome State Fault Refusal :=
  intWordAs i32Tag d a b (fun x y => clampI (ival x + ival y)) s
def execIaddsN (d a b : RegNo) (s : State) : Host.Outcome State Fault Refusal :=
  intWordAs n32Tag d a b (fun x y => clampN (nval x + nval y)) s
def execIsubsI (d a b : RegNo) (s : State) : Host.Outcome State Fault Refusal :=
  intWordAs i32Tag d a b (fun x y => clampI (ival x - ival y)) s
def execIsubsN (d a b : RegNo) (s : State) : Host.Outcome State Fault Refusal :=
  intWordAs n32Tag d a b (fun x y => clampN (nval x - nval y)) s

def pairInt (d a b : RegNo) (f : Int → Int → Int) (s : State) : Host.Outcome State Fault Refusal :=
  runWord s.cur (valueWord (formP3 0 d a b .i64) fun v => ret2 13#5 14#5 (low64 (f (v64 v.a) (v64 v.b)))) s

def execIadd64 (d a b : RegNo) (s : State) : Host.Outcome State Fault Refusal := pairInt d a b (fun x y => x + y) s
def execIsub64 (d a b : RegNo) (s : State) : Host.Outcome State Fault Refusal := pairInt d a b (fun x y => x - y) s

def execIxadd2 (d a b : RegNo) (s : State) : Host.Outcome State Fault Refusal := intWord d a b (fun x y => nval x + nval y * 2) s
def execIxadd4 (d a b : RegNo) (s : State) : Host.Outcome State Fault Refusal := intWord d a b (fun x y => nval x + nval y * 4) s
def execIxadd8 (d a b : RegNo) (s : State) : Host.Outcome State Fault Refusal := intWord d a b (fun x y => nval x + nval y * 8) s
def execIxadd16 (d a b : RegNo) (s : State) : Host.Outcome State Fault Refusal := intWord d a b (fun x y => nval x + nval y * 16) s

/-! ## R75 -/

def execLdi (d : RegNo) (im : BitVec 14) (s : State) : Host.Outcome State Fault Refusal :=
  runWord s.cur (valueWord { cls := 0, out := some (d, 1) } fun _ => ret1 i32Tag (low32 (sext im.toNat 14))) s

def execLdw (d : RegNo) (lit : Word) (s : State) : Host.Outcome State Fault Refusal :=
  runWord s.cur (valueWord { cls := 0, len := 2, out := some (d, 1) } fun _ => ret1 0#5 lit) s

end Sys2Proof.Machine
end

