-- ==== Sys2Proof/Machine/Move.lean ====
section
/-! DEFINITION. Class 0x3, move, tag, window and special registers (R46 to R49, R81, R82). -/

namespace Sys2Proof.Machine

def execMov (d a : RegNo) (s : State) : Host.Outcome State Fault Refusal :=
  runWord s.cur (valueWord (form2 3 d a .any) fun v => (v.a, noLog)) s

def execCmov (d a b : RegNo) (s : State) : Host.Outcome State Fault Refusal :=
  runWord s.cur (valueWord (form2 3 d a .any) fun v => (if v.x.pred b then v.a else [], noLog)) s

def execTag (d a : RegNo) (t : BitVec 5) (s : State) : Host.Outcome State Fault Refusal :=
  runWord s.cur (valueWord { form2 3 d a .any with rsv := t == 15#5 } fun v => ret1 t (BitVec.ofNat 32 (v32 v.a))) s

def execTagq (d a : RegNo) (s : State) : Host.Outcome State Fault Refusal :=
  runWord s.cur (valueWord (form2 3 d a .any) fun v => ret1 n32Tag ((vtag v.a).zeroExtend 32)) s

def execSext8 (d a : RegNo) (s : State) : Host.Outcome State Fault Refusal :=
  runWord s.cur (valueWord (form2 3 d a .any) fun v => ret1 i32Tag (low32 (sext (v32 v.a) 8))) s
def execSext16 (d a : RegNo) (s : State) : Host.Outcome State Fault Refusal :=
  runWord s.cur (valueWord (form2 3 d a .any) fun v => ret1 i32Tag (low32 (sext (v32 v.a) 16))) s
def execZext8 (d a : RegNo) (s : State) : Host.Outcome State Fault Refusal :=
  runWord s.cur (valueWord (form2 3 d a .any) fun v => ret1 n32Tag (BitVec.ofNat 32 (v32 v.a % 2 ^ 8))) s
def execZext16 (d a : RegNo) (s : State) : Host.Outcome State Fault Refusal :=
  runWord s.cur (valueWord (form2 3 d a .any) fun v => ret1 n32Tag (BitVec.ofNat 32 (v32 v.a % 2 ^ 16))) s

def execMov64 (d a : RegNo) (s : State) : Host.Outcome State Fault Refusal :=
  runWord s.cur (valueWord { cls := 3, a := some { n := a, w := 2 }, out := some (d, 2) } fun v => (v.a, noLog)) s

/-- WIN sets the window base, or faults WINF beyond the allocation (R82). -/
def execWin (im : BitVec 7) (s : State) : Host.Outcome State Fault Refusal :=
  runWord s.cur (do
    let v ← readWord { cls := 3 }
    check (decide (im.toNat * 8 < v.x.regs.length)) .winf
    act (·.modStrand v.k fun x => { x with wb := im.toNat * 8 })
    done v 1 noLog) s

def execWinq (d : RegNo) (s : State) : Host.Outcome State Fault Refusal :=
  runWord s.cur (valueWord { cls := 3, out := some (d, 1) } fun v => ret1 n32Tag (BitVec.ofNat 32 v.x.wb)) s

/-! ## Special registers (Table 3.3) -/

def Tier.unit : Tier := ⟨1, 1, 1, 0, 0⟩
def Tier.size (t : Tier) : Nat := t.x * t.y * t.z
/-- Coordinate `c` (x, y, z) of linear index `n` in extents (R4). -/
def Tier.coord (t : Tier) (c n : Nat) : Nat :=
  if c == 0 then n % t.x else if c == 1 then n / t.x % t.y else n / (t.x * t.y) % t.z
def Tier.ext (t : Tier) (c : Nat) : Nat := if c == 0 then t.x else if c == 1 then t.y else t.z

/-- The tier entry T of a launch; above TIER_COUNT − 1 one with extents 1 (R48). -/
def LaunchRec.tier (rc : LaunchRec) (t : Nat) : Tier := if t < rc.tierCount then lget rc.tiers t Tier.unit else Tier.unit

/-- How many groups one instance of tier T − 1 holds (R268). -/
def LaunchRec.below (rc : LaunchRec) : Nat → Nat
  | 0 => 1
  | 1 => 1
  | 2 => 1
  | t + 1 => rc.below t * (rc.tier t).size

/-- The group's coordinate in tier T (R47, R268). -/
def LaunchRec.coord (rc : LaunchRec) (t c glin : Nat) : Nat := (rc.tier t).coord c (glin / rc.below t % (rc.tier t).size)

def hi32 (n : Nat) : Nat := n / 2 ^ 32 % 2 ^ 32
def lo32 (n : Nat) : Nat := n % 2 ^ 32

/-- CAP_ATOM (R48). -/
def capAtom : Nat := 0x356

/-- The value and tag of a special register (Table 3.3, R47, R48). PRIO is the launch record's own field, also where its queue's PRIO caps
it or its graph's PRIO stands for it (R278, R281): which of them the spec does not say (DESIGN CHOICE, log 54). -/
def specialReg (s : State) (k : StrandKey) (x : Strand) (sel : Nat) : Nat × Tag :=
  let n := fun (v : Nat) => (v, n32Tag)
  let g := s.group k.grp
  let l := s.launch k.grp.launch
  let gi := fun (f : Group → Nat) => match g with | some y => f y | none => 0
  let li := fun (f : LaunchRec → Nat) => match l with | some y => f y.rc | none => 0
  let ci := fun (f : CtxDesc → Nat) =>
    match l with
    | some y => match s.ctx y.ctx with | some c => f c.d | none => 0
    | none => 0
  let flags := fun (lo cnt : Nat) => ((List.range cnt).map fun i => lget x.flags (lo + i) 0 * 16 ^ i).sum
  if sel == 0 then n k.tid
  else if sel ≤ 3 then n (li fun r => (r.tier 1).coord (sel - 1) k.tid)
  else if sel == 4 then n (gi (·.size))
  else if sel == 5 then n (b2n (k.kind == .x))
  else if sel == 8 then n (lo32 k.grp.glin)
  else if sel == 9 then n (hi32 k.grp.glin)
  else if sel == 0x10 then n (gi (·.core))
  else if sel == 0x11 then n (gi (·.core / 8))
  else if sel == 0x12 then n (gi (·.die))
  else if sel == 0x13 then n s.modId
  else if sel == 0x14 then n (ci (·.yard))
  else if sel == 0x15 then n (ci (·.pen))
  else if sel == 0x18 then n (lo32 k.grp.launch)
  else if sel == 0x19 then n (hi32 k.grp.launch)
  else if sel == 0x1A then n (li fun r => lo32 r.params)
  else if sel == 0x1B then n (li fun r => hi32 r.params)
  else if sel == 0x1C then n (li (·.prio))
  else if sel == 0x20 then n x.wb
  else if sel == 0x21 then n x.regs.length
  else if sel == 0x22 then n (li (·.handlerWb))
  else if sel == 0x24 then n (lo32 x.rgn.w.toNat)
  else if sel == 0x25 then n (hi32 x.rgn.w.toNat)
  else if sel == 0x28 then n (flags 0 8)
  else if sel == 0x29 then n (flags 8 4)
  else if 0x40 ≤ sel && sel ≤ 0x47 then (li fun r => (lget r.fmt (sel - 0x40) 0#32).toNat, 0#5)
  else if 0x80 ≤ sel && sel ≤ 0x8F then ((lget x.fault (sel - 0x80) 0#32).toNat, 0#5)
  else if 0x100 ≤ sel && sel < 0x130 then
    let t := (sel - 0x100) / 8 + 2
    let c := sel % 8
    n (li fun r => if c < 4 then r.coord t c k.grp.glin else (r.tier t).ext (c - 4))
  else if sel == 0x200 then n capAtom
  else n 0x3B0

def execMovs (d : RegNo) (sel : BitVec 14) (s : State) : Host.Outcome State Fault Refusal :=
  runWord s.cur (valueWord { cls := 3, rsv := !selectorOk sel, out := some (d, 1) } fun v =>
    let r := specialReg s v.k v.x sel.toNat
    ret1 r.2 (BitVec.ofNat 32 r.1)) s

end Sys2Proof.Machine
end

