-- ==== Sys2Proof/Machine/Records.lean ====
section
/-! DEFINITION. Buffer records and tensor layout records: their fields, when they are well-formed, usable and valid, and the
addresses they form (R141 to R149, R153, R208 to R211, R392). -/

namespace Sys2Proof.Machine

/-- Segment codes (Table 1.4). -/
def segOf (c : Nat) : Seg :=
  match c with
  | 0 => .priv
  | 1 => .core
  | 2 => .clus
  | 3 => .loft
  | 4 => .chip
  | 5 => .repl
  | 6 => .glob
  | _ => .host

/-! ## Buffer records (Table 7.1) -/

structure BufRec where
  base : Nat
  seg : Seg
  pr : Bool
  pw : Bool
  pa : Bool
  stride : Int
  extent : Nat
  etag : Tag
  esz : Nat
  swz : Nat
  sshift : Nat
  ostrm : Nat
  epmod : Nat
  epdie : Nat
deriving DecidableEq, Repr

def bufRec (img : BitVec 256) : BufRec :=
  let x := img.toNat
  { base := bitsOf x 56 0, seg := segOf (bitsOf x 59 57), pr := bitOf x 60, pw := bitOf x 61, pa := bitOf x 62,
    stride := sext (bitsOf x 95 64) 32, extent := bitsOf x 135 96, etag := BitVec.ofNat 5 (bitsOf x 140 136),
    esz := bitsOf x 143 141, swz := bitsOf x 145 144, sshift := bitsOf x 149 146, ostrm := bitsOf x 155 152,
    epmod := bitsOf x 179 160, epdie := bitsOf x 182 180 }

/-- Element tags allowed for an element size (Table 7.2). -/
def etagOk (esz : Nat) (t : Tag) : Bool :=
  let n := t.toNat
  match esz with
  | 0 => decide (n ≤ 2)
  | 1 => decide (n ≤ 2)
  | 2 => decide (n ≤ 10) || decide (16 ≤ n)
  | 3 => decide (n ≤ 11) || n == 13 || decide (16 ≤ n)
  | 4 => decide (n ≤ 11) || n == 13 || decide (16 ≤ n)
  | _ => false

/-- A well-formed record (R142). -/
def recWellFormed (img : BitVec 256) : Bool :=
  let x := img.toNat
  let r := bufRec img
  x != 0 && !bitOf x 63 && bitsOf x 151 150 == 0 && bitsOf x 159 156 == 0 && bitsOf x 191 183 == 0 && bitsOf x 255 192 == 0 &&
    etagOk r.esz r.etag && r.swz != 3 &&
    (if r.swz == 0 then r.sshift == 0
     else (r.seg == .core || r.seg == .clus || r.seg == .loft) && decide (7 ≤ r.sshift)) &&
    (r.seg == .glob || (r.epmod == 0 && r.epdie == 0)) &&
    (r.seg != .priv || decide (0 ≤ r.stride)) && (r.seg != .core || decide (r.base < 2 ^ 19)) &&
    (r.seg != .clus || decide (r.base < 2 ^ 23))

/-- The fabric reach of a context on a die (R392). -/
def State.reaches (s : State) (die keyid epmod : Nat) : Bool :=
  epmod == s.modId || (tgetD (s.die die).reach keyid []).contains epmod

/-- A segment usable by a context under a launch record (Table 7.3). HOSTFN 0 names no host function (Table 13.1). -/
def State.usable (s : State) (die : Nat) (d : CtxDesc) (rc : LaunchRec) (seg : Seg) (epmod : Nat) : Bool :=
  match seg with
  | .priv => true
  | .chip => true
  | .loft => true
  | .core => rc.scratch != 0
  | .clus => rc.cluster != 0
  | .repl => rc.replUse
  | .glob => s.reaches die d.keyid epmod
  | .host => d.hostfn != 0

/-- The formed address of index `i` (R149). `lin` is the thread's linear number in the launch. -/
def BufRec.form (r : BufRec) (i lin : Nat) : Nat :=
  let off : Int := i * r.stride
  let span : Int :=
    let p := (r.extent * r.stride.toNat + 31) / 32 * 32
    if p == 0 then 32 else p
  let a : Int := if r.seg == .priv then r.base + lin * span + off else r.base + off
  (a % 2 ^ 57).toNat

/-- The location used for a formed address (R153). -/
def BufRec.swizzle (r : BufRec) (va : Nat) : Nat :=
  if r.swz == 1 then Nat.xor va (va / 2 ^ r.sshift % 8 * 16)
  else if r.swz == 2 then Nat.xor va (va / 2 ^ r.sshift % 4 * 32)
  else va

/-- The register tag of word `j` of an element (Table 7.2). -/
def BufRec.tagAt (r : BufRec) (j : Nat) : Tag :=
  if 3 ≤ r.esz && (r.etag == 11#5 || r.etag == 13#5) && j % 2 == 1 then r.etag + 1#5 else r.etag

/-- A loaded element in registers, from its tag and size (Table 7.2, R160). -/
def loadedVals (etag : Tag) (esz x : Nat) : List TVal :=
  let r : BufRec := { bufRec 0#256 with etag := etag, esz := esz }
  if esz ≤ 1 then [⟨if etag == 1#5 then low32 (sext x (8 * 2 ^ esz)) else BitVec.ofNat 32 x, etag⟩]
  else (List.range (2 ^ esz / 4)).map fun j => ⟨BitVec.ofNat 32 (x / 2 ^ (32 * j)), r.tagAt j⟩

/-! ## Tensor layout records (Table 10.4) -/

structure LayRec where
  base : Nat
  seg : Seg
  pr : Bool
  pw : Bool
  esz : Nat
  ndim : Nat
  gather : Bool
  edge : Nat
  ostrm : Nat
  epmod : Nat
  epdie : Nat
  ext : List Nat
  str : List Int
  box : List Nat
  goff : Nat
deriving DecidableEq, Repr

def layRec (img : BitVec 512) : LayRec :=
  let x := img.toNat
  { base := bitsOf x 56 0, seg := segOf (bitsOf x 59 57), pr := bitOf x 60, pw := bitOf x 61, esz := bitsOf x 66 64,
    ndim := bitsOf x 70 68, gather := bitOf x 71, edge := bitsOf x 73 72, ostrm := bitsOf x 77 74, epmod := bitsOf x 115 96,
    epdie := bitsOf x 118 116, ext := (List.range 4).map fun k => bitsOf x (159 + 32 * k) (128 + 32 * k),
    str := 0 :: (List.range 3).map fun k => sext (bitsOf x (303 + 48 * k) (256 + 48 * k)) 48,
    box := (List.range 4).map fun k => bitsOf x (415 + 16 * k) (400 + 16 * k), goff := bitsOf x 482 464 }

def LayRec.elems (r : LayRec) : Nat := r.box.foldl (· * ·) 1
def LayRec.bytes (r : LayRec) : Nat := r.elems * 2 ^ r.esz

/-- A valid layout record, but for the usability of its segment (R209). -/
def layValid (img : BitVec 512) : Bool :=
  let x := img.toNat
  let r := layRec img
  let e := fun k => lget r.ext k 0
  let b := fun k => lget r.box k 0
  let t := fun k => lget r.str k 0
  let sz : Nat := 2 ^ r.esz
  bitsOf x 63 62 == 0 && !bitOf x 67 && bitsOf x 79 78 == 0 && bitsOf x 95 80 == 0 && bitsOf x 127 119 == 0 &&
    bitsOf x 495 483 == 0 && bitsOf x 511 496 == 0 && r.edge != 3 && decide (r.esz ≤ 4) && decide (1 ≤ r.ndim) &&
    decide (r.ndim ≤ 4) && r.seg != .core && r.seg != .priv && !(r.seg == .repl && r.pw) && r.base % sz == 0 &&
    r.str.all (fun y => y % (sz : Int) == 0) &&
    (List.range 4).all (fun k =>
      if k < r.ndim then decide (1 ≤ e k) && decide (1 ≤ b k) else e k == 0 && t k == 0 && b k == 1) &&
    decide (r.bytes ≤ 2 ^ 23) && (if r.gather then decide (2 ≤ r.ndim) && r.goff % 4 == 0 else r.goff == 0) &&
    (r.seg == .glob || (r.epmod == 0 && r.epdie == 0 && r.ostrm == 0))

/-- Box coordinate `k` of the element with number `n`, x fastest (R210). -/
def LayRec.boxCoord (r : LayRec) (n k : Nat) : Nat :=
  let b := fun i => lget r.box i 1
  match k with
  | 0 => n % b 0
  | 1 => n / b 0 % b 1
  | 2 => n / (b 0 * b 1) % b 2
  | _ => n / (b 0 * b 1 * b 2)

/-- The tensor coordinates of a box element (R210): `list` holds the gather words. -/
def LayRec.coords (r : LayRec) (c : List Int) (list : List Nat) (n : Nat) : List Int :=
  (List.range 4).map fun k =>
    if k == 1 && r.gather then ((lget list (r.boxCoord n 1) 0 : Nat) : Int) else lget c k 0 + r.boxCoord n k

/-- Whether an element is in range (R210). -/
def LayRec.inRange (r : LayRec) (x : List Int) : Bool :=
  (List.range r.ndim).all fun k => decide (0 ≤ lget x k 0) && decide (lget x k 0 < lget r.ext k 0)

/-- The coordinates clamped to the nearest in range (R211). -/
def LayRec.clamp (r : LayRec) (x : List Int) : List Int :=
  (List.range 4).map fun k => if k < r.ndim then clampInt 0 (((lget r.ext k 0 : Nat) : Int) - 1) (lget x k 0) else lget x k 0

/-- The address of an element (R210). -/
def LayRec.addr (r : LayRec) (x : List Int) : Nat :=
  let a : Int := r.base + 2 ^ r.esz * lget x 0 0 + lget r.str 1 0 * lget x 1 0 + lget r.str 2 0 * lget x 2 0 +
    lget r.str 3 0 * lget x 3 0
  (a % 2 ^ 57).toNat

end Sys2Proof.Machine
end

