-- ==== Sys2Proof/Machine/Repl.lean ====
section
/-! DEFINITION. The replication unit of a die: stamps, update packets, the application of own and received updates (R306 to R316). -/

namespace Sys2Proof.Machine

/-! ## Members and replicas -/

/-- Whether a die is a member (R306). -/
def State.isMember (s : State) (die : Nat) : Bool := bitOf s.memb die

def State.modRepl (s : State) (die : Nat) (f : Repl → Repl) : State := s.modDie die fun d => { d with repl := f d.repl }
def State.repl (s : State) (die : Nat) : Repl := (s.die die).repl

/-- The other members of a die, in ascending rank. -/
def State.others (s : State) (die : Nat) : List Nat := (List.range 8).filter fun d => d != die && s.isMember d

/-- Bytes of a die's replica. -/
def State.replBytes (s : State) (die off n : Nat) : List Byte := memRead s.mem (s.replSpa die off) n

/-- The 32-byte line that holds an offset. -/
def lineOf (off : Nat) : Nat := off / 32 * 32

/-- The stamp of a line of a replica (R312): an unwritten line has the stamp of a zeroed region (R306), or
that of the last pass (R324). -/
def State.stampOf (s : State) (die line : Nat) : Stamp := tgetD (s.repl die).stamps line ⟨0, 0, (s.repl die).sepRest⟩

/-! ## Applying updates (R310 to R312) -/

/-- Writing bytes of one line of the die's own replica with a stamp (R310, R315). -/
def writeStamped (die off : Nat) (l : List Byte) (st : Stamp) (s : State) : State :=
  ({ s with mem := memWrite s.mem (s.replSpa die off) l }.modRepl die fun r =>
    { r with stamps := tset r.stamps (lineOf off) st }).repair (s.replSpa die off) l.length

/-- Appending a packet to the outbound log of every other member (R310). -/
def sendAll (die : Nat) (p : Packet) (s : State) : State :=
  let o := s.others die
  s.modRepl die fun r =>
    { r with outLog := (List.range 8).map fun d => if o.contains d then lget r.outLog d [] ++ [p] else lget r.outLog d [] }

/-- The dependency vector of an update with number `sq` of a die (R310, R315). -/
def depVec (r : Repl) (die sq : Nat) : List Nat := (List.range 8).map fun k => if k == die then sq - 1 else lget r.applied k 0

/-- A die applies its own weak update number `sq` (R310). -/
def applyOwnWeak (die sq ctx since off : Nat) (l : List Byte) (s : State) : State :=
  let w := (s.repl die).clock + 1
  let s := s.modRepl die fun r => { r with clock := w }
  let s := writeStamped die off l ⟨w, die, (s.repl die).sep⟩ s
  let s := s.modRepl die fun r => { r with applied := lset r.applied die sq }
  let r := s.repl die
  sendAll die
    { src := die, strong := false, null := false, sep := r.sep, epoch := s.epoch, sq := sq, wseq := w, gs := 0,
      dep := depVec r die sq, lines := [(lineOf off, s.replBytes die (lineOf off) 32)], since := since, ctx := ctx } s

/-- Whether a die's weak stores wait at issue: a quiesce, a full outbound log, or a lagging member whose backlog from this die exceeds
what it was when the lag began (R310, R321, R322, R324). -/
def State.replHeld (s : State) (die : Nat) : Bool :=
  s.quies || (s.others die).any fun d =>
    let n := (lget (s.repl die).outLog d []).length
    decide (2 ^ 21 ≤ n) || ((s.repl d).mstate == .lagging && decide (lget (s.repl d).lagBack die 0 < n))

/-- Whether bytes of a die's replica lie in a line that has failed and is to be repaired: updates of it by the die wait (R342, log 27). -/
def State.replBad (s : State) (die off n : Nat) : Bool := (s.badLine (s.replSpa die off) n).isSome

/-- A weak store of `l` at an offset: its SEQ, and its application now, or behind an earlier update of the die that waits for its slot or
for the repair of a line (R310, R342). -/
def issueWeak (k : StrandKey) (ctx die off : Nat) (l : List Byte) (s : State) : State :=
  let sq := (s.repl die).issued + 1
  let s := s.modRepl die fun r => { r with issued := sq }
  let s := s.modStrand k fun x => { x with replOut := some (die, sq) }
  if (s.repl die).upds.isEmpty && !s.replBad die off l.length then applyOwnWeak die sq ctx s.cycle off l s
  else
    s.modRepl die fun r => { r with upds := r.upds ++
      [{ sq := sq, strong := none, owner := k, ctx := ctx, off := off, n := l.length, val := ofBytes l, val2 := 0, grant := none, op := 0,
         fpc := 0#57, since := s.cycle }] }

/-- Bytes of a die's replica as one strand sees them: its own stores that are not yet applied included (R162, R310). -/
def State.replSeen (s : State) (k : StrandKey) (die off n : Nat) : List Byte :=
  let own := (s.repl die).upds.filter fun u => u.strong.isNone && u.owner == k
  (List.range n).map fun i =>
    own.foldl (fun b u => if u.off ≤ off + i && off + i < u.off + u.n then lget (toBytes u.n u.val) (off + i - u.off) b else b)
      (memGet s.mem (s.replSpa die (off + i)))

/-- Whether every member has applied update `sq` of a die, so that it is performed at module scope (R249, R316). -/
def State.replPerformed (s : State) (die sq : Nat) : Bool :=
  !s.isMember die || (decide (sq ≤ lget (s.repl die).applied die 0) &&
    (s.others die).all fun d => decide (sq ≤ lget (s.repl d).applied die 0))

/-- Whether update `sq` of a die is performed at a scope (R249, R256): within its die once the die has applied it, and at module scope and
wider once every member has. -/
def State.outPerformed (s : State) (die sq scope : Nat) : Bool :=
  scope == 0 || (if scope < 4 then !s.isMember die || decide (sq ≤ lget (s.repl die).applied die 0) else s.replPerformed die sq)

/-- Whether every update that a die's replica holds has been applied by every member: whatever an agent of the die may have read or learned
of is then performed at module scope (R252, R256). -/
def State.replKnown (s : State) (die : Nat) : Bool :=
  !s.isMember die || (s.others die).all fun d => (List.range 8).all fun k =>
    !s.isMember k || decide (lget (s.repl die).applied k 0 ≤ lget (s.repl d).applied k 0)

/-- Whether the latest repl store of a strand is performed at a scope, and at module scope and wider what the strand may have learned of
too, so that a release makes the stores before it visible in every replica (R252, R256, DEDUCED, log 58). -/
def State.replDoneAt (s : State) (k : StrandKey) (x : Strand) (scope : Nat) : Bool :=
  (x.replOut.all fun e => s.outPerformed e.1 e.2 scope) && (decide (scope < 4) || (s.group k.grp).all fun g => s.replKnown g.die)

/-- Whether an operation waits for nothing but its deliveries; a store to an SC page of repl waits until it has been performed (R165). -/
def State.pendReady (s : State) (p : Pend) : Bool :=
  match p.kind with
  | .replStore die sq => s.replPerformed die sq
  | k => k.isReady

end Sys2Proof.Machine
end

