-- ==== Sys2Proof/Machine/Order.lean ====
section
/-! DEFINITION. The order of a strand's accesses: which may be performed now, and what releases, fences and commits wait for (R134, R161 to
R165, R169, R249 to R254, R316, R351). -/

namespace Sys2Proof.Machine

/-! ## What an access asks -/

def GlobAsk.size : GlobAsk → Nat
  | .read n => n
  | .write l => l.length
  | .atomic op .. => if op == .add64 || op == .cas64 then 8 else 4

def GlobAsk.reads : GlobAsk → Bool
  | .write _ => false
  | .read _ | .atomic .. => true

def GlobAsk.writes : GlobAsk → Bool
  | .read _ => false
  | .write _ | .atomic .. => true

def GlobAsk.isAtomic : GlobAsk → Bool
  | .atomic .. => true
  | .read _ | .write _ => false

/-- Where the bytes of a location stand: one's own module is reached by glob and by SPA alike, and a die serves repl from its replica. -/
def State.stands (s : State) : Loc → Loc
  | .glob m d a => if m == s.modId then .spa (mkSpa 0 d (spaOff a)) else .glob m d a
  | .repl die off => .spa (s.replSpa die off)
  | l => l

/-- Whether two runs of bytes meet. -/
def Loc.meets (a : Loc) (n : Nat) (b : Loc) (m : Nat) : Bool :=
  let o := fun (x y : Nat) => decide (max x y < min (x + n) (y + m))
  match a, b with
  | .core g x, .core h y => g == h && o x y
  | .clus g x, .clus h y => g == h && o x y
  | .spa x, .spa y => o x y
  | .glob m d x, .glob m' d' y => m == m' && d == d' && o x y
  | _, _ => false

/-- Whether two locations lie at one endpoint of the fabric. -/
def Loc.sameEnd : Loc → Loc → Bool
  | .glob m d _, .glob m' d' _ => m == m' && d == d'
  | _, _ => false

/-- Whether a location is a replica's. -/
def Loc.isRepl : Loc → Bool
  | .repl _ _ => true
  | _ => false

/-! ## Accesses that are not yet performed -/

/-- An access of a strand that has issued and is not performed: its place in the program order, and whether its request has left. -/
structure Open where
  id : Nat
  loc : Loc
  ask : GlobAsk
  strm : Nat
  acq : Bool
  left : Bool

/-- A strand's accesses that are not performed: those held, and the requests without an answer. -/
def State.openOf (s : State) (k : StrandKey) : List Open :=
  (s.held.filterMap fun (h : Held) => if h.owner == k then some ⟨h.id, h.loc, h.ask, h.strm, h.acq, false⟩ else none) ++
    s.globs.filterMap fun (r : GlobReq) =>
      if r.owner == some k then some ⟨r.id, .glob r.tmod r.tdie r.spa, r.ask, r.strm, r.acq, true⟩ else none

/-- Whether a strand waits for a strong operation issued before number `id` that is an acquire (Table 15.5), or for any. -/
def State.strongOpen (s : State) (k : StrandKey) (id : Nat) (acquires : Bool) : Bool :=
  s.pend.any fun (p : Pend) => p.owner == k && decide (p.id < id) && match p.kind with
    | .strong .. => !acquires || !p.places.isEmpty
    | .strongDone .. => true
    | .rsync .. => true
    | _ => false

/-- Whether an access waits behind an earlier one of its strand: an acquire (R163), one to bytes that it meets (R162), a load where it
writes (R253), or a request that has not left for the same endpoint on its stream (R351). -/
def State.behind (s : State) (h : Held) (y : Open) : Bool :=
  y.acq || (s.stands y.loc).meets y.ask.size (s.stands h.loc) h.ask.size || (h.ask.writes && y.ask.reads) ||
    (!y.left && y.loc.sameEnd h.loc && y.strm == h.strm && !y.ask.isAtomic && !h.ask.isAtomic)

/-- Whether a strand's repl stores are performed at a scope. -/
def State.replDoneBy (s : State) (k : StrandKey) (scope : Nat) : Bool :=
  match s.strand k with
  | some x => s.replDoneAt k x scope
  | none => true

/-- Whether every access of a strand before number `id` is bound or performed at a scope (R163, R169): requests to other modules, strong
operations, and the strand's repl stores, but for a release that is itself a repl store, whose SEQ follows theirs (R310). -/
def State.released (s : State) (k : StrandKey) (id scope : Nat) (viaRepl : Bool) : Bool :=
  ((s.openOf k).all fun y => decide (id ≤ y.id)) && !s.strongOpen k id false && (viaRepl || s.replDoneBy k scope)

/-- Whether an access may be performed now, in the program order of its strand (R162 to R165, R253, R316). -/
def State.inTurn (s : State) (h : Held) : Bool :=
  ((s.openOf h.owner).all fun y => decide (h.id ≤ y.id) || !s.behind h y) && !s.strongOpen h.owner h.id true &&
    h.rel.all fun scope => s.released h.owner h.id scope h.loc.isRepl

/-- An access of a strand to `n` bytes that reads and needs nothing else. -/
def Held.plain (id : Nat) (k : StrandKey) (loc : Loc) (ask : GlobAsk) : Held where
  id := id
  owner := k
  pend := none
  committed := false
  ask := ask
  regs := []
  loc := loc
  va := 0
  strm := 0
  acq := false
  rel := none
  die := 0
  ctx := 0
  keyid := 0
  acct := 0
  etag := 0#5
  esz := 0
  sc := false
  done := []

/-- A word whose access is made as it issues waits for its turn (R162, R163, R316). -/
def holdForOrder (k : StrandKey) (loc : Loc) (ask : GlobAsk) : Exec Unit := fun s =>
  if s.inTurn (.plain s.nextId k loc ask) then .ok ((), s) else .error (.block .room)

/-- A release waits until every earlier access of its strand is bound, or performed at its scope (R163, R169). -/
def holdForRelease (k : StrandKey) (scope : Nat) (viaRepl : Bool) : Exec Unit := fun s =>
  if s.released k s.nextId scope viaRepl then .ok ((), s) else .error (.block .room)

/-- Commits, RGN and arrivals wait behind a flagged wait at a barrier (R134). -/
def holdForBar (k : StrandKey) : Exec Unit := fun s =>
  if s.barWaiting k then .error (.block .barrier) else .ok ((), s)

end Sys2Proof.Machine
end

