-- ==== Sys2Proof/Machine/Perform.lean ====
section
/-! DEFINITION. How an access is performed: stores with their trigger words, read-modify-writes, budgets, the packets of the fabric, and
the accesses that a strand holds (R157, R158, R161 to R168, R230, R283 to R286, R341, R346 to R356). -/

namespace Sys2Proof.Machine

/-! ## Stores and trigger words (R230, R283) -/

/-- Raising a TRIGGER event for a graph that an agent of its own context triggers (R283). -/
def triggerGraph (die ctx g : Nat) (s : State) : State :=
  match tget (s.die die).graphs g with
  | some x => if x.ctx == ctx then raiseShed die ⟨.trigger, ctx, 0, g, 0, false⟩ s else s
  | none => s

/-- The graphs of a die whose trigger words a store touches (R283). -/
def triggersOf (win off n : Nat) : List Nat :=
  if off + n ≤ win || win + 65536 ≤ off then []
  else (List.range ((off + n - 1) / 8 - max off win / 8 + 1)).map fun i => (max off win - win) / 8 + i

/-- A store by an agent of a context to system memory. -/
def storeSpa (ctx a : Nat) (l : List Byte) (s : State) : State :=
  let s := (s.writeSpa a l).repair a l.length
  if spaSpace a == 0 then
    let d := spaDie a
    if (s.die d).graphs.isEmpty then s
    else (triggersOf (s.die d).trigWin (spaOff a) l.length).foldl (fun s g => triggerGraph d ctx g s) s
  else s

/-! ## Read-modify-writes (Table 7.7) -/

/-- The new value of an element, and what it logs: `m` the old value, `d` the operand, `e` the second operand (R166, R167). -/
def atomNew (op : AOp) (m d e : Nat) : Nat × Log :=
  match op with
  | .addI => ((m + d) % 2 ^ 32, {})
  | .addF => f32.add .rn (f32.dec m) (f32.dec d)
  | .minI => (if sext m 32 ≤ sext d 32 then m else d, {})
  | .minN => (min m d, {})
  | .maxI => (if sext m 32 ≤ sext d 32 then d else m, {})
  | .maxN => (max m d, {})
  | .and => (Nat.land m d, {})
  | .or => (Nat.lor m d, {})
  | .xor => (Nat.xor m d, {})
  | .xchg => (d, {})
  | .cas => (if m == d then e else m, {})
  | .inc => (if e ≤ m then 0 else m + 1, {})
  | .add64 => ((m + d) % 2 ^ 64, {})
  | .cas64 => (if m == d then e else m, {})

end Sys2Proof.Machine

namespace Sys2Proof

/-- Registers read as data, and written as the old value (R166). -/
def AOp.reads : AOp → Nat
  | .cas => 2
  | .inc => 2
  | .add64 => 2
  | .cas64 => 4
  | _ => 1

def AOp.wide : AOp → Bool
  | .add64 => true
  | .cas64 => true
  | _ => false

/-- The tags that data register `j` accepts (Table 7.7). -/
def AOp.accepts (op : AOp) (j : Nat) : Machine.Accept :=
  match op with
  | .addI => .int
  | .minI => .int
  | .minN => .int
  | .maxI => .int
  | .maxN => .int
  | .addF => .f32
  | .inc => if j == 1 then .int else .any
  | .add64 => .one [if j == 0 then 13#5 else 14#5]
  | _ => .any

/-- The element tags that an atomic accepts (Table 7.7). -/
def AOp.etagOk (op : AOp) (t : Tag) : Bool :=
  match op with
  | .addF => t == 3#5
  | .add64 => t == 13#5
  | .addI => t == 1#5 || t == 2#5
  | .minI => t == 1#5 || t == 2#5
  | .minN => t == 1#5 || t == 2#5
  | .maxI => t == 1#5 || t == 2#5
  | .maxN => t == 1#5 || t == 2#5
  | .inc => t == 1#5 || t == 2#5
  | _ => true

/-- The segments that an atomic may use (Table 7.3). -/
def AOp.segOk (op : AOp) (g : Machine.Seg) : Bool :=
  match g with
  | .repl => false
  | .host => op == .addI || op == .add64 || op == .xchg || op == .cas || op == .cas64
  | _ => true

/-- The operand and second operand of an atomic from its data registers (R166). -/
def AOp.operands (op : AOp) (l : List TVal) : Nat × Nat :=
  match op with
  | .add64 => (Machine.v64 l, 0)
  | .cas64 => (Machine.v64 l, Machine.v64 (l.drop 2))
  | _ => (Machine.v32 l, Machine.v32 (l.drop 1))

/-- The old value in registers (R166). -/
def AOp.oldVals (op : AOp) (etag : Tag) (m : Nat) : List TVal := Machine.loadedVals etag (if op.wide then 3 else 2) m

end Sys2Proof

namespace Sys2Proof.Machine

/-- All ones in every register of a load, with its tags (R168). -/
def onesVals (etag : Tag) (esz : Nat) : List TVal := (loadedVals etag esz 0).map fun v => { v with bits := 0xFFFFFFFF#32 }

/-- A FABERR event (Table 17.9): detail, target endpoint and address. -/
def logFab (ctx launch detail m d va : Nat) (s : State) : State := logPlain ctx evFabErr detail launch (m * 8 + d) va s

/-! ## Budgets and packets (R285, R286, R352 to R355) -/

/-- The die and the number of lines that an access moves at an HBM of this module (R285). -/
def State.linesOf (s : State) (loc : Loc) (n : Nat) : Option (Nat × Nat) :=
  let k := fun (a : Nat) => (a % 32 + n + 31) / 32
  match loc with
  | .spa a => if spaSpace a == 0 then some (spaDie a, k a) else none
  | .repl die off => some (die, k off)
  | .glob m d spa => if m == s.modId then some (d, k spa) else none
  | .core .. | .clus .. => none

/-- Whether the account of a context may make an access: a request waits while its HBM balance is not above 0 (R286). -/
def State.hbmOk (s : State) (ctx : Nat) (loc : Loc) (n : Nat) : Bool :=
  match s.linesOf loc n with
  | some (d, _) => decide (0 < (s.acct d (s.acctOf ctx)).hbm)
  | none => true

def chargeHbm (ctx : Nat) (loc : Loc) (n : Nat) (s : State) : State :=
  match s.linesOf loc n with
  | some (d, k) => s.spend d (s.acctOf ctx) fun a => { a with hbm := a.hbm - k }
  | none => s

/-- Waiting for the balance, and the charge, of a read that a word makes as it issues. -/
def spendHbm (ctx : Nat) (loc : Loc) (n : Nat) : Exec Unit := fun s =>
  if s.hbmOk ctx loc n then .ok ((), chargeHbm ctx loc n s) else .error (.block .room)

/-- Flits of the packet that carries a request: a header and its payload (R352). -/
def GlobAsk.flits : GlobAsk → Nat
  | .read _ => 1
  | .write l => 1 + (l.length + 31) / 32
  | .atomic .. => 2

/-- The port of die `d` on which a request of die `die` to endpoint (`m`, `d`) leaves: the pinned plane of its stream, or for an
atomic the plane of the line's owner switch (R345 to R349). -/
def State.portOf (s : State) (die m d strm spa : Nat) (atomic : Bool) : Nat :=
  (if atomic then Config.ownerPlane (bitsOf spa 45 5) else Config.pinnedPlane die m d strm (tgetD s.repins (die, m, d, strm) 0)) % 16

/-- Whether a die's key entry is live, and the key not revoked on this module's ports (R353, R357). -/
def State.keyLive (s : State) (die key : Nat) : Bool := (tgetD (s.die die).keys key ⟨false, 0⟩).live && (tget s.revoked key).isNone

/-- Allowances that a port holds for a key and a virtual channel (R355). -/
def Port.share (p : Port) (key : Nat) : Nat := tgetD p.allow (.share key) 0
def Port.pool (p : Port) (vc : Nat) : Nat := tgetD p.allow (.pool vc) 0

/-- Whether a packet of `n` flits can leave: the key is live and its counter not exhausted (R353), and allowances and replay buffer suffice
(R355, R356). -/
def State.wayFree (s : State) (y : Way) (n : Nat) : Bool :=
  let p := lget (s.die y.via).ports y.port Port.zero
  s.keyLive y.die y.keyid && decide ((tgetD (s.die y.die).keys y.keyid ⟨false, 0⟩).counter < 2 ^ 41 - 1) &&
    decide (n ≤ p.share y.keyid + p.pool y.vc) && decide (p.sent.length + n ≤ 2048)

/-- A packet of an account also waits until its FAB balance is above 0 (R286). -/
def State.canSend (s : State) (y : Way) (acct n : Nat) : Bool := s.wayFree y n && decide (0 < (s.acct y.via acct).fab)

/-- The flits on the port: the share allowance is spent first (R355). -/
def Port.send (p : Port) (ctx key vc n : Nat) : Port :=
  let a := min n (p.share key)
  let al := if a == 0 then p.allow else tset p.allow (.share key) (p.share key - a)
  let al := if n - a == 0 then al else tset al (.pool vc) (p.pool vc - (n - a))
  { p with sent := p.sent ++ (List.range n).map fun i => ⟨p.next + i, key, vc, decide (i < a), ctx⟩, next := p.next + n, allow := al }

/-- The header of a packet with `len` payload flits: NONCE is the source endpoint and the key's packet counter (Table 17.2, R353). -/
def State.header (s : State) (y : Way) (len : Nat) : FabHeader :=
  let nonce := s.modId % 2 ^ 20 + 2 ^ 20 * (y.die % 8) + 2 ^ 23 * (tgetD (s.die y.die).keys y.keyid ⟨false, 0⟩).counter
  ⟨y.dmod, y.ddie, y.vc, len, y.keyid, y.strm, nonce, Config.gcmTag y.keyid nonce % 2 ^ 128⟩

/-- The 32 bytes of a header flit (Table 17.2). -/
def FabHeader.bytes (h : FabHeader) : List Byte :=
  toBytes 4 (h.dmod % 2 ^ 20 + 2 ^ 20 * (h.ddie % 8) + 2 ^ 23 * (h.vc % 16) + 2 ^ 27 * (h.len % 16)) ++ toBytes 2 h.keyid ++
    toBytes 2 (h.strm % 16) ++ toBytes 8 h.nonce ++ toBytes 16 h.tag

/-- A packet of `n` flits leaves (R352, R353, R355). -/
def putPacket (y : Way) (n : Nat) (body : FabBody) (s : State) : State :=
  let h := s.header y (n - 1)
  let s := s.modDie y.die fun d => { d with keys := tmod d.keys y.keyid fun k => { k with counter := k.counter + 1 } }
  let s := s.modDie y.via fun d => { d with ports := lmod d.ports y.port (·.send y.ctx y.keyid y.vc n) }
  { s with out := s.out ++ [.packet y.via y.port h body] }

/-- Sending a packet of an account (R285). -/
def sendPacket (y : Way) (acct n : Nat) (body : FabBody) (s : State) : State :=
  (putPacket y n body s).spend y.via acct fun a => { a with fab := a.fab - n }

/-- The body of a request (R346). -/
def GlobAsk.body (ask : GlobAsk) (tag spa : Nat) : FabBody :=
  match ask with
  | .read n => .read tag spa n
  | .write l => .write tag spa l
  | .atomic op v e => .atomic tag op spa v e

/-! ## Where an access is performed -/

/-- Reading the bytes of a location that this module holds. -/
def readLoc (k : StrandKey) (loc : Loc) (n : Nat) (s : State) : List Byte :=
  match loc with
  | .core g off => s.readCore g off n
  | .clus g off => s.readClus g off n
  | .spa a => s.readSpa a n
  | .repl die off => s.replSeen k die off n
  | .glob _ d spa => s.readSpa (mkSpa 0 d (spaOff spa)) n

/-- Writing them. A repl location goes through the replication unit (R310). -/
def writeLoc (k : StrandKey) (ctx : Nat) (loc : Loc) (l : List Byte) (s : State) : State :=
  match loc with
  | .core g off => s.writeCore g off l
  | .clus g off => s.writeClus g off l
  | .spa a => storeSpa ctx a l s
  | .repl die off => issueWeak k ctx die off l s
  | .glob _ d spa => storeSpa ctx (mkSpa 0 d (spaOff spa)) l s

/-- The location `n` bytes on, for the later atoms of an access to system memory (R157). -/
def Loc.plus (loc : Loc) (n : Nat) : Loc :=
  match loc with
  | .spa a => .spa (a + n)
  | l => l

/-- How a location is reached: held by this module; refused with an error response at once, as where the in-package link that the
request would cross has failed (R346); or asked of another module. -/
inductive Reach where
  | here
  | error
  | away
deriving DecidableEq, Repr

def reachOf (h : Held) (s : State) : Reach :=
  match h.loc with
  | .glob m d spa =>
    if s.linkDead h.die d then .error
    else if m != s.modId then if s.keyLive h.die h.keyid then .away else .error
    else if !s.globAdmits d spa h.ask.size h.keyid || (h.ask.isAtomic && !s.keyLive h.die h.keyid) then .error
    else .here
  | .spa a => if s.hostBad a h.ask.size then .error else .here
  | .repl die _ => if s.isMember die then .here else .error
  | .core .. | .clus .. => .here

/-- The structure that an access would use and that is fenced or has failed there (R230, R341), and whether its reader waits until a
failed line of a replica has been repaired from another member (R342). -/
def State.meetsBad (s : State) (die : Nat) (loc : Loc) (n : Nat) (reads : Bool) : Option (Option (Nat × Nat × Nat)) :=
  match loc with
  | .spa a => if spaSpace a == 2 then none else (s.badAt a n reads).map fun c => some (spaDie a, c)
  | .repl d off =>
    if s.isFenced d 7 0 then some (some (d, 7, 0))
    else if reads && (s.badLine (s.replSpa d off) n).isSome then some none
    else (s.badAt (s.replSpa d off) n false).map fun c => some (d, c)
  | .glob m d spa =>
    if s.isFenced die 4 d then some (some (die, 4, d)) else if s.isFenced d 4 die then some (some (d, 4, die))
    else if m == s.modId then (s.badAt (mkSpa 0 d (spaOff spa)) n reads).map fun c => some (d, c)
    else none
  | .core .. | .clus .. => none

/-- The port that an access leaves by, if it does: a request to another module, and every glob atomic, which travels to the owner switch of
its line (R346, R349). -/
def State.leavesBy (s : State) (h : Held) : Option (Nat × Nat) :=
  match h.loc with
  | .glob m d spa =>
    if m != s.modId || h.ask.isAtomic then some (d, s.portOf h.die m d h.strm spa h.ask.isAtomic) else none
  | _ => none

/-- The way of an access that leaves by port `p` of die `d`: requests travel on virtual channel 0 (R362). -/
def Held.way (h : Held) (d p : Nat) : Way :=
  match h.loc with
  | .glob m e _ => ⟨h.ctx, h.die, h.keyid, d, p, m, e, 0, h.strm⟩
  | _ => ⟨h.ctx, h.die, h.keyid, d, p, 0, 0, 0, h.strm⟩

/-- What an access that is in turn still waits for: its account's balance at the HBM (R286), room for its packet (R353 to R356), or a
die that takes repl stores (R310); and the structure whose failure it meets (R341). -/
def waitAccess (h : Held) : Exec Unit := fun s =>
  let r := reachOf h s
  let n := h.ask.size
  match s.meetsBad h.die h.loc n h.ask.reads with
  | some (some (d, c, m)) => .error (.blast d c m)
  | some none => .error (.block .room)
  | none =>
    let fab : Except Stop Unit := match (if r == .error then none else s.leavesBy h) with
      | some (d, p) =>
        if s.isFenced d 5 p then .error (.blast d 5 p)
        else if s.canSend (h.way d p) h.acct h.ask.flits then .ok ()
        else .error (.block .room)
      | none => .ok ()
    match fab with
    | .error e => .error e
    | .ok _ =>
      let repl := match h.loc with
        | .repl d _ => h.ask.writes && s.replHeld d
        | _ => false
      if (r == .here && !s.hbmOk h.ctx h.loc n) || repl then .error (.block .room) else .ok ((), s)

/-- An error response (R168): its event, FABERR for another endpoint, with DETAIL 1 behind a dead link and otherwise 0 (log 50), and
HOSTERR with its DETAIL (Table 13.17) for host memory. A plain store to the host waits for no answer and logs nothing, and nothing is logged
of an access to repl that has waited until its die was evicted: it reads all ones, and its store is lost (R323, log 27). -/
def errorEvent (h : Held) (s : State) : State :=
  let l := h.owner.grp.launch
  match h.loc, h.ask with
  | .glob m d _, _ => logFab h.ctx l (if s.linkDead h.die d then 1 else 0) m d h.va s
  | .repl .., _ => s
  | _, .read _ => logPlain h.ctx evHostErr 1 l h.va 0 s
  | _, .atomic .. => logPlain h.ctx evHostErr 0 l h.va 0 s
  | _, .write _ => s

/-- How the performing of an access ends: with values and what they log, with a store made, or with a request that awaits its answer. -/
inductive Done where
  | vals (l : List TVal) (lg : Log)
  | stored
  | asked
deriving DecidableEq, Repr

/-- The packet of an access that leaves the die by a port. -/
def sendAccess (h : Held) (s : State) : State :=
  match s.leavesBy h, h.loc with
  | some (d, p), .glob _ _ spa => sendPacket (h.way d p) h.acct h.ask.flits (h.ask.body h.id spa) s
  | _, _ => s

/-- Whether the operation of an access waits until it is performed: a load, an atomic, or a store to an SC page. A plain store's waits only
for its data (R161, R165). -/
def Held.waits (h : Held) : Bool := h.sc || h.ask.reads

/-- A request to another module: its entry and its packet (R346, R348). -/
def askAway (h : Held) (s : State) : State :=
  match h.loc with
  | .glob m d spa =>
    let req : GlobReq :=
      { id := h.id, die := h.die, keyid := h.keyid, ctx := h.ctx, tmod := m, tdie := d, strm := h.strm, spa := spa, va := h.va, ask := h.ask,
        since := s.cycle, owner := some h.owner, op := if h.waits then h.pend else none, item := none, etag := h.etag, esz := h.esz, acq := h.acq }
    let s := sendAccess h s
    { s with globs := s.globs ++ [req] }
  | _ => s

/-- Performing an access in its turn (R158, R160, R161, R166 to R168): `h.done` holds the atoms already read or written. The owner switch
performs an atomic on a line of this module at once (R349). -/
def perform (h : Held) (s : State) : Done × State :=
  match reachOf h s with
  | .here =>
    let s := chargeHbm h.ctx h.loc h.ask.size (sendAccess h s)
    match h.ask with
    | .read n => (.vals (loadedVals h.etag h.esz (ofBytes (h.done ++ readLoc h.owner (h.loc.plus h.done.length) (n - h.done.length) s))) {}, s)
    | .write l => (.stored, writeLoc h.owner h.ctx (h.loc.plus h.done.length) (l.drop h.done.length) s)
    | .atomic op v e =>
      let n := h.ask.size
      let m := ofBytes (readLoc h.owner h.loc n s)
      let r := atomNew op m v e
      (.vals (op.oldVals h.etag m) r.2, writeLoc h.owner h.ctx h.loc (toBytes n r.1) s)
  | .error =>
    (match h.ask with
      | .read _ => .vals (onesVals h.etag h.esz) {}
      | .atomic op .. => .vals (op.oldVals h.etag (2 ^ (8 * h.ask.size) - 1)) {}
      | .write _ => .stored, errorEvent h s)
  | .away => (.asked, askAway h s)

/-! ## Accesses that a strand holds (R26, R157, R162, R163) -/

/-- What a source register that is written while it is pending supplies: the value at issue, or the present one (R26, log 2). -/
def readSource (x : Strand) (r : Nat × TVal) (s : State) : TVal × State :=
  let now := lget x.regs r.1 r.2
  if now == r.2 then (now, s)
  else
    let c := s.drawBool
    (if c.1 then r.2 else now, c.2)

def readSources (x : Strand) : List (Nat × TVal) → State → List TVal × State
  | [], s => ([], s)
  | r :: l, s =>
    let v := readSource x r s
    let t := readSources x l v.2
    (v.1 :: t.1, t.2)

/-- The data of a store, lowest register first (R161). -/
def storeBytes (n : Nat) (l : List TVal) : List Byte := toBytes n (v64 l + 2 ^ 64 * v64 (l.drop 2))

/-- An access with the data that it has read. -/
def GlobAsk.withData (ask : GlobAsk) (l : List TVal) : GlobAsk :=
  match ask with
  | .read n => .read n
  | .write b => .write (storeBytes b.length l)
  | .atomic op _ _ => .atomic op (op.operands l).1 (op.operands l).2

/-- Reading the source registers of a held access. -/
def bindData (h : Held) (s : State) : Held × State :=
  match s.strand h.owner with
  | some x =>
    if h.regs.isEmpty then (h, s)
    else
      let r := readSources x h.regs s
      ({ h with ask := h.ask.withData r.1, regs := [] }, r.2)
  | none => ({ h with regs := [] }, s)

def State.heldOf (s : State) (id : Nat) : Option Held := s.held.find? fun (h : Held) => h.id == id
def State.modHeld (s : State) (id : Nat) (f : Held → Held) : State :=
  { s with held := s.held.map fun (h : Held) => if h.id == id then f h else h }
def State.dropHeld (s : State) (id : Nat) : State := { s with held := s.held.filter fun (h : Held) => h.id != id }

/-- A store whose data have been read completes (R161). -/
def readData (p : Pend) (id : Nat) (s : State) : State :=
  match s.heldOf id with
  | some h =>
    let r := bindData h s
    finishPend p (r.2.modHeld id fun _ => { r.1 with pend := none })
  | none => finishPend p s

/-- Whether an access is made of two atoms of 8 bytes, of which the first is still to be performed (R157). -/
def Held.halves (h : Held) : Bool :=
  h.done.isEmpty && h.ask.size == 16 && match h.loc with
    | .spa a => spaSpace a == 2
    | _ => false

/-- The first atom of an access of two. -/
def performHalf (h : Held) (s : State) : State :=
  match h.ask with
  | .write l => (writeLoc h.owner h.ctx h.loc (l.take 8) s).modHeld h.id fun _ => { h with done := l.take 8 }
  | _ => s.modHeld h.id fun _ => { h with done := readLoc h.owner h.loc 8 s }

/-- What the operation of an access waits for once that has been performed. -/
def afterPerform (h : Held) (r : Done) (s : State) (p : Pend) : Pend :=
  match r with
  | .vals l lg => { p with kind := .ready, dests := destsOf p.places l }.withLog lg
  | .asked => { p with kind := if h.waits then .glob h.id else .ready }
  | .stored =>
    { p with kind := match h.loc with
      | .repl die _ => if h.sc then .replStore die (s.repl die).issued else .ready
      | _ => .ready }

/-- One indivisible part of a held access, where it is in its turn. -/
def performHeld (h0 : Held) (s0 : State) : State :=
  if !s0.inTurn h0 then s0
  else
    let (h, s) := bindData h0 s0
    match waitAccess h s with
    | .error (.blast d c m) => blastUse h.owner.grp.launch d c m s0
    | .error _ => s0
    | .ok _ =>
      if h.halves && reachOf h s == .here then performHalf h s
      else
        let r := perform h s
        let s := r.2.dropHeld h.id
        match h.pend with
        | some p => s.modPend p (afterPerform h r.1 s)
        | none => s

end Sys2Proof.Machine
end

