-- ==== Sys2Proof/Machine/Memory.lean ====
section
/-! DEFINITION. Class 0x9: slots, loads and stores; and the access procedure that classes 0x9, 0xA and 0xD share (R143 to R165). -/

namespace Sys2Proof.Machine

/-! ## The group that accesses -/

/-- What an access needs of its thread: group, launch and context descriptor. -/
structure Who where
  k : StrandKey
  x : Strand
  g : Group
  l : Launch
  d : CtxDesc

def who (k : StrandKey) (x : Strand) : Exec Who := fun s =>
  match s.group k.grp, s.launch k.grp.launch with
  | some g, some l =>
    match s.ctx l.ctx with
    | some c => .ok (⟨k, x, g, l, c.d⟩, s)
    | none => .error (.refuse .noStrand)
  | _, _ => .error (.refuse .noStrand)

/-! ## The access procedure (R148 to R153) -/

/-- A trap of an access through slot `sl` at element `i` (R148). -/
def trapSlot (c : Cause) (sl i va : Nat) (errs : List (Bool × Nat) := []) : Exec α :=
  trapWith { cause := c, va := va, slot := some (sl, i), errs := errs }

/-- Translating for the current strand: the translation, or the malformed entries met. A walk that reads a failed table entry kills the
launch (R230, R341). -/
def xlateE (d : CtxDesc) (va : Nat) : Exec (Except (List (Bool × Nat)) Xl) := fun s =>
  match xlate d va s with
  | (.ok x, s) => .ok (.ok x, s)
  | (.notValid e, s) => .ok (.error e, s)
  | (.failed d c n, _) => .error (.blast d c n)

/-- Where an access falls and whether its page is marked SC. -/
structure Target where
  loc : Loc
  sc : Bool
  va : Nat

/-- The structure that an access would use and that has failed kills the launch (R230, R341); the readers of a replica's failed line wait
(R342). -/
def holdForBad (own : Nat) (loc : Loc) (n : Nat) (reads : Bool) : Exec Unit := fun s =>
  match s.meetsBad own loc n reads with
  | some (some (d, c, m)) => .error (.blast d c m)
  | some none => .error (.block .room)
  | none => .ok ((), s)

/-- The checks of R148 from ABND on. `need` gives the record bits the access needs. -/
def accessAt (w : Who) (r : BufRec) (sl i : Nat) (ak : AKind) (need : BufRec → Bool) : Exec Target := do
  let va := r.form i (w.k.grp.glin * w.g.size + w.k.tid)
  let n := 2 ^ r.esz
  if r.extent ≤ i then trapSlot .abnd sl i va
  if !need r then trapSlot .aprm sl i va
  match r.seg with
  | .core => do
    if w.l.rc.scratch < va + n then trapSlot .aprm sl i va
    if va % n != 0 then trapSlot .aaln sl i va
    pure ⟨.core w.k.grp (r.swizzle va), false, va⟩
  | .clus => do
    if w.l.rc.cluster < va + n then trapSlot .aprm sl i va
    if va % n != 0 then trapSlot .aaln sl i va
    pure ⟨.clus (w.g.ownerKey w.k.grp) (r.swizzle va), false, va⟩
  | _ => do
    let t ← xlateE w.d va
    let s ← get
    match t with
    | .ok p =>
      if !p.permits ak || !s.segAgrees w.g.die w.d.yard r.seg r.epdie p then trapSlot .aprm sl i va
    | .error _ => pure ()
    if va % n != 0 then trapSlot .aaln sl i va (match t with | .error e => e | .ok _ => [])
    match t with
    | .error e => trapSlot .anrs sl i va e
    | .ok p => do
      if r.seg == .repl && !s.isMember w.g.die then trapSlot .rplx sl i va
      let a := p.spa / 128 * 128 + r.swizzle va % 128
      let loc : Loc :=
        match r.seg with
        | .repl => .repl w.g.die (spaOff p.spa - s.replBase)
        | .glob => .glob r.epmod r.epdie p.spa
        | _ => .spa a
      holdForBad w.g.die loc n (ak != .write)
      pure ⟨loc, p.sc, va⟩

/-- What an instruction asks of the record it names, beside its operands (R148, Tables 7.3, 7.6, 7.7). -/
structure RecNeed where
  ak : AKind
  esz : List Nat
  etag : Tag → Bool := fun _ => true
  seg : Seg → Bool := fun _ => true
  bits : BufRec → Bool

/-- The record of a slot, captured at issue, after the interlock with a BLOAD of the same strand (R147). -/
def slotRec (k : StrandKey) (sl : Nat) : Exec (BitVec 256) := fun s =>
  if s.pend.any (fun (p : Pend) => p.owner == k && p.dests.any fun d => match d with | .slot n _ => n == sl | _ => false) then
    .error (.block .slot)
  else
    match s.group k.grp with
    | some g => .ok (lget g.slots sl 0#256, s)
    | none => .error (.refuse .noStrand)

/-- Whether data registers carry untyped or the tag of Table 7.2, and a tag that the instruction itself accepts (R148, Table 7.7). -/
def dataTagsOk (r : BufRec) (acc : Nat → Accept) : Nat → List TVal → Bool
  | _, [] => true
  | j, v :: l => (v.tag == 0#5 || v.tag == r.tagAt j) && (acc j).ok 0 v.tag && dataTagsOk r acc (j + 1) l

/-- The operands of an access and its target, once every check of R148 has passed. -/
structure Acc where
  w : Who
  r : BufRec
  t : Target
  data : List TVal

/-- The procedure of R148 for a word with slot `sl` and index register b; `d` is the data operand it reads. -/
def accessWord (sp : WordForm) (sl : BitVec 5) (need : RecNeed) (acc : Nat → Accept) : Exec Acc := do
  let (k, x) ← curStrand
  match sp.encFault k.kind x with
  | some c => trap c
  | none =>
    let img ← slotRec k sl.toNat
    let r := bufRec img
    let b ← readOpt k x sp.b
    let data ← readOpt k x sp.d
    let i := v32 b
    let zr := sp.d.any fun o => o.n == 126#7
    if !(tagsOk sp.b b && (img == 0#256 || (need.esz.contains r.esz && need.etag r.etag && (zr || dataTagsOk r acc 0 data)))) then
      trapWith { cause := .ftag, slot := some (sl.toNat, i), slv := false }
    if img == 0#256 || !need.seg r.seg then trapSlot .aseg sl.toNat i 0
    let w ← who k x
    let t ← accessAt w r sl.toNat i need.ak need.bits
    pure ⟨w, r, t, data⟩

/-! ## Issuing loads and stores -/

/-- Delivering a result: at once when synchronous, otherwise under the flag (R25). `logs` are the arithmetic causes (R167). -/
def deliverOrPend (w : Who) (fb : Bool) (len : Nat) (sync committed : Bool) (dests : List Dest) (lg : Log) : Exec Unit := fun s =>
  match if sync then none else w.x.selFlag fb with
  | none =>
    .ok ((), (alogFor w.k w.k.tid w.x.cpc lg (deliverAll w.k dests s)).modStrand w.k (·.advance len))
  | some _ =>
    .ok ((), issuePend { (Pend.blank s.nextId w.k w.x fb len).withLog lg with dests := dests, committed := committed }
      { s with nextId := s.nextId + 1 })

/-- An access as it issues. Its identifier is the next one, and that of the operation that waits for it follows. -/
def accessOf (a : Acc) (id : Nat) (waits acq committed : Bool) (rel : Option Nat) (strm : Nat) (ask : GlobAsk) (regs : List (Nat × TVal)) : Held where
  id := id
  owner := a.w.k
  pend := if waits then some (id + 1) else none
  committed := committed
  ask := ask
  regs := regs
  loc := a.t.loc
  va := a.t.va
  strm := strm
  acq := acq
  rel := rel
  die := a.w.g.die
  ctx := a.w.l.ctx
  keyid := a.w.d.keyid
  acct := a.w.d.bclass
  etag := a.r.etag
  esz := a.r.esz
  sc := a.t.sc
  done := []

/-- The operation that waits for an access: it is under the flag unless its page is marked SC (R165). -/
def waitFor (w : Who) (fb : Bool) (len : Nat) (h : Held) (kind : PendKind) (pl : List Place) (s : State) : State :=
  let p := Pend.blank (h.id + 1) w.k w.x fb len
  issuePend { p with flag := if h.sc then none else p.flag, committed := h.committed, kind := kind, places := pl } s

/-- A store to an SC page of repl holds its strand until every member has applied it (R165). -/
def storedKind (h : Held) (s : State) : PendKind :=
  match h.loc with
  | .repl die _ => if h.sc then .replStore die (s.repl die).issued else .ready
  | _ => .ready

/-- An access that is performed as it issues, once it has waited. -/
def makeNow (w : Who) (fb : Bool) (len : Nat) (pl : List Place) (h : Held) : Exec Unit := do
  waitAccess h
  let s ← get
  let r := perform h { s with nextId := s.nextId + 2 }
  set r.2
  match r.1 with
  | .vals l lg => deliverOrPend w fb len h.sc h.committed (destsOf pl l) lg
  | .stored =>
    match storedKind h r.2 with
    | .ready => deliverOrPend w fb len h.sc h.committed [] {}
    | kind => act (waitFor w fb len h kind [])
  | .asked => if h.waits then act (waitFor w fb len h (.glob h.id) pl) else deliverOrPend w fb len false h.committed [] {}

/-- An access that is held until its turn: the strand goes on, and its operation waits for it, or for its data where it is a plain store
under a flag (R161, R163). -/
def makeLater (w : Who) (fb : Bool) (len : Nat) (pl : List Place) (h : Held) : Exec Unit := do
  let s ← get
  let s := { s with nextId := s.nextId + 2 }
  if h.waits then set (waitFor w fb len h .held pl { s with held := s.held ++ [h] })
  else if h.regs.isEmpty || (w.x.selFlag fb).isNone then
    set { s with held := s.held ++ [{ h with regs := [] }] }
    deliverOrPend w fb len false h.committed [] {}
  else set (waitFor w fb len h (.data h.id) [] { s with held := s.held ++ [{ h with pend := some (h.id + 1) }] })

/-- An access of a word whose checks have passed. Where its turn has come it may be performed as it issues; whether it is, is the
schedule's choice (R162, log 1). -/
def makeAccess (w : Who) (fb : Bool) (len : Nat) (pl : List Place) (h : Held) : Exec Unit := do
  let s ← get
  if s.inTurn h && !s.late then makeNow w fb len pl h else makeLater w fb len pl h

/-- The data registers of an operand with what they hold; a queue port and `zr` are none (R26). -/
def sourceRegs (x : Strand) (o : Option Opnd) (l : List TVal) : List (Nat × TVal) :=
  match o with
  | some o => if o.n.toNat < 120 then (List.range l.length).map fun i => (x.wb + o.n.toNat + i, lget l i ⟨0#32, 0#5⟩) else []
  | none => []

/-- Issuing a load once its checks have passed (R160, R163, R165, R168). -/
def issueLoad (a : Acc) (fb : Bool) (len : Nat) (d : RegNo) (acq : Bool) (strm : Nat) : Exec Unit := do
  let n := 2 ^ a.r.esz
  flagRoom a.w.x fb
  let pl ← places a.w.k a.w.x d (if n ≤ 4 then 1 else n / 4)
  let s ← get
  makeAccess a.w fb len pl (accessOf a s.nextId true acq false none strm (.read n) [])

/-- Issuing a store once its checks have passed (R161, R163, R165, R310). Repl stores wait at issue while their die takes none. -/
def issueStore (a : Acc) (fb : Bool) (len : Nat) (rel : Option Nat) (strm : Nat) (d : Option Opnd) : Exec Unit := do
  flagRoom a.w.x fb
  if a.t.sc then holdForBar a.w.k
  let s ← get
  match a.t.loc with
  | .repl die _ => if s.replHeld die then block .room
  | _ => pure ()
  if a.t.sc then act (commitWord a.w.k len)
  makeAccess a.w fb len [] (accessOf a s.nextId a.t.sc false a.t.sc rel strm (.write (storeBytes (2 ^ a.r.esz) a.data)) (sourceRegs a.w.x d a.data))

/-! ## Table 7.6 -/

def loadForm (b d : RegNo) (w : Nat) : WordForm := { cls := 9, b := some { n := b, acc := .int }, out := some (d, w) }
def storeForm (b d : RegNo) (w : Nat) : WordForm :=
  { cls := 9, b := some { n := b, acc := .int }, d := some { n := d, w := w } }

def loadNeed (esz : List Nat) : RecNeed := { ak := .read, esz := esz, bits := (·.pr) }
def storeNeed (esz : List Nat) : RecNeed := { ak := .write, esz := esz, bits := (·.pw) }

def loadWord (fb : Bool) (d : RegNo) (sl : BitVec 5) (b : RegNo) (w : Nat) (esz : List Nat) (s : State) :
    Host.Outcome State Fault Refusal :=
  runWord s.cur (do
    let a ← accessWord (loadForm b d w) sl (loadNeed esz) fun _ => .any
    issueLoad a fb 1 d false a.r.ostrm) s

def storeWord (fb : Bool) (d : RegNo) (sl : BitVec 5) (b : RegNo) (w : Nat) (esz : List Nat) (s : State) :
    Host.Outcome State Fault Refusal :=
  runWord s.cur (do
    let a ← accessWord (storeForm b d w) sl (storeNeed esz) fun _ => .any
    issueStore a fb 1 none a.r.ostrm (storeForm b d w).d) s

def execLd (fb : Bool) (d : RegNo) (sl : BitVec 5) (b : RegNo) (s : State) : Host.Outcome State Fault Refusal :=
  loadWord fb d sl b 1 [0, 1, 2] s
def execLd2 (fb : Bool) (d : RegNo) (sl : BitVec 5) (b : RegNo) (s : State) : Host.Outcome State Fault Refusal :=
  loadWord fb d sl b 2 [3] s
def execLd4 (fb : Bool) (d : RegNo) (sl : BitVec 5) (b : RegNo) (s : State) : Host.Outcome State Fault Refusal :=
  loadWord fb d sl b 4 [4] s
def execSt (fb : Bool) (d : RegNo) (sl : BitVec 5) (b : RegNo) (s : State) : Host.Outcome State Fault Refusal :=
  storeWord fb d sl b 1 [0, 1, 2] s
def execSt2 (fb : Bool) (d : RegNo) (sl : BitVec 5) (b : RegNo) (s : State) : Host.Outcome State Fault Refusal :=
  storeWord fb d sl b 2 [3] s
def execSt4 (fb : Bool) (d : RegNo) (sl : BitVec 5) (b : RegNo) (s : State) : Host.Outcome State Fault Refusal :=
  storeWord fb d sl b 4 [4] s

/-- Scope and ordering stream of the literal of LDA and STL (R163). -/
def litScope (lit : Word) : Nat := bitsOf lit.toNat 2 0
def litStrm (lit : Word) : Nat := bitsOf lit.toNat 6 3

def execLda (fb : Bool) (d : RegNo) (sl : BitVec 5) (b : RegNo) (lit : Word) (s : State) : Host.Outcome State Fault Refusal :=
  runWord s.cur (do
    let a ← accessWord { loadForm b d 1 with len := 2, rsv := !memLitOk lit } sl (loadNeed [0, 1, 2]) fun _ => .any
    issueLoad a fb 2 d true (litStrm lit)) s

def execStl (fb : Bool) (d : RegNo) (sl : BitVec 5) (b : RegNo) (lit : Word) (s : State) : Host.Outcome State Fault Refusal :=
  runWord s.cur (do
    let a ← accessWord { storeForm b d 1 with len := 2, rsv := !memLitOk lit } sl (storeNeed [0, 1, 2]) fun _ => .any
    issueStore a fb 2 (some (litScope lit)) (litStrm lit) (storeForm b d 1).d) s

/-! ## Slots (R145, R146) -/

/-- Where a page of any kind is read for a die: its own memory, its replica, the host, or the endpoint that the page names (R146). -/
def kindServes (s : State) (die yard : Nat) (p : Xl) : Bool :=
  match p.kind with
  | 0 => spaDie p.spa == die && s.devPage yard p
  | 1 => spaDie p.spa == 0 && s.inRepl (spaOff p.spa)
  | _ => true

/-- Where a record at a page is read: the page of a glob endpoint names no module, which is this one (log 43). -/
def recLoc (s : State) (die : Nat) (p : Xl) : Loc :=
  match p.kind with
  | 1 => .repl die (spaOff p.spa - s.replBase)
  | 3 => .glob s.modId (spaDie p.spa) p.spa
  | _ => .spa p.spa

/-- A record as it was read: its bytes, whether a page of it is marked SC, and the events of error responses (R168). -/
structure RecRead where
  bytes : List Byte
  sc : Bool
  evs : List LogEnt

/-- The event of an error response to a record's read (R168, R242, Table 13.17, R379). R379 names no DETAIL for a home that refuses: FABERR
has 1 behind a dead link and otherwise 0 (DEDUCED, log 50). -/
def recEvent (w : Who) (p : Xl) (va : Nat) (s : State) : LogEnt :=
  if p.kind == 2 then ⟨evHostErr, 1, 0xFFFF, w.l.id, va, 0⟩
  else ⟨evFabErr, if s.linkDead w.g.die (spaDie p.spa) then 1 else 0, 0xFFFF, w.l.id, s.modId * 8 + spaDie p.spa, va⟩

/-- Reading a record, map or list of `n` bytes aligned to `al` at a register-supplied address, with its checks AALN, APRM, ANRS
(R146, R359, R378). It is made in the order of its strand's accesses and charged as they are (R162, R285); an error response gives all
ones (R168). -/
def readRecord (w : Who) (va n al : Nat) : Exec RecRead := do
  if va % al != 0 then trapWith { cause := .aaln, va := va }
  let t ← xlateE w.d va
  let s ← get
  match t with
  | .error e => trapWith { cause := .anrs, va := va, errs := e }
  | .ok p =>
    if !p.r || !kindServes s w.g.die w.d.yard p then trapWith { cause := .aprm, va := va }
    if p.kind == 1 && !s.isMember w.g.die then trapWith { cause := .rplx, va := va }
    let loc := recLoc s w.g.die p
    holdForOrder w.k loc (.read n)
    if s.answersError w.g.die w.d.keyid p n then pure ⟨List.replicate n 0xFF#8, p.sc, [recEvent w p va s]⟩
    else
      holdForBad w.g.die loc n true
      spendHbm w.l.ctx loc n
      pure ⟨readLoc w.k loc n s, p.sc, []⟩

/-- `k` runs of 64 bytes from an address on, read one after the other: a list or a map. -/
def readRuns (w : Who) (va : Nat) : Nat → Exec RecRead
  | 0 => pure ⟨[], false, []⟩
  | k + 1 => do
    let x ← readRecord w va 64 64
    let y ← readRuns w (va57 (va + 64)) k
    pure ⟨x.bytes ++ y.bytes, x.sc || y.sc, x.evs ++ y.evs⟩

/-- Logging what the read of a record raised. -/
def RecRead.log (r : RecRead) (ctx : Nat) : Exec Unit := act fun s => r.evs.foldl (fun s e => logEvent ctx e s) s

/-- The address pair of a slot instruction (R145). Bits [63:57] of the pair are ignored, as in the address it records: the spec gives them
no meaning (log 21). -/
def slotForm (a : RegNo) : WordForm := { cls := 9, a := some { n := a, w := 2, acc := .i64 } }

/-- BLOAD and LLOAD (R145, R146): reading the record at the address pair, its ASEG, and its delivery. A read through a page marked SC holds
the strand until it completes (R165). -/
def slotLoad (fb : Bool) (a : RegNo) (n : Nat) (wait : Vals → Exec Unit) (good : Who → Nat → State → Bool) (dest : Nat → Dest) : Exec Unit := do
  let v ← readWordAt (slotForm a) fun v => va57 (v64 v.a)
  wait v
  let w ← who v.k v.x
  let va := va57 (v64 v.a)
  let r ← readRecord w va n n
  let img := ofBytes r.bytes
  let s ← get
  if img != 0 && !good w img s then trapWith { cause := .aseg, va := va, evs := r.evs }
  flagRoom v.x fb
  r.log w.l.ctx
  deliverOrPend w fb 1 r.sc false [dest img] {}

def execBload (fb : Bool) (sl : BitVec 5) (a : RegNo) (s : State) : Host.Outcome State Fault Refusal :=
  runWord s.cur (slotLoad fb a 32 (fun v => do let _ ← slotRec v.k sl.toNat)
    (fun w img s =>
      let r := bufRec (BitVec.ofNat 256 img)
      recWellFormed (BitVec.ofNat 256 img) && s.usable w.g.die w.d w.l.rc r.seg r.epmod)
    fun img => .slot sl.toNat (BitVec.ofNat 256 img)) s

def execLload (fb : Bool) (sl : BitVec 3) (a : RegNo) (s : State) : Host.Outcome State Fault Refusal :=
  runWord s.cur (slotLoad fb a 64 (fun _ => pure ())
    (fun w img s =>
      let r := layRec (BitVec.ofNat 512 img)
      layValid (BitVec.ofNat 512 img) && s.usable w.g.die w.d w.l.rc r.seg r.epmod)
    fun img => .lslot sl.toNat (BitVec.ofNat 512 img)) s

/-- The word of a slot that BQRY selects (R145). -/
def slotWord (img : BitVec 256) (sel : Nat) : Nat := if sel == 8 then b2n (img != 0#256) else bitsOf img.toNat (32 * sel + 31) (32 * sel)

def execBqrySlot (d : RegNo) (sl : BitVec 5) (im : BitVec 7) (s : State) : Host.Outcome State Fault Refusal :=
  runWord s.cur (do
    let v ← readWord { cls := 9, rsv := decide (9 ≤ im.toNat), out := some (d, 1) }
    let img ← slotRec v.k sl.toNat
    writeVals v.k v.x d [⟨BitVec.ofNat 32 (slotWord img im.toNat), n32Tag⟩]
    done v 1 {}) s

end Sys2Proof.Machine
end

