-- ==== Sys2Proof/Machine/Atomics.lean ====
section
/-! DEFINITION. Class 0xA: atomics and fences (R158, R166 to R169). -/

namespace Sys2Proof.Machine

/-- Issuing an atomic once its checks have passed: it commits and is performed where the element lives (R158, R166, R168). -/
def issueAtomic (a : Acc) (fb : Bool) (d : RegNo) (op : AOp) : Exec Unit := do
  flagRoom a.w.x fb
  holdForBar a.w.k
  let pl ← places a.w.k a.w.x d (if op.wide then 2 else 1)
  act (commitWord a.w.k 1)
  let s ← get
  let o := op.operands a.data
  makeAccess a.w fb 1 pl
    (accessOf a s.nextId true false true none 0 (.atomic op o.1 o.2) (sourceRegs a.w.x (some { n := d, w := op.reads }) a.data))

def atomicWord (op : AOp) (fb : Bool) (d : RegNo) (sl : BitVec 5) (b : RegNo) (s : State) : Host.Outcome State Fault Refusal :=
  runWord s.cur (do
    let a ← accessWord
      { cls := 10, b := some { n := b, acc := .int }, d := some { n := d, w := op.reads }, out := some (d, if op.wide then 2 else 1) } sl
      { ak := .rmw, esz := [if op.wide then 3 else 2], etag := op.etagOk, seg := op.segOk, bits := fun r => r.pr && r.pw && r.pa }
      op.accepts
    issueAtomic a fb d op) s

def execAaddI32 (fb : Bool) (d : RegNo) (sl : BitVec 5) (b : RegNo) (s : State) : Host.Outcome State Fault Refusal :=
  atomicWord .addI fb d sl b s
def execAaddF32 (fb : Bool) (d : RegNo) (sl : BitVec 5) (b : RegNo) (s : State) : Host.Outcome State Fault Refusal :=
  atomicWord .addF fb d sl b s
def execAminI (fb : Bool) (d : RegNo) (sl : BitVec 5) (b : RegNo) (s : State) : Host.Outcome State Fault Refusal :=
  atomicWord .minI fb d sl b s
def execAminN (fb : Bool) (d : RegNo) (sl : BitVec 5) (b : RegNo) (s : State) : Host.Outcome State Fault Refusal :=
  atomicWord .minN fb d sl b s
def execAmaxI (fb : Bool) (d : RegNo) (sl : BitVec 5) (b : RegNo) (s : State) : Host.Outcome State Fault Refusal :=
  atomicWord .maxI fb d sl b s
def execAmaxN (fb : Bool) (d : RegNo) (sl : BitVec 5) (b : RegNo) (s : State) : Host.Outcome State Fault Refusal :=
  atomicWord .maxN fb d sl b s
def execAand (fb : Bool) (d : RegNo) (sl : BitVec 5) (b : RegNo) (s : State) : Host.Outcome State Fault Refusal :=
  atomicWord .and fb d sl b s
def execAor (fb : Bool) (d : RegNo) (sl : BitVec 5) (b : RegNo) (s : State) : Host.Outcome State Fault Refusal :=
  atomicWord .or fb d sl b s
def execAxor (fb : Bool) (d : RegNo) (sl : BitVec 5) (b : RegNo) (s : State) : Host.Outcome State Fault Refusal :=
  atomicWord .xor fb d sl b s
def execAxchg (fb : Bool) (d : RegNo) (sl : BitVec 5) (b : RegNo) (s : State) : Host.Outcome State Fault Refusal :=
  atomicWord .xchg fb d sl b s
def execAcas (fb : Bool) (d : RegNo) (sl : BitVec 5) (b : RegNo) (s : State) : Host.Outcome State Fault Refusal :=
  atomicWord .cas fb d sl b s
def execAinc (fb : Bool) (d : RegNo) (sl : BitVec 5) (b : RegNo) (s : State) : Host.Outcome State Fault Refusal :=
  atomicWord .inc fb d sl b s
def execAadd64 (fb : Bool) (d : RegNo) (sl : BitVec 5) (b : RegNo) (s : State) : Host.Outcome State Fault Refusal :=
  atomicWord .add64 fb d sl b s
def execAcas64 (fb : Bool) (d : RegNo) (sl : BitVec 5) (b : RegNo) (s : State) : Host.Outcome State Fault Refusal :=
  atomicWord .cas64 fb d sl b s

/-! ## Fences (R169) -/

/-- Whether a fence completes: an acquire once every earlier load and atomic is bound, the others once every earlier access is also
performed at the scope. In this module's order an access is performed when it is made, but for a request to another module and a repl
store. -/
def State.fenceMet (s : State) (k : StrandKey) (x : Strand) (kind scope : Nat) : Bool :=
  if kind == 0 then (s.openOf k).all fun y => !y.ask.reads else (s.openOf k).isEmpty && s.replDoneAt k x scope

def execFence (k : BitVec 2) (sc : BitVec 3) (s : State) : Host.Outcome State Fault Refusal :=
  runWord s.cur (do
    let v ← readWord { cls := 10 }
    let s ← get
    if s.fenceMet v.k v.x k.toNat sc.toNat then done v 1 {} else block .room) s

end Sys2Proof.Machine
end

