-- ==== Sys2Proof/Machine/Sched.lean ====
section
/-! DEFINITION. Which strands may issue (R119, R137). -/

namespace Sys2Proof.Machine

/-- Whether the strands of a group may issue (R119, R137, Table 13.10). -/
def Life.issues : Life → Bool
  | .running => true
  | .draining => true
  | .overrunning => true
  | .discarding => false
  | .saved => false
  | .ended => false

def State.groupIssues (s : State) (g : GroupKey) : Bool :=
  match s.group g with
  | some x => x.life.issues
  | none => false

/-- A strand at a header, waiting on its flags, or at a body word. -/
def Phase.active : Phase → Bool
  | .header => true
  | .flags => true
  | .body => true
  | .sync _ => false
  | .arrived _ => false
  | .ended => false

/-- Whether a strand may issue as far as is known: it was not blocked when last tried, or its word is to be tried again. -/
def State.strandReady (s : State) (k : StrandKey) (x : Strand) : Bool :=
  s.groupIssues k.grp && x.phase.active && (x.blk == .none || x.blk == .again)

/-- Whether the current strand issues next. After 64 words another agent has its turn, so that every ready strand issues (R119). -/
def State.curReady (s : State) : Bool :=
  decide (s.ran < 64) && match s.strand s.cur with
    | some x => s.strandReady s.cur x
    | none => false

/-- The die and core of a strand's group. -/
def State.coreOf (s : State) (k : StrandKey) : Option (Nat × Nat) := (s.group k.grp).map fun g => (g.die, g.core)

/-- Whether a strand that has yielded is passed over: another strand of its core is ready (R119). -/
def State.passedOver (s : State) (k : StrandKey) : Bool :=
  match s.strand k with
  | some x => x.blk == .yield && s.strands.any fun e => e.1 != k && s.coreOf e.1 == s.coreOf k && s.strandReady e.1 e.2
  | none => false

/-- Whether the word that a strand stood at has issued: it waits for nothing, nor for the other threads of its circle (R119). -/
def State.issued (s : State) (k : StrandKey) : Bool :=
  match s.strand k with
  | some x => (x.blk == .none || x.blk == .yield) && match x.phase with
      | .arrived _ => false
      | .header | .flags | .body | .sync _ | .ended => true
  | none => true

/-- What follows a word tried in `s` whose outcome is `t`: once it has issued, no other strand of its core is the last choice any longer
(R119). -/
def chosen (s t : State) : State :=
  if t.issued s.cur then
    { t with strands := t.strands.map fun e =>
        if e.1 != s.cur && e.2.blk == .yield && s.coreOf e.1 == s.coreOf s.cur then (e.1, { e.2 with blk := .none }) else e }
  else t

end Sys2Proof.Machine
end

