-- ==== Sys2Proof/Machine/Handles.lean ====
section
/-! DEFINITION. Scratchpad descriptors, sync words, the handle state machine and the handle instructions (R202 to R207, R217 to R221). -/

namespace Sys2Proof.Machine

/-! ## Scratchpad descriptors (R203) -/

def descSeg (w : Word) : Nat := bitsOf w.toNat 31 30
def descOff (w : Word) : Nat := bitsOf w.toNat 22 0
def descOk (w : Word) : Bool := bitsOf w.toNat 29 23 == 0 && descSeg w != 3

/-- The segment of a descriptor. -/
def descSegment (w : Word) : Seg :=
  match descSeg w with
  | 0 => .core
  | 1 => .clus
  | _ => .loft

/-- The place `add` bytes into a descriptor's buffer. -/
def descEnd (g : GroupKey) (x : Group) (w : Word) (add : Nat) : End :=
  match descSeg w with
  | 0 => .core g (descOff w + add)
  | 1 => .clus (x.ownerKey g) (descOff w + add)
  | _ => .loft x.core (descOff w + add)

/-- The space of a descriptor's footprint region (R198). -/
def descSpace (g : GroupKey) (x : Group) (w : Word) : Space :=
  match descSeg w with
  | 0 => .core g
  | 1 => .clus (x.ownerKey g)
  | _ => .loft x.die x.core

/-- Whether `n` bytes, `add` bytes into a descriptor's buffer, lie in its window, or in the slice and frames of the yard (R213). -/
def State.descIn (s : State) (x : Group) (rc : LaunchRec) (yard : Nat) (w : Word) (add n : Nat) : Bool :=
  match descSeg w with
  | 0 => decide (descOff w + add + n ≤ rc.scratch)
  | 1 => decide (descOff w + add + n ≤ rc.cluster)
  | _ => s.linOk x.die x.core yard (descOff w + add) n

/-! ## The state machine (Table 10.3) -/

def Handle.flags (h : Handle) : Nat := b2n h.psn + 2 * b2n h.ovr + 256 * h.fcause

/-- The 16 bytes of the sync word (Table 10.2). -/
def Handle.syncBytes (h : Handle) : List Byte :=
  toBytes 4 h.target ++ toBytes 4 h.count ++ toBytes 4 h.gen ++ toBytes 4 h.flags

/-- A generation completes with `c` bytes counted: the excess is carried, and poisons it. -/
def Handle.complete (h : Handle) (c : Nat) : Handle :=
  { h with state := .full, gen := (h.gen + 1) % 2 ^ 32, count := c - h.target,
           psn := h.psn || decide (h.target < c), ovr := h.ovr || decide (h.target < c) }

/-- An arrival of `n` bytes. One that reaches a free handle, as a job's may, counts and does not move it (R223). -/
def Handle.arrive (h : Handle) (n : Nat) : Handle :=
  let c := h.count + n
  match h.state with
  | .full | .draining => { h with count := c % 2 ^ 32, ovr := true }
  | .free => { h with count := c % 2 ^ 32 }
  | .filling => if c < h.target then { h with count := c } else h.complete c

/-- Reaching free: PSN and FLAGS are cleared, and the carried count is applied. -/
def Handle.reachFree (h : Handle) : Handle :=
  let h := { h with state := .free, psn := false, ovr := false, fcause := 0 }
  if h.count == 0 then h else if h.count < h.target then { h with state := .filling } else h.complete h.count

/-- A failure: poison, and the first cause of the generation. -/
def Handle.poison (h : Handle) (c : Cause) : Handle :=
  { h with psn := true, fcause := if h.fcause == 0 then c.code else h.fcause }

/-- HREL of the handle's generation. -/
def Handle.release (h : Handle) : Handle := if h.nout == 0 then h.reachFree else { h with state := .draining }

/-- An inbound item submitted: whether it is held, and the handle. -/
def Handle.takeIn (h : Handle) : Bool × Handle :=
  match h.state with
  | .free | .filling => (false, { h with nin := h.nin + 1, state := .filling })
  | .full | .draining => (true, { h with nin := h.nin + 1, heldIn := true })

/-- An outbound item submitted: whether it is held, and the handle. -/
def Handle.takeOut (h : Handle) : Bool × Handle :=
  match h.state with
  | .free => (false, { h with nout := h.nout + 1, state := .draining })
  | .filling => (true, { h with nout := h.nout + 1 })
  | .full | .draining => (false, { h with nout := h.nout + 1 })

/-- An item of the handle completes. -/
def Handle.itemDone (h : Handle) (inbound : Bool) : Handle :=
  if inbound then { h with nin := h.nin - 1 }
  else
    let h := { h with nout := h.nout - 1 }
    if h.state == .draining && h.nout == 0 then h.reachFree else h

/-- Held inbound items start where the handle is free or filling (Table 10.3). -/
def Handle.unhold (h : Handle) : Handle :=
  match h.state with
  | .free | .filling => if h.heldIn then { h with state := .filling, heldIn := false } else h
  | .full | .draining => h

/-! ## Handles of a group -/

def State.handle (s : State) (g : GroupKey) (n : Nat) : Handle :=
  match s.group g with
  | some x => lget x.handles n Handle.zero
  | none => Handle.zero

/-- Whether a handle number names an entry of the current group (R202). -/
def State.handleIn (s : State) (g : GroupKey) (n : Nat) : Bool :=
  match s.group g with
  | some x => decide (n < x.handles.length)
  | none => false

/-- Whether it also is bound (R202). -/
def State.handleOk (s : State) (g : GroupKey) (n : Nat) : Bool := s.handleIn g n && (s.handle g n).bound

/-- Writing a handle's sync word, in one single-copy atomic write (R204). -/
def syncWrite (g : GroupKey) (h : Handle) (s : State) : State :=
  match s.group g with
  | none => s
  | some x =>
    if descSeg h.sync == 0 then s.writeCore g (descOff h.sync) h.syncBytes
    else s.writeClus (x.ownerKey g) (descOff h.sync) h.syncBytes

/-- A new entry for a handle; its sync word is written at every change of it (R204). -/
def setHandle (g : GroupKey) (n : Nat) (h : Handle) (s : State) : State :=
  let old := s.handle g n
  let s := s.modGroup g fun x => { x with handles := lset x.handles n h }
  if h.bound && h.syncBytes != old.syncBytes then syncWrite g h s else s

/-- Held items of a handle start (Table 10.3). -/
def startHeld (g : GroupKey) (n : Nat) (inbound : Bool) (s : State) : State :=
  { s with items := s.items.map fun (w : Item) =>
      if w.owner.grp == g && w.handle == some n && w.inbound == inbound then { w with held := false } else w }

/-! ## HWAIT (R207, R219) -/

def hwait (fb : Bool) (d : RegNo) (h : BitVec 7) (m : BitVec 1) : Exec Unit := do
  let s0 ← get
  let v ← readWord { cls := 12, rsv := !s0.handleOk s0.cur.grp h.toNat, out := some (d, 1) }
  flagRoom v.x fb
  let s ← get
  let e := s.handle v.k.grp h.toNat
  if e.state == (if m == 1#1 then .free else .full) then do
    if m == 0#1 && e.psn then trapWith { cause := .hpsn, va := descOff e.sync }
    let r := [⟨BitVec.ofNat 32 e.gen, n32Tag⟩]
    match v.x.selFlag fb with
    | none => do
      writeVals v.k v.x d r
      done v 1 {}
    | some _ => do
      let pl ← places v.k v.x d 1
      let id ← freshId
      act (issuePend { Pend.blank id v.k v.x fb 1 with dests := destsOf pl r })
  else block .handle

/-- The state after a word that a strand tries again, where it answers one. -/
def wordState (k : StrandKey) (m : Exec Unit) (s : State) : State :=
  match runWord k m { s with cur := k } with
  | .next t => { t with cur := s.cur }
  | _ => s

/-- Trying again the HWAIT at which a strand is held. -/
def retryHwait (n : Nat) (k : StrandKey) (s : State) : State :=
  match s.strand k with
  | none => s
  | some x =>
    match x.word with
    | none => s
    | some w =>
      match decode w none with
      | .ok (.hwait fb d h m) => if h.toNat == n then wordState k (hwait fb d h m) s else s
      | _ => s

/-- A handle that has moved completes the HWAITs for the state that it reached (R219). -/
def wakeHandle (g : GroupKey) (n : Nat) (s : State) : State :=
  if s.groupIssues g then
    (s.strands.filter fun e => e.1.grp == g && e.2.blk == .handle && e.2.phase == .body).foldl (fun s e => retryHwait n e.1 s) s
  else s

/-- One event of Table 10.3, with the held items that start and the waiters that go on. -/
def handleEvent (g : GroupKey) (n : Nat) (f : Handle → Handle) (s : State) : State :=
  let h := (f (s.handle g n)).unhold
  let s := setHandle g n h s
  let s := match h.state with
    | .filling => startHeld g n true s
    | .full => startHeld g n false s
    | _ => s
  wakeHandle g n s

/-! ## The instructions (R217 to R221) -/

/-- The first of HSET's checks 2 to 4 that fails (R218). -/
def hsetFault (a b : Word) (n : Nat) (g : GroupKey) (x : Group) (rc : LaunchRec) (yard : Nat) (s : State) : Option Cause :=
  if !s.handleIn g n || !descOk a || !descOk b || descSeg b == 2 then some .irsv
  else if !s.descIn x rc yard a 0 1 || !s.descIn x rc yard b 0 (if descOff b % 16 == 0 then 16 else 1) then some .aprm
  else if descOff a % 64 != 0 || descOff b % 16 != 0 then some .aaln
  else none

/-- The 16 bytes that a sync descriptor names. -/
def State.syncAt (s : State) (g : GroupKey) (x : Group) (b : Word) : List Byte :=
  if descSeg b == 0 then s.readCore g (descOff b) 16 else s.readClus (x.ownerKey g) (descOff b) 16

def execHset (h : BitVec 7) (a b : RegNo) (s : State) : Host.Outcome State Fault Refusal :=
  runWord s.cur (do
    let v ← readWord { cls := 12, a := some { n := a, acc := .int }, b := some { n := b, acc := .int } }
    let s ← get
    let g := v.k.grp
    let n := h.toNat
    let x ← need (s.group g)
    let l ← need (s.launch g.launch)
    let buf := BitVec.ofNat 32 (v32 v.a)
    let syn := BitVec.ofNat 32 (v32 v.b)
    match hsetFault buf syn n g x l.rc (s.yardOf l.ctx) s with
    | some c => trap c
    | none => do
      let e := s.handle g n
      if e.state == .free then do
        let m := s.syncAt g x syn
        check (fieldAt m 0 4 != 0) .irsv
        let e' := { e with bound := true, buf := buf, sync := syn, target := fieldAt m 0 4, count := 0, gen := fieldAt m 8 4,
                           psn := false, ovr := false, fcause := 0 }
        act fun s => handleEvent g n id (syncWrite g e' (setHandle g n e' s))
      else check (e.buf == buf && e.sync == syn) .irsv
      done v 1 {}) s

def execHwait (fb : Bool) (d : RegNo) (h : BitVec 7) (m : BitVec 1) (s : State) : Host.Outcome State Fault Refusal :=
  runWord s.cur (hwait fb d h m) s

def execHrel (h : BitVec 7) (b : RegNo) (s : State) : Host.Outcome State Fault Refusal :=
  runWord s.cur (do
    let v ← readWord { cls := 12, rsv := !s.handleOk s.cur.grp h.toNat, b := some { n := b, acc := .int } }
    let s ← get
    let e := s.handle v.k.grp h.toNat
    done v 1 {}
    if e.state == .full && e.gen == v32 v.b then act (handleEvent v.k.grp h.toNat Handle.release)) s

/-- Word 0 of a handle entry (Table 10.1). -/
def Handle.word0 (h : Handle) : Nat :=
  (match h.state with
    | .free => 0
    | .filling => 1
    | .full => 2
    | .draining => 3) + 4 * b2n h.psn + 8 * b2n h.bound + 16 * b2n h.heldIn + 32 * b2n (h.nout != 0)

/-- The value that a selector of HQ names (R221). -/
def Handle.query (h : Handle) (sel : Nat) : Nat :=
  match sel with
  | 0 => h.word0
  | 1 => h.buf.toNat
  | 2 => h.sync.toNat
  | 3 => if h.bound then h.target else 0
  | 4 => if h.bound then h.count else 0
  | 5 => if h.bound then h.gen else 0
  | _ => if h.bound then h.flags else 0

def execHq (d : RegNo) (h im : BitVec 7) (s : State) : Host.Outcome State Fault Refusal :=
  runWord s.cur (valueWord
    { cls := 12, rsv := decide (7 ≤ im.toNat) || !s.handleIn s.cur.grp h.toNat, out := some (d, 1) } fun v =>
      ret1 n32Tag (BitVec.ofNat 32 ((s.handle v.k.grp h.toNat).query im.toNat))) s

end Sys2Proof.Machine
end

