-- ==== Sys2Proof/Machine/Float.lean ====
section
/-! DEFINITION. Class 0x5, single and double precision (R57 to R60, R87, R88, Tables 4.6 and 4.7). -/

namespace Sys2Proof.Machine

def f32Tag : Tag := 3#5

def fres (r : FRes) : List TVal × Log := ret1 f32Tag (BitVec.ofNat 32 r.1) r.2
def dres (r : FRes) : List TVal × Log := ret2 11#5 12#5 (BitVec.ofNat 64 r.1) r.2
def fval (l : List TVal) : FVal := f32.dec (v32 l)
def dval (l : List TVal) : FVal := f64.dec (v64 l)

def float3 (d a b : RegNo) (f : List TVal → List TVal → FRes) (s : State) : Host.Outcome State Fault Refusal :=
  runWord s.cur (valueWord (form3 5 d a b .f32 .f32) fun v => fres (f v.a v.b)) s

def float2 (d a : RegNo) (f : Nat → FRes) (s : State) : Host.Outcome State Fault Refusal :=
  runWord s.cur (valueWord (form2 5 d a .f32) fun v => fres (f (v32 v.a))) s

def execFadd (rm : RMode) (d a b : RegNo) (s : State) : Host.Outcome State Fault Refusal :=
  float3 d a b (fun x y => f32.add rm (fval x) (fval y)) s
def execFsub (rm : RMode) (d a b : RegNo) (s : State) : Host.Outcome State Fault Refusal :=
  float3 d a b (fun x y => f32.sub rm (fval x) (fval y)) s
def execFmul (rm : RMode) (d a b : RegNo) (s : State) : Host.Outcome State Fault Refusal :=
  float3 d a b (fun x y => f32.mul rm (fval x) (fval y)) s

def execFfma (rm : RMode) (d a b : RegNo) (s : State) : Host.Outcome State Fault Refusal :=
  runWord s.cur (valueWord (form4 5 d a b .f32 .f32 .f32) fun v => fres (f32.fma rm (fval v.a) (fval v.b) (fval v.d))) s

def execFmin (d a b : RegNo) (s : State) : Host.Outcome State Fault Refusal :=
  float3 d a b (fun x y => f32.minmax false (v32 x) (v32 y)) s
def execFmax (d a b : RegNo) (s : State) : Host.Outcome State Fault Refusal :=
  float3 d a b (fun x y => f32.minmax true (v32 x) (v32 y)) s

def execFabs (d a : RegNo) (s : State) : Host.Outcome State Fault Refusal := float2 d a (f32.withSign fun _ => false) s
def execFneg (d a : RegNo) (s : State) : Host.Outcome State Fault Refusal := float2 d a (f32.withSign Bool.not) s
def execFrnd (rm : RMode) (d a : RegNo) (s : State) : Host.Outcome State Fault Refusal := float2 d a (f32.rint rm) s

/-! ## Conversions (Table 4.7, R60) -/

/-- A one-register conversion: accepted tags, and the result from the bits of a. -/
def fcvt (d a : RegNo) (t : Accept) (f : List TVal → List TVal × Log) (s : State) : Host.Outcome State Fault Refusal :=
  runWord s.cur (valueWord (form2 5 d a t) fun v => f v.a) s

def execFcvtI32F32 (d a : RegNo) (s : State) : Host.Outcome State Fault Refusal :=
  fcvt d a .f32 (fun x => let r := toIntSat (-(2 ^ 31)) (2 ^ 31 - 1) (fval x); ret1 i32Tag (low32 r.1) r.2) s
def execFcvtN32F32 (d a : RegNo) (s : State) : Host.Outcome State Fault Refusal :=
  fcvt d a .f32 (fun x => let r := toIntSat 0 (2 ^ 32 - 1) (fval x); ret1 n32Tag (low32 r.1) r.2) s
def execFcvtF32I32 (d a : RegNo) (s : State) : Host.Outcome State Fault Refusal :=
  fcvt d a .int (fun x => fres (f32.conv .rn (ofIntVal (ival x)))) s
def execFcvtF32N32 (d a : RegNo) (s : State) : Host.Outcome State Fault Refusal :=
  fcvt d a .int (fun x => fres (f32.conv .rn (ofIntVal (nval x)))) s
def execFcvtF16F32 (d a : RegNo) (s : State) : Host.Outcome State Fault Refusal :=
  fcvt d a .f32 (fun x => let r := f16.conv .rn (fval x); ret1 4#5 (BitVec.ofNat 32 r.1) r.2) s
def execFcvtF32F16 (d a : RegNo) (s : State) : Host.Outcome State Fault Refusal :=
  fcvt d a (.one [4#5]) (fun x => fres (f32.conv .rn (f16.dec (v32 x % 2 ^ 16)))) s
def execFcvtBf16F32 (d a : RegNo) (s : State) : Host.Outcome State Fault Refusal :=
  fcvt d a .f32 (fun x => let r := bf16.conv .rn (fval x); ret1 5#5 (BitVec.ofNat 32 r.1) r.2) s
def execFcvtF32Bf16 (d a : RegNo) (s : State) : Host.Outcome State Fault Refusal :=
  fcvt d a (.one [5#5]) (fun x => fres (f32.conv .rn (bf16.dec (v32 x % 2 ^ 16)))) s

def execFcvtF64F32 (d a : RegNo) (s : State) : Host.Outcome State Fault Refusal :=
  runWord s.cur (valueWord { form2 5 d a .f32 with out := some (d, 2) } fun v => dres (f64.conv .rn (fval v.a))) s
def execFcvtF32F64 (d a : RegNo) (s : State) : Host.Outcome State Fault Refusal :=
  runWord s.cur (valueWord { cls := 5, a := some { n := a, w := 2, acc := .f64 }, out := some (d, 1) } fun v =>
    fres (f32.conv .rn (dval v.a))) s

/-! ## Double precision -/

def double3 (d a b : RegNo) (f : List TVal → List TVal → FRes) (s : State) : Host.Outcome State Fault Refusal :=
  runWord s.cur (valueWord (formP3 5 d a b .f64) fun v => dres (f v.a v.b)) s

def execDadd (d a b : RegNo) (s : State) : Host.Outcome State Fault Refusal :=
  double3 d a b (fun x y => f64.add .rn (dval x) (dval y)) s
def execDsub (d a b : RegNo) (s : State) : Host.Outcome State Fault Refusal :=
  double3 d a b (fun x y => f64.sub .rn (dval x) (dval y)) s
def execDmul (d a b : RegNo) (s : State) : Host.Outcome State Fault Refusal :=
  double3 d a b (fun x y => f64.mul .rn (dval x) (dval y)) s
def execDmin (d a b : RegNo) (s : State) : Host.Outcome State Fault Refusal :=
  double3 d a b (fun x y => f64.minmax false (v64 x) (v64 y)) s
def execDmax (d a b : RegNo) (s : State) : Host.Outcome State Fault Refusal :=
  double3 d a b (fun x y => f64.minmax true (v64 x) (v64 y)) s

def execDfma (d a b : RegNo) (s : State) : Host.Outcome State Fault Refusal :=
  runWord s.cur (valueWord { formP3 5 d a b .f64 with d := some { n := d, w := 2, acc := .f64 } } fun v =>
    dres (f64.fma .rn (dval v.a) (dval v.b) (dval v.d))) s

end Sys2Proof.Machine
end

