-- ==== Sys2Proof/Machine/Logic.lean ====
section
/-! DEFINITION. Class 0x1, logic and bit operations (R76 to R78, Table 4.2). -/

namespace Sys2Proof.Machine

/-- A logic word over two registers: any tags, the tag of a. -/
def logic3 (d a b : RegNo) (f : Word → Word → Word) (s : State) : Host.Outcome State Fault Refusal :=
  runWord s.cur (valueWord (form3 1 d a b .any .any) fun v =>
    ret1 (vtag v.a) (f (BitVec.ofNat 32 (v32 v.a)) (BitVec.ofNat 32 (v32 v.b)))) s

/-- A logic word over one register, its result tag a function of the tag of a. -/
def logic2 (d a : RegNo) (t : Tag → Tag) (f : Word → Word) (s : State) : Host.Outcome State Fault Refusal :=
  runWord s.cur (valueWord (form2 1 d a .any) fun v => ret1 (t (vtag v.a)) (f (BitVec.ofNat 32 (v32 v.a)))) s

/-- The sign-extended immediate applied to all 32 bits (R76). -/
def imm32 (im : BitVec 7) : Word := im.signExtend 32

def execAnd (d a b : RegNo) (s : State) : Host.Outcome State Fault Refusal := logic3 d a b (· &&& ·) s
def execAndi (d a : RegNo) (im : BitVec 7) (s : State) : Host.Outcome State Fault Refusal := logic2 d a id (· &&& imm32 im) s
def execOr (d a b : RegNo) (s : State) : Host.Outcome State Fault Refusal := logic3 d a b (· ||| ·) s
def execOri (d a : RegNo) (im : BitVec 7) (s : State) : Host.Outcome State Fault Refusal := logic2 d a id (· ||| imm32 im) s
def execXor (d a b : RegNo) (s : State) : Host.Outcome State Fault Refusal := logic3 d a b (· ^^^ ·) s
def execXori (d a : RegNo) (im : BitVec 7) (s : State) : Host.Outcome State Fault Refusal := logic2 d a id (· ^^^ imm32 im) s
def execAndn (d a b : RegNo) (s : State) : Host.Outcome State Fault Refusal := logic3 d a b (fun x y => x &&& ~~~y) s
def execNot (d a : RegNo) (s : State) : Host.Outcome State Fault Refusal := logic2 d a id (fun x => ~~~x) s

/-- The count of a shift or rotation, modulo 32 (R76). -/
def shiftCount (y : Word) : Nat := y.toNat % 32

def rotl (x : Word) (n : Nat) : Word := x <<< n ||| x >>> (32 - n)

def execShl (d a b : RegNo) (s : State) : Host.Outcome State Fault Refusal := logic3 d a b (fun x y => x <<< shiftCount y) s
def execShli (d a : RegNo) (n : BitVec 5) (s : State) : Host.Outcome State Fault Refusal := logic2 d a id (· <<< n.toNat) s
def execShr (d a b : RegNo) (s : State) : Host.Outcome State Fault Refusal := logic3 d a b (fun x y => x >>> shiftCount y) s
def execShri (d a : RegNo) (n : BitVec 5) (s : State) : Host.Outcome State Fault Refusal := logic2 d a id (· >>> n.toNat) s
def execSar (d a b : RegNo) (s : State) : Host.Outcome State Fault Refusal := logic3 d a b (fun x y => x.sshiftRight (shiftCount y)) s
def execSari (d a : RegNo) (n : BitVec 5) (s : State) : Host.Outcome State Fault Refusal := logic2 d a id (·.sshiftRight n.toNat) s
def execRol (d a b : RegNo) (s : State) : Host.Outcome State Fault Refusal := logic3 d a b (fun x y => rotl x (shiftCount y)) s
def execRoli (d a : RegNo) (n : BitVec 5) (s : State) : Host.Outcome State Fault Refusal := logic2 d a id (fun x => rotl x n.toNat) s

/-- Position and effective width of a field descriptor (R77). -/
def fieldPos (b : Nat) : Nat := b % 32
def fieldWidth (b : Nat) : Nat := min (min (bitsOf b 13 8) 32) (32 - fieldPos b)

def execBfxI (d a b : RegNo) (s : State) : Host.Outcome State Fault Refusal :=
  runWord s.cur (valueWord (form3 1 d a b .any .any) fun v =>
    let w := fieldWidth (v32 v.b)
    ret1 i32Tag (if w == 0 then 0#32 else low32 (sext (v32 v.a / 2 ^ fieldPos (v32 v.b)) w))) s

def execBfxN (d a b : RegNo) (s : State) : Host.Outcome State Fault Refusal :=
  runWord s.cur (valueWord (form3 1 d a b .any .any) fun v =>
    ret1 n32Tag (BitVec.ofNat 32 (v32 v.a / 2 ^ fieldPos (v32 v.b) % 2 ^ fieldWidth (v32 v.b)))) s

/-- Replacing a field of `x` by the low bits of `a` (R77). -/
def insertField (x a p w : Nat) : Nat := x % 2 ^ p + a % 2 ^ w * 2 ^ p + x / 2 ^ (p + w) * 2 ^ (p + w)

def execBfi (d a b : RegNo) (s : State) : Host.Outcome State Fault Refusal :=
  runWord s.cur (valueWord (form4 1 d a b .any .any .any) fun v =>
    ret1 (vtag v.d) (BitVec.ofNat 32 (insertField (v32 v.d) (v32 v.a) (fieldPos (v32 v.b)) (fieldWidth (v32 v.b))))) s

/-- The number of one bits among the low `n`. -/
def popCount (x : Nat) : Nat → Nat
  | 0 => 0
  | n + 1 => b2n (bitOf x n) + popCount x n

/-- The number of leading zero bits below bit `n`. -/
def leadZeros (x : Nat) : Nat → Nat
  | 0 => 0
  | n + 1 => if bitOf x n then 0 else leadZeros x n + 1

/-- The number with its low `n` bits reversed. -/
def revBits (x : Nat) : Nat → Nat
  | 0 => 0
  | n + 1 => b2n (bitOf x n) + 2 * revBits x n

def execPopc (d a : RegNo) (s : State) : Host.Outcome State Fault Refusal :=
  logic2 d a (fun _ => n32Tag) (fun x => BitVec.ofNat 32 (popCount x.toNat 32)) s
def execClz (d a : RegNo) (s : State) : Host.Outcome State Fault Refusal :=
  logic2 d a (fun _ => n32Tag) (fun x => BitVec.ofNat 32 (leadZeros x.toNat 32)) s
def execCtz (d a : RegNo) (s : State) : Host.Outcome State Fault Refusal :=
  logic2 d a (fun _ => n32Tag) (fun x => BitVec.ofNat 32 (leadZeros (revBits x.toNat 32) 32)) s
def execBrev (d a : RegNo) (s : State) : Host.Outcome State Fault Refusal :=
  logic2 d a id (fun x => BitVec.ofNat 32 (revBits x.toNat 32)) s

/-- Byte `i` of PERMB's result (R78). -/
def permByte (a b d i : Nat) : Nat :=
  let s := bitsOf b (4 * i + 3) (4 * i)
  if s < 4 then a / 2 ^ (8 * s) % 256 else if s < 8 then d / 2 ^ (8 * (s - 4)) % 256 else 0

def execPermb (d a b : RegNo) (s : State) : Host.Outcome State Fault Refusal :=
  runWord s.cur (valueWord (form4 1 d a b .any .any .any) fun v =>
    let p := permByte (v32 v.a) (v32 v.b) (v32 v.d)
    ret1 (vtag v.d) (BitVec.ofNat 32 (p 0 + p 1 * 2 ^ 8 + p 2 * 2 ^ 16 + p 3 * 2 ^ 24))) s

end Sys2Proof.Machine
end

