-- ==== Sys2Proof/Machine/Packed.lean ====
section
/-! DEFINITION. Class 0x6, packed and narrow (R89 to R93). -/

namespace Sys2Proof.Machine

/-! ## Half-precision pairs (R89) -/

/-- Element `i` of a pair of 16-bit elements, and of four bytes. -/
def half (x i : Nat) : Nat := x / 2 ^ (16 * i) % 2 ^ 16
def byteOf (x i : Nat) : Nat := x / 2 ^ (8 * i) % 2 ^ 8

/-- Two element results in one register, their logs merged (R73). -/
def pack2 (t : Tag) (r0 r1 : FRes) : List TVal × Log := ret1 t (BitVec.ofNat 32 (r0.1 + 2 ^ 16 * r1.1)) (r0.2.join r1.2)

def half3 (f : Fmt) (t : Tag) (d a b : RegNo) (g : FVal → FVal → FRes) (s : State) : Host.Outcome State Fault Refusal :=
  runWord s.cur (valueWord (form3 6 d a b (.one [t]) (.one [t])) fun v =>
    let e := fun i => g (f.dec (half (v32 v.a) i)) (f.dec (half (v32 v.b) i))
    pack2 t (e 0) (e 1)) s

def halfFma (f : Fmt) (t : Tag) (d a b : RegNo) (s : State) : Host.Outcome State Fault Refusal :=
  runWord s.cur (valueWord (form4 6 d a b (.one [t]) (.one [t]) (.one [t])) fun v =>
    let e := fun i => f.fma .rn (f.dec (half (v32 v.a) i)) (f.dec (half (v32 v.b) i)) (f.dec (half (v32 v.d) i))
    pack2 t (e 0) (e 1)) s

def execHadd2F16 (d a b : RegNo) (s : State) : Host.Outcome State Fault Refusal := half3 f16 4#5 d a b (f16.add .rn) s
def execHadd2Bf16 (d a b : RegNo) (s : State) : Host.Outcome State Fault Refusal := half3 bf16 5#5 d a b (bf16.add .rn) s
def execHmul2F16 (d a b : RegNo) (s : State) : Host.Outcome State Fault Refusal := half3 f16 4#5 d a b (f16.mul .rn) s
def execHmul2Bf16 (d a b : RegNo) (s : State) : Host.Outcome State Fault Refusal := half3 bf16 5#5 d a b (bf16.mul .rn) s
def execHfma2F16 (d a b : RegNo) (s : State) : Host.Outcome State Fault Refusal := halfFma f16 4#5 d a b s
def execHfma2Bf16 (d a b : RegNo) (s : State) : Host.Outcome State Fault Refusal := halfFma bf16 5#5 d a b s

def packHalf (f : Fmt) (t : Tag) (d a b : RegNo) (s : State) : Host.Outcome State Fault Refusal :=
  runWord s.cur (valueWord (form3 6 d a b .f32 .f32) fun v => pack2 t (f.conv .rn (fval v.a)) (f.conv .rn (fval v.b))) s

def execPkhF16 (d a b : RegNo) (s : State) : Host.Outcome State Fault Refusal := packHalf f16 4#5 d a b s
def execPkhBf16 (d a b : RegNo) (s : State) : Host.Outcome State Fault Refusal := packHalf bf16 5#5 d a b s

def unpackHalf (f : Fmt) (t : Tag) (i : Nat) (d a : RegNo) (s : State) : Host.Outcome State Fault Refusal :=
  runWord s.cur (valueWord (form2 6 d a (.one [t])) fun v => fres (f32.conv .rn (f.dec (half (v32 v.a) i)))) s

def execUnpkhF16Lo (d a : RegNo) (s : State) : Host.Outcome State Fault Refusal := unpackHalf f16 4#5 0 d a s
def execUnpkhF16Hi (d a : RegNo) (s : State) : Host.Outcome State Fault Refusal := unpackHalf f16 4#5 1 d a s
def execUnpkhBf16Lo (d a : RegNo) (s : State) : Host.Outcome State Fault Refusal := unpackHalf bf16 5#5 0 d a s
def execUnpkhBf16Hi (d a : RegNo) (s : State) : Host.Outcome State Fault Refusal := unpackHalf bf16 5#5 1 d a s

/-! ## Integer dot products (R90) -/

def dotWord (t rt : Tag) (d a b : RegNo) (f : Nat → Nat → Int) (s : State) : Host.Outcome State Fault Refusal :=
  runWord s.cur (valueWord (form4 6 d a b (.one [t]) (.one [t]) .int) fun v =>
    ret1 rt (low32 (nval v.d + f (v32 v.a) (v32 v.b)))) s

def execIdp4I8 (d a b : RegNo) (s : State) : Host.Outcome State Fault Refusal :=
  dotWord 7#5 i32Tag d a b (fun x y => ((List.range 4).map fun i => sext (byteOf x i) 8 * sext (byteOf y i) 8).sum) s
def execIdp4N8 (d a b : RegNo) (s : State) : Host.Outcome State Fault Refusal :=
  dotWord 8#5 n32Tag d a b (fun x y => ((List.range 4).map fun i => (byteOf x i * byteOf y i : Nat)).sum) s
def execIdp2I16 (d a b : RegNo) (s : State) : Host.Outcome State Fault Refusal :=
  dotWord 6#5 i32Tag d a b (fun x y => ((List.range 2).map fun i => sext (half x i) 16 * sext (half y i) 16).sum) s

/-! ## Narrow formats (R91, R92) -/

/-- Format register k of the current strand's launch (R61). -/
def State.curFmt (s : State) (k : Nat) : NFmt :=
  match s.launch s.cur.grp.launch with
  | some l => NFmt.ofWord (lget l.rc.fmt k 0#32)
  | none => NFmt.ofWord 0#32

/-- The containers of a register: how many there are, and the width of one (R63). -/
def NFmt.slots (f : NFmt) : Nat := if f.wide then 4 else 8
def NFmt.cbits (f : NFmt) : Nat := if f.wide then 8 else 4

/-- Replacing container `i` by a code (R91). -/
def NFmt.put (f : NFmt) (x i c : Nat) : Nat := insertField x c (f.cbits * i) f.cbits

def narrowForm (f : NFmt) (k i : Nat) (d a : RegNo) : WordForm :=
  { cls := 6, rsv := decide (f.slots ≤ i), a := some { n := a, acc := .f32 },
    d := some { n := d, acc := .one [0#5, f.tagOf k] }, out := some (d, 1) }

def ncvt (mode : RMode) (d a : RegNo) (k i : Nat) (s : State) : Host.Outcome State Fault Refusal :=
  let f := s.curFmt k
  runWord s.cur (valueWord (narrowForm f k i d a) fun v =>
    let r := f.enc mode (fval v.a)
    ret1 (f.tagOf k) (BitVec.ofNat 32 (f.put (v32 v.d) i r.1)) r.2) s

def execNcvtRn (d a : RegNo) (k : BitVec 3) (sl : BitVec 4) (s : State) : Host.Outcome State Fault Refusal :=
  ncvt .rn d a k.toNat sl.toNat s
def execNcvtRz (d a : RegNo) (k : BitVec 3) (sl : BitVec 4) (s : State) : Host.Outcome State Fault Refusal :=
  ncvt .rz d a k.toNat sl.toNat s

def execNunp (d a : RegNo) (k : BitVec 3) (sl : BitVec 4) (s : State) : Host.Outcome State Fault Refusal :=
  let f := s.curFmt k.toNat
  runWord s.cur (valueWord { form2 6 d a (.one [f.tagOf k.toNat]) with rsv := decide (f.slots ≤ sl.toNat) } fun v =>
    fres (f32.conv .rn (f.dec (v32 v.a / 2 ^ (f.cbits * sl.toNat) % 2 ^ f.cbits)))) s

/-! ## Scale bytes (R93) -/

def execNscl (d a b : RegNo) (s : State) : Host.Outcome State Fault Refusal :=
  runWord s.cur (valueWord (form3 6 d a b .f32 (.one [9#5])) fun v =>
    let c := v32 v.b % 256
    if c == 255 then fres (f32.nanRes false) else fres (f32.conv .rn (scaleVal (fval v.a) c))) s

def execScx (d a : RegNo) (im : BitVec 2) (s : State) : Host.Outcome State Fault Refusal :=
  runWord s.cur (valueWord (form2 6 d a (.one [9#5])) fun v =>
    fres (f32.conv .rn (scaleVal (.fin false 1 0) (byteOf (v32 v.a) im.toNat)))) s

end Sys2Proof.Machine
end

