-- ==== Sys2Proof/Machine/Barriers.lean ====
section
/-! DEFINITION. Named barriers and gang barriers (R130 to R135, R224, R225). -/

namespace Sys2Proof.Machine

/-- An arrival at a named barrier with count `n` (Table 6.2). -/
def Bar.arrive (b : Bar) (n : Nat) : Bar :=
  let e := if b.collecting then b.exp else n
  let a := if b.collecting then b.arr + 1 else 1
  if a == e then { b with gen := (b.gen + 1) % 65536, collecting := false, arr := 0 }
  else { b with collecting := true, exp := e, arr := a }

/-- An arrival of a group at a gang barrier; `live` is the count LIVE, and `n` is none for `zr` (R224). -/
def GangBar.arrive (b : GangBar) (glin : Nat) (n : Option Nat) (live : Nat) : GangBar :=
  let b := if b.collecting then b else { b with collecting := true, exp := n.getD 0, live := n.isNone, arr := [] }
  let b := { b with arr := tset b.arr glin (tgetD b.arr glin 0 + 1) }
  if b.live then b.settle live else if b.total == b.exp then b.complete else b

/-- The arrival of a strand of group `g` (R131, R224). -/
def barArrive (g : GroupKey) (gang : Bool) (num : Nat) (n : Option Nat) (s : State) : State :=
  match s.group g with
  | none => s
  | some x =>
    if gang then
      let o := x.ownerKey g
      let live := s.gangThreads o
      { s with gangs := tmod s.gangs o fun y => { y with bars := lmod y.bars num (·.arrive g.glin n live) } }
    else s.modGroup g fun y => { y with bars := lmod y.bars num (·.arrive (n.getD y.size)) }

/-- Whether the strand goes on from its region-start point at the barrier word that made its token (R135). -/
def Strand.tokenHere (x : Strand) : Option Token :=
  if x.again then x.rgn.tok else none

/-- Waiting for a generation, or going on at once where it has completed (R131, R132). `wf` says whether the word waits at all. -/
def barWait (k : StrandKey) (x : Strand) (fb wf gang : Bool) (num gen : Nat) : Exec Unit := fun s =>
  if wf && s.barGen k.grp gang num == gen then
    .ok ((), issuePend { Pend.blank s.nextId k x fb 1 with kind := .bar gang num gen } { s with nextId := s.nextId + 1 })
  else .ok ((), s.modStrand k (·.advance 1))

/-- A barrier word that arrives: BARV and GBARV, or BWAIT and GBAR, which also wait (R132, R225). `lim` is the greatest count, `ok` what
the field and the group must satisfy (R130, R225). The arrival is a release at core or cluster scope (Table 12.8). -/
def barArrival (fb wf gang : Bool) (a : RegNo) (num lim : Nat) (ok : Bool) : Exec Unit := do
  let v ← readWord { cls := 8, rsv := !ok, a := some { n := a, acc := .int } }
  let n := v32 v.a
  check (a == 126#7 || (decide (1 ≤ n) && decide (n ≤ lim))) .irsv
  if wf then flagRoom v.x fb
  holdForBar v.k
  holdForRelease v.k (if gang then 2 else 1) false
  let s ← get
  let gen := s.barGen v.k.grp gang num
  act (barArrive v.k.grp gang num (if a == 126#7 then none else some n))
  act (commitAt v.k (v.x.cpc, v.x.pc) (some ⟨gang, num, gen⟩))
  act wakeBars
  barWait v.k v.x fb wf gang num gen

/-- A barrier word. Where the strand goes on at the word that made its token, it only waits for the token's generation, and reads and checks
nothing again (R135). -/
def barrierWord (fb wf gang : Bool) (a : RegNo) (num lim : Nat) (ok : Bool) : Exec Unit := do
  let (k, x) ← curStrand
  match x.tokenHere with
  | some t =>
    if wf then flagRoom x fb
    barWait k x fb wf gang num t.gen
  | none => barArrival fb wf gang a num lim ok

/-- BARRIERS of the current launch (R130). -/
def State.curBarriers (s : State) : Nat :=
  match s.launch s.cur.grp.launch with
  | some l => l.rc.barriers
  | none => 0

/-- Whether the current group belongs to a gang (R225). -/
def State.curGang (s : State) : Bool :=
  match s.group s.cur.grp with
  | some g => g.gang
  | none => false

def namedWord (fb wf : Bool) (a : RegNo) (im : BitVec 7) (s : State) : Exec Unit :=
  barrierWord fb wf false a im.toNat 4096 (decide (im.toNat < s.curBarriers))

def gangWord (fb wf : Bool) (a : RegNo) (im : BitVec 7) (s : State) : Exec Unit :=
  barrierWord fb wf true a im.toNat 131072 (decide (im.toNat < 8) && s.curGang)

def execBwait (fb : Bool) (a : RegNo) (im : BitVec 7) (s : State) : Host.Outcome State Fault Refusal :=
  runWord s.cur (namedWord fb true a im s) s
def execBarv (a : RegNo) (im : BitVec 7) (s : State) : Host.Outcome State Fault Refusal :=
  runWord s.cur (namedWord false false a im s) s
def execGbar (fb : Bool) (a : RegNo) (im : BitVec 7) (s : State) : Host.Outcome State Fault Refusal :=
  runWord s.cur (gangWord fb true a im s) s
def execGbarv (a : RegNo) (im : BitVec 7) (s : State) : Host.Outcome State Fault Refusal :=
  runWord s.cur (gangWord false false a im s) s

/-- GEN, PHASE and ARR of a barrier, packed (R132). -/
def Bar.query (b : Bar) : Nat := b.gen * 65536 + b2n b.collecting * 32768 + b.arr % 4096

def execBqryBarrier (d : RegNo) (im : BitVec 7) (s : State) : Host.Outcome State Fault Refusal :=
  runWord s.cur (valueWord { cls := 8, rsv := !decide (im.toNat < s.curBarriers), out := some (d, 1) } fun v =>
    ret1 n32Tag (BitVec.ofNat 32 ((s.group v.k.grp).map (fun g => (lget g.bars im.toNat Bar.zero).query) |>.getD 0))) s

end Sys2Proof.Machine
end

