-- ==== Sys2Proof/Machine/Rendezvous.lean ====
section
/-! DEFINITION. Class 0x8, the circle instructions: arrival, agreement, completion and results (R125 to R129). -/

namespace Sys2Proof.Machine

/-! ## Instances (R125, R126) -/

/-- The key of a circle sequence within its group. -/
abbrev CircleKey := Nat × RvSeq

def seqKind : RvSeq → StrandKind
  | .a => .a
  | .x => .x
  | .matrix => .x

/-- The strand of thread `t` that takes part in a sequence. -/
def seqStrand (g : GroupKey) (sq : RvSeq) (t : Nat) : StrandKey := ⟨g, t, seqKind sq⟩

/-- The thread indices of a circle below the group size (R125). -/
def circleTids (c size : Nat) : List Nat := ((List.range 32).map (32 * c + ·)).filter (decide <| · < size)

/-- Whether every strand of the circle that has not ended has arrived (R125). -/
def State.instFull (s : State) (g : GroupKey) (size c : Nat) (sq : RvSeq) (arr : List Arrival) : Bool :=
  !arr.isEmpty &&
    (circleTids c size).all fun t => s.hasEnded (seqStrand g sq t) || arr.any (·.tid == t)

/-- The arrivals in the order of their thread indices. -/
def inTidOrder (arr : List Arrival) (c : Nat) : List Arrival :=
  (List.range 32).filterMap fun i => arr.find? (·.tid == 32 * c + i)

/-- The entries that a word pops, by queue in the order a, b, d (R31). -/
def WordForm.pops (sp : WordForm) (k : StrandKind) : List (QName × Nat) :=
  sp.ins.filterMap fun o => (popPort k o.n.toNat).map fun q => (q, o.w)

/-- Withdrawing the arrivals of an instance. -/
def clearCircle (g : GroupKey) (key : CircleKey) (s : State) : State :=
  s.modGroup g fun x => { x with circ := tdel x.circ key }

/-- RVTO in every thread that has arrived (R126). -/
def rvto (g : GroupKey) (key : CircleKey) (extra : List Nat) (s : State) : State :=
  match s.group g with
  | none => s
  | some x =>
    let arr := (tgetD x.circ key ⟨0, []⟩).arr.map (·.tid) ++ extra
    let ts := (List.range 32).filterMap fun i => if arr.contains (32 * key.1 + i) then some (32 * key.1 + i) else none
    takeTraps (ts.map (seqStrand g key.2)) { cause := .rvto } (clearCircle g key s)

/-- An arrival (R126): RVTO where it disagrees with an earlier one; otherwise the strand is held until the instance completes. -/
def arrive (k : StrandKey) (sq : RvSeq) (agree : Arrival → Arrival → Bool) (a : Arrival) (s : State) : State :=
  let key : CircleKey := (k.tid / 32, sq)
  match s.group k.grp with
  | none => s
  | some g =>
    let ci := tgetD g.circ key ⟨s.cycle, []⟩
    if ci.arr.all (agree a) then
      (s.modGroup k.grp fun y => { y with circ := tset y.circ key { ci with arr := ci.arr ++ [a] } }).modStrand k fun x =>
        { x with phase := .arrived sq, blk := .none }
    else rvto k.grp key [k.tid] s

/-! ## Results (R128, R129) -/

/-- What a completed instance gives one participant: registers with a log, or a predicate. -/
inductive CircRes where
  | vals (l : List TVal) (lg : Log)
  | pred (b : Bool)

/-- The words that the effects are computed from: own operands, the operand a of place i of the circle if it takes part, and the
circle's predicates. -/
structure CircIn where
  own : Arrival
  at_ : Nat → Option Arrival

def CircIn.place (x : CircIn) : Nat := x.own.tid % 32
/-- Operand a of place `i`, or 0 with the tag of the own a (R128). -/
def CircIn.pick (x : CircIn) (i : Nat) : CircRes :=
  .vals [match x.at_ i with
    | some y => y.a
    | none => ⟨0#32, x.own.a.tag⟩] {}

def CircIn.bits (x : CircIn) (ident i : Nat) : Nat :=
  match x.at_ i with
  | some y => y.a.bits.toNat
  | none => ident

def CircIn.preds (x : CircIn) (ident : Bool) : List Bool :=
  (List.range 32).map fun i => match x.at_ i with
    | some y => y.pa
    | none => ident

/-- A word whose bit `i` says whether place `i` satisfies a condition. -/
def ballot (f : Nat → Bool) : Word := BitVec.ofNat 32 (((List.range 32).map fun i => b2n (f i) * 2 ^ i).sum)

/-- One f32 addition of two partial sums with the causes each depends on (R127, R129). -/
def addPart (x y : FRes) : FRes :=
  let r := f32.add .rn (f32.dec x.1) (f32.dec y.1)
  (r.1, (x.2.join y.2).join r.2)

/-- Pairwise sums (R129, XRED.add.f32). -/
def pairSums : List FRes → List FRes
  | x :: y :: l => addPart x y :: pairSums l
  | l => l

def treeSum (l : List FRes) : FRes := (pairSums (pairSums (pairSums (pairSums (pairSums l))))).headD (0, {})

/-- One level of the scan at distance `n` (R129). -/
def scanLevel (n : Nat) (l : List FRes) : List FRes :=
  (List.range l.length).map fun i => if n ≤ i then addPart (lget l (i - n) (0, {})) (lget l i (0, {})) else lget l i (0, {})

def scanSum (l : List FRes) : List FRes := scanLevel 16 (scanLevel 8 (scanLevel 4 (scanLevel 2 (scanLevel 1 l))))

def CircIn.f32s (x : CircIn) : List FRes := (List.range 32).map fun i => (x.bits 0x80000000 i, {})

def f32Part (r : FRes) : CircRes := .vals [⟨BitVec.ofNat 32 r.1, f32Tag⟩] r.2

def xshfRes (x : CircIn) : CircRes := x.pick (x.own.b.bits.toNat % 32)
def xbflyRes (m : Nat) (x : CircIn) : CircRes := x.pick (Nat.xor x.place m)
def xbcstRes (i : Nat) (x : CircIn) : CircRes := x.pick i
def xvoteAnyRes (x : CircIn) : CircRes := .pred ((x.preds false).any id)
def xvoteAllRes (x : CircIn) : CircRes := .pred ((x.preds true).all id)
def xballotRes (x : CircIn) : CircRes := .vals [⟨ballot fun i => lget (x.preds false) i false, n32Tag⟩] {}
def xredAddI32Res (x : CircIn) : CircRes :=
  .vals [⟨BitVec.ofNat 32 ((List.range 32).map (x.bits 0)).sum, x.own.a.tag⟩] {}
def xredAddF32Res (x : CircIn) : CircRes := f32Part (treeSum x.f32s)
def xredMinIRes (x : CircIn) : CircRes :=
  .vals [⟨low32 (((List.range 32).map fun i => sext (x.bits 0x7FFFFFFF i) 32).foldl min (2 ^ 31 - 1)), i32Tag⟩] {}
def xredMaxIRes (x : CircIn) : CircRes :=
  .vals [⟨low32 (((List.range 32).map fun i => sext (x.bits 0x80000000 i) 32).foldl max (-(2 ^ 31))), i32Tag⟩] {}
def xscanAddI32Res (x : CircIn) : CircRes :=
  .vals [⟨BitVec.ofNat 32 ((List.range (x.place + 1)).map (x.bits 0)).sum, x.own.a.tag⟩] {}
def xscanAddF32Res (x : CircIn) : CircRes := f32Part (lget (scanSum x.f32s) x.place (0, {}))
def xmatchRes (x : CircIn) : CircRes :=
  .vals [⟨ballot fun i => match x.at_ i with
    | some y => y.a.bits == x.own.a.bits
    | none => false, n32Tag⟩] {}

/-- The destination field and the effect of a circle instruction (Table 6.1). -/
def circEffect : Instr → RegNo × (CircIn → CircRes)
  | .xshf _ d _ _ => (d, xshfRes)
  | .xbfly _ d _ m => (d, xbflyRes m.toNat)
  | .xbcst _ d _ i => (d, xbcstRes i.toNat)
  | .xvoteAny _ d _ => (d, xvoteAnyRes)
  | .xvoteAll _ d _ => (d, xvoteAllRes)
  | .xballot _ d _ => (d, xballotRes)
  | .xredAddI32 _ d _ => (d, xredAddI32Res)
  | .xredAddF32 _ d _ => (d, xredAddF32Res)
  | .xredMinI _ d _ => (d, xredMinIRes)
  | .xredMaxI _ d _ => (d, xredMaxIRes)
  | .xscanAddI32 _ d _ => (d, xscanAddI32Res)
  | .xscanAddF32 _ d _ => (d, xscanAddF32Res)
  | .xmatch _ d _ => (d, xmatchRes)
  | _ => (126#7, fun _ => .pred false)

/-! ## Completion (R126, R127) -/

/-- Running a computation that cannot stop where it stands here. -/
def runTotal (m : Exec α) (d : α) (s : State) : α × State :=
  match m s with
  | .ok r => r
  | .error _ => (d, s)

/-- Where a participant's result goes: register places, or a predicate. -/
def resDests (k : StrandKey) (x : Strand) (d : RegNo) (r : CircRes) : Exec (List Dest) :=
  match r with
  | .vals l _ => do
    let pl ← places k x d l.length
    pure (destsOf pl l)
  | .pred b => pure [.pred d.toNat b]

def CircRes.log : CircRes → Log
  | .vals _ lg => lg
  | .pred _ => {}

/-- The completion of an instance for one participant (R126, R127): its pops, its commit, and its result, at once or under its flag. -/
def circDone (k : StrandKey) (sq : RvSeq) (at_ : Nat → Option Arrival) (a : Arrival) (s : State) : State :=
  match s.strand k, decode a.word none with
  | some x, .ok i =>
    let e := circEffect i
    let r := e.2 ⟨a, at_⟩
    let fb := sq != .matrix && a.word.getLsbD 21
    let s := s.popAll k.thread a.pops
    let (ds, s) := runTotal (resDests k x e.1 r) [] s
    let s := commitWord k 1 s
    match x.selFlag fb with
    | none => (alogFor k k.tid x.cpc r.log (deliverAll k ds s)).modStrand k (·.advance 1)
    | some _ =>
      issuePend { Pend.withLog { Pend.blank s.nextId k x fb 1 with dests := ds } r.log with committed := true }
        { s with nextId := s.nextId + 1 }
  | _, _ => s

/-- The completion of a class 0x8 instance, if every participant has arrived. -/
def settleRendezvous (g : GroupKey) (c : Nat) (sq : RvSeq) (s : State) : State :=
  match s.group g with
  | none => s
  | some x =>
    let arr := (tgetD x.circ (c, sq) ⟨0, []⟩).arr
    if s.instFull g x.size c sq arr then
      let at_ := fun i => arr.find? (·.tid == 32 * c + i)
      (inTidOrder arr c).foldl (fun s a => circDone (seqStrand g sq a.tid) sq at_ a s) (clearCircle g (c, sq) s)
    else s

/-- Class, minor and immediate of a circle word; the immediate of XBFLY and XBCST only (R126). -/
def rvSignature (w : Word) : Nat :=
  let m := w.toNat / 2 ^ 21
  if m / 2 == 0x402 / 2 || m / 2 == 0x404 / 2 then m * 128 + w.toNat % 128 else m * 128

def rvAgree (a b : Arrival) : Bool := rvSignature a.word == rvSignature b.word

/-- A circle instruction (R125 to R127): every check and the room for its result come first, then the arrival. -/
def rvWord (fb : Bool) (sp : WordForm) (pa : Option RegNo) : Exec Unit := do
  let s0 ← get
  let v ← readWord sp
  set s0
  flagRoom v.x fb
  holdForBar v.k
  match sp.out with
  | some o => placesRoom v.k o.1 o.2
  | none => pure ()
  let w ← need v.x.word
  let sq : RvSeq := match v.k.kind with
    | .a => .a
    | .x => .x
  let arr : Arrival :=
    { tid := v.k.tid, word := w, lit := 0#32, a := v.a.headD ⟨0#32, 0#5⟩, b := v.b.headD ⟨0#32, 0#5⟩,
      pa := (pa.map v.x.pred).getD false, pops := sp.pops v.k.kind }
  act fun s => settleRendezvous v.k.grp (v.k.tid / 32) sq (arrive v.k sq rvAgree arr s)

def rv2 (fb : Bool) (d a : RegNo) (t : Accept) (s : State) : Host.Outcome State Fault Refusal :=
  runWord s.cur (rvWord fb (form2 8 d a t) none) s

/-! ## Table 6.1 -/

def execXshf (fb : Bool) (d a b : RegNo) (s : State) : Host.Outcome State Fault Refusal :=
  runWord s.cur (rvWord fb (form3 8 d a b .any .int) none) s
def execXbfly (fb : Bool) (d a : RegNo) (_im : BitVec 5) (s : State) : Host.Outcome State Fault Refusal := rv2 fb d a .any s
def execXbcst (fb : Bool) (d a : RegNo) (_im : BitVec 5) (s : State) : Host.Outcome State Fault Refusal := rv2 fb d a .any s
def execXvoteAny (fb : Bool) (_d a : RegNo) (s : State) : Host.Outcome State Fault Refusal :=
  runWord s.cur (rvWord fb { cls := 8 } (some a)) s
def execXvoteAll (fb : Bool) (_d a : RegNo) (s : State) : Host.Outcome State Fault Refusal :=
  runWord s.cur (rvWord fb { cls := 8 } (some a)) s
def execXballot (fb : Bool) (d a : RegNo) (s : State) : Host.Outcome State Fault Refusal :=
  runWord s.cur (rvWord fb { cls := 8, out := some (d, 1) } (some a)) s
def execXredAddI32 (fb : Bool) (d a : RegNo) (s : State) : Host.Outcome State Fault Refusal := rv2 fb d a .int s
def execXredAddF32 (fb : Bool) (d a : RegNo) (s : State) : Host.Outcome State Fault Refusal := rv2 fb d a .f32 s
def execXredMinI (fb : Bool) (d a : RegNo) (s : State) : Host.Outcome State Fault Refusal := rv2 fb d a .int s
def execXredMaxI (fb : Bool) (d a : RegNo) (s : State) : Host.Outcome State Fault Refusal := rv2 fb d a .int s
def execXscanAddI32 (fb : Bool) (d a : RegNo) (s : State) : Host.Outcome State Fault Refusal := rv2 fb d a .int s
def execXscanAddF32 (fb : Bool) (d a : RegNo) (s : State) : Host.Outcome State Fault Refusal := rv2 fb d a .f32 s
def execXmatch (fb : Bool) (d a : RegNo) (s : State) : Host.Outcome State Fault Refusal := rv2 fb d a .any s

end Sys2Proof.Machine
end

