-- ==== Sys2Proof/Machine/Matrix.lean ====
section
/-! DEFINITION. Class 0xB: accumulator tiles, array steps, instances over the circle and their order (R170 to R191). -/

namespace Sys2Proof.Machine

/-! ## Exact sums and rounding to a shared exponent (R175, R176) -/

/-- An exact real `m` 2^`e`. -/
structure Dy where
  m : Int
  e : Int
deriving DecidableEq, Repr

def Dy.add (x y : Dy) : Dy :=
  if x.m == 0 then y
  else if y.m == 0 then x
  else
    let e := min x.e y.e
    ⟨x.m * 2 ^ (x.e - e).toNat + y.m * 2 ^ (y.e - e).toNat, e⟩

def Dy.mul (x y : Dy) : Dy := ⟨x.m * y.m, x.e + y.e⟩
def Dy.sum (l : List Dy) : Dy := l.foldl Dy.add ⟨0, 0⟩

/-- `rne(x, q)` / 2^q (R57). -/
def Dy.rne (x : Dy) (q : Int) : Int :=
  let r : Int := Mag.round ⟨x.m.natAbs, x.e, false⟩ .rn (decide (x.m < 0)) q
  if x.m < 0 then -r else r

/-- The least q with |rne(x, q)| / 2^q < 2^b, for a value that is not 0. -/
def Dy.fits (b : Nat) (x : Dy) : Int :=
  let q := Mag.top ⟨x.m.natAbs, x.e, false⟩ - (b - 1)
  if (x.rne q).natAbs < 2 ^ b then q else q + 1

/-- The least q at or above `lo` at which every value fits below 2^b. -/
def leastExp (b : Nat) (lo : Int) (l : List Dy) : Int := (l.filter (·.m != 0)).foldl (fun q x => max q (x.fits b)) lo

/-! ## Operands of a step (R170, R171, R175) -/

/-- The container of a format code: bits per element, and how a code decodes (Table 8.1). -/
inductive ElemFmt where
  | narrow (f : NFmt)
  | half (f : Fmt)

def elemFmt (fmt : List Word) (code : Nat) : ElemFmt :=
  if code == 8 then .half f16 else if code == 9 then .half bf16 else .narrow (NFmt.ofWord (lget fmt code 0#32))

def ElemFmt.bits : ElemFmt → Nat
  | .narrow f => f.cbits
  | .half _ => 16

def ElemFmt.dec : ElemFmt → Nat → FVal
  | .narrow f, c => f.dec c
  | .half f, c => f.dec c

/-- The elements of 192 bytes in K order (R171). -/
def ElemFmt.elems (f : ElemFmt) (l : List Byte) : List FVal :=
  let n := ofBytes l
  (List.range (192 * 8 / f.bits)).map fun i => f.dec (n / 2 ^ (f.bits * i) % 2 ^ f.bits)

/-- What a step brings to one element: a special, or an exact sum (R175). -/
structure StepVal where
  sp : Spec
  s : Dy
  invl : Bool

def FVal.isInf : FVal → Bool
  | .inf _ => true
  | _ => false

def FVal.isZero : FVal → Bool
  | .fin _ m _ => m == 0
  | _ => false

def FVal.dy : FVal → Dy
  | .fin n m e => ⟨if n then -m else m, e⟩
  | _ => ⟨0, 0⟩

def prodInf (x y : FVal) : Option Bool :=
  if (FVal.isInf x || FVal.isInf y) && !FVal.isZero x && !FVal.isZero y && !x.isNan && !y.isNan then
    some (x.isNeg != y.isNeg)
  else none

/-- The step special and step sum of one element, from its row, its column and the two scale bytes (R175). -/
def stepVal (row col : List FVal) (sa sb : Nat) : StepVal :=
  let ps := row.zip col
  let badScale := sa == 255 || sb == 255
  let zi := ps.any fun p => (FVal.isInf p.1 && FVal.isZero p.2) || (FVal.isZero p.1 && FVal.isInf p.2)
  let sig := ps.any fun p => p.1.isSig || p.2.isSig
  let nan := badScale || zi || ps.any fun p => p.1.isNan || p.2.isNan
  let infs := ps.filterMap fun p => prodInf p.1 p.2
  let mixed := infs.contains true && infs.contains false
  if nan || mixed then ⟨.nan, ⟨0, 0⟩, zi || sig || (!nan && mixed)⟩
  else
    match infs with
    | n :: _ => ⟨if n then .ninf else .pinf, ⟨0, 0⟩, false⟩
    | [] =>
      let d := Dy.sum (ps.map fun p => (FVal.dy p.1).mul (FVal.dy p.2))
      ⟨.fin, ⟨d.m, d.e + (sa : Int) - 127 + ((sb : Int) - 127)⟩, false⟩

/-! ## Steps, normalisation and drain (R176, R177, R185, R189, R190) -/

def Spec.isInf : Spec → Bool
  | .pinf => true
  | .ninf => true
  | _ => false

/-- The special of an element after a step, and whether INVL is logged (R176). -/
def joinSpec (x y : Spec) : Spec × Bool :=
  if x == .nan || y == .nan then (.nan, false)
  else if Spec.isInf x && Spec.isInf y && x != y then (.nan, true)
  else if Spec.isInf y then (y, false)
  else (x, false)

/-- One step applied to a tile (R176). -/
def Tile.step (t : Tile) (st : List StepVal) : Tile × Log :=
  let sps := (t.sp.zip st).map fun p => joinSpec p.1 p.2.sp
  let vals := ((t.m.zip st).zip sps).map fun p =>
    if p.2.1 == .fin then Dy.add ⟨p.1.1, t.e⟩ p.1.2.s else ⟨0, 0⟩
  let past := vals.any fun v => decide (2 ^ 47 ≤ (v.rne t.e).natAbs)
  let q := if past then leastExp 46 (t.e + 1) vals else t.e
  let held := decide (32767 < q)
  let q := if held then 32767 else q
  let ms := vals.map fun v => v.rne q
  let big := fun (m : Int) => decide (2 ^ 47 ≤ m.natAbs)
  ({ m := ms.map fun m => if big m then 0 else m,
     sp := (ms.zip sps).map fun p => if big p.1 then (if p.1 < 0 then .ninf else .pinf) else p.2.1,
     e := q, rcnt := if past then min (t.rcnt + 1) 0xFFFF else t.rcnt, esat := t.esat || (past && held) },
   { invl := st.any (·.invl) || sps.any (·.2), ovfl := ms.any big })

/-- MMNORM (R189). -/
def Tile.norm (t : Tile) (h : Nat) : Tile :=
  let vals : List Dy := t.m.map fun m => ⟨m, t.e⟩
  if vals.all (·.m == 0) then t
  else
    let q := leastExp (47 - h) (-32768) vals
    let q' := min q 32767
    { t with m := vals.map fun v => v.rne q', e := q', rcnt := if t.e < q' then min (t.rcnt + 1) 0xFFFF else t.rcnt,
             esat := t.esat || decide (32767 < q) }

/-- An element delivered by MMDRAIN (R177): a code of the destination format. -/
def Tile.drain (t : Tile) (f : Fmt) (i : Nat) : FRes :=
  match lget t.sp i .fin with
  | .pinf => (f.infCode, {})
  | .ninf => (f.signed true f.infCode, {})
  | .nan => (f.nanCode, {})
  | .fin =>
    let m := lget t.m i 0
    if m == 0 then (0, {})
    else
      let r := f.enc .rn (decide (m < 0)) ⟨m.natAbs, t.e, false⟩
      (if r.1 % 2 ^ (f.eb + f.mb) == 0 then 0 else r.1, r.2)

/-- The greatest bit length of the finite elements (R190). -/
def Tile.bitLen (t : Tile) : Nat := (t.m.map fun m => if m == 0 then 0 else Nat.log2 m.natAbs + 1).foldl max 0

/-- MMQ (R190). -/
def Tile.query (t : Tile) (sel : Nat) : TVal :=
  match sel with
  | 0 => ⟨low32 t.e, i32Tag⟩
  | 1 => ⟨BitVec.ofNat 32 (t.rcnt * 65536 + b2n t.esat * 8 + b2n (t.rcnt != 0) * 4 + b2n (t.sp.any Spec.isInf) * 2 +
      b2n (t.sp.any (· == .nan))), n32Tag⟩
  | _ => ⟨BitVec.ofNat 32 t.bitLen, n32Tag⟩

/-- The entries of MMDRAIN for place `t` of the circle, with what their conversions log (R188). -/
def Tile.entries (x : Tile) (bf : Bool) (t : Nat) : List TVal :=
  if bf then
    (List.range 2).map fun q =>
      ⟨BitVec.ofNat 32 ((x.drain bf16 (64 * q + 2 * t)).1 + 2 ^ 16 * (x.drain bf16 (64 * q + 2 * t + 1)).1), 5#5⟩
  else (List.range 4).map fun q => ⟨BitVec.ofNat 32 (x.drain f32 (32 * q + t)).1, f32Tag⟩

def Tile.drainLog (x : Tile) (bf : Bool) : Log :=
  ((List.range 128).map fun i => (x.drain (if bf then bf16 else f32) i).2).foldl Log.join {}

/-! ## The fields of an MMLOOP literal (Table 8.5) -/

def mmSteps (lit : Word) : Nat := (lit.extractLsb' 0 4).toNat + 1
def mmScm (lit : Word) : Nat := (lit.extractLsb' 12 2).toNat
def mmSreg (lit : Word) : RegNo := lit.extractLsb' 14 7
def mmScaleRegs (lit : Word) : Nat := (mmSteps lit + 3) / 4
/-- Whether a place of the circle supplies scales (R186). -/
def mmSupplies (lit : Word) (place : Nat) : Bool :=
  let c := mmScm lit
  (decide (place < 8) && (c == 1 || c == 2)) || (decide (8 ≤ place) && decide (place < 24) && (c == 1 || c == 3))

/-- The literal checks that need the format registers (R186). -/
def mmClassOk (fmt : List Word) (lit : Word) : Bool :=
  (elemFmt fmt (lit.extractLsb' 4 4).toNat).bits == (elemFmt fmt (lit.extractLsb' 8 4).toNat).bits

/-- The scale bytes that a strand supplies, one a step (R186). -/
def scaleBytes (x : Strand) (lit : Word) : List Byte :=
  ((x.regsAt (mmSreg lit) (mmScaleRegs lit)).flatMap fun v => toBytes 4 v.bits.toNat).take (mmSteps lit)

/-- Scale bytes of the places from `lo` on: those supplied, or 1.0 throughout (R186). The registers are read once, as the instance issues; the
spec does not say when a flagged MMLOOP reads them, and a later write of one is not seen (DESIGN CHOICE, log 59). -/
def State.scales (s : State) (g : GroupKey) (c lo n : Nat) (lit : Word) : List (List Byte) :=
  (List.range n).map fun i =>
    let k : StrandKey := ⟨g, 32 * c + lo + i, .x⟩
    match s.strand k with
    | some x => if mmSupplies lit (lo + i) && x.phase != .ended then scaleBytes x lit else List.replicate (mmSteps lit) 0x7F#8
    | none => List.replicate (mmSteps lit) 0x7F#8

/-! ## Applying commands (R181) -/

/-- The step values of step `t` of a loop, row by row. -/
def loopStep (fa fb : ElemFmt) (rowsB colsB : List (List Byte)) (sr sc : List (List Byte)) (t : Nat) : List StepVal :=
  let as := rowsB.map fun r => fa.elems ((r.drop (192 * t)).take 192)
  let bs := colsB.map fun c => fb.elems ((c.drop (192 * t)).take 192)
  (List.range 8).flatMap fun i => (List.range 16).map fun j =>
    stepVal (lget as i []) (lget bs j []) (lget (lget sr i []) t 0x7F#8).toNat (lget (lget sc j []) t 0x7F#8).toNat

def loopSteps (f : Nat → List StepVal) : List Nat → Tile → Log → Tile × Log
  | [], t, lg => (t, lg)
  | n :: l, t, lg =>
    let r := t.step (f n)
    loopSteps f l r.1 (lg.join r.2)

/-- What an array command does to its tile and what it logs (R175 to R177, R185, R186, R189). -/
def applyArr (g : GroupKey) (x : Group) (fmt : List Word) (op : ArrOp) (t : Tile) (s : State) : Tile × Log :=
  match op with
  | .init e => ({ Tile.zero with e := e }, {})
  | .norm h => (t.norm h, {})
  | .drain bf => (t, t.drainLog bf)
  | .query _ => (t, {})
  | .loop ao bo lit rows cols =>
    let n := mmSteps lit
    let p := 192 * n
    let rowsB := (List.range 8).map fun i => s.readCore g (ao + p * i) p
    let colsB := (List.range 16).map fun j => s.readLin x.die x.core (j * 2 ^ 19 + bo) p
    loopSteps (loopStep (elemFmt fmt (lit.extractLsb' 4 4).toNat) (elemFmt fmt (lit.extractLsb' 8 4).toNat) rowsB colsB rows cols)
      (List.range n) t {}

/-- The fenced structure, if any, that holds some of the B region of a loop (R341). -/
def ArrOp.fencedB (op : ArrOp) (x : Group) (s : State) : Option (Nat × Nat) :=
  match op with
  | .loop _ bo lit _ _ => (List.range 16).findSome? fun j => s.badAt (spaOfLin x.die x.core (j * 2 ^ 19 + bo)) (192 * mmSteps lit) true
  | .init _ | .norm _ | .drain _ | .query _ => none

/-- What a participant at a place of the circle is given by a command: entries of its inbound `mq`, a query's value, or nothing. -/
def ArrOp.gives (op : ArrOp) (t : Tile) (place : Nat) : List TVal :=
  match op with
  | .drain bf => t.entries bf place
  | .query sel => [t.query sel]
  | _ => []

/-- The array applies one command, whole: the tile, the deliveries and ends of the participants, and one set of log entries, by the
participant of lowest thread index (R181, R182). A command whose B region meets a fenced structure ends with its launch (R341). -/
def applyArray (w : Item) (c : ArrayCmd) (s : State) : State :=
  let g := w.owner.grp
  match s.group g, s.launch g.launch with
  | some x, some l =>
    match c.op.fencedB x s with
    | some f => (blastUse g.launch x.die f.1 f.2 s).dropItem w.id
    | none =>
    let r := applyArr g x l.rc.fmt c.op (lget x.tiles c.tile Tile.zero) s
    let s := s.modGroup g fun y => { y with tiles := lset y.tiles c.tile r.1 }
    let s := alogFor w.owner w.owner.tid c.cpc r.2 s
    let ps := s.pend.filter fun p => p.kind == .item w.id
    (ps.foldl (fun s p => pendWhole { p with dests := destsOf p.places (c.op.gives r.1 (p.owner.tid % 32)) } s) s).dropItem w.id
  | _, _ => s.dropItem w.id

/-- A command that needs no memory is applied as soon as nothing stands before it. A query that issues behind an unfinished command of its
tile commits at issue and is applied, and its value written, once that command has been (R181): R190's "that moment" is taken as the
moment of its application (DESIGN CHOICE, log 52). -/
def tryArray (id : Nat) (s : State) : State :=
  match s.item id with
  | some w =>
    match w.arr with
    | some c =>
      match c.op with
      | .loop .. => s
      | _ => if s.itemFree w then applyArray w c s else s
    | none => s
  | none => s

/-! ## Instances (R178 to R180) -/

/-- The command of an arrival: the tile and the operation, from its word and the values read. -/
def arrOp (i : Instr) (a : Arrival) (rows cols : List (List Byte)) : Nat × ArrOp :=
  match i with
  | .mminit _ t _ => (t.toNat, .init (sext a.a.bits.toNat 32))
  | .mmloop _ t _ _ _ => (t.toNat, .loop a.a.bits.toNat a.b.bits.toNat a.lit rows cols)
  | .mmnorm _ t _ => (t.toNat, .norm a.a.bits.toNat)
  | .mmdrain _ t m => (t.toNat, .drain (m == 1#1))
  | .mmq _ t sel => (t.toNat, .query sel.toNat)
  | _ => (0, .query 0)

/-- The regions of MMLOOP (R183). -/
def ArrOp.regions (op : ArrOp) (g : GroupKey) (x : Group) : List Region :=
  match op with
  | .loop ao bo lit _ _ =>
    let n := mmSteps lit
    [⟨.core g, ao, ao + 8 * 192 * n, false⟩, ⟨.loft x.die x.core, bo, 15 * 2 ^ 19 + bo + 192 * n, false⟩]
  | _ => []

/-- The failing check of an instance's A and B regions, with its address (R171, R172, R179). -/
def ArrOp.fault (op : ArrOp) (x : Group) (scratch yard : Nat) (s : State) : Option (Cause × Nat) :=
  match op with
  | .loop ao bo lit _ _ =>
    let p := 192 * mmSteps lit
    let bOk := decide (bo + p ≤ 524288) &&
      (List.range 16).all fun j => s.linOk x.die x.core yard (j * 2 ^ 19 + bo) p
    if scratch < ao + 8 * p then some (.aprm, ao)
    else if !bOk then some (.aprm, bo)
    else if ao % 64 != 0 then some (.aaln, ao)
    else if bo % 64 != 0 then some (.aaln, bo)
    else none
  | _ => none

/-- Where a participant's results go: entries of its inbound `mq` (R188), or the destination of MMQ. -/
def arrPlaces (k : StrandKey) (x : Strand) (i : Instr) : Exec (List Place) :=
  match i with
  | .mmdrain _ _ m => fun s =>
    match s.thread k.thread with
    | none => .ok ([], s)
    | some t =>
      let r := t.mqIn.reserveAll (if m == 1#1 then 2 else 4)
      .ok (r.1.map fun
        | some n => Place.port .mqIn n
        | none => .drop, s.modQ k.thread .mqIn fun _ => r.2)
  | .mmq d _ _ => places k x d 1
  | _ => pure []

/-- The number of words of a class 0xB word. -/
def arrLen : Instr → Nat
  | .mmloop .. => 2
  | _ => 1

/-- The flag that a class 0xB word selects; MMQ is synchronous (R24, R190). -/
def arrFlag (x : Strand) (i : Instr) (w : Word) : Option Nat :=
  match i with
  | .mmq .. => none
  | _ => x.selFlag (w.getLsbD 21)

/-- The issue of an instance for one participant (R180): its pops, its reservations, its commit and its pending work. -/
def arrIssue (i : Instr) (item : Nat) (k : StrandKey) (a : Arrival) (s : State) : State :=
  match s.strand k with
  | none => s
  | some x =>
    let s := s.popAll k.thread a.pops
    let (pl, s) := runTotal (arrPlaces k x i) [] s
    let s := commitWord k (arrLen i) s
    issuePend { Pend.blank s.nextId k x false (arrLen i) with
      flag := arrFlag x i a.word, kind := .item item, places := pl, committed := true } { s with nextId := s.nextId + 1 }

/-- The completion of a class 0xB instance, if every participant has arrived (R178 to R180, R183). -/
def settleMatrix (g : GroupKey) (c : Nat) (s : State) : State :=
  match s.group g, s.launch g.launch with
  | some x, some l =>
    let arr := (tgetD x.circ (c, .matrix) ⟨0, []⟩).arr
    if s.instFull g x.size c .matrix arr then
      match inTidOrder arr c with
      | [] => s
      | a :: rest =>
        match decode a.word (some a.lit) with
        | .error _ => s
        | .ok i =>
          let o := arrOp i a (s.scales g c 0 8 a.lit) (s.scales g c 8 16 a.lit)
          let ks := (a :: rest).map fun a => seqStrand g .matrix a.tid
          let s := clearCircle g (c, .matrix) s
          match o.2.fault x l.rc.scratch (s.yardOf l.ctx) s with
          | some (ca, va) => takeTraps ks { cause := ca, va := va } s
          | none =>
            match o.2.fencedB x s with
            | some f => blastUse g.launch x.die f.1 f.2 s
            | none =>
            let k := seqStrand g .matrix a.tid
            let cpc := match s.strand k with
              | some y => y.cpc
              | none => 0#57
            let id := s.nextId
            let s := { s with nextId := id + 1 }
            let s := (a :: rest).foldl (fun s a => arrIssue i id (seqStrand g .matrix a.tid) a s) s
            let w := { Item.blank id x.die l.ctx k .array with
              regions := o.2.regions g x, arr := some ⟨c, o.1, o.2, (a :: rest).map (·.tid), cpc⟩ }
            tryArray id (s.accept w)
    else s
  | _, _ => s

/-- Agreement in the whole word, the literal, the values of a and b, and the popped command (R178). `pa` says that the literal was
popped. -/
def mmAgree (x y : Arrival) : Bool :=
  x.word == y.word && x.lit == y.lit && x.a.bits == y.a.bits && x.b.bits == y.b.bits && x.pa == y.pa

/-- A class 0xB word (R179): checks and pops, the popped command in place of the literal, tags, the register-value check `ok`, the
room that MMDRAIN needs, and the arrival. `fb` is none for the synchronous MMQ. -/
def mmWord (fb : Option Bool) (sp : WordForm) (lit : Option Word) (ok : Vals → Bool) (room : Nat) : Exec Unit := do
  let s0 ← get
  let (k, x) ← curStrand
  let l ← need (s0.launch k.grp.launch)
  let place := k.tid % 32
  let litOk := fun (w : Word) => !litQl w && mmLitOk w && mmClassOk l.rc.fmt w
  let scale : Word → Option (RegNo × Nat) := fun w => if mmSupplies w place then some (mmSreg w, mmScaleRegs w) else none
  let ql := (lit.map litQl).getD false
  let sp := match lit with
    | none => sp
    | some w => if ql then { sp with rsv := sp.rsv || !mmLitOk w } else { sp with rsv := sp.rsv || !litOk w, more := scale w }
  match sp.encFault k.kind x with
  | some c => trap c
  | none =>
    let a ← readOpt k x sp.a
    let b ← readOpt k x sp.b
    let cmd ← if ql then popVals k .mqOut 1 else pure []
    let w := if ql then BitVec.ofNat 32 (v32 cmd) else lit.getD 0#32
    if ql then
      check (litOk w) .irsv
      check ((scale w).all fun (o : RegNo × Nat) => x.inWindow o.1 o.2) .winf
    let sc := match lit with
      | some _ => (scale w).map fun (o : RegNo × Nat) => x.regsAt o.1 o.2
      | none => none
    check (tagsOk sp.a a && tagsOk sp.b b && (sc.getD []).all (·.tag == 9#5)) .ftag
    check (ok ⟨k, x, a, b, []⟩) .irsv
    match fb with
    | some b => flagRoom x b
    | none => pure ()
    holdForBar k
    match sp.out with
    | some o => placesRoom k o.1 o.2
    | none => pure ()
    let t ← need (s0.thread k.thread)
    if t.mqIn.room room then pure () else block .queue
    set s0
    let iw ← need x.word
    let arr : Arrival :=
      { tid := k.tid, word := iw, lit := w, a := a.headD ⟨0#32, 0#5⟩, b := b.headD ⟨0#32, 0#5⟩, pa := ql,
        pops := sp.pops k.kind ++ (if ql then [(.mqOut, 1)] else []) }
    act fun s => settleMatrix k.grp (k.tid / 32) (arrive k .matrix mmAgree arr s)

/-- Whether a tile is one of the current group's (R174). -/
def State.tileOk (s : State) (t : BitVec 4) : Bool :=
  match s.launch s.cur.grp.launch with
  | some l => decide (t.toNat < l.rc.accs)
  | none => false

def execMminit (fb : Bool) (t : BitVec 4) (a : RegNo) (s : State) : Host.Outcome State Fault Refusal :=
  runWord s.cur (mmWord (some fb) { cls := 11, rsv := !s.tileOk t, a := some { n := a, acc := .int } } none
    (fun v => decide (-32768 ≤ ival v.a) && decide (ival v.a ≤ 32767)) 0) s

def execMmloop (fb : Bool) (t : BitVec 4) (a b : RegNo) (lit : Word) (s : State) : Host.Outcome State Fault Refusal :=
  runWord s.cur (mmWord (some fb) { form3 11 126#7 a b .int .int with len := 2, rsv := !s.tileOk t } (some lit) (fun _ => true) 0) s

def execMmnorm (fb : Bool) (t : BitVec 4) (a : RegNo) (s : State) : Host.Outcome State Fault Refusal :=
  runWord s.cur (mmWord (some fb) { cls := 11, rsv := !s.tileOk t, a := some { n := a, acc := .int } } none
    (fun v => decide (1 ≤ v32 v.a) && decide (v32 v.a ≤ 46)) 0) s

def execMmdrain (fb : Bool) (t : BitVec 4) (m : BitVec 1) (s : State) : Host.Outcome State Fault Refusal :=
  runWord s.cur (mmWord (some fb) { cls := 11, rsv := !s.tileOk t } none (fun _ => true) (if m == 1#1 then 2 else 4)) s

def execMmq (d : RegNo) (t : BitVec 4) (im : BitVec 7) (s : State) : Host.Outcome State Fault Refusal :=
  runWord s.cur (mmWord none { cls := 11, rsv := !s.tileOk t || decide (3 ≤ im.toNat), out := some (d, 1) } none
    (fun _ => true) 0) s

end Sys2Proof.Machine
end

