-- ==== Sys2Proof/Machine/Engine.lean ====
section
/-! DEFINITION. The engines at work: the accesses of items, their arrivals, completions, pauses and failures (R197 to R206, R210,
R211, R216, R223, R360). -/

namespace Sys2Proof.Machine

/-! ## Ends of transfers -/

/-- The end `k` bytes on. A pattern goes round. -/
def End.shift (e : End) (k : Nat) : End :=
  match e with
  | .core g off => .core g (off + k)
  | .clus g off => .clus g (off + k)
  | .loft c off => .loft c (off + k)
  | .mem seg va m d strm => .mem seg (va57 (va + k)) m d strm
  | .pat l => .pat (l.drop (k % l.length) ++ l.take (k % l.length))

/-- How many bytes of an end one access may take: up to the end of a page, and at most one packet toward another module (R352). -/
def State.endRoom (s : State) (e : End) : Nat :=
  match e with
  | .mem seg va m _ _ => if seg == .glob && m != s.modId then 256 - va % 256 else 65536 - va % 65536
  | _ => 2 ^ 24

/-- A transfer of `n` bytes cut into accesses; the fuel is `n`. -/
def State.cutMoves (s : State) (dest : Nat) (src dst : End) : Nat → Nat → List Move
  | 0, _ => []
  | fuel + 1, n =>
    let k := min n (min (s.endRoom src) (s.endRoom dst))
    if n == 0 then []
    else ⟨dest, src, dst, k, none, false⟩ :: s.cutMoves dest (src.shift k) (dst.shift k) fuel (n - k)

/-- What an access of an item meets: a place to access; a page to wait for; a line under repair (R342); a failure; an error response of an
endpoint (R242); or a fenced structure, which also kills the launch (R341). -/
inductive Meet where
  | at_ (l : Loc)
  | page
  | wait
  | fail (c : Cause)
  | error (why m d va : Nat)
  | fenced (die cls num : Nat)
deriving DecidableEq, Repr

/-- An access at its place: a fenced or failed structure, or an uncorrectable error in data read (R206, R230, R341, R342). -/
def State.meetLoc (s : State) (die : Nat) (loc : Loc) (n : Nat) (reads : Bool) : Meet :=
  match s.meetsBad die loc n reads with
  | some (some (d, c, m)) => if s.isFenced d c m then .fenced d c m else .fail .hpsn
  | some none => .wait
  | none =>
    match loc with
    | .spa a => if reads && s.hostBad a n then .fail .hpsn else .at_ loc
    | _ => .at_ loc

/-- A glob access (R242, R346): an endpoint that refuses it, a dead link and a key that is not live answer with an error. The DETAIL is 1
behind a dead link, and otherwise 0 (log 50). -/
def State.meetGlob (s : State) (w : Item) (d : CtxDesc) (va m ep spa n : Nat) (wr : Bool) : Meet :=
  if s.isFenced w.die 4 ep then .fenced w.die 4 ep
  else if s.linkDead w.die ep then .error 1 m ep va
  else if m != s.modId then if s.keyLive w.die d.keyid then .at_ (.glob m ep spa) else .error 0 m ep va
  else if !s.globAdmits ep spa n d.keyid then .error 0 m ep va
  else s.meetLoc w.die (.glob m ep spa) n (!wr)

/-- What a memory access of an item meets after its translation (R206, R242, R306). A copy node names no segment: it is that of the page,
and a fabric page of a copy node is reached on this module (R281, log 51). -/
def meetMem (w : Item) (d : CtxDesc) (seg : Seg) (va m ep n : Nat) (wr : Bool) (s : State) : Meet × State :=
  match xlate d va s with
  | (.notValid errs, s) => (.page, logWalk w.ctx w.owner.grp.launch va errs s)
  | (.failed d c n, s) => (if s.isFenced d c n then .fenced d c n else .fail .hpsn, s)
  | (.ok p, s) =>
    let node := match w.kind with
      | .node .. => true
      | _ => false
    let seg := if node then p.seg else seg
    let m := if node then s.modId else m
    let ep := if node then spaDie p.spa else ep
    let r :=
      if !p.permits (if wr then .write else .read) || !s.segAgrees w.die d.yard seg ep p || (node && wr && seg == .repl) then .fail .aprm
      else
        match seg with
        | .repl => if !s.isMember w.die then .fail .rplx else s.meetLoc w.die (.repl w.die (spaOff p.spa - s.replBase)) n (!wr)
        | .glob => s.meetGlob w d va m ep p.spa n wr
        | _ => s.meetLoc w.die (.spa p.spa) n (!wr)
    (r, s)

/-- Whether bytes of a cluster window lie in the window of the launch that it stands for. -/
def State.clusIn (s : State) (g : GroupKey) (off n : Nat) : Bool :=
  match s.launch g.launch with
  | some l => decide (off + n ≤ l.rc.cluster)
  | none => true

/-- What an access to an end meets. A tile move keeps the admission that it had at its checks (R233). An access beyond the cluster window is
not made, and fails the item with APRM (log 48). -/
def meetEnd (w : Item) (e : End) (n : Nat) (wr : Bool) (s : State) : Meet × State :=
  match e with
  | .core g off => (.at_ (.core g off), s)
  | .clus g off => (if s.clusIn g off n then .at_ (.clus g off) else .fail .aprm, s)
  | .loft c off =>
    (if w.kind == .tmov || s.linOk w.die c (s.yardOf w.ctx) off n then
      match s.meetLoc w.die (.spa (spaOfLin w.die c off)) n (!wr) with
      | .at_ _ => .at_ (.core w.owner.grp 0)
      | x => x
     else .fail .aprm, s)
  | .pat _ => (.at_ (.core w.owner.grp 0), s)
  | .mem seg va m ep _ =>
    match s.ctx w.ctx with
    | some c => meetMem w c.d seg va m ep n wr s
    | none => (.fail .aprm, s)

/-- Reading an end that this module holds. -/
def readEnd (w : Item) (e : End) (l : Loc) (n : Nat) (s : State) : List Byte :=
  match e with
  | .loft c off => s.readLin w.die c off n
  | .pat p => (List.range n).map fun i => lget p (i % p.length) 0#8
  | _ => readLoc w.owner l n s

/-- Writing one. -/
def writeEnd (w : Item) (e : End) (l : Loc) (b : List Byte) (s : State) : State :=
  match e with
  | .loft c off => s.writeLin w.die c off b
  | .pat _ => s
  | _ => writeLoc w.owner w.ctx l b s

/-! ## Tensor boxes (R210, R211) -/

/-- The transfers of a box, `b` the buffer end. Elements out of range follow EDGE. -/
def boxMoves (r : LayRec) (c : List Int) (list : List Nat) (inbound : Bool) (buf : End) : List Move :=
  let sz := 2 ^ r.esz
  (List.range r.elems).filterMap fun n =>
    let x := r.coords c list n
    let b := buf.shift (sz * n)
    let m := fun (y : List Int) => End.mem r.seg (r.addr y) r.epmod r.epdie r.ostrm
    if r.inRange x then some (if inbound then ⟨0, m x, b, sz, none, false⟩ else ⟨0, b, m x, sz, none, false⟩)
    else if !inbound then none
    else if r.edge == 1 then some ⟨0, m (r.clamp x), b, sz, none, false⟩
    else some ⟨0, .pat [0#8], b, sz, none, false⟩

/-- Whether some element of a box is out of range. -/
def boxLeaves (r : LayRec) (c : List Int) (list : List Nat) : Bool :=
  (List.range r.elems).any fun n => !r.inRange (r.coords c list n)

/-- A clus segment of a layout record names the window of the item's group (R151): its transfers go there. -/
def fixClus (g : GroupKey) : End → End
  | .mem .clus va _ _ _ => .clus g va
  | e => e

/-- Starting a CPT: its index list is read, and its box expanded; with EDGE 2 an element out of range fails the item (R210, R211). -/
def startBox (w : Item) (s : State) : State :=
  match w.box, w.moves with
  | some (img, c, goff), m :: _ =>
    let r := layRec img
    let o := match s.group w.owner.grp with
      | some x => x.ownerKey w.owner.grp
      | none => w.owner.grp
    let list := if r.gather then
        (List.range (lget r.box 1 1)).map fun i => ofBytes (s.readCore w.owner.grp (goff + 4 * i) 4)
      else []
    let buf := if w.inbound then m.dst else m.src
    let l := (boxMoves r c list w.inbound buf).map fun (m : Move) => { m with src := fixClus o m.src, dst := fixClus o m.dst }
    s.modItem w.id fun w =>
      { w with box := none, moves := l, fail := if r.edge == 2 && boxLeaves r c list then some .abnd else none }
  | _, _ => s

/-! ## Column splits (R216) -/

/-- The bytes of column `j` of a source of rows of 16 containers, packed as in R171. -/
def splitColumn (csz : Nat) (src : List Byte) (j : Nat) : List Byte :=
  match csz with
  | 0 =>
    let nib := fun (r : Nat) => (lget src (8 * r + j / 2) 0#8).toNat / (if j % 2 == 0 then 1 else 16) % 16
    (List.range (src.length / 16)).map fun q => BitVec.ofNat 8 (nib (2 * q) + 16 * nib (2 * q + 1))
  | _ =>
    (List.range (src.length / (16 * csz))).flatMap fun r => (src.drop (16 * csz * r + csz * j)).take csz

/-! ## Accesses (R199, R206) -/

def Item.modMove (w : Item) (n : Nat) (f : Move → Move) : Item := { w with moves := lmod w.moves n f }

/-- Bytes written into the destination count toward the handle's arrivals. -/
def Item.wrote (w : Item) (n : Nat) : Item := { w with landed := w.landed + (if w.counts then n else 0) }

/-- The page that a transfer waits for, as a shed event carries it: its address, with bit 0 set for a write. -/
def endPage (e : End) (wr : Bool) : Nat :=
  match e with
  | .mem _ va _ _ _ => va / 65536 * 65536 + b2n wr
  | _ => 0

/-- A pause at a page that is not present: COPYFLT (R206). -/
def pauseItem (w : Item) (e : End) (wr : Bool) (s : State) : State :=
  raiseShed w.die ⟨.copyflt, w.ctx, queueLock w.ctx 0, w.id, endPage e wr, false⟩ (s.modItem w.id fun w => { w with paused := some 0 })

/-- The index of the first transfer of a destination. -/
def Item.first (w : Item) (dest : Nat) : Nat := w.moves.findIdx (·.dest == dest)

/-- A transfer of a multicast waits for the first of its destination, which learns whether that is denied: so nothing is written to a denied
one (R360). -/
def Item.mayGo (w : Item) (n : Nat) (m : Move) : Bool :=
  match w.kind with
  | .mcst _ => let f := w.first m.dest; f == n || (w.moves[f]?.map (·.done)).getD true
  | _ => true

/-- Transfer `n` of a multicast that its destination denies (R360). The loss of a later one does not deny what stands already (log 50). -/
def denyMove (n : Nat) (w : Item) : Item :=
  let k := (lget w.moves n ⟨0, .pat [], .pat [], 0, none, false⟩).dest
  if w.first k == n then
    { w with denied := setBit w.denied k true, moves := w.moves.map fun (m : Move) => if m.dest == k then { m with done := true } else m }
  else w.modMove n fun m => { m with done := true }

/-- The failure of transfer `n` of an item, or its denial by a destination of a multicast. -/
def stopMove (n : Nat) (wr : Bool) (c : Cause) (w : Item) : Item :=
  match w.kind with
  | .mcst _ => if wr then denyMove n w else { w with fail := some c }
  | _ => { w with fail := some c }

/-- What an access that cannot be made does to its item. -/
def meetStop (w : Item) (n : Nat) (m : Move) (wr : Bool) (x : Meet) (s : State) : State :=
  match x with
  | .at_ _ => s
  | .wait => s
  | .page =>
    match w.kind with
    | .mcst _ => if wr then s.modItem w.id (denyMove n) else pauseItem w m.src wr s
    | _ => pauseItem w (if wr then m.dst else m.src) wr s
  | .fail c => s.modItem w.id (stopMove n wr c)
  | .error why md d va => (logFab w.ctx w.owner.grp.launch why md d va s).modItem w.id (stopMove n wr .rplx)
  | .fenced d c k => blastUse w.owner.grp.launch d c k (s.modItem w.id fun w => { w with fail := some .hpsn })

/-- The ordering stream of an end. -/
def End.strm : End → Nat
  | .mem _ _ _ _ strm => strm
  | _ => 0

/-- Asking another module for an access of an item (R346). -/
def askItem (w : Item) (n : Nat) (e : End) (m d spa : Nat) (ask : GlobAsk) (s : State) : State :=
  if s.globs.any fun r => r.item == some (w.id, n) then s
  else
    let (va, strm) := match e with
      | .mem _ va _ _ strm => (va, strm)
      | _ => (0, 0)
    let key := match s.ctx w.ctx with
      | some c => c.d.keyid
      | none => 0
    let req : GlobReq :=
      { id := s.nextId, die := w.die, keyid := key, ctx := w.ctx, tmod := m, tdie := d, strm := strm, spa := spa, va := va,
        ask := ask, since := s.cycle, owner := none, op := none, item := some (w.id, n), etag := 0#5, esz := 0, acq := false }
    let p := s.portOf w.die m d strm spa ask.isAtomic
    if s.isFenced d 5 p then blastUse w.owner.grp.launch d 5 p (s.modItem w.id fun w => { w with fail := some .hpsn })
    else
      let y : Way := ⟨w.ctx, w.die, key, d, p, m, d, 0, strm⟩
      if !s.canSend y (s.acctOf w.ctx) ask.flits then s
      else
        { sendPacket y (s.acctOf w.ctx) ask.flits (ask.body s.nextId spa) s with nextId := s.nextId + 1, globs := s.globs ++ [req] }

/-- The read of transfer `n`. -/
def moveRead (w : Item) (n : Nat) (m : Move) (s : State) : State :=
  match meetEnd w m.src m.n false s with
  | (.at_ (.glob md d spa), s) =>
    if md != s.modId then askItem w n m.src md d spa (.read m.n) s
    else if !s.hbmOk w.ctx (.glob md d spa) m.n then s
    else
      (chargeHbm w.ctx (.glob md d spa) m.n s).modItem w.id
        (·.modMove n fun y => { y with data := some (readLoc w.owner (.glob md d spa) m.n s) })
  | (.at_ l, s) =>
    if !s.hbmOk w.ctx l m.n then s
    else (chargeHbm w.ctx l m.n s).modItem w.id (·.modMove n fun y => { y with data := some (readEnd w m.src l m.n s) })
  | (x, s) => meetStop w n m false x s

/-- The operation of a reducing multicast (R360). -/
def mcstOp : ItemKind → Option AOp
  | .mcst 1 => some .addI
  | .mcst 2 => some .addF
  | _ => none

/-- The bytes that a transfer stores over the old ones, and what it logs: a reducing multicast adds (R360). -/
def mergeBytes (op : Option AOp) (old new : List Byte) : List Byte × Log :=
  match op with
  | none => (new, {})
  | some op =>
    let r := (List.range (new.length / 4)).map fun i => atomNew op (fieldAt old (4 * i) 4) (fieldAt new (4 * i) 4) 0
    (r.flatMap fun e => toBytes 4 e.1,
     ⟨r.any (·.2.invl), false, r.any (·.2.ovfl), r.any (·.2.unfl)⟩)

/-- A reducing multicast is made of atomics, and every one travels to the owner switch of its line, also when this module is its home
(R349): its packet, or none where it must wait. -/
def reduceSend (w : Item) (op : Option AOp) (md d spa strm : Nat) (data : List Byte) (s : State) : Option State :=
  match op, s.ctx w.ctx with
  | some op, some c =>
    let y : Way := ⟨w.ctx, w.die, c.d.keyid, d, s.portOf w.die md d strm spa true, md, d, 0, strm⟩
    let ask := GlobAsk.atomic op (ofBytes data) 0
    if s.canSend y (s.acctOf w.ctx) ask.flits then some (sendPacket y (s.acctOf w.ctx) ask.flits (ask.body w.id spa) s) else none
  | _, _ => some s

/-- The write of transfer `n`, its data read. A column split writes one column at a time (R216). -/
def moveWrite (w : Item) (n : Nat) (m : Move) (data : List Byte) (s : State) : State :=
  match w.split, w.colsLeft, m.dst with
  | some csz, j :: rest, .loft c off =>
    let b := splitColumn csz data j
    let e := End.loft c (j * 2 ^ 19 + off)
    match meetEnd w e b.length true s with
    | (.at_ l, s) =>
      (writeEnd w e l b s).modItem w.id fun w =>
        { (w.wrote b.length) with colsLeft := rest, moves := if rest.isEmpty then [{ m with done := true }] else w.moves }
    | (x, s) => meetStop w n m true x s
  | _, _, _ =>
    match meetEnd w m.dst m.n true s with
    | (.at_ (.glob md d spa), s) =>
      if md != s.modId then
        askItem w n m.dst md d spa (match mcstOp w.kind with
          | some op => .atomic op (ofBytes data) 0
          | none => .write data) s
      else if !s.hbmOk w.ctx (.glob md d spa) m.n then s
      else
        match reduceSend w (mcstOp w.kind) md d spa m.dst.strm data s with
        | none => s
        | some s =>
        let r := mergeBytes (mcstOp w.kind) (readLoc w.owner (.glob md d spa) m.n s) data
        (writeLoc w.owner w.ctx (.glob md d spa) r.1 (chargeHbm w.ctx (.glob md d spa) m.n s)).modItem w.id fun w =>
          { (w.wrote m.n).modMove n fun y => { y with done := true } with
            invl := w.invl || r.2.invl, ovfl := w.ovfl || r.2.ovfl, unfl := w.unfl || r.2.unfl }
    | (.at_ l, s) =>
      if !s.hbmOk w.ctx l m.n then s
      else
      (writeEnd w m.dst l data (chargeHbm w.ctx l m.n s)).modItem w.id fun w => (w.wrote m.n).modMove n fun y => { y with done := true }
    | (x, s) => meetStop w n m true x s

/-- Whether an item may access at all: accepted, not held, not paused or failing, and behind no edge (R199). -/
def State.itemRuns (s : State) (w : Item) : Bool := !w.held && w.paused.isNone && w.fail.isNone && s.itemFree w

/-- Whether the unit that serves an item stalls on a COPYFLT event that found no room in the shed's queue (R265). -/
def State.unitStalls (s : State) (w : Item) : Bool :=
  w.arr.isNone && (s.die w.die).waiting.any fun e => e.kind == .copyflt && match s.item e.a0 with
    | some v => s.unitOf v == s.unitOf w
    | none => false

/-- The access of transfer `n` of an item (R199): an array command, the expansion of a box, the count of a NOTIFY, a read, a write. -/
def itemAccess (id n : Nat) (s : State) : State :=
  match s.item id with
  | none => s
  | some w =>
    if !s.itemRuns w || s.unitStalls w then s
    else
    match w.arr with
    | some c => applyArray w c s
    | none =>
    if w.box.isSome then startBox w s
    else
      match w.moves[n]? with
      | none => if w.kind == .job 2 && w.counts then s.modItem id fun w => { w with landed := w.total } else s
      | some m =>
        if m.done || !w.mayGo n m then s
        else
          match m.data with
          | none => moveRead w n m s
          | some b => if w.whole && w.moves.any (·.data.isNone) then s else moveWrite w n m b s

/-! ## Arrivals (R205) -/

/-- An arrival of `n` of the bytes that an item has written; a NOTIFY's count is one arrival (R223). -/
def itemArrival (id n : Nat) (s : State) : State :=
  match s.item id with
  | none => s
  | some w =>
    match w.handle with
    | none => s
    | some h =>
      if n == 0 || w.landed - w.arrived < n || (w.kind == .job 2 && n != w.total) then s
      else handleEvent w.owner.grp h (·.arrive n) (s.modItem id fun w => { w with arrived := w.arrived + n })

/-! ## Ends of items (R201, R205, R206) -/

/-- The completion token of an item (Table R201), and that of a multicast (R361), which has no field for a failure: one whose source cannot
be read gives what DENIED holds so far (DESIGN CHOICE, log 64). -/
def Item.token (w : Item) : Nat :=
  match w.kind with
  | .mcst _ => w.denied * 2 ^ 16 + w.sq
  | _ =>
    let c := match w.fail with
      | some c => c.code * 2 ^ 25 + 2 ^ 23
      | none => 0
    c + 2 ^ 24 * b2n w.handle.isNone + 2 ^ 16 * w.handle.getD 0 + w.sq

/-- Whether an item counts among its handle's inbound or outbound items: jobs do not (R223). -/
def Item.bound (w : Item) : Bool :=
  match w.kind with
  | .job _ => false
  | _ => w.handle.isSome

/-- Dropping an item: its token, its log entries, its handle's counts, and its array's waiting work. -/
def closeItem (w : Item) (s : State) : State :=
  let s := s.dropItem w.id
  let s := match w.tok with
    | some n => s.modQ w.owner.thread .cqIn (·.deliver n ⟨BitVec.ofNat 32 w.token, n32Tag⟩)
    | none => s
  let s := alogFor w.owner (if w.kind == .coll then 0x7FF else w.owner.tid) w.cpc ⟨w.invl, false, w.ovfl, w.unfl⟩ s
  match w.handle with
  | some h => if w.bound then handleEvent w.owner.grp h (·.itemDone w.inbound) s else s
  | none => s

/-- Whether an item has made every access and counted every byte. Array commands, copies of graph nodes and collectives have ends of
their own. -/
def State.itemDone (s : State) (w : Item) : Bool :=
  w.arr.isNone && s.itemRuns w && w.box.isNone && w.moves.all (·.done) && w.landed == w.arrived &&
    match w.kind with
    | .array => false
    | .node _ _ => false
    | .coll => false
    | .job 2 => w.landed == (if w.counts then w.total else 0)
    | _ => true

def itemComplete (id : Nat) (s : State) : State :=
  match s.item id with
  | some w => if s.itemDone w then closeItem w s else s
  | none => s

/-- `n` bytes that the spec leaves open (R206, log 2). -/
def drawBytes : Nat → State → List Byte × State
  | 0, s => ([], s)
  | n + 1, s =>
    let r := s.drawNat
    let t := drawBytes n r.2
    (BitVec.ofNat 8 r.1 :: t.1, t.2)

/-- The unwritten bytes of a failed transfer hold unspecified values (R206). -/
def garbleMove (w : Item) (m : Move) (s : State) : State :=
  if m.done then s
  else
    match w.split, m.dst with
    | some csz, .loft c off =>
      w.colsLeft.foldl (fun s j =>
        let n := m.n / 16
        let _ := csz
        let r := drawBytes n s
        r.2.writeLin w.die c (j * 2 ^ 19 + off) r.1) s
    | _, _ =>
      match meetEnd w m.dst m.n true s with
      | (.at_ (.glob md d spa), s) =>
        if md != s.modId then s
        else
          let r := drawBytes m.n s
          writeLoc w.owner w.ctx (.glob md d spa) r.1 r.2
      | (.at_ l, s) =>
        let r := drawBytes m.n s
        writeEnd w m.dst l r.1 r.2
      | (_, s) => s

/-- The event of a failure: COPYFAIL for the engines' copies and jobs, COLLFAIL for a collective with the index of the chunk that failed
or its tile (R206, R370, R379); an exchange has no chunks, and its index is 0 (log 32). -/
def failEvent (w : Item) (c : Cause) (s : State) : State :=
  match w.kind with
  | .coll =>
    match s.colls.find? (·.item == w.id) with
    | some y =>
      logPlain w.ctx evCollFail c.code w.owner.grp.launch y.comm (y.tile.getD (y.pos / 2 ^ (if y.clog == 0 then 16 else y.clog))) s
    | none => s
  | .mcst _ => s
  | _ => logPlain w.ctx evCopyFail c.code w.owner.grp.launch (w.handle.getD 0xFFFF) w.sq s

/-- The failure of an item (R206, Table 10.3, R370): what it wrote counts, its handle is poisoned, what it did not write counts as one
arrival. The failure of a graph node's copy is the node's (R282). -/
def itemFail (id : Nat) (c : Cause) (s : State) : State :=
  match s.item id with
  | none => s
  | some w =>
    if w.fail != some c || (match w.kind with | .node .. => true | _ => false) then s
    else
      let s := failEvent w c s
      let s := match w.kind with
        | .coll => { s with colls := s.colls.filter (·.item != id) }
        | _ => w.moves.foldl (fun s m => garbleMove w m s) s
      let s := match w.handle with
        | none => s
        | some h =>
          let s := if w.arrived < w.landed then handleEvent w.owner.grp h (·.arrive (w.landed - w.arrived)) s else s
          handleEvent w.owner.grp h (fun y =>
            let y := y.poison c
            if w.counts && decide (w.landed < w.total) then y.arrive (w.total - w.landed) else y) s
      closeItem w s

/-! ## Submission (R197, R200, R201, R213) -/

/-- The cluster of a group's core. -/
def State.clusterOf (s : State) (g : GroupKey) : Nat × Nat :=
  match s.group g with
  | some x => (x.die, x.core / 8)
  | none => (0, 0)

/-- Whether an item stands in the tile engine, or in the copy unit (R197). -/
def ItemKind.tile : ItemKind → Bool
  | .tmov => true
  | _ => false
def ItemKind.copies : ItemKind → Bool
  | .cpt => true
  | .cps => true
  | .job _ => true
  | _ => false

/-- Whether the engine that serves an item has room for it (R197). -/
def State.engineRoom (s : State) (g : GroupKey) (kind : ItemKind) : Bool :=
  let c := s.clusterOf g
  let n := fun (f : ItemKind → Bool) => (s.items.filter fun (w : Item) => f w.kind && s.clusterOf w.owner.grp == c).length
  if kind.tile then decide (n ItemKind.tile < 64) else if kind.copies then decide (n ItemKind.copies < 256) else true

/-- Reserving the inbound `cq` entry of a token (R201). -/
def reserveTok (k : StrandKey) : Exec (Option Nat) := fun s =>
  match s.thread k.thread with
  | none => .error (.refuse .noStrand)
  | some t =>
    if t.cqIn.room 1 then
      let r := t.cqIn.reserve
      .ok (r.1, s.modQ k.thread .cqIn fun _ => r.2)
    else .error (.block .queue)

/-- Taking an item into its handle (Table 10.3). -/
def acceptItem (w : Item) (s : State) : State :=
  match w.handle with
  | some h =>
    if w.bound then
      let r := if w.inbound then (s.handle w.owner.grp h).takeIn else (s.handle w.owner.grp h).takeOut
      setHandle w.owner.grp h r.2 (s.accept { w with held := r.1 })
    else s.accept w
  | none => s.accept w

/-- The submission of a checked item by a word of `len` words (R197, R200, R201): the waits, the token, the commit, the acceptance, the
SEQ of copies or of the fabric's submissions. -/
def submitWord (w : Who) (fb : Bool) (len scope : Nat) (tok fab : Bool) (item : Nat → Item) : Exec Nat := do
  flagRoom w.x fb
  holdForBar w.k
  holdForRelease w.k scope false
  let s ← get
  let id := s.nextId
  let it := item id
  match s.unitOf it with
  | some u => if s.isFenced u.1 3 u.2 then stop (.blast u.1 3 u.2)
  | none => pure ()
  if s.engineRoom w.k.grp it.kind then pure () else block .room
  let t ← if tok then reserveTok w.k else pure none
  act (commitWord w.k len)
  let sq := if fab then w.x.seqFab else w.x.seqCopy
  act fun s => acceptItem { it with tok := t, sq := sq, cpc := w.x.cpc } { s with nextId := id + 1 }
  act (·.modStrand w.k fun x =>
    if fab then { x with seqFab := (x.seqFab + 1) % 65536 } else { x with seqCopy := (x.seqCopy + 1) % 65536 })
  deliverOrPend w fb len false true [] {}
  pure id

end Sys2Proof.Machine
end

