-- ==== Sys2Proof/Machine/Copies.lean ====
section
/-! DEFINITION. Class 0xC: the submission of copies, tile moves and jobs (R208 to R216, R222, R223). -/

namespace Sys2Proof.Machine

/-! ## The literal (Table 10.6) -/

def copyHandle (l : Word) : Nat := bitsOf l.toNat 6 0
def copyDir (l : Word) : Nat := bitsOf l.toNat 8 8
def copyTok (l : Word) : Bool := l.getLsbD 9
def copyMode (l : Word) : Nat := bitsOf l.toNat 11 10
def copyCsz (l : Word) : Nat := bitsOf l.toNat 13 12
def copyScope (l : Word) : Nat := bitsOf l.toNat 18 16

/-- A check whose fault record names slot `r.1` at element `r.2`, where there is one (R213). -/
def checkAt (ok : Bool) (c : Cause) (r : Option (Nat × Nat)) : Exec Unit := if ok then pure () else trapWith { cause := c, slot := r }

/-- What the checks of R213 find before a submission's own: the operands, the literal, the group. -/
structure Sub where
  v : Vals
  w : Who
  lit : Word

/-- Steps 1 to 3 of R213: the checks of R35, a literal outside its range among them, pops in the order a, b, d and then the literal from
the outbound `cq` when QL is set, tags; and what step 4 says of a popped literal. `sl` is the slot that the fault record names, with the
element that operand a gives when `el` is set. -/
def subWord (sp : WordForm) (lit : Word) (ok : Word → Bool) (sl : Option Nat := none) (el : Bool := false) : Exec Sub := do
  let (k, x) ← curStrand
  match { sp with rsv := sp.rsv || !ok lit }.encFault k.kind x with
  | some c => trap c
  | none =>
    let a ← readOpt k x sp.a
    let b ← readOpt k x sp.b
    let d ← readOpt k x sp.d
    let q ← if litQl lit then popVals k .cqOut 1 else pure []
    let at_ := sl.map fun n => (n, if el then v32 a else 0)
    checkAt (tagsOk sp.a a && tagsOk sp.b b && tagsOk sp.d d) .ftag at_
    let l := if litQl lit then BitVec.ofNat 32 (v32 q) else lit
    checkAt (ok l && !litQl l) .irsv at_
    let w ← who k x
    pure ⟨⟨k, x, a, b, d⟩, w, l⟩

/-! ## Memory regions of a footprint (R198, R211) -/

/-- The region of a memory range. A loft range is compared by the slice-linear bytes that its pages hold (R198). -/
def memRegions (w : Who) (seg : Seg) (va n m ep : Nat) (wr : Bool) : List Region :=
  match seg with
  | .core => [⟨.core w.k.grp, va, va + n, wr⟩]
  | .clus => [⟨.clus (w.g.ownerKey w.k.grp), va, va + n, wr⟩]
  | .glob => [⟨.glob m ep, va, va + n, wr⟩]
  | .loft => [⟨.va, va, va + n, wr⟩]
  | _ => [⟨.mem seg, va, va + n, wr⟩]

/-- The coordinates that a box can name in dimension `k`, lowest and highest, and whether there are any (R210, R211): clamped ones when
an inbound box clamps, every one of a gathered dimension, otherwise those in range. -/
def LayRec.span (r : LayRec) (c : List Int) (clamps : Bool) (k : Nat) : Option (Int × Int) :=
  if r.ndim ≤ k then some (lget c k 0, lget c k 0)
  else
    let hi : Int := ((lget r.ext k 0 : Nat) : Int) - 1
    if r.gather && k == 1 then some (0, hi)
    else
      let a := lget c k 0
      let b := a + ((lget r.box k 0 : Nat) : Int) - 1
      if clamps then some (clampInt 0 hi a, clampInt 0 hi b)
      else if hi < a || b < 0 then none
      else some (max a 0, min b hi)

/-- The bytes from the lowest to the highest of a box's elements: first address and length (R211). -/
def LayRec.extentOf (r : LayRec) (c : List Int) (clamps : Bool) : Option (Nat × Nat) :=
  let sp := (List.range 4).map (r.span c clamps)
  if sp.any (·.isNone) then none
  else
    let st := fun k => if k == 0 then (2 ^ r.esz : Int) else lget r.str k 0
    let lo := fun k => (((lget sp k none).getD (0, 0)).1 * st k)
    let hi := fun k => (((lget sp k none).getD (0, 0)).2 * st k)
    let a : Int := (List.range 4).foldl (fun t k => t + min (lo k) (hi k)) r.base
    let b : Int := (List.range 4).foldl (fun t k => t + max (lo k) (hi k)) r.base
    some ((a % 2 ^ 57).toNat, (b - a).toNat + 2 ^ r.esz)

/-! ## CPT (R213, R214) -/

/-- A layout slot as captured at issue, after the interlock with an LLOAD of the same strand (R147). -/
def layoutRec (k : StrandKey) (sl : Nat) : Exec (BitVec 512) := fun s =>
  if s.pend.any (fun (p : Pend) => p.owner == k && p.dests.any fun d => match d with | .lslot n _ => n == sl | _ => false) then
    .error (.block .slot)
  else
    match s.group k.grp with
    | some g => .ok (lget g.lslots sl 0#512, s)
    | none => .error (.refuse .noStrand)

/-- A handle's buffer as a region of a footprint. -/
def bufRegion (w : Who) (h : Handle) (add n : Nat) (wr : Bool) : Region :=
  ⟨descSpace w.k.grp w.g h.buf, descOff h.buf + add, descOff h.buf + add + n, wr⟩

def execCpt (fb : Bool) (l : BitVec 3) (a b : RegNo) (lit : Word) (s : State) : Host.Outcome State Fault Refusal :=
  runWord s.cur (do
    let q ← subWord { cls := 12, len := 2, a := some { n := a, w := 4, acc := .int }, b := some { n := b, acc := .int } } lit
      (copyLitOk false) (some l.toNat)
    let img ← layoutRec q.v.k l.toNat
    let w := q.w
    let s ← get
    let n := copyHandle q.lit
    let out := copyDir q.lit == 1
    let ck := fun ok c => checkAt ok c (some (l.toNat, 0))
    ck (s.handleOk w.k.grp n) .irsv
    let r := layRec img
    ck (img != 0#512 && s.usable w.g.die w.d w.l.rc r.seg r.epmod && !(out && r.seg == .repl)) .aseg
    let h := s.handle w.k.grp n
    let c := q.v.a.map fun v => v.bits.toInt
    let off := v32 q.v.b
    let ext := r.extentOf c (r.edge == 1 && !out)
    let yard := w.d.yard
    ck ((if out then r.pw else r.pr) && s.descIn w.g w.l.rc yard h.buf off r.bytes &&
      (!r.gather || decide (r.goff + 4 * lget r.box 1 1 ≤ w.l.rc.scratch))) .aprm
    ck (off % 2 ^ r.esz == 0) .aaln
    let mem := match ext with
      | some e => memRegions w r.seg e.1 e.2 r.epmod r.epdie out
      | none => []
    let list := if r.gather then [⟨.core w.k.grp, r.goff, r.goff + 4 * lget r.box 1 1, false⟩] else []
    let buf := descEnd w.k.grp w.g h.buf off
    let _ ← submitWord w fb 2 (copyScope q.lit) (copyTok q.lit) false fun id =>
      { Item.blank id w.g.die w.l.ctx w.k .cpt with
        regions := bufRegion w h off r.bytes (!out) :: (mem ++ list), box := some (img, c, r.goff), handle := some n, inbound := !out,
        counts := !out, total := r.bytes,
        moves := [if out then ⟨0, buf, .pat [], r.bytes, none, false⟩ else ⟨0, .pat [0#8], buf, r.bytes, none, false⟩] }
    pure ()) s

/-! ## CPS (R215) -/

/-- A memory range as an end of a transfer: the core and cluster segments name windows (R151). -/
def memEnd (w : Who) (seg : Seg) (va m ep strm : Nat) : End :=
  match seg with
  | .core => .core w.k.grp va
  | .clus => .clus (w.g.ownerKey w.k.grp) va
  | _ => .mem seg va m ep strm

/-- The span of CPS and MCST through a record: STRIDE, EXTENT, permission, window, and alignment, in the order of R213 and R215.
`need` is the record bit that the access needs. -/
def spanFault (w : Who) (r : BufRec) (i n : Nat) (need : Bool) (bufOk : Bool) (aln : Bool) : Option Cause :=
  let va := r.form i 0
  let sz := 2 ^ r.esz
  if r.stride != (sz : Int) || decide (r.extent * sz < i * sz + n) then some .abnd
  else if !need || !bufOk || (r.seg == .core && decide (w.l.rc.scratch < va + n)) ||
    (r.seg == .clus && decide (w.l.rc.cluster < va + n)) then some .aprm
  else if n % sz != 0 || !aln then some .aaln
  else none

def execCps (fb : Bool) (sl : BitVec 5) (a b : RegNo) (lit : Word) (s : State) : Host.Outcome State Fault Refusal :=
  runWord s.cur (do
    let q ← subWord { cls := 12, len := 2, a := some { n := a, w := 2, acc := .int }, b := some { n := b, acc := .int } } lit
      (copyLitOk false) (some sl.toNat) true
    let img ← slotRec q.v.k sl.toNat
    let w := q.w
    let s ← get
    let hn := copyHandle q.lit
    let out := copyDir q.lit == 1
    let i := v32 q.v.a
    let n := v32 (q.v.a.drop 1)
    let off := v32 q.v.b
    let at_ := some (sl.toNat, i)
    checkAt (s.handleOk w.k.grp hn && decide (1 ≤ n) && decide (n ≤ 2 ^ 23)) .irsv at_
    let r := bufRec img
    checkAt (img != 0#256 && r.seg != .priv && s.usable w.g.die w.d w.l.rc r.seg r.epmod && !(out && r.seg == .repl)) .aseg at_
    let h := s.handle w.k.grp hn
    match spanFault w r i n (if out then r.pw else r.pr) (s.descIn w.g w.l.rc w.d.yard h.buf off n) (off % 2 ^ r.esz == 0) with
    | some c => trapSlot c sl.toNat i 0
    | none =>
      let va := r.form i 0
      let mem := memEnd w r.seg va r.epmod r.epdie r.ostrm
      let buf := descEnd w.k.grp w.g h.buf off
      let _ ← submitWord w fb 2 (copyScope q.lit) (copyTok q.lit) false fun id =>
        { Item.blank id w.g.die w.l.ctx w.k .cps with
          regions := bufRegion w h off n (!out) :: memRegions w r.seg va n r.epmod r.epdie out, handle := some hn, inbound := !out,
          counts := !out, total := n, moves := if out then s.cutMoves 0 buf mem n n else s.cutMoves 0 mem buf n n }
      pure ()) s

/-! ## TMOV (R216) -/

/-- Bytes of one row in column split mode: 16 containers of 4, 8 or 16 bits. -/
def colRowBytes (csz : Nat) : Nat := 8 * 2 ^ csz

/-- TMOV. In column split mode the overlap that faults IRSV is that of the source with the bytes that the 16 columns take, not with the
range that the footprint covers (log 49). -/
def execTmov (fb : Bool) (d a b : RegNo) (lit : Word) (s : State) : Host.Outcome State Fault Refusal :=
  runWord s.cur (do
    let q ← subWord
      { cls := 12, len := 2, a := some { n := a, acc := .int }, b := some { n := b, acc := .int }, d := some { n := d, acc := .int } } lit
      (copyLitOk true)
    let w := q.w
    let s ← get
    let hn := copyHandle q.lit
    let col := copyMode q.lit == 1
    let csz := copyCsz q.lit
    let src := BitVec.ofNat 32 (v32 q.v.d)
    let off := v32 q.v.a
    let rows := v32 q.v.b % 65536
    let rowb := v32 q.v.b / 65536
    let n := rows * rowb
    let h := s.handle w.k.grp hn
    let cb := n / 16
    let so := descOff src
    let bo := descOff h.buf + off
    let dsts : List (Nat × Nat) := if col then (List.range 16).map fun j => (j * 2 ^ 19 + bo, cb) else [(bo, n)]
    let clash := descSpace w.k.grp w.g src == descSpace w.k.grp w.g h.buf &&
      dsts.any fun e => decide (max so e.1 < min (so + n) (e.1 + e.2))
    check (s.handleOk w.k.grp hn && descOk src && decide (1 ≤ rows) &&
      (if col then descSeg h.buf == 2 && rowb == colRowBytes csz && (csz != 0 || rows % 2 == 0)
       else rowb % 16 == 0 && decide (16 ≤ rowb)) && !clash) .irsv
    let y := w.d.yard
    check (s.usable w.g.die w.d w.l.rc (descSegment src) 0) .aseg
    check (s.descIn w.g w.l.rc y src 0 n &&
      (if col then decide (bo + cb ≤ 524288) && dsts.all fun e => s.linOk w.g.die w.g.core y e.1 e.2
       else s.descIn w.g w.l.rc y h.buf off n)) .aprm
    check (if col then bo % 64 == 0 else so % 16 == 0 && bo % 16 == 0) .aaln
    let se := descEnd w.k.grp w.g src 0
    let de := descEnd w.k.grp w.g h.buf off
    let rs : Region := ⟨descSpace w.k.grp w.g src, so, so + n, false⟩
    let rd : Region := if col then ⟨.loft w.g.die w.g.core, bo, 15 * 2 ^ 19 + bo + cb, true⟩ else bufRegion w h off n true
    let _ ← submitWord w fb 2 (copyScope q.lit) (copyTok q.lit) false fun id =>
      { Item.blank id w.g.die w.l.ctx w.k .tmov with
        regions := [rs, rd], handle := some hn, inbound := true, counts := true, total := n, moves := [⟨0, se, de, n, none, false⟩],
        split := if col then some csz else none, colsLeft := if col then List.range 16 else [] }
    pure ()) s

/-! ## JOBS (R222, R223) -/

/-- A region of a job card (Table 10.7). -/
structure JobReg where
  va : Nat
  seg : Seg
  wr : Bool
  valid : Bool
  len : Nat
  rsv : Bool

def jobReg (c : List TVal) (r : Nat) : JobReg :=
  let w := fun i => v32 (c.drop i)
  let hi := w (5 + 3 * r)
  ⟨w (4 + 3 * r) + 2 ^ 32 * bitsOf hi 24 0, segOf (bitsOf hi 27 25), bitOf hi 28, bitOf hi 29, w (6 + 3 * r), bitsOf hi 31 30 != 0⟩

/-- The segments that a job may name (R222). -/
def jobSeg (g : Seg) : Bool := g == .clus || g == .loft || g == .chip || g == .host

/-- Whether a card is one that R222 admits; `hok` says that its handle is usable. -/
def jobOk (c : List TVal) (hok : Bool) : Bool :=
  let w0 := v32 c
  let len := v32 (c.drop 1)
  let kind := bitsOf w0 3 0
  let r := jobReg c
  bitsOf w0 15 13 == 0 && bitsOf w0 31 19 == 0 && v32 (c.drop 3) == 0 && decide (kind ≤ 2) && (kind == 1 || v32 (c.drop 2) == 0) &&
    ((List.range 4).all fun i => !(r i).rsv && (!(r i).valid || jobSeg (r i).seg)) &&
    (match kind with
      | 0 => (r 0).valid && !(r 0).wr && decide (len ≤ (r 0).len) && (r 1).valid && (r 1).wr && decide (len ≤ (r 1).len)
      | 1 => (r 0).valid && (r 0).wr && decide (len ≤ (r 0).len) && len % 4 == 0
      | _ => true) && (!bitOf w0 5 || hok)

def execJobs (fb : Bool) (s : State) : Host.Outcome State Fault Refusal :=
  runWord s.cur (do
    let (k, x) ← curStrand
    match ({ cls := 12 } : WordForm).encFault k.kind x with
    | some c => trap c
    | none =>
      let c ← popVals k .cqOut 16
      let w ← who k x
      let s ← get
      let w0 := v32 c
      let hn := bitsOf w0 12 6
      let len := v32 (c.drop 1)
      check (jobOk c (s.handleOk k.grp hn)) .irsv
      let regs := ((List.range 4).map (jobReg c)).filter (·.valid)
      check (regs.all fun r => s.usable w.g.die w.d w.l.rc r.seg 0) .aseg
      let e := fun (r : JobReg) => memEnd w r.seg r.va 0 0 0
      let kind := bitsOf w0 3 0
      let mv := match kind with
        | 0 => s.cutMoves 0 (e (jobReg c 0)) (e (jobReg c 1)) len len
        | 1 => s.cutMoves 0 (.pat (toBytes 4 (v32 (c.drop 2)))) (e (jobReg c 0)) len len
        | _ => []
      let _ ← submitWord w fb 1 (bitsOf w0 18 16) (bitOf w0 4) false fun id =>
        { Item.blank id w.g.die w.l.ctx k (.job kind) with
          regions := regs.flatMap fun r => memRegions w r.seg r.va r.len 0 0 r.wr, whole := true,
          handle := if bitOf w0 5 then some hn else none, inbound := true, counts := bitOf w0 5, total := len, moves := mv }
      pure ()) s

end Sys2Proof.Machine
end

