-- ==== Sys2Proof/Machine/Package.lean ====
section
/-! DEFINITION. Class 0xD, first part: strong operations, RSTAMP and the gate instructions (R314 to R320, R332 to R337). -/

namespace Sys2Proof

/-- The registers that a strong operation reads as data at an element size (Table 15.6). -/
def Machine.StrongKind.reads (op : Machine.StrongKind) (esz : Nat) : Nat :=
  let n := if esz == 3 then 2 else 1
  match op with
  | .sst => n
  | .add => n
  | .xchg => n
  | .cas => 2 * n
  | .rsync => 0

end Sys2Proof

namespace Sys2Proof.Machine

/-! ## Applying strong updates (R315, R319) -/

/-- The new value of an element (R319). -/
def StrongKind.value (op : StrongKind) (n m d e : Nat) : Nat :=
  match op with
  | .sst => d
  | .add => (m + d) % 2 ^ (8 * n)
  | .xchg => d
  | .cas => if m == d then e else m
  | .rsync => m

/-- A value in result registers with given tags, low word first. -/
def tagVals (tags : List Tag) (m : Nat) : List TVal :=
  (List.range tags.length).map fun i => ⟨BitVec.ofNat 32 (m / 2 ^ (32 * i)), lget tags i 0#5⟩

/-- The operation of a strong update is applied: its value is ready (R315, R316). An RSYNC goes on waiting for the members. -/
def strongReady (die : Nat) (u : Upd) (k : StrongKind) (gs m : Nat) (s : State) : State :=
  s.modPend u.op fun p =>
    match k with
    | .rsync => { p with kind := .rsync die u.sq, dests := destsOf p.places (tagVals p.tags gs) }
    | .sst => { p with kind := if p.sc then .replStore die u.sq else .ready }
    | .add | .xchg | .cas => { p with kind := .strongDone die u.sq, dests := destsOf p.places (tagVals p.tags m) }

/-- A die applies its own strong update with its grant, and sends it (R315). -/
def applyStrong (die : Nat) (u : Upd) (k : StrongKind) (gs wseq : Nat) (s : State) : State :=
  let m := ofBytes (s.replBytes die u.off u.n)
  let dep := depVec (s.repl die) die u.sq
  let s := s.modRepl die fun r => { r with clock := max r.clock wseq }
  let s := match k with
    | .rsync => s
    | _ => writeStamped die u.off (toBytes u.n (k.value u.n m u.val u.val2)) ⟨wseq, die, (s.repl die).sep⟩ s
  let s := s.modRepl die fun r => { r with applied := lset r.applied die u.sq, gseq := r.gseq + 1 }
  let s := sendAll die
    { src := die, strong := true, null := false, sep := (s.repl die).sep, epoch := s.epoch, sq := u.sq, wseq := wseq, gs := gs, dep := dep,
      lines := match k with
        | .rsync => []
        | _ => [(lineOf u.off, s.replBytes die (lineOf u.off) 32)], since := u.since, ctx := u.ctx } s
  strongReady die u k gs m s

/-- A die applies its own updates in SEQ order as far as their grants and failed lines allow (R310, R315, R342); the fuel is their number.
-/
def advanceUpds (die : Nat) : Nat → State → State
  | 0, s => s
  | fuel + 1, s =>
    match (s.repl die).upds with
    | [] => s
    | u :: rest =>
      let pop := fun (s : State) => s.modRepl die fun r => { r with upds := rest }
      if s.replBad die u.off u.n then s else
      match u.strong, u.grant with
      | none, _ => advanceUpds die fuel (applyOwnWeak die u.sq u.ctx u.since u.off (toBytes u.n u.val) (pop s))
      | some k, some (gs, wseq) =>
        if gs == (s.repl die).gseq then advanceUpds die fuel (applyStrong die u k gs wseq (pop s)) else s
      | some _, none => s

def runUpds (die : Nat) (s : State) : State := advanceUpds die (s.repl die).upds.length s

/-! ## Issuing (R314, R316 to R318) -/

/-- Whether strong operations wait at issue: a quiesce, or a full outbound log (R310, R322). -/
def State.strongHeld (s : State) (die : Nat) : Bool :=
  s.quies || (s.others die).any fun d => decide (2 ^ 21 ≤ (lget (s.repl die).outLog d []).length)

/-- A committed strong operation: its SEQ, its request for a slot, and what waits for it (R314, R315); on an SC page its strand does
(R165). -/
def issueStrong (w : Who) (fb sc : Bool) (op : StrongKind) (off n val val2 : Nat) (pl : List Place) (tags : List Tag) (s : State) : State :=
  let die := w.g.die
  let sq := (s.repl die).issued + 1
  let id := s.nextId
  let s := s.modRepl die fun r => { r with issued := sq, upds := r.upds ++
    [{ sq := sq, strong := some op, owner := w.k, ctx := w.l.ctx, off := off, n := n, val := val, val2 := val2, grant := none, op := id,
       fpc := w.x.pc, since := s.cycle }] }
  let s := s.modStrand w.k fun x => { x with replOut := some (die, sq) }
  let s := { s with nextId := id + 1, slotReqs := s.slotReqs ++ [⟨die, sq, (s.repl die).clock⟩] }
  issuePend { Pend.blank id w.k w.x fb 1 with
    flag := if sc then none else w.x.selFlag fb, committed := true, kind := .strong die sq, places := pl, tags := tags, sc := sc } s

/-- The waits of a strong operation, and its commit. -/
def strongGo (w : Who) (fb : Bool) : Exec Unit := do
  flagRoom w.x fb
  holdForBar w.k
  holdForRelease w.k 4 true
  let s ← get
  if s.strongHeld w.g.die then block .room

/-- The tags that data register `j` of a strong operation accepts beside those of ETAG (R318). -/
def strongAcc (op : StrongKind) (esz j : Nat) : Accept :=
  match op with
  | .add => if esz == 3 then .one [if j == 0 then 13#5 else 14#5] else .int
  | _ => .any

/-- SST and SATM (R318, R319). The record's element size says how many registers the word reads and writes. -/
def strongWord (op : StrongKind) (fb : Bool) (d : RegNo) (sl : BitVec 5) (b : RegNo) (s : State) : Host.Outcome State Fault Refusal :=
  runWord s.cur (do
    let img ← slotRec s.cur sl.toNat
    let r := bufRec img
    let sst := op == .sst
    let out := if sst then none else some (d, if r.esz == 3 then 2 else 1)
    let a ← accessWord
      { cls := 13, b := some { n := b, acc := .int }, d := some { n := d, w := op.reads r.esz }, out := out } sl
      { ak := if sst then .write else .rmw, esz := if sst then [0, 1, 2, 3] else [2, 3],
        etag := fun t => op != .add || (if r.esz == 3 then t == 13#5 else t == 1#5 || t == 2#5), seg := (· == .repl),
        bits := if sst then (·.pw) else fun r => r.pr && r.pw && r.pa } (strongAcc op r.esz)
    let w := a.w
    holdForOrder w.k a.t.loc (.write (List.replicate (2 ^ r.esz) 0#8))
    strongGo w fb
    let pl ← if sst then pure [] else places w.k w.x d (if r.esz == 3 then 2 else 1)
    act (commitWord w.k 1)
    let v := if r.esz == 3 then v64 a.data else v32 a.data % 2 ^ (8 * 2 ^ r.esz)
    let e := if r.esz == 3 then v64 (a.data.drop 2) else v32 (a.data.drop 1)
    match a.t.loc with
    | .repl _ off =>
      act (issueStrong w fb a.t.sc op off (2 ^ r.esz) v e pl (if sst then [] else (List.range pl.length).map r.tagAt))
    | _ => pure ()) s

def execSst (fb : Bool) (d : RegNo) (sl : BitVec 5) (b : RegNo) (s : State) : Host.Outcome State Fault Refusal :=
  strongWord .sst fb d sl b s
def execSatmAdd (fb : Bool) (d : RegNo) (sl : BitVec 5) (b : RegNo) (s : State) : Host.Outcome State Fault Refusal :=
  strongWord .add fb d sl b s
def execSatmXchg (fb : Bool) (d : RegNo) (sl : BitVec 5) (b : RegNo) (s : State) : Host.Outcome State Fault Refusal :=
  strongWord .xchg fb d sl b s
def execSatmCas (fb : Bool) (d : RegNo) (sl : BitVec 5) (b : RegNo) (s : State) : Host.Outcome State Fault Refusal :=
  strongWord .cas fb d sl b s

def execRsync (fb : Bool) (d : RegNo) (s : State) : Host.Outcome State Fault Refusal :=
  runWord s.cur (do
    let v ← readWord { cls := 13, out := some (d, 1) }
    let w ← who v.k v.x
    let s ← get
    check (s.isMember w.g.die) .rplx
    if s.isFenced w.g.die 7 0 then stop (.blast w.g.die 7 0)
    strongGo w fb
    let pl ← places w.k w.x d 1
    act (commitWord w.k 1)
    act (issueStrong w fb false .rsync 0 0 0 0 pl [n32Tag])) s

/-- The two words of a stamp (R320). -/
def Stamp.vals (t : Stamp) : List TVal :=
  [⟨BitVec.ofNat 32 t.wseq, n32Tag⟩, ⟨BitVec.ofNat 32 (t.rank % 8 + 256 * (t.sep % 256)), n32Tag⟩]

/-- RSTAMP: the stamp is read in the order of the strand's accesses, as the line is (R148, R162, R163, R320). -/
def execRstamp (fb : Bool) (d : RegNo) (sl : BitVec 5) (b : RegNo) (s : State) : Host.Outcome State Fault Refusal :=
  runWord s.cur (do
    let a ← accessWord { cls := 13, b := some { n := b, acc := .int }, out := some (d, 2) } sl
      { ak := .read, esz := [0, 1, 2, 3, 4], seg := (· == .repl), bits := (·.pr) } fun _ => .any
    let w := a.w
    let line := match a.t.loc with
      | .repl die off => Loc.repl die (lineOf off)
      | l => l
    flagRoom w.x fb
    holdForBar w.k
    holdForOrder w.k line (.read 32)
    let pl ← places w.k w.x d 2
    act (commitWord w.k 1)
    let s ← get
    match a.t.loc with
    | .repl die off => deliverOrPend w fb 1 a.t.sc true (destsOf pl (s.stampOf die (lineOf off)).vals) {}
    | _ => pure ()) s

/-! ## Gate instructions (R333, R336, R337) -/

/-- Whether the reserved bits of a gate identifier are zero (R332). -/
def gidOk (g : Nat) : Bool := decide (g < 2 ^ 36)

/-- The ordering lock of a gate's events (log 25). -/
def gateLock (gid : Nat) : Nat := gid % 256

/-- A gate operation goes to its home: a GATE event of the home's die, or a message to another module (R265, R333). -/
def sendGate (die : Nat) (o : GateOp) (s : State) : State :=
  let s := { s with gateOps := s.gateOps ++ [o] }
  if s.gateFar o.gid then { s with out := s.out ++ [.gateAsk die o.gid o.id o.tenant o.ctx o.ask] }
  else raiseShed (match tget s.gates o.gid with
    | some g => g.home
    | none => die) ⟨.gate, o.ctx, gateLock o.gid, o.id, 0, false⟩ s

/-- A gate word. The first time, its request goes to the home and the strand is held (R333). An answer finds it there again: GSIG and
GRD, which commit once admitted, go on waiting for the answer's arrival; GWAIT issues as it arrives. -/
def gateWord (sp : WordForm) (fb : Bool) (ok : Vals → Bool) (ask : Vals → GateAsk) (d : RegNo) (n : Nat) : Exec Unit := do
  let s0 ← get
  let v ← readWord { sp with cls := 13 }
  let gid := v64 v.a
  check (gidOk gid && ok v) .irsv
  let w ← who v.k v.x
  flagRoom v.x fb
  holdForBar v.k
  holdForRelease v.k 6 false
  match s0.gateOps.find? (·.owner == v.k) with
  | none => do
    placesRoom v.k d n
    set s0
    act fun s => sendGate w.g.die
      { id := s.nextId, owner := v.k, ctx := w.l.ctx, tenant := w.d.tenant, gid := gid, ask := ask v, st := .sent }
      { s with nextId := s.nextId + 1 }
    block' v.k
  | some o =>
    match o.st with
    | .answered val => do
      let pl ← if n == 0 then pure [] else places v.k v.x d n
      act (commitWord v.k 1)
      let id ← freshId
      let p := { Pend.blank id v.k v.x fb 1 with
        committed := true, dests := destsOf pl [⟨BitVec.ofNat 32 val, 13#5⟩, ⟨BitVec.ofNat 32 (val / 2 ^ 32), 14#5⟩] }
      match o.ask with
      | .wait _ => do
        act fun s => { s with gateOps := s.gateOps.filter (·.id != o.id) }
        match v.x.selFlag fb with
        | none => act fun s => pendWhole p (issuePend p s)
        | some _ => act (issuePend p)
      | _ => act fun s =>
        { s with pend := s.pend ++ [{ p with kind := .gate o.id }] }.modStrand v.k fun x => { x with phase := .sync id, blk := .none }
    | _ => block .gate
where
  /-- The strand is held at the word with its request sent. -/
  block' (k : StrandKey) : Exec Unit :=
    act fun s => s.modStrand k fun x => { x with blk := .gate, blkAt := s.cycle }

def gidOpnd (a : RegNo) : Opnd := { n := a, w := 2, acc := .i64 }

def gateSig (fb : Bool) (a b : RegNo) : Exec Unit :=
  gateWord { cls := 13, a := some (gidOpnd a), b := some { n := b, acc := .int } } fb (fun v => v32 v.b != 0) (fun v => .sig (v32 v.b)) 126#7 0

def gateWait (fb : Bool) (d a b : RegNo) : Exec Unit :=
  gateWord { cls := 13, a := some (gidOpnd a), b := some (gidOpnd b), out := some (d, 2) } fb (fun _ => true) (fun v => .wait (v64 v.b)) d 2

def gateRead (fb : Bool) (d a : RegNo) : Exec Unit :=
  gateWord { cls := 13, a := some (gidOpnd a), out := some (d, 2) } fb (fun _ => true) (fun _ => .rd) d 2

def execGsig (fb : Bool) (a b : RegNo) (s : State) : Host.Outcome State Fault Refusal := runWord s.cur (gateSig fb a b) s
def execGwait (fb : Bool) (d a b : RegNo) (s : State) : Host.Outcome State Fault Refusal := runWord s.cur (gateWait fb d a b) s
def execGrd (fb : Bool) (d a : RegNo) (s : State) : Host.Outcome State Fault Refusal := runWord s.cur (gateRead fb d a) s

end Sys2Proof.Machine
end

