-- ==== Sys2Proof/Machine/Fabric.lean ====
section
/-! DEFINITION. Class 0xD, second part: multicasts, collectives and exchanges, the reduction arithmetic and the layout maps of
exchanges (R358 to R380). -/

namespace Sys2Proof.Machine

/-! ## MCST (R358 to R361) -/

/-- Entry `i` of a multicast list (Table 17.3). -/
structure McstEnt where
  va : Nat
  m : Nat
  d : Nat
  strm : Nat
  rsv : Bool

def mcstEnt (l : List Byte) (i : Nat) : McstEnt :=
  let a := fieldAt l (16 + 16 * i) 8
  let b := fieldAt l (24 + 16 * i) 8
  ⟨bitsOf a 56 0, bitsOf b 19 0, bitsOf b 22 20, bitsOf b 26 23, bitsOf a 63 57 != 0 || bitsOf b 63 27 != 0⟩

/-- Whether a multicast list of `n` bytes to each destination is one that R359 admits. -/
def mcstListOk (l : List Byte) (n : Nat) : Bool :=
  let c := fieldAt l 0 4
  decide (1 ≤ c) && decide (c ≤ 16) && fieldAt l 4 4 == 0 && fieldAt l 8 8 == 0 &&
    (List.range c).all fun i => !(mcstEnt l i).rsv && decide ((mcstEnt l i).va % 65536 + n ≤ 65536)

/-- The transfers to entry `i`: a reducing store goes element by element. -/
def mcstMoves (src : End) (n op : Nat) (s : State) (i : Nat) (e : McstEnt) : List Move :=
  let dst := End.mem .glob e.va e.m e.d e.strm
  if op == 0 then s.cutMoves i src dst n n
  else (List.range (n / 4)).map fun j => ⟨i, src.shift (4 * j), dst.shift (4 * j), 4, none, false⟩

/-- The bytes of a multicast list that its COUNT covers, read whole; they may cross a page. -/
def readList (w : Who) (va : Nat) : Exec RecRead := do
  let h ← readRecord w va 64 64
  let c := fieldAt h.bytes 0 4
  let n := if decide (1 ≤ c) && decide (c ≤ 16) then (16 + 16 * c + 63) / 64 else 1
  let t ← readRuns w (va57 (va + 64)) (n - 1)
  pure ⟨h.bytes ++ t.bytes, h.sc || t.sc, h.evs ++ t.evs⟩

/-- The element tags that a reducing multicast takes (R359). -/
def mcstTagOk (op : Nat) (t : Tag) : Bool :=
  match op with
  | 1 => t == 1#5 || t == 2#5
  | 2 => t == 3#5
  | _ => true

def execMcst (fb : Bool) (d : RegNo) (sl : BitVec 5) (o : BitVec 2) (s : State) : Host.Outcome State Fault Refusal :=
  runWord s.cur (do
    let v ← readWord { cls := 13, rsv := o == 3#2, d := some { n := d, w := 4 } }
    let img ← slotRec v.k sl.toNat
    let w ← who v.k v.x
    let op := o.toNat
    let tg := fun i => vtag (v.d.drop i)
    let int := fun t => Accept.ok .int 0 t
    check ((d == 126#7 || (int (tg 0) && int (tg 1) && tg 2 == 13#5 && tg 3 == 14#5)) &&
      (img == 0#256 || mcstTagOk op (bufRec img).etag)) .ftag
    let i := v32 v.d
    let n := v32 (v.d.drop 1)
    check (decide (1 ≤ n) && decide (n ≤ 4096) && (op == 0 || n % 4 == 0)) .irsv
    let s0 ← get
    let r := bufRec img
    let at_ := some (sl.toNat, i)
    checkAt (img != 0#256 && (r.seg == .core || r.seg == .clus || r.seg == .loft || r.seg == .chip) &&
      s0.usable w.g.die w.d w.l.rc r.seg r.epmod) .aseg at_
    match spanFault w r i n r.pr true true with
    | some c => trapWith { cause := c, slot := at_ }
    | none => do
      let r0 ← readList w (va57 (v64 (v.d.drop 2)))
      let l := r0.bytes
      if !mcstListOk l n then trapWith { cause := .irsv, evs := r0.evs }
      r0.log w.l.ctx
      let s1 ← get
      let es := (List.range (fieldAt l 0 4)).map (mcstEnt l)
      let va := r.form i 0
      let src := memEnd w r.seg va r.epmod r.epdie r.ostrm
      let _ ← submitWord w fb 1 6 true true fun id =>
        { Item.blank id w.g.die w.l.ctx w.k (.mcst op) with
          regions := memRegions w r.seg va n r.epmod r.epdie false ++ es.map fun e => ⟨.glob e.m e.d, e.va, e.va + n, true⟩
          total := n
          moves := ((List.range es.length).zip es).flatMap fun e => mcstMoves src n op s1 e.1 e.2 }
      pure ()) s

/-! ## Reduction (R367) -/

/-- The exponent that an f32 block agrees on. -/
def blockExp (vs : List FVal) : Int :=
  let tops := vs.filterMap fun v => match v with
    | .fin _ m e => if m == 0 then none else some (Mag.top ⟨m, e, false⟩)
    | _ => none
  match tops with
  | [] => -149
  | t :: l => l.foldl max t

/-- One position of an f32 block over the ranks. -/
def reducePos (qt : Int) (vs : List FVal) : FRes :=
  let mixed := vs.contains (.inf false) && vs.contains (.inf true)
  if vs.any (·.isNan) || mixed then f32.nanRes (mixed || vs.any (·.isSig))
  else if vs.contains (.inf false) then (f32.infCode, noLog)
  else if vs.contains (.inf true) then (f32.signed true f32.infCode, noLog)
  else
    let t := vs.foldl (fun (a : Int) v => match v with
      | .fin n m e =>
        let r : Int := Mag.round ⟨m, e, false⟩ .rn n qt
        if n then a - r else a + r
      | _ => a) 0
    let sat := decide ((2 : Int) ^ 63 ≤ t.natAbs)
    let m := if sat then 2 ^ 63 - 1 else t.natAbs
    if m == 0 then (0, noLog)
    else
      let r := f32.enc .rn (decide (t < 0)) ⟨m, qt, false⟩
      (r.1, { r.2 with ovfl := r.2.ovfl || sat })

def joinLogs (l : List Log) : Log := ⟨l.any (·.invl), l.any (·.divz), l.any (·.ovfl), l.any (·.unfl)⟩

/-- The 4-byte elements of a run of bytes. -/
def words4 (l : List Byte) : List Nat := (List.range (l.length / 4)).map fun i => fieldAt l (4 * i) 4

/-- One block of at most 256 f32 elements, one list for each rank. -/
def reduceBlock (rs : List (List Nat)) : List FRes :=
  let n := (rs.headD []).length
  let vs := rs.map fun l => l.map f32.dec
  let qt := blockExp vs.flatten - 43
  (List.range n).map fun p => reducePos qt (vs.map fun l => lget l p (.fin false 0 0))

/-- The sum of the ranks' bytes of a chunk that starts at a multiple of 256 elements: f32 in blocks, or i32 (R367). -/
def reduceBytes (dt : Nat) (rs : List (List Byte)) : List Byte × Log :=
  let ws := rs.map words4
  let n := (ws.headD []).length
  if dt == 0 then
    let r := (List.range ((n + 255) / 256)).flatMap fun b => reduceBlock (ws.map fun l => (l.drop (256 * b)).take 256)
    (r.flatMap fun e => toBytes 4 e.1, joinLogs (r.map (·.2)))
  else
    ((List.range n).flatMap fun p => toBytes 4 ((ws.map fun l => lget l p 0).sum), {})

/-! ## The shape of a collective (R365) -/

def CommDesc.none : CommDesc := ⟨false, false, 0, 0, 0, 0, 0, 0, 0⟩
def State.comm (s : State) (die n : Nat) : CommDesc := tgetD (s.die die).comms n CommDesc.none

def dtBytes (dt : Nat) : Nat := if dt == 2 then 1 else 4

/-- Bytes of COUNT elements. -/
def Coll.bytes (c : Coll) : Nat := c.count * dtBytes c.dt

/-- Bytes of the whole operation over `n` ranks. -/
def Coll.opBytes (c : Coll) (n : Nat) : Nat :=
  match c.op with
  | 0 | 3 => c.bytes
  | 1 | 2 => n * c.bytes
  | _ => 0

/-- Bytes that SRC of a rank holds, and that DST receives (R365). -/
def Coll.srcBytes (c : Coll) (n rank : Nat) : Nat :=
  match c.op with
  | 0 | 2 => c.bytes
  | 1 => n * c.bytes
  | 3 => if rank == c.root then c.bytes else 0
  | _ => 0
def Coll.dstBytes (c : Coll) (n : Nat) : Nat :=
  match c.op with
  | 0 | 1 | 3 => c.bytes
  | 2 => n * c.bytes
  | _ => 0

/-- The part of bytes `lo` to `hi` − 1 of the operation that a rank brings: first byte of the operation and length. -/
def Coll.brings (c : Coll) (rank lo hi : Nat) : Nat × Nat :=
  match c.op with
  | 0 | 1 => (lo, hi - lo)
  | 2 => (max lo (rank * c.bytes), min hi ((rank + 1) * c.bytes) - max lo (rank * c.bytes))
  | 3 => (lo, if rank == c.root then hi - lo else 0)
  | _ => (lo, 0)

/-- The part that a rank receives. -/
def Coll.takes (c : Coll) (rank lo hi : Nat) : Nat × Nat :=
  match c.op with
  | 1 => (max lo (rank * c.bytes), min hi ((rank + 1) * c.bytes) - max lo (rank * c.bytes))
  | 4 => (lo, 0)
  | _ => (lo, hi - lo)

/-- Where byte `o` of the operation stands in a rank's SRC, and in its DST. -/
def Coll.srcAt (c : Coll) (rank o : Nat) : Nat := c.src + (if c.op == 2 then o - rank * c.bytes else o)
def Coll.dstAt (c : Coll) (rank o : Nat) : Nat := c.dst + (if c.op == 1 then o - rank * c.bytes else o)

/-- The size of a chunk (Table 17.5). -/
def Coll.chunk (c : Coll) : Nat := 2 ^ (if c.clog == 0 then 16 else c.clog)

/-! ## COLL (R363, R364) -/

/-- The first page of a range that a translation does not map as memory of the segment with the permission, with its malformed
entries (R364, R378). -/
def rangeFault (w : Who) (wr : Bool) : List Move → Exec Unit
  | [] => pure ()
  | m :: l => do
    match m.src with
    | .mem seg va _ ep _ => do
      let t ← xlateE w.d va
      let s ← get
      match t with
      | .error e => trapWith { cause := .aprm, va := va, errs := e }
      | .ok p =>
        if !p.permits (if wr then .write else .read) || !s.segAgrees w.g.die w.d.yard seg ep p then trapWith { cause := .aprm, va := va }
    | _ => pure ()
    rangeFault w wr l

/-- A range of chip memory must be mapped at issue. -/
def chipRange (w : Who) (va n : Nat) (wr : Bool) : Exec Unit := do
  let s ← get
  rangeFault w wr (s.cutMoves 0 (.mem .chip va 0 0 0) (.pat []) n n)

/-- Whether a communicator number is one that the context may use on a die (R364, R378). -/
def State.commOk (s : State) (w : Who) (n : Nat) : Bool := (s.comm w.g.die n).valid && (s.comm w.g.die n).ctxid == w.l.ctx

/-- The card of COLL (Table 17.5), and whether R364 admits it; `hok` says that its handle is usable. -/
structure CollCard where
  op : Nat
  dt : Nat
  comm : Nat
  tok : Bool
  hnd : Bool
  scope : Nat
  prio : Nat
  count : Nat
  src : Nat
  dst : Nat
  handle : Nat
  root : Nat
  clog : Nat
  rsv : Bool

def collCard (c : List TVal) : CollCard :=
  let w := fun i => v32 (c.drop i)
  { op := bitsOf (w 0) 3 0, dt := bitsOf (w 0) 7 4, comm := bitsOf (w 0) 15 8, tok := bitOf (w 0) 16, hnd := bitOf (w 0) 17,
    scope := bitsOf (w 0) 22 20, prio := bitsOf (w 0) 26 24, count := w 1, src := va57 (v64 (c.drop 2)), dst := va57 (v64 (c.drop 4)),
    handle := bitsOf (w 6) 6 0, root := bitsOf (w 6) 27 8, clog := bitsOf (w 7) 4 0,
    rsv := bitsOf (w 0) 19 18 != 0 || bitOf (w 0) 23 || bitsOf (w 0) 31 27 != 0 || bitsOf (v64 (c.drop 2)) 63 57 != 0 ||
      bitsOf (v64 (c.drop 4)) 63 57 != 0 || bitOf (w 6) 7 || bitsOf (w 6) 31 28 != 0 || bitsOf (w 7) 31 5 != 0 }

def CollCard.ok (c : CollCard) (nranks : Nat) (hok : Bool) : Bool :=
  !c.rsv && decide (c.op ≤ 4) && decide (c.dt ≤ 2) && !(c.dt == 2 && decide (c.op ≤ 1)) && (c.op == 4) == (c.count == 0) &&
    (c.clog == 0 || (decide (12 ≤ c.clog) && decide (c.clog ≤ 20))) && decide (c.root < nranks) && (!c.hnd || hok)

/-- The place of a new submission in a communicator's order (R365, R380). -/
def takeOrder (die comm : Nat) (s : State) : Nat × State :=
  let n := tgetD (s.die die).collSeq comm 0
  (n, s.modDie die fun d => { d with collSeq := tset d.collSeq comm (n + 1) })

def execColl (fb : Bool) (s : State) : Host.Outcome State Fault Refusal :=
  runWord s.cur (do
    let (k, x) ← curStrand
    match ({ cls := 13 } : WordForm).encFault k.kind x with
    | some c => trap c
    | none =>
      let l ← popVals k .cqOut 8
      let w ← who k x
      let s ← get
      let c := collCard l
      let cm := s.comm w.g.die c.comm
      check (s.commOk w c.comm && c.ok cm.nranks (s.handleOk k.grp c.handle)) .irsv
      let y : Coll :=
        { id := 0, die := w.g.die, comm := c.comm, order := 0, op := c.op, dt := c.dt, count := c.count, root := c.root, src := c.src,
          dst := c.dst, clog := c.clog, prio := c.prio, scope := c.scope, tile := none, launch := w.l.id, map := none, dmem := true,
          pos := 0, sent := [], got := 0, need := 0, since := s.cycle, item := 0 }
      let ns := y.srcBytes cm.nranks cm.myrank
      let nd := y.dstBytes cm.nranks
      chipRange w c.src ns false
      chipRange w c.dst nd true
      let sz := dtBytes c.dt
      if c.src % sz != 0 then trapWith { cause := .aaln, va := c.src }
      if c.dst % sz != 0 then trapWith { cause := .aaln, va := c.dst }
      let item ← submitWord w fb 1 c.scope c.tok true fun id =>
        { Item.blank id w.g.die w.l.ctx k .coll with
          regions := (if ns == 0 then [] else [⟨.mem .chip, c.src, c.src + ns, false⟩]) ++
            (if nd == 0 then [] else [⟨.mem .chip, c.dst, c.dst + nd, true⟩])
          handle := if c.hnd then some c.handle else none, inbound := true, counts := c.hnd, total := nd }
      let id ← freshId
      let ord ← actGet (takeOrder w.g.die c.comm)
      act (joinColl w.l.ctx { y with id := id, order := ord, need := if c.op == 4 then 1 else nd, item := item })) s

/-! ## Layout maps (R374 to R376) -/

structure LMap where
  ndim : Nat
  nax : Nat
  esz : Nat
  ext : List Nat
  grid : List Nat
  sax : List Nat
  sblk : List Nat
  dax : List Nat
  dblk : List Nat
  dord : List Nat
deriving DecidableEq, Repr

def lmap (img : BitVec 1024) : LMap :=
  let x := img.toNat
  let by_ := fun (o n : Nat) => x / 2 ^ (8 * o) % 2 ^ (8 * n)
  { ndim := bitsOf x 2 0, nax := bitsOf x 5 4, esz := bitsOf x 10 8, ext := (List.range 4).map fun k => by_ (4 + 4 * k) 4,
    grid := (List.range 3).map fun a => by_ (20 + 2 * a) 2, sax := (List.range 4).map fun k => by_ (28 + k) 1,
    sblk := (List.range 4).map fun k => by_ (32 + 4 * k) 4, dax := (List.range 4).map fun k => by_ (48 + k) 1,
    dblk := (List.range 4).map fun k => by_ (52 + 4 * k) 4, dord := (List.range 4).map fun k => by_ (68 + k) 1 }

/-- One side of a map: axes named once, blocks that divide (R375). -/
def LMap.sideOk (m : LMap) (ax blk : List Nat) : Bool :=
  let named := (List.range m.ndim).map fun k => lget ax k 0
  let real := named.filter (· != 0xFF)
  (List.range m.nax).all (fun a => lget m.grid a 1 == 1 || real.contains a) && real.all (fun a => decide (a < m.nax)) &&
    real.eraseDups.length == real.length &&
    (List.range 4).all fun k =>
      let a := lget ax k 0
      let b := lget blk k 0
      if m.ndim ≤ k then a == 0 && b == 0
      else if a == 0xFF then b == 0
      else decide (1 ≤ b) && lget m.ext k 0 % (b * lget m.grid a 1) == 0

/-- A valid map for a communicator of `n` ranks (R375). -/
def mapOk (img : BitVec 1024) (n : Nat) : Bool :=
  let x := img.toNat
  let m := lmap img
  !bitOf x 3 && bitsOf x 7 6 == 0 && bitsOf x 15 11 == 0 && bitsOf x 31 16 == 0 && bitsOf x 223 208 == 0 && x / 2 ^ 576 == 0 &&
    decide (1 ≤ m.ndim) && decide (m.ndim ≤ 4) && decide (1 ≤ m.nax) && decide (2 ≤ m.esz) && decide (m.esz ≤ 4) &&
    ((List.range 4).all fun k => decide (k < m.ndim) || (lget m.ext k 0 == 0 && lget m.dord k 0 == 0)) &&
    ((List.range 3).all fun a => if a < m.nax then decide (1 ≤ lget m.grid a 0) else lget m.grid a 0 == 0) &&
    ((m.grid.take m.nax).foldl (· * ·) 1) == n && m.sideOk m.sax m.sblk && m.sideOk m.dax m.dblk &&
    (List.range m.ndim).all fun k => (m.dord.take m.ndim).contains k

/-- The local extent of dimension `k` on a side (R376). -/
def LMap.le (m : LMap) (ax : List Nat) (k : Nat) : Nat :=
  let a := lget ax k 0
  if a == 0xFF then lget m.ext k 0 else lget m.ext k 0 / lget m.grid a 1

/-- Elements of a local array. -/
def LMap.local_ (m : LMap) (ax : List Nat) : Nat := (List.range m.ndim).foldl (fun p k => p * m.le ax k) 1

/-- Coordinates of place `n` of a local array whose dimensions run in the order `ord`, fastest first: pairs of dimension and
coordinate. -/
def unrank (m : LMap) (ax : List Nat) : List Nat → Nat → List (Nat × Nat)
  | [], _ => []
  | k :: ord, n => (k, n % m.le ax k) :: unrank m ax ord (n / m.le ax k)

/-- The rank coordinate of an axis. -/
def LMap.rankAxis (m : LMap) (rank a : Nat) : Nat :=
  let g := fun i => lget m.grid i 1
  match a with
  | 0 => rank % g 0
  | 1 => rank / g 0 % g 1
  | _ => rank / (g 0 * g 1)

/-- The global coordinate of local coordinate `l` of dimension `k` on the source side of a rank (R376). -/
def LMap.global (m : LMap) (rank k l : Nat) : Nat :=
  let a := lget m.sax k 0
  if a == 0xFF then l
  else
    let z := lget m.sblk k 1
    l / z * (z * lget m.grid a 1) + m.rankAxis rank a * z + l % z

/-- The rank that holds an element on the destination side, and its place there (R376); `x` gives its coordinates. -/
def LMap.dest (m : LMap) (x : Nat → Nat) : Nat × Nat :=
  let c := fun a => (List.range m.ndim).foldl (fun r k =>
    if lget m.dax k 0 == a then x k / lget m.dblk k 1 % lget m.grid a 1 else r) 0
  let g := fun i => lget m.grid i 1
  let l := fun k =>
    let a := lget m.dax k 0
    if a == 0xFF then x k
    else
      let z := lget m.dblk k 1
      x k / (z * lget m.grid a 1) * z + x k % z
  let off := ((m.dord.take m.ndim).reverse).foldl (fun o k => l k + m.le m.dax k * o) 0
  (c 0 + g 0 * ((if m.nax ≤ 1 then 0 else c 1) + g 1 * (if m.nax ≤ 2 then 0 else c 2)), off)

/-- What a source rank sends to a rank: pairs of places, in its local array and in the destination's. -/
def LMap.sends (m : LMap) (src dst : Nat) : List (Nat × Nat) :=
  (List.range (m.local_ m.sax)).filterMap fun n =>
    let cs := unrank m m.sax (List.range m.ndim) n
    let t := m.dest fun k => m.global src k ((cs.find? (·.1 == k)).map (·.2) |>.getD 0)
    if t.1 == dst then some (n, t.2) else none

/-! ## A2AT (R377, R378) -/

def a2atComm (l : Word) : Nat := bitsOf l.toNat 27 20
def a2atScope (l : Word) : Nat := bitsOf l.toNat 18 16
def a2atTok (l : Word) : Bool := l.getLsbD 9
def a2atDmem (l : Word) : Bool := l.getLsbD 7

def execA2at (fb : Bool) (d a b : RegNo) (lit : Word) (s : State) : Host.Outcome State Fault Refusal :=
  runWord s.cur (do
    let pair := fun (n : RegNo) => ({ n := n, w := 2, acc := .i64 } : Opnd)
    let q ← subWord { cls := 13, len := 2, a := some (pair a), b := some (pair b), d := some (pair d) } lit a2atLitOk
    let w := q.w
    let s ← get
    let hn := copyHandle q.lit
    let cn := a2atComm q.lit
    let dmem := a2atDmem q.lit
    check ((dmem || b == 126#7) && s.handleOk w.k.grp hn && s.commOk w cn) .irsv
    let ma := va57 (v64 q.v.a)
    let rd ← readRuns w ma 2
    let img := BitVec.ofNat 1024 (ofBytes rd.bytes)
    let cm := s.comm w.g.die cn
    if !mapOk img cm.nranks then trapWith { cause := .aseg, va := ma, evs := rd.evs }
    rd.log w.l.ctx
    let m := lmap img
    let src := va57 (v64 q.v.d)
    let dst := va57 (v64 q.v.b)
    let ns := m.local_ m.sax * 2 ^ m.esz
    let nd := m.local_ m.dax * 2 ^ m.esz
    chipRange w src ns false
    let h := s.handle w.k.grp hn
    if dmem then chipRange w dst nd true else check (s.descIn w.g w.l.rc w.d.yard h.buf 0 nd) .aprm
    if src % 2 ^ m.esz != 0 then trapWith { cause := .aaln, va := src }
    if dmem && dst % 2 ^ m.esz != 0 then trapWith { cause := .aaln, va := dst }
    let item ← submitWord w fb 2 (a2atScope q.lit) (a2atTok q.lit) true fun id =>
      { Item.blank id w.g.die w.l.ctx w.k .coll with
        regions := [⟨.mem .chip, src, src + ns, false⟩, if dmem then ⟨.mem .chip, dst, dst + nd, true⟩ else bufRegion w h 0 nd true]
        handle := some hn, inbound := true, counts := true, total := nd }
    let id ← freshId
    let ord ← actGet (takeOrder w.g.die cn)
    act (joinColl w.l.ctx
      { id := id, die := w.g.die, comm := cn, order := ord, op := 5, dt := 2, count := 0, root := 0, src := src,
        dst := if dmem then dst else h.buf.toNat, clog := 0, prio := 0, scope := a2atScope q.lit, tile := none, launch := w.l.id,
        map := some img, dmem := dmem, pos := 0, sent := [], got := 0, need := nd, since := s.cycle, item := item })) s

end Sys2Proof.Machine
end

