-- ==== Sys2Proof/Machine/System.lean ====
section
/-! DEFINITION. Class 0xE: LAUNCH, TRIG, CAPQ, CLK, ELOG and ULOG (R291 to R299), with the queue descriptors (R261). -/

namespace Sys2Proof.Machine

/-! ## Queues of a context (R261, R262) -/

/-- A queue descriptor (Table 13.2). -/
structure QDesc where
  ring : Nat
  size : Nat
  prio : Nat
  dev : Bool
  headAddr : Nat
deriving DecidableEq, Repr

/-- Entry `q` of QTABLE (Table 13.2); none where it cannot be read. Its reserved fields, byte 12 [7:4] and bytes 13 to 15 and 24 to 31, are
ignored: the spec states no answer to other values in them (DESIGN CHOICE, log 53). Nor does it state one to a SIZE that is no power of two
from 16 to 65,536 or to a RING that is not 32-byte aligned: they are used as they stand (DESIGN CHOICE, log 61). -/
def readQDesc (c : Ctx) (die q : Nat) (s : State) : Option QDesc × State :=
  match devRead c.d die (c.d.qtable + 32 * q) 32 s with
  | (some l, s) => (some ⟨va57 (fieldAt l 0 8), fieldAt l 8 4, bitsOf (fieldAt l 12 1) 2 0, bitOf (fieldAt l 12 1) 3, va57 (fieldAt l 16 8)⟩, s)
  | (none, s) => (none, s)

def QueueRt.zero : QueueRt := ⟨0, 0, false, none, []⟩

/-- A queue of a context as the front end holds it. -/
def Ctx.queue (c : Ctx) (q : Nat) : QueueRt := tgetD c.queues q QueueRt.zero

def State.modQueue (s : State) (c q : Nat) (f : QueueRt → QueueRt) : State :=
  s.modCtx c fun x => { x with queues := tset x.queues q (f (x.queue q)) }

/-- How far TAIL stands ahead of HEAD, both modulo 2^32 (R262). -/
def QueueRt.dist (q : QueueRt) : Nat := (q.tail + 2 ^ 32 - q.head) % 2 ^ 32

/-- Raising a queue's DOORBELL event (Table 13.5). -/
def doorbellEvent (die c q : Nat) (s : State) : State := raiseShed die ⟨.doorbell, c, queueLock c q, q, 0, false⟩ s

/-! ## LAUNCH (R292, R293) -/

/-- A LAUNCH command in memory (Table 13.3). -/
def launchBytes (addr : Nat) : List Byte := toBytes 8 1 ++ toBytes 8 addr ++ toBytes 8 0 ++ toBytes 8 0

/-- Appending a LAUNCH command, with its status (R292). Where the ring's entry cannot be written, or the QTABLE entry cannot be
read, the spec states no status: nothing is appended, and the status is a free value (DESIGN CHOICE, log 40). -/
def appendLaunch (c q addr : Nat) (s : State) : Nat × State :=
  match s.liveCtx c with
  | none => (2, s)
  | some x =>
    let die := s.homeDie x
    match readQDesc x die q s with
    | (none, s) => s.drawNat
    | (some d, s) =>
      let r := x.queue q
      if d.size == 0 || !d.dev then (2, s)
      else if d.size ≤ r.dist then (1, s)
      else
        match devWrite x.d (s.homeDie x) (d.ring + 32 * (r.tail % d.size)) (launchBytes addr) s with
        | (true, s) => (0, doorbellEvent die c q (s.modQueue c q fun r => { r with tail := (r.tail + 1) % 2 ^ 32 }))
        | (false, s) => s.drawNat

/-- The commit of a class 0xE word that releases at yard scope (R291, R292, R294). -/
def commitRelease (v : Vals) : Exec Unit := do
  holdForBar v.k
  holdForRelease v.k 6 false

/-- One n32 result. -/
def n32Val (n : Nat) : List TVal := [⟨BitVec.ofNat 32 n, n32Tag⟩]

def execLaunch (d a b : RegNo) (s : State) : Host.Outcome State Fault Refusal :=
  runWord s.cur (do
    let v ← readWord
      { cls := 14, a := some { n := a, w := 2, acc := .i64 }, b := some { n := b, acc := .int }, out := some (d, 1) }
    check (decide (v32 v.b ≤ 63)) .irsv
    if v64 v.a % 64 != 0 then trapWith { cause := .aaln, va := v64 v.a }
    commitRelease v
    let s ← get
    let w ← who v.k v.x
    let home := (yardDies (s.yard w.d.yard)).headD 0
    if s.isFenced home 6 0 then stop (.blast home 6 0)
    act (commitWord v.k 1)
    let r ← actGet (appendLaunch (s.ctxOf v.k.grp) (v32 v.b) (v64 v.a))
    writeVals v.k v.x d (n32Val r)
    done v 1 {}) s

/-! ## TRIG (R283, R294) -/

/-- Whether a context holds a graph of a die. -/
def State.holdsGraph (s : State) (die ctx g : Nat) : Bool :=
  match tget (s.die die).graphs g with
  | some x => x.ctx == ctx
  | none => false

def execTrig (a : RegNo) (s : State) : Host.Outcome State Fault Refusal :=
  runWord s.cur (do
    let v ← readWord { cls := 14, a := some { n := a, acc := .int } }
    check (decide (v32 v.a ≤ 255)) .irsv
    commitRelease v
    act (commitWord v.k 1)
    let w ← who v.k v.x
    let s ← get
    let g := v32 v.a
    if s.isFenced w.g.die 6 1 then stop (.blast w.g.die 6 1)
    if s.holdsGraph w.g.die w.l.ctx g then act (triggerGraph w.g.die w.l.ctx g)
    else act (logPlain w.l.ctx evGraphErr g w.l.id 0 0xFFFF)
    done v 1 {}) s

/-! ## CAPQ and CLK (R295, R296) -/

/-- Table 13.19. -/
def capValue (n : Nat) : Nat :=
  lget [0x356, 8 + 256 * 12 + 65536 * 8, 2048, 256, 512, 256, 512, 8192, 8192, 384, 1250, 4096, 512, 32] n 0

def execCapq (d a : RegNo) (s : State) : Host.Outcome State Fault Refusal :=
  runWord s.cur (do
    let v ← readWord { cls := 14, a := some { n := a, acc := .int }, out := some (d, 1) }
    check (decide (v32 v.a < 14)) .irsv
    writeVals v.k v.x d (n32Val (capValue (v32 v.a)))
    done v 1 {}) s

def execClk (d a : RegNo) (s : State) : Host.Outcome State Fault Refusal :=
  runWord s.cur (do
    let v ← readWord { cls := 14, a := some { n := a, acc := .int }, out := some (d, 2) }
    check (decide (v32 v.a ≤ 1)) .irsv
    let s ← get
    let t := if v32 v.a == 0 then s.ns else s.cycle
    writeVals v.k v.x d [⟨BitVec.ofNat 32 t, 13#5⟩, ⟨BitVec.ofNat 32 (t / 2 ^ 32), 14#5⟩]
    done v 1 {}) s

/-! ## ELOG and ULOG (R297 to R299) -/

def execElog (a b : RegNo) (s : State) : Host.Outcome State Fault Refusal :=
  runWord s.cur (do
    let v ← readWord { cls := 14, a := some { n := a }, b := some { n := b } }
    let w ← who v.k v.x
    act (logPlain w.l.ctx evUser 0 w.l.id (v32 v.a) (v32 v.b))
    done v 1 {}) s

def execUlog (d a b : RegNo) (s : State) : Host.Outcome State Fault Refusal :=
  runWord s.cur (do
    let v ← readWord { cls := 14, a := some { n := a, w := 2 }, b := some { n := b, acc := .int }, out := some (d, 1) }
    check (decide (v32 v.b ≤ 7)) .irsv
    commitRelease v
    act (commitWord v.k 1)
    let w ← who v.k v.x
    let r ← actGet (appendURing w.l.ctx w.l.id w.g.die (v32 v.b) (v64 v.a) v.k.tid (v.k.kind == .x))
    writeVals v.k v.x d (n32Val r)
    done v 1 {}) s

end Sys2Proof.Machine
end

