-- ==== Sys2Proof/Machine/Strands.lean ====
section
/-! DEFINITION. Events of strands, threads and engines: clause entry, completions, timeouts, and the engines' own steps (R14 to R26, R34,
R122 to R126, R197 to R206). -/

namespace Sys2Proof.Machine

/-! ## Fetching a clause (R14, R16) -/

/-- A word at an SPA. A word stored since the launch was bound reads as either the old or the new word (R16, log 2). -/
def fetchSpa (l : Launch) (a : Nat) (s : State) : Word × State :=
  let new := BitVec.ofNat 32 (ofBytes (s.readSpa a 4))
  let old := BitVec.ofNat 32 (ofBytes ({ s with mem := l.code, loftKey := l.codeKey }.readSpa a 4))
  if old == new then (new, s)
  else
    let r := s.drawBool
    (if r.1 then old else new, r.2)

/-- How the fetch of a word ends: the word, a fetch fault with the malformed entries met, a line under repair, or a failed structure. -/
inductive Fetched where
  | word (w : Word)
  | fault (c : Cause) (errs : List (Bool × Nat))
  | wait
  | blast (die cls num : Nat)

/-- Where a clause may stand: a fetch is of no segment, so it takes a page of any die; a loft frame must be the yard's (R233), and a
replicated page lie in its region (R306, log 16). -/
def fetchServes (s : State) (yard : Nat) (p : Xl) : Bool :=
  match p.kind with
  | 0 => s.devPage yard p
  | 1 => spaDie p.spa == 0 && s.inRepl (spaOff p.spa)
  | _ => true

/-- Fetching one word (R14, R240). A host line in error reads as all ones, with its event (R168, log 16). -/
def fetchWord (w : Who) (a : Nat) (s : State) : Fetched × State :=
  match xlate w.d a s with
  | (.notValid e, s) => (.fault .anrs e, s)
  | (.failed d c n, s) => (.blast d c n, s)
  | (.ok p, s) =>
    let spa := p.localSpa w.g.die
    if !p.permits .fetch || !fetchServes s w.d.yard p then (.fault .aprm [], s)
    else if p.kind == 1 && !s.isMember w.g.die then (.fault .rplx [], s)
    else if p.kind == 1 && s.isFenced w.g.die 7 0 then (.blast w.g.die 7 0, s)
    else if p.kind == 1 && s.bad.contains (spa / 32) then (.wait, s)
    else if spaSpace spa == 2 && s.bad.contains (spa / 32) then
      (.word (BitVec.allOnes 32), logPlain w.l.ctx evHostErr 1 w.l.id a 0 s)
    else
      match s.badAt spa 4 true with
      | some (c, n) => (.blast (spaDie spa) c n, s)
      | none =>
        let r := fetchSpa w.l spa s
        (.word r.1, r.2)

/-- Fetching `n` words from `a` on: the words, or the first that cannot be fetched. -/
def fetchWords (w : Who) : Nat → Nat → List Word → State → (List Word × Option (Nat × Fetched)) × State
  | 0, _, l, s => ((l, none), s)
  | n + 1, a, l, s =>
    match fetchWord w a s with
    | (.word v, s) => fetchWords w n (va57 (a + 4)) (l ++ [v]) s
    | (f, s) => ((l, some (a, f)), s)

/-- Fetching the whole clause at the clause PC: its header, and the LEN + 1 words of its body. -/
def fetchClause (w : Who) (s : State) : (List Word × Option (Nat × Fetched)) × State :=
  let a := w.x.cpc.toNat
  match fetchWords w 1 a [] s with
  | (([h], none), s) => fetchWords w (hdrLen h + 1) (va57 (a + 4)) [h] s
  | r => r

/-! ## Entering a clause (R18, R19) -/

/-- A header that is not one (R18, step 2). -/
def hdrFault (h : Word) : Option Cause :=
  let bad := fun n => n == 12 || n == 13 || n == 14
  if bad (hdrFlagA h) || bad (hdrFlagB h) then some .icls
  else if !hdrGen h && hdrPred h != 0#7 then some .irsv
  else none

/-- Steps 3 and 4 of R18: the wait on the flags, and the guard, which a strand that resumes inside the clause has passed (R19). -/
def Strand.enter (x : Strand) (now : Nat) : Strand :=
  if x.pendingMask &&& hdrWait x.hdr != 0 then
    { x with phase := .flags, blk := .flag, blkAt := if x.blk == .flag then x.blkAt else now }
  else if x.inside then
    if x.idx < x.body.length then { x with phase := .body, blk := .none } else x.goto x.nextHdr
  else if hdrGen x.hdr && !x.pred (hdrPred x.hdr) then x.goto x.nextHdr
  else { x with pc := x.cpc + 4#57, phase := .body, blk := .none }

/-- What a strand does once its clause has been fetched. -/
def enterClause (w : Who) (h : Word) (body : List Word) (s : State) : State :=
  match hdrFault h with
  | some c => takeTrap w.k .header { cause := c } (s.modStrand w.k fun x => { x with hdr := h, body := body })
  | none => s.modStrand w.k fun x => { x with hdr := h, body := body, phase := .flags }.enter s.cycle

def clauseEntry (k : StrandKey) (s : State) : State :=
  match s.strand k, s.group k.grp, s.launch k.grp.launch with
  | some x, some g, some l =>
    match s.ctx l.ctx with
    | some c =>
      if x.phase == .header && g.life.issues then
        let w : Who := ⟨k, x, g, l, c.d⟩
        match fetchClause w s with
        | ((h :: body, none), s) => enterClause w h body s
        | ((_, some (a, .fault f e)), s) => takeTrap k .fetch { cause := f, va := a, errs := e } s
        | ((_, some (_, .blast d n m)), s) => blastUse l.id d n m s
        | (_, s) => s.modStrand k fun x => { x with blk := .room, blkAt := if x.blk == .room then x.blkAt else s.cycle }
      else s
    | none => s
  | _, _, _ => s

def clauseWaitEnd (k : StrandKey) (s : State) : State :=
  match s.strand k with
  | some x => if x.phase == .flags && s.groupIssues k.grp then s.modStrand k (·.enter s.cycle) else s
  | none => s

/-- CLAUSE_ENTRY. -/
def execClauseEntry (s : State) : Host.Outcome State Fault Refusal :=
  match s.arg with
  | .strand k => .next (clauseEntry k s)
  | _ => .next s

/-- CLAUSE_WAIT_END. -/
def execClauseWaitEnd (s : State) : Host.Outcome State Fault Refusal :=
  match s.arg with
  | .strand k => .next (clauseWaitEnd k s)
  | _ => .next s

/-- The fault of a word that is no instruction, first in the order of R35. -/
def badWord (w : Word) (k : StrandKind) (x : Strand) : DecodeError → Cause
  | .unassigned => .ilop
  | .noLiteral => if classOk (bitsOf w.toNat 31 28) k then .icls else .istr
  | .reservedField =>
    if !classOk (bitsOf w.toNat 31 28) k then .istr
    else if (isTransfer w && !x.isLast 1) || (isXForm w && x.isLast 1) then .icls else .irsv

/-- ENCODING_FAULT: the word that the strand reaches is not an instruction (R34, R35). -/
def execEncodingFault (s : State) : Host.Outcome State Fault Refusal :=
  match s.arg, s.strand s.cur with
  | .words w lit, some x =>
    if x.phase != .body || x.word != some w then .next s
    else
      match decode w (if x.body.length ≤ x.idx + 1 then none else some lit) with
      | .ok _ => .next s
      | .error e => runWord s.cur (trap (badWord w s.cur.kind x e)) s
  | _, _ => .next s

/-! ## Completions (R25, R26) -/

/-- One part of an operation that waits for nothing more, or of an access that is held (R157, R161). -/
def completePart (id part : Nat) (s : State) : State :=
  match s.pendOf id, s.heldOf id with
  | some p, _ =>
    match p.kind with
    | .data h => readData p h s
    | _ => if s.pendReady p then pendPart p part s else s
  | none, some h => performHeld h s
  | none, none => s

/-- LONG_LATENCY_COMPLETE. -/
def execLongLatencyComplete (s : State) : Host.Outcome State Fault Refusal :=
  match s.arg with
  | .n2 id part => .next (completePart id part s)
  | _ => .next s

/-! ## Blocked words -/

/-- The word of a strand that was blocked is tried again: on a queue (R122), or on room in an engine (R197). A strand that was blocked on a
queue counts as blocked until its word issues (R124). -/
def retryWord (why : Block) (k : StrandKey) (s : State) : State :=
  match s.strand k with
  | some x =>
    if x.phase == .body && x.blk == why && s.groupIssues k.grp then
      { s.modStrand k fun x => { x with blk := if why == .queue then .again else .none } with cur := k, ran := 0 }
    else s
  | none => s

/-- QUEUE_UNBLOCK. -/
def execQueueUnblock (s : State) : Host.Outcome State Fault Refusal :=
  match s.arg with
  | .strand k => .next (retryWord .queue k s)
  | _ => .next s

/-- SUBMISSION_ACCEPT. -/
def execSubmissionAccept (s : State) : Host.Outcome State Fault Refusal :=
  match s.arg with
  | .strand k => .next (retryWord .room k s)
  | _ => .next s

/-- RVTO_TIMEOUT: an instance has waited 2^20 cycles since its first arrival (R126, R178). -/
def execRvtoTimeout (s : State) : Host.Outcome State Fault Refusal :=
  match s.arg with
  | .circle g c sq =>
    match s.group g with
    | some x =>
      match tget x.circ (c, sq) with
      | some ci => .next (if s.groupIssues g && decide (ci.first + stallLimit ≤ s.cycle) then rvto g (c, sq) [] s else s)
      | none => .next s
    | none => .next s
  | _ => .next s

/-- Blocked on a queue operation, its word being tried again or not. -/
def Block.onQueue : Block → Bool
  | .queue | .again => true
  | .none | .flag | .room | .handle | .barrier | .slot | .gate | .yield => false

/-- Whether both strands of a thread have been blocked on queues for 2^20 cycles in which no queue of it moved (R124). -/
def State.deadlocked (s : State) (t : ThreadKey) : Bool :=
  match s.thread t, s.strand ⟨t.grp, t.tid, .a⟩, s.strand ⟨t.grp, t.tid, .x⟩ with
  | some y, some a, some x =>
    a.phase == .body && x.phase == .body && a.blk.onQueue && x.blk.onQueue && s.groupIssues t.grp &&
      decide (max y.act (max a.blkAt x.blkAt) + stallLimit ≤ s.cycle)
  | _, _, _ => false

/-- QDLK_TIMEOUT. -/
def execQdlkTimeout (s : State) : Host.Outcome State Fault Refusal :=
  match s.arg with
  | .thread g t =>
    .next (if s.deadlocked ⟨g, t⟩ then takeTraps [⟨g, t, .a⟩, ⟨g, t, .x⟩] { cause := .qdlk } s else s)
  | _ => .next s

/-! ## The engines (R199 to R206) -/

/-- ENGINE_ITEM_ACCESS. -/
def execEngineItemAccess (s : State) : Host.Outcome State Fault Refusal :=
  match s.arg with
  | .n2 id n => .next (itemAccess id n s)
  | _ => .next s

/-- HANDLE_ARRIVAL. -/
def execHandleArrival (s : State) : Host.Outcome State Fault Refusal :=
  match s.arg with
  | .n2 id n => .next (itemArrival id n s)
  | _ => .next s

/-- ITEM_COMPLETE. -/
def execItemComplete (s : State) : Host.Outcome State Fault Refusal :=
  match s.arg with
  | .n1 id => .next (itemComplete id s)
  | _ => .next s

/-- ITEM_FAIL. -/
def execItemFail (s : State) : Host.Outcome State Fault Refusal :=
  match s.arg with
  | .itemFail id c => .next (itemFail id c s)
  | _ => .next s

end Sys2Proof.Machine
end

