-- ==== Sys2Proof/Machine/Lifecycle.lean ====
section
/-! DEFINITION. Budgets, slice ends, discards, saves and the watchdog (R111, R135, R137, R138, R277, R285 to R288, R330). -/

namespace Sys2Proof.Machine

/-! ## Time that passes (R285, R288) -/

/-- Whether a group holds its core. -/
def Life.resident : Life → Bool
  | .running | .draining | .overrunning | .discarding => true
  | .saved | .ended => false

/-- The account of a group. -/
def State.groupAcct (s : State) (g : GroupKey) : Nat := s.acctOf (s.ctxOf g)

/-- `n` core cycles of one group: thread-cycles from CORE, and to DEBT while it overruns. -/
def tickGroup (n : Nat) (s : State) (e : GroupKey × Group) : State :=
  if e.2.life.resident then
    s.spend e.2.die (s.groupAcct e.1) fun a =>
      { a with core := a.core - e.2.size * n, debt := a.debt + if e.2.life.overruns then e.2.size * n else 0 }
  else s

/-- `n` core cycles. -/
def tick (n : Nat) (s : State) : State := s.groups.foldl (tickGroup n) { s with cycle := s.cycle + n }

/-! ## Refills and borrows (R285, R286, R330) -/

/-- The three balances: CORE, HBM, FAB. -/
inductive Bal where
  | core
  | hbm
  | fab
deriving DecidableEq, Repr

def Acct.bal (a : Acct) : Bal → Int
  | .core => a.core
  | .hbm => a.hbm
  | .fab => a.fab
def Acct.setBal (a : Acct) (x : Int) : Bal → Acct
  | .core => { a with core := x }
  | .hbm => { a with hbm := x }
  | .fab => { a with fab := x }
def Acct.lent (a : Acct) : Bal → Nat
  | .core => a.lentCore
  | .hbm => a.lentHbm
  | .fab => a.lentFab
def Acct.addLent (a : Acct) (n : Nat) : Bal → Acct
  | .core => { a with lentCore := a.lentCore + n }
  | .hbm => { a with lentHbm := a.lentHbm + n }
  | .fab => { a with lentFab := a.lentFab + n }
def Bal.num : Bal → Nat
  | .core => 0
  | .hbm => 1
  | .fab => 2
def Bal.of (b : Bal) (t : Nat × Nat × Nat) : Nat :=
  match b with
  | .core => t.1
  | .hbm => t.2.1
  | .fab => t.2.2
def Bal.add (b : Bal) (n : Nat) (t : Nat × Nat × Nat) : Nat × Nat × Nat :=
  match b with
  | .core => (t.1 + n, t.2.1, t.2.2)
  | .hbm => (t.1, t.2.1 + n, t.2.2)
  | .fab => (t.1, t.2.1, t.2.2 + n)
/-- A yard's cap (Table 15.10). -/
def Bal.cap (b : Bal) (y : YardDesc) : Nat :=
  match b with
  | .core => y.capCore
  | .hbm => y.capHbm
  | .fab => y.capFab

/-- The yard of a die's account: that of the pen on the die that is bound to it, or of the contexts that hold their whole yard, or of any
other context on the die (R329, R330). -/
def State.acctYard (s : State) (die n : Nat) : Option Nat :=
  match s.pens.find? fun e => e.2.acct == n && lget e.2.cmask die 0 != 0 with
  | some e => some e.1.1
  | none => (s.ctxs.find? fun e => e.2.valid && e.2.d.bclass == n && lget (s.yard e.2.d.yard).cmask die 0 != 0).map fun e => e.2.d.yard

/-- `n` units for an account, clipped so that its yard receives no more than its cap in the period: what it gets, and the state with
that counted (R330). -/
def clip (die a n : Nat) (b : Bal) (s : State) : Nat × State :=
  match s.acctYard die a with
  | none => (n, s)
  | some y =>
    let g := tgetD (s.die die).given y (0, 0, 0)
    let m := min n (b.cap (s.yard y) - b.of g)
    (m, s.modDie die fun d => { d with given := tset d.given y (b.add m g) })

/-- Whether an account has a group on the die, or a bind record in force (R286). -/
def State.acctBusy (s : State) (die a : Nat) : Bool :=
  (s.groups.any fun e => e.2.die == die && e.2.life.resident && s.groupAcct e.1 == a) ||
    (s.die die).binds.any fun e => e.2.valid && e.2.bclass == a

/-- The most that an account may borrow of one balance now (R286). -/
def State.borrowMax (s : State) (die a : Nat) (b : Bal) : Nat :=
  let others := (List.range 64).filter (· != a)
  let idle := others.filter fun i => !s.acctBusy die i
  (idle.map fun i => ((s.acct die i).bal b).toNat).sum / 2 - (others.map fun i => (s.acct die i).lent b).sum

/-- A borrow, or none: whether and how much is open up to the limit (R286, log 2). -/
def borrow (die a : Nat) (s : State) (b : Bal) : State :=
  if 0 < (s.acct die a).bal b || s.borrowMax die a b == 0 then s
  else
    let r := s.drawNat
    let c := clip die a (r.1 % (s.borrowMax die a b + 1)) b r.2
    c.2.modAcct die a fun x => ({ x with debt := x.debt + c.1 }.setBal (x.bal b + c.1) b).addLent c.1 b

def allBals : List Bal := [.core, .hbm, .fab]

/-- The refill of one balance of an account, with its repayment (R285). CORE, HBM and FAB repay in that order (log 14). -/
def refillBal (die a : Nat) (s : State) (b : Bal) : State :=
  let n := Config.refill die (s.die die).periods a b.num
  let c := clip die a n b s
  c.2.modAcct die a fun x =>
    let pay := min x.debt c.1
    { x with debt := x.debt - pay }.setBal (min (x.bal b + c.1 - pay) (2 * n)) b

/-- Firmware sets the budget period of a die, from 100 µs to 10 ms (R285). -/
def setPeriod (die ns : Nat) (s : State) : State :=
  if 100000 ≤ ns && ns ≤ 10000000 then s.modDie die fun d => { d with period := cyclesOfNs ns } else s

/-- One account at a period boundary. The refill comes before a borrow (Table 13.11); it lets an account place again whose slice has ended
(R287). -/
def refillAcct (die : Nat) (s : State) (a : Nat) : State :=
  let s := s.modAcct die a fun x => { x with lentCore := 0, lentHbm := 0, lentFab := 0, ended := false }
  allBals.foldl (refillBal die a) s

def borrowAcct (die : Nat) (s : State) (a : Nat) : State :=
  if s.acctBusy die a then allBals.foldl (borrow die a) s else s

/-- PERIOD_BOUNDARY, a period after the last one. Accounts are taken in ascending order (R330); a gate's contexts may be told of a delay
again (R334); PERIOD is raised, and a boundary whose event, or the SLICE event of one of its accounts, finds no room stalls the next one
(R265). -/
def execPeriodBoundary (s : State) : Host.Outcome State Fault Refusal :=
  match s.arg with
  | .n1 die =>
    if (s.die die).periodAt + (s.die die).period ≤ s.cycle && !(s.die die).stalls .period && !(s.die die).stalls .slice then
      let s := raiseShed die ⟨.period, 0, 0, (s.die die).periods, 0, false⟩ s
      let s := s.modDie die fun d => { d with periods := d.periods + 1, periodAt := s.cycle, given := [] }
      let s := (List.range 64).foldl (refillAcct die) s
      let s := (List.range 64).foldl (borrowAcct die) s
      .next { s with gates := s.gates.map fun e => if e.2.home == die then (e.1, { e.2 with logged := [] }) else e }
    else .next s
  | _ => .next s

/-! ## Slice ends (R286, R287) -/

/-- The groups of an account on a die enter draining. -/
def drainGroups (die a : Nat) (s : State) : State :=
  { s with groups := s.groups.map fun e =>
      if e.2.die == die && e.2.life == .running && s.groupAcct e.1 == a then (e.1, { e.2 with life := .draining, since := s.cycle })
      else e }

/-- The SLICE event of an account, in a die's queue or held by its source. -/
def Die.sliceEvent (d : Die) (a : Nat) : Option ShedEvent := (d.events ++ d.waiting).find? fun e => e.kind == .slice && e.a0 == a

/-- A slice timer of firmware ends an account's slice whatever it holds, unless it stalls on an event that found no room (R265). -/
def sliceTimer (die a : Nat) (s : State) : State :=
  if die < 8 && a < 64 && !(s.die die).stalls .slice then raiseShed die ⟨.slice, 0, 0, a, 1, false⟩ s else s

/-- The slice of an account ends: its running groups drain, and its bind records, written again with the grid position that they hold, place
nothing until the next refill (R287). -/
def endSlice (die a : Nat) (s : State) : State := drainGroups die a (s.modAcct die a fun x => { x with ended := true })

/-- An account that has reached zero borrows, or its slice ends, as it does when firmware's timer has run out. -/
def sliceOver (die a : Nat) (timer : Bool) (s : State) : State :=
  if s.acctBusy die a && (timer || allBals.any (fun b => (s.acct die a).bal b ≤ 0)) then
    let s := allBals.foldl (borrow die a) s
    if timer || (s.acct die a).core ≤ 0 then endSlice die a s else s
  else s

/-- SLICE_END. The account's SLICE event is handled by it, once it is the oldest of its lock (R265). -/
def execSliceEnd (s : State) : Host.Outcome State Fault Refusal :=
  match s.arg with
  | .n2 die a =>
    match (s.die die).sliceEvent a with
    | some e => .next (if (s.die die).oldest e then sliceOver die a (e.a1 == 1) (shedPop die e s) else s)
    | none => .next (sliceOver die a false s)
  | _ => .next s

/-! ## Discards (R137, R138) -/

/-- Whether a gate operation belongs to one that has committed (R333, R337). -/
def State.gateCommitted (s : State) (id : Nat) : Bool :=
  s.pend.any fun (p : Pend) => p.committed && p.kind == .gate id

/-- Whether an operation of a group has not committed, so that a discard squashes it (R137). -/
def Pend.squashed (p : Pend) (g : GroupKey) : Bool := p.owner.grp == g && !p.committed

/-- Steps 1, 2 and 5 of R137: the strands stop, what has not committed is squashed and its registers hold what they held before it (R44),
and rendezvous arrivals are withdrawn. -/
def beginDiscard (g : GroupKey) (s : State) : State :=
  let s := { s with
    strands := s.strands.map fun (e : StrandKey × Strand) => if e.1.grp == g then (e.1, e.2.unprov) else e
    pend := s.pend.filter fun (p : Pend) => p.owner.grp != g || p.committed
    held := s.held.filter fun (h : Held) => h.owner.grp != g || h.committed
    globs := s.globs.filter fun (r : GlobReq) => !s.reqOf (Pend.squashed · g) r }
  (dropGates (fun o => o.owner.grp == g && !s.gateCommitted o.id) s).modGroup g fun x => { x with life := .discarding, circ := [] }

/-- A queue after a discard, `p0` that of its pushing strand (R138). -/
def Queue.discard (q : Queue) (p0 : Nat) : Queue :=
  let p := max p0 q.c
  { q with ents := q.ents.take (p - q.c), p := p, q := q.c, s := q.c - p0 }

/-- P0 of a queue (R138). -/
def State.p0Of (s : State) (t : ThreadKey) (n : QName) (q : Queue) : Nat :=
  match pusherOf n with
  | none => q.p
  | some k =>
    match s.strand ⟨t.grp, t.tid, k⟩ with
    | some x =>
      if x.phase == .ended then q.p
      else
        match n with
        | .lq | .sq => x.rgn.p0m
        | .xq | .aq => x.rgn.p0v
        | _ => x.rgn.p0e
    | none => q.p

def adjustThread (s : State) (t : ThreadKey) (y : Thread) : Thread :=
  { allQueues.foldl (fun y n => y.setQ n ((y.q n).discard (s.p0Of t n (y.q n)))) y with act := s.cycle }

/-- A strand after a discard: it stands at its region-start point, out of any handler, with no flag set (R111, R137). -/
def Strand.discard (x : Strand) : Strand :=
  if x.phase == .ended then x
  else
    { x.resume x.rgn.cpc x.rgn.w with
      wb := x.rgn.wb, flags := List.replicate 12 0, inHandler := false, redo := true, blkAt := 0 }

/-- Whether the committed work of a discarding group has run to its end: its pending operations, and its engine items but those held
on a handle, which are saved with it (R137, R202). -/
def State.quiet (s : State) (g : GroupKey) : Bool :=
  (s.pend.all fun (p : Pend) => p.owner.grp != g) && (s.held.all fun (h : Held) => h.owner.grp != g) && s.items.all fun (w : Item) => w.owner.grp != g || w.held

/-- Steps 4, 6 and 7 of R137, and the save. -/
def saveGroup (s : State) (g : GroupKey) : State :=
  match s.group g with
  | none => s
  | some x =>
    let s := logDebt g x s
    let s := { s with threads := s.threads.map fun (e : ThreadKey × Thread) => if e.1.grp == g then (e.1, adjustThread s e.1 e.2) else e }
    let s := { s with strands := s.strands.map fun (e : StrandKey × Strand) => if e.1.grp == g then (e.1, e.2.discard) else e }
    s.modGroup g fun x => { x with life := .saved, since := s.cycle }

/-- The groups that are saved together: a gang, or one group (R196). -/
def State.saveSet (s : State) (g : GroupKey) (x : Group) : List (GroupKey × Group) :=
  if x.gang then s.gangLive (x.ownerKey g) else [(g, x)]

/-- GROUP_SAVE. -/
def execGroupSave (s : State) : Host.Outcome State Fault Refusal :=
  match s.arg with
  | .group g =>
    match s.group g with
    | some x =>
      let l := s.saveSet g x
      .next (if x.life == .discarding && l.all (fun e => e.2.life == .discarding && s.quiet e.1) then (l.map (·.1)).foldl saveGroup s
        else s)
    | none => .next s
  | _ => .next s

/-- DRAIN_LIMIT_EXPIRY: a draining group is discarded, or overruns where its launch clears DISCARD_OK (R139, R277). -/
def execDrainLimitExpiry (s : State) : Host.Outcome State Fault Refusal :=
  match s.arg with
  | .group g =>
    match s.group g, s.launch g.launch with
    | some x, some l =>
      .next (if x.life == .draining && x.since + cyclesOfNs (1000 * l.rc.drainLimit) ≤ s.cycle then
          let s := s.modGroup g fun x => { x with since := s.cycle }
          if l.rc.discardOk then beginDiscard g s else s.modGroup g fun x => { x with life := .overrunning }
        else s)
    | _, _ => .next s
  | _ => .next s

/-! ## The watchdog (R288) -/

/-- A yard is fenced on a die: WDOG is raised, and the fence stands in the physical function's log, with the fields of the context's WDOG
entry (R265, R288, R289, log 47). -/
def fenceYard (die y launch ns : Nat) (s : State) : State :=
  (raiseShed die ⟨.wdog, 0, 0, y, launch, false⟩ (s.modDie die fun d =>
    { d with yfence := if d.yfence.contains y then d.yfence else y :: d.yfence })).pfEvent ⟨evWdog, y, 0xFFFF, launch, ns, 0⟩

/-- WATCHDOG_EXPIRY: a launch that has overrun beyond its yard's allowance is killed, and the yard is fenced on the die. -/
def execWatchdogExpiry (s : State) : Host.Outcome State Fault Refusal :=
  match s.arg with
  | .dieGroup die g =>
    match s.group g, s.launch g.launch with
    | some x, some l =>
      let y := s.yardOf l.ctx
      let past := s.cycle - x.since
      .next (if x.die == die && x.life.overruns && cyclesOfNs (1000 * (s.yard y).allow) < past then
          killLaunch l.id (logPlain l.ctx evWdog y l.id (past * 4 / 5) 0 (fenceYard die y l.id (past * 4 / 5) s))
        else s)
    | _, _ => .next s
  | _ => .next s

end Sys2Proof.Machine
end

