-- ==== Sys2Proof/Machine/Launches.lean ====
section
/-! DEFINITION. Launch records, their checks, bind records, the placement of groups and the ends of launches (R264, R267 to R277, R343,
R371, R372). -/

namespace Sys2Proof.Machine

/-! ## Reading a record (Tables 13.6, 13.7) -/

/-- `k` runs of 64 bytes at a 64-byte-aligned address, for the device. -/
def devLines (d : CtxDesc) (die va : Nat) : Nat → State → Option (List Byte) × State
  | 0, s => (some [], s)
  | k + 1, s =>
    match devRead d die va 64 s with
    | (none, s) => (none, s)
    | (some l, s) =>
      match devLines d die (va57 (va + 64)) k s with
      | (some t, s) => (some (l ++ t), s)
      | (none, s) => (none, s)

def recTier (l : List Byte) (k : Nat) : Tier :=
  let o := 0x80 + 8 * k
  ⟨fieldAt l o 2, fieldAt l (o + 2) 2, fieldAt l (o + 4) 2, bitsOf (fieldAt l (o + 6) 1) 2 0, bitsOf (fieldAt l (o + 7) 1) 2 0⟩

def launchRec (l : List Byte) : LaunchRec where
  overlap := bitOf (fieldAt l 2 2) 0
  discardOk := bitOf (fieldAt l 2 2) 1
  replUse := bitOf (fieldAt l 2 2) 2
  prio := bitsOf (fieldAt l 4 1) 2 0
  tierCount := fieldAt l 5 1
  barriers := fieldAt l 6 1
  accs := fieldAt l 7 1
  aAlloc := fieldAt l 8 2
  xAlloc := fieldAt l 0xA 2
  qdepth := (List.range 6).map fun i => bitsOf (fieldAt l 0xC 4) (4 * i + 3) (4 * i) + 1
  aEntry := fieldAt l 0x10 8
  xEntry := fieldAt l 0x18 8
  scratch := fieldAt l 0x20 4
  cluster := fieldAt l 0x24 4
  handles := fieldAt l 0x28 2
  handlerWb := fieldAt l 0x2A 2
  drainLimit := fieldAt l 0x2C 4
  params := fieldAt l 0x30 8
  aHandler := fieldAt l 0x38 8
  xHandler := fieldAt l 0x40 8
  faultArea := fieldAt l 0x48 8
  alogBase := fieldAt l 0x50 8
  alogSize := fieldAt l 0x58 4
  alogMask := fieldAt l 0x5C 4
  collComm := fieldAt l 0x60 4
  collOp := fieldAt l 0x64 4
  collMap := fieldAt l 0x68 8
  collDst := fieldAt l 0x70 8
  tileSrc := 0
  tileB := 0
  tiers := (List.range 8).map (recTier l)
  fmt := (List.range 8).map fun k => BitVec.ofNat 32 (fieldAt l (0xC0 + 4 * k) 4)
  brec := (List.range 8).map fun k => BitVec.ofNat 256 (fieldAt l (0x100 + 32 * k) 32)

/-! ## Tiers (R268) -/

def Tier.zero : Tier := ⟨0, 0, 0, 0, 0⟩
/-- An entry as it stands in the record. -/
def LaunchRec.entry (rc : LaunchRec) (k : Nat) : Tier := lget rc.tiers k Tier.zero

/-- The tiers from 2 up. -/
def LaunchRec.upper (rc : LaunchRec) : List Nat := (List.range rc.tierCount).drop 2

/-- Groups of one instance of tier `t`. -/
def LaunchRec.prodTo (rc : LaunchRec) (t : Nat) : Nat := (rc.upper.filter (· ≤ t)).foldl (fun p k => p * (rc.entry k).size) 1

def LaunchRec.groups (rc : LaunchRec) : Nat := rc.upper.foldl (fun p k => p * (rc.entry k).size) 1

/-- Groups that run on one module: fabric tiers left out. -/
def LaunchRec.local_ (rc : LaunchRec) : Nat :=
  (rc.upper.filter fun k => (rc.entry k).domain != 4).foldl (fun p k => p * (rc.entry k).size) 1

def LaunchRec.fabric (rc : LaunchRec) : Bool := rc.upper.any fun k => (rc.entry k).domain == 4

/-- Threads of a group. -/
def LaunchRec.gsize (rc : LaunchRec) : Nat := (rc.entry 1).size

/-- Whether the launch has a gang tier: then tier 2 is one (R196, R268). -/
def LaunchRec.gang (rc : LaunchRec) : Bool := decide (2 < rc.tierCount) && (rc.entry 2).domain == 1
/-- Groups of one instance of the highest cluster tier; 1 where there is none. -/
def LaunchRec.clusterProd (rc : LaunchRec) : Nat :=
  (rc.upper.filter fun k => (rc.entry k).domain == 1).foldl (fun p k => p * (rc.entry k).size) 1
def LaunchRec.gangSize (rc : LaunchRec) : Nat := if rc.gang then (rc.entry 2).size else 1

/-- The highest die tier, and the lowest module tier (R343). -/
def LaunchRec.dieTier (rc : LaunchRec) : Option Nat := rc.upper.reverse.find? fun k => (rc.entry k).domain == 2
def LaunchRec.modTier (rc : LaunchRec) : Option Nat := rc.upper.find? fun k => (rc.entry k).domain == 3

/-- Extents of the module tier over the highest die tier: how many dies its instances need. -/
def LaunchRec.dieSpan (rc : LaunchRec) : Option Nat :=
  match rc.dieTier with
  | some t => if t + 1 < rc.tierCount && (rc.entry (t + 1)).domain == 3 then some (rc.entry (t + 1)).size else none
  | none => none

/-- Whether the tier entries obey R268. -/
def LaunchRec.tiersOk (rc : LaunchRec) : Bool :=
  let extOk := fun (t : Tier) => decide (1 ≤ t.x) && decide (1 ≤ t.y) && decide (1 ≤ t.z)
  decide (2 ≤ rc.tierCount) && decide (rc.tierCount ≤ 8) && rc.entry 0 == Tier.zero &&
    ((List.range 8).drop rc.tierCount).all (fun k => rc.entry k == Tier.zero) &&
    extOk (rc.entry 1) && (rc.entry 1).domain == 0 && decide (rc.gsize ≤ 2048) && decide (1 ≤ (rc.entry 1).scope) &&
    rc.upper.all fun k =>
      let t := rc.entry k
      extOk t && decide (1 ≤ t.domain) && decide (t.domain ≤ 4) && decide ((rc.entry (k - 1)).domain ≤ t.domain) &&
        decide (t.domain + 1 ≤ t.scope)

/-! ## What a group takes of a core (R121, Table 1.2) -/

structure Use where
  threads : Nat
  a : Nat
  x : Nat
  q : Nat
  scratch : Nat
  handles : Nat
  accs : Nat

def Use.zero : Use := ⟨0, 0, 0, 0, 0, 0, 0⟩
def Use.add (u v : Use) : Use :=
  ⟨u.threads + v.threads, u.a + v.a, u.x + v.x, u.q + v.q, u.scratch + v.scratch, u.handles + v.handles, u.accs + v.accs⟩
def Use.times (u : Use) (n : Nat) : Use := ⟨n * u.threads, n * u.a, n * u.x, n * u.q, n * u.scratch, n * u.handles, n * u.accs⟩

/-- What one core offers. -/
def Use.fits (u : Use) : Bool :=
  decide (u.threads ≤ 2048) && decide (u.a ≤ 262144) && decide (u.x ≤ 524288) && decide (u.q ≤ 262144) &&
    decide (u.scratch ≤ 524288) && decide (u.handles ≤ 256) && decide (u.accs ≤ 16)

def LaunchRec.use (rc : LaunchRec) : Use :=
  let q := fun i => lget rc.qdepth i 4
  let n := rc.gsize
  ⟨n, n * rc.aAlloc * 4, n * rc.xAlloc * 4, n * 4 * (q 0 + q 1 + q 2 + q 3 + 2 * q 4 + 2 * q 5), rc.scratch, rc.handles, rc.accs⟩

/-- How many groups of a launch fit on one empty core. -/
def LaunchRec.perCore (rc : LaunchRec) : Nat := ((List.range 65).filter fun n => (Use.times rc.use n).fits).foldl max 0

/-! ## The checks (R269, Table 13.8) -/

def isPow2 (n : Nat) : Bool := n != 0 && n == 2 ^ n.log2

/-- Reserved bits and bytes of the record (reason 1). -/
def recReserved (l : List Byte) : Bool :=
  fieldAt l 0 2 != 1 || bitsOf (fieldAt l 2 2) 15 3 != 0 || bitsOf (fieldAt l 4 1) 7 3 != 0 || bitsOf (fieldAt l 0xC 4) 31 24 != 0 ||
    fieldAt l 0x78 8 != 0 || fieldAt l 0xE0 32 != 0 ||
    (List.range 8).any fun k => bitsOf (fieldAt l (0x86 + 8 * k) 1) 7 3 != 0 || bitsOf (fieldAt l (0x87 + 8 * k) 1) 7 3 != 0


/-- The dies on which a launch of a yard may place groups (R343). -/
def launchDies (rc : LaunchRec) (dies : List Nat) : List Nat :=
  match rc.dieSpan with
  | some e => dies.take e
  | none => if rc.dieTier.isNone && rc.modTier.isSome then dies else dies.take 1

/-- A domain that the yard does not reach (reason 12). -/
def tooWide (rc : LaunchRec) (dies : List Nat) : Bool :=
  dies.isEmpty || match rc.dieSpan with
    | some e => decide (dies.length < e)
    | none => false

/-- The tile map's bytes that R371 admits, for a communicator of `n` ranks. -/
def tileMapOk (rc : LaunchRec) (n : Nat) (m : List Byte) : Bool :=
  let b := fieldAt m 8 4
  b % 4 == 0 && decide (4 ≤ b) && decide (b ≤ 2 ^ 23) && (bitsOf rc.collOp 3 0 == 0 || b % (4 * n) == 0) &&
    fieldAt m 12 5 == rc.groups && fieldAt m 17 47 == 0

/-- R371, with the tile map's bytes where they can be read. -/
def collOk (rc : LaunchRec) (ctx : Nat) (dies : List Nat) (map : Option (List Byte)) (s : State) : Bool :=
  if rc.collComm == 0 then rc.collOp == 0 && rc.collMap == 0 && rc.collDst == 0 && !rc.fabric
  else
    let c := rc.collComm - 1
    decide (c < 256) && dies.all (fun e => (s.comm e c).valid && (s.comm e c).ctxid == ctx) &&
      decide (bitsOf rc.collOp 3 0 ≤ 1) && decide (bitsOf rc.collOp 7 4 ≤ 1) && decide (rc.collOp < 2 ^ 11) && rc.collMap % 64 == 0 &&
      match map with
      | some m => tileMapOk rc (s.comm (dies.headD 0) c).nranks m
      | none => false

/-- The first reason of Table 13.8 for which a record is refused. -/
def recReason (s : State) (c : Ctx) (l : List Byte) (rc : LaunchRec) (map : Option (List Byte)) : Option Nat :=
  let dies := yardDies (s.yard c.d.yard)
  let al := fun (n : Nat) (a : Nat) => a % n != 0
  let wbBad := rc.handlerWb % 8 != 0 || (rc.aHandler != 0 && decide (rc.aAlloc ≤ rc.handlerWb)) ||
    (rc.xHandler != 0 && decide (rc.xAlloc ≤ rc.handlerWb))
  let allocBad := fun (n : Nat) => n % 8 != 0 || decide (n < 8) || decide (1024 < n)
  ([ (1, recReserved l),
     (2, !rc.tiersOk),
     (3, decide (2 ^ 40 < rc.groups)),
     (4, rc.gang && (decide (64 < rc.gangSize) || decide (8 * rc.perCore < rc.gangSize) || decide (8388608 < rc.cluster))),
     (5, allocBad rc.aAlloc || allocBad rc.xAlloc || wbBad),
     (6, rc.qdepth.any (· < 4)),
     (7, rc.scratch % 64 != 0 || decide (524288 < rc.scratch) || rc.cluster % 4096 != 0 || decide (8388608 < rc.cluster) ||
       decide (16 < rc.barriers) || decide (128 < rc.handles) || decide (16 < rc.accs) || !rc.use.fits),
     (8, rc.fmt.any (!fmtWordOk ·)),
     (9, rc.brec.any fun b => b != 0#256 &&
       !(recWellFormed b && s.usable (s.homeDie c) c.d rc (bufRec b).seg (bufRec b).epmod)),
     (10, al 4 rc.aEntry || al 4 rc.xEntry || al 4 rc.aHandler || al 4 rc.xHandler || al 64 rc.faultArea || al 64 rc.alogBase ||
       (rc.alogSize != 0 && !(isPow2 rc.alogSize && decide (16 ≤ rc.alogSize) && decide (rc.alogSize ≤ 2 ^ 24))) ||
       decide (16 ≤ rc.alogMask)),
     (12, (rc.replUse && !c.d.repl) || tooWide rc dies),
     (13, !collOk rc c.d.ctxid (launchDies rc dies) map s) ].find? (·.2)).map (·.1)

/-- Reading and checking a record (R269): the reason for which it is refused, or the checked record with its tile map. -/
def checkRecord (c : Ctx) (addr : Nat) (s : State) : Except Nat LaunchRec × State :=
  if addr % 64 != 0 then (.error 10, s)
  else
    match devLines c.d (s.homeDie c) addr 8 s with
    | (none, s) => (.error 11, s)
    | (some l, s) =>
      let rc := launchRec l
      let (map, s) := if rc.collComm == 0 then (none, s) else devRead c.d (s.homeDie c) (va57 (rc.collMap / 64 * 64)) 64 s
      match recReason s c l rc map with
      | some r => (.error r, s)
      | none =>
        let m := map.getD []
        (.ok { rc with tileSrc := va57 (fieldAt m 0 8), tileB := fieldAt m 8 4 }, s)

/-! ## Commands' ends (R264) -/

/-- The completion word of a command (Table 13.4). -/
def completion (c caddr dfc status reason : Nat) (s : State) : State :=
  if caddr == 0 then s
  else writeForCtx c (caddr / 8 * 8) (toBytes 8 (dfc % 2 ^ 32 + 2 ^ 32 * status + 2 ^ 40 * reason)) s

/-- A graph node's operation ends, well or not (R282). -/
def nodeEnds (die g n : Nat) (ok : Bool) (s : State) : State :=
  s.modDie die fun d => { d with graphs := tmod d.graphs g fun x => { x with nodes := lmod x.nodes n fun y => { y with res := some ok } } }

/-! ## Accepting a launch, and its bind records (R270 to R272, R343) -/

/-- The die and the number of groups of the next bind record of a launch, `b` groups having been given to records. Which die an
instance takes where no die tier says so is open (R343, log 2). -/
def nextRange (rc : LaunchRec) (dies : List Nat) (total b : Nat) (s : State) : (Nat × Nat) × State :=
  match rc.dieSpan, rc.dieTier, rc.modTier with
  | some e, some t, _ => ((lget dies (b / rc.prodTo t % e) 0, rc.prodTo t), s)
  | _, none, some m =>
    let r := s.drawNat
    ((lget dies (r.1 % dies.length) 0, rc.prodTo (m - 1)), r.2)
  | _, _, _ => ((dies.headD 0, total - b), s)

/-- The lowest slot of a die whose record is not in force (R272). -/
def State.freeSlot (s : State) (die : Nat) : Option Nat :=
  (List.range 512).find? fun n => match tget (s.die die).binds n with
    | some b => !b.valid
    | none => true

/-- A pen nobody has described: it has no cluster. -/
def Pen.none : Pen := ⟨[], 0, Option.none⟩
def State.pen (s : State) (yard n : Nat) : Pen := tgetD s.pens (yard, n) Pen.none

/-- The clusters that a context's groups may use on a die: its yard's, within its pen (R329). -/
def State.ctxClusters (s : State) (d : CtxDesc) (die : Nat) : Nat :=
  let m := lget (s.yard d.yard).cmask die 0
  if d.pen == 0xFF then m else m &&& lget (s.pen d.yard d.pen).cmask die 0

/-- The lowest of the 4,096 launch-state entries that no launch holds (Table 13.9). -/
def State.freeLslot (s : State) : Option Nat :=
  let used := s.launches.filterMap fun e => e.2.lslot
  match (List.range (used.length + 1)).find? (!used.contains ·) with
  | some n => if n < 4096 then some n else none
  | none => none

/-- The priority of a launch's bind records: that of its graph, or its own below its queue's ceiling (R278, R281). -/
def launchPrio (l : Launch) (qprio : Nat) (s : State) : Nat :=
  match l.origin with
  | .queue _ _ => min l.rc.prio qprio
  | .node die g _ => match tget (s.die die).graphs g with
    | some x => x.prio
    | none => l.rc.prio

/-- Writing bind records for a launch as far as slots are free; the fuel is the number of slots. -/
def bindGo (id prio : Nat) : Nat → State → State
  | 0, s => s
  | fuel + 1, s =>
    match s.launch id with
    | none => s
    | some l =>
      match s.ctx l.ctx with
      | none => s
      | some c =>
        if l.killed || l.total ≤ l.bound then s
        else
          let dies := yardDies (s.yard c.d.yard)
          match nextRange l.rc dies l.total l.bound s with
          | ((die, n), t) =>
            match s.freeSlot die, l.lslot.or s.freeLslot with
            | none, _ => s
            | _, none => s
            | some k, some ls =>
              let b : Bind := ⟨true, l.rc.gang, prio, c.d.bclass, l.ctx, ls, id, l.first + l.bound, n, s.ctxClusters c.d die, 0⟩
              bindGo id prio fuel ((t.modDie die fun d => { d with binds := tset d.binds k b, aborts := tdel d.aborts k }).modLaunch id fun l =>
                { l with bound := l.bound + n, code := if l.bound == 0 then t.mem else l.code,
                         codeKey := if l.bound == 0 then t.loftKey else l.codeKey, lslot := some ls })

/-- The ceiling of a queue's priorities. -/
def queuePrio (c : Ctx) (q : Nat) (s : State) : Nat :=
  match readQDesc c (s.homeDie c) q s with
  | (some d, _) => d.prio
  | (none, _) => 7

def bindLaunch (id : Nat) (s : State) : State :=
  match s.launch id with
  | none => s
  | some l =>
    match s.ctx l.ctx with
    | none => s
    | some c =>
      let q := match l.origin with
        | .queue n _ => queuePrio c n s
        | .node .. => 7
      bindGo id (launchPrio l q s) 512 s

/-- Records for every launch that still waits for slots. -/
def bindAll (s : State) : State :=
  ((s.launches.filter fun e => !e.2.killed && decide (e.2.bound < e.2.total)).map (·.1)).foldl (fun s n => bindLaunch n s) s

/-- An accepted launch (R270), its tiers resolved (R268), and its bind records. -/
def acceptLaunch (c : Ctx) (rc : LaunchRec) (addr : Nat) (o : Origin) (s : State) : Nat × State :=
  let ctx := c.d.ctxid
  let id := ctx * 2 ^ 48 + c.count
  let die := (launchDies rc (yardDies (s.yard c.d.yard))).headD 0
  let first := if rc.fabric then (s.comm die (rc.collComm - 1)).myrank * rc.local_ else 0
  let l : Launch :=
    { id := id, ctx := ctx, rc := rc, recAddr := addr, killed := false, dfc := 0, origin := o, first := first, total := rc.local_,
      placed := 0, ended := 0, bound := 0, fired := [], outs := [], silent := false, code := [], codeKey := [], lslot := none }
  (id, bindLaunch id ({ s with launches := tset s.launches id l }.modCtx ctx fun c => { c with count := c.count + 1 }))

/-! ## Placement (R273 to R275) -/

def State.useOf (s : State) (g : GroupKey) : Use :=
  match s.launch g.launch with
  | some l => l.rc.use
  | none => Use.zero

/-- The handles of an ended group that its copies still hold (R109). -/
def State.lateHandles (s : State) (g : GroupKey) : Nat :=
  (s.items.filterMap fun (w : Item) => if w.owner.grp == g then w.handle else none).eraseDups.length

/-- What the groups on a core take of it. -/
def State.coreUse (s : State) (die core : Nat) : Use :=
  s.groups.foldl (fun u e =>
    if e.2.die != die || e.2.core != core then u
    else if e.2.life.resident then u.add (s.useOf e.1)
    else if e.2.life == .ended then u.add { Use.zero with handles := s.lateHandles e.1 }
    else u) Use.zero

/-- The owners of cluster windows on a cluster, and the bytes these take (R195). -/
def State.winOwners (s : State) (die cl : Nat) : List GroupKey :=
  (s.groups.filterMap fun e =>
    if e.2.die == die && e.2.core / 8 == cl && e.2.life.resident then some (e.2.ownerKey e.1) else none).eraseDups
def State.winBytes (s : State) (g : GroupKey) : Nat :=
  match s.launch g.launch with
  | some l => l.rc.cluster
  | none => 0

def State.coreFits (s : State) (die core : Nat) (rc : LaunchRec) : Bool := ((s.coreUse die core).add rc.use).fits
def State.winFits (s : State) (die cl : Nat) (rc : LaunchRec) : Bool :=
  decide (((s.winOwners die cl).map s.winBytes).sum + rc.cluster ≤ 8388608)

/-- A core that a governor has fenced: nothing is placed on it any more (R388). -/
def State.placeFenced (s : State) (die core : Nat) : Bool := s.isFenced die 0 core

/-- The cores of a cluster. -/
def clusterCores (cl : Nat) : List Nat := (List.range 8).map (8 * cl + ·)

/-- The saved groups of a bind record. -/
def State.savedOf (s : State) (die : Nat) (b : Bind) : List (GroupKey × Group) :=
  s.groups.filter fun e => e.1.launch == b.launch && e.2.die == die && e.2.life == .saved && decide (b.gfirst ≤ e.1.glin) &&
    decide (e.1.glin < b.gfirst + b.gcount)

/-- A group that only the core from which it was saved may restore (R174, R202). -/
def Group.pinned (x : Group) (rc : LaunchRec) : Bool :=
  rc.accs != 0 || x.handles.any fun h => h.bound && bitsOf h.buf.toNat 31 30 == 2

/-- Whether a core may take back a saved group. -/
def State.restoreFits (s : State) (die core : Nat) (rc : LaunchRec) (x : Group) : Bool :=
  s.coreFits die core rc && (!x.pinned rc || x.core == core) && !s.placeFenced die core

/-- The saved group that a cluster may restore first, outside gangs. -/
def State.firstSaved (s : State) (die cl : Nat) (b : Bind) (rc : LaunchRec) : Option GroupKey :=
  if s.winFits die cl rc then
    ((s.savedOf die b).find? fun e => !e.2.gang && (clusterCores cl).any fun c => s.restoreFits die c rc e.2).map (·.1)
  else none

/-- Whether a record has room for its next group on a cluster. -/
def State.nextFits (s : State) (die cl : Nat) (b : Bind) (rc : LaunchRec) : Bool :=
  decide (b.next < b.gcount) && s.winFits die cl rc && (clusterCores cl).any fun c => s.coreFits die c rc && !s.placeFenced die c

/-- A gang that has been aborted 16 times keeps the first cluster of its CMASK from records of equal or lower priority (R274). -/
def State.reserved (s : State) (die cl slot prio : Nat) : Bool :=
  (s.die die).binds.any fun e => e.1 != slot && e.2.valid && decide (prio ≤ e.2.prio) && decide (16 ≤ (tgetD (s.die die).aborts e.1 (0, 0)).2) &&
    (List.range 12).find? (bitOf e.2.cmask) == some cl

/-- Whether a cluster may hold a group of a launch: where the launch has cluster tiers, the groups of one instance of the highest lie within
one cluster (R268). -/
def State.tierAdmits (s : State) (cl : Nat) (l : Launch) (glin : Nat) : Bool :=
  let n := l.rc.clusterProd
  s.groups.all fun e => e.1.launch != l.id || e.2.life == .saved || n ≤ 1 || e.1.glin / n != glin / n || e.2.core / 8 == cl

/-- Whether the groups of a bind record's context may stand on a cluster now: it is one of the yard's or the pen's, whatever the record's
CMASK says (R329), and the context holds its pen (R331). -/
def State.mayUse (s : State) (die cl : Nat) (b : Bind) : Bool :=
  match s.ctx b.ctx with
  | some c => bitOf (s.ctxClusters c.d die) cl && (c.d.pen == 0xFF || (s.pen c.d.yard c.d.pen).holder == some b.ctx)
  | none => false

/-- Whether an account may place groups: its slice has not ended since its last refill, and CORE is above 0 (R287). -/
def Acct.places (a : Acct) : Bool := !a.ended && decide (0 < a.core)

/-- Whether every group of a saved gang may be restored on a cluster (R275). -/
def State.gangFits (s : State) (die cl : Nat) (rc : LaunchRec) (o : GroupKey) : Bool :=
  (s.gangLive o).all fun e => (clusterCores cl).any fun c => s.restoreFits die c rc e.2

/-- Whether a record has a placeable group on a cluster (R273): its account may place (R287), its yard is not fenced (R288). -/
def State.placeable (s : State) (die cl slot : Nat) (b : Bind) : Bool :=
  match s.launch b.launch with
  | none => false
  | some l =>
    b.valid && decide (cl < 12) && bitOf b.cmask cl && !l.killed && s.mayUse die cl b && !(s.die die).yfence.contains (s.yardOf b.ctx) &&
      (s.acct die b.bclass).places && !s.reserved die cl slot b.prio &&
      (if b.gang then
        match s.savedOf die b with
        | e :: _ => s.winFits die cl l.rc && s.tierAdmits cl l e.1.glin && s.gangFits die cl l.rc (e.2.ownerKey e.1)
        | [] => s.nextFits die cl b l.rc && s.tierAdmits cl l (b.gfirst + b.next)
      else (s.firstSaved die cl b l.rc).isSome || s.nextFits die cl b l.rc)

/-- The record that a placement decision for a cluster takes: highest PRIO, then round-robin by slot (R273). -/
def State.pickBind (s : State) (die cl : Nat) : Option (Nat × Bind) :=
  let l := (s.die die).binds.filter fun e => s.placeable die cl e.1 e.2
  let p := l.foldl (fun m e => max m e.2.prio) 0
  let l := l.filter fun e => e.2.prio == p
  let order := (List.range 512).drop (s.die die).rr ++ (List.range 512).take (s.die die).rr
  order.findSome? fun n => (l.find? (·.1 == n))

/-- The lowest free physical slots of a core (R117). -/
def State.freeSlots (s : State) (die core n : Nat) : List Nat :=
  let used := s.threads.filterMap fun e => match s.group e.1.grp with
    | some x => if x.die == die && x.core == core && x.life.resident then some e.2.slot else none
    | none => none
  ((List.range 2048).filter fun i => !used.contains i).take n

/-- Placing a group (Tables 3.1, 3.2, R43, R195, R277): its threads start at the entry headers, its windows are zero. -/
def placeGroup (die core : Nat) (l : Launch) (glin owner : Nat) (s : State) : State :=
  let rc := l.rc
  let g : GroupKey := ⟨l.id, glin⟩
  let o : GroupKey := ⟨l.id, owner⟩
  let n := rc.gsize
  let slots := s.freeSlots die core n
  let x := Group.fresh rc n die core owner s.cycle rc.gang
  let th := (List.range n).map fun t => ((⟨g, t⟩ : ThreadKey), Thread.fresh (lget slots t 0) s.cycle rc.qdepth)
  let st := (List.range n).flatMap fun t =>
    [((⟨g, t, .a⟩ : StrandKey), Strand.fresh (pcOf rc.aEntry) rc.aAlloc), (⟨g, t, .x⟩, Strand.fresh (pcOf rc.xEntry) rc.xAlloc)]
  let s := if (tget s.cwins o).isSome then s else { s with cwins := tset s.cwins o [] }
  let s := if rc.gang && (tget s.gangs o).isNone then
      { s with gangs := tset s.gangs o ⟨rc.gangSize, List.replicate 8 GangBar.zero⟩ } else s
  { s with groups := tset s.groups g x, threads := s.threads ++ th, strands := s.strands ++ st }.modLaunch l.id fun l =>
    { l with placed := l.placed + 1 }

/-- Restoring a saved group (R275): its threads take physical slots again (R117), and the QDLK counts start again (R124). -/
def restoreGroup (die core : Nat) (g : GroupKey) (s : State) : State :=
  let n := (s.threads.filter fun e => e.1.grp == g).length
  let slots := s.freeSlots die core n
  let s := s.modGroup g fun x => { x with life := .running, die := die, core := core, since := s.cycle }
  let go := fun (r : Nat × List (ThreadKey × Thread)) (e : ThreadKey × Thread) =>
    if e.1.grp == g then (r.1 + 1, r.2 ++ [(e.1, { e.2 with slot := lget slots r.1 0, act := s.cycle })]) else (r.1, r.2 ++ [e])
  { s with threads := (s.threads.foldl go (0, [])).2 }

/-- After a placement: NEXT, and the round-robin (R271, R273). -/
def bumpBind (die slot n : Nat) (s : State) : State :=
  s.modDie die fun d => { d with binds := tmod d.binds slot fun b => { b with next := b.next + n }, rr := slot + 1, aborts := tdel d.aborts slot }

/-- DISPATCHER_PLACE: one placement decision for a cluster, on one of its cores (R273, R275). A dispatcher that holds a BINDDONE event
stalls (R265). -/
def execDispatcherPlace (s : State) : Host.Outcome State Fault Refusal :=
  match s.arg with
  | .n3 die cl core =>
    match s.pickBind die cl with
    | none => .next s
    | some (slot, b) =>
      match s.launch b.launch with
      | none => .next s
      | some l =>
        if b.gang || core / 8 != cl || (s.die die).stalls .binddone then .next s
        else
          match s.firstSaved die cl b l.rc with
          | some g =>
            match s.group g with
            | some x => .next (if s.restoreFits die core l.rc x then bumpBind die slot 0 (restoreGroup die core g s) else s)
            | none => .next s
          | none =>
            let glin := b.gfirst + b.next
            .next (if s.nextFits die cl b l.rc && s.coreFits die core l.rc && !s.placeFenced die core then
              bumpBind die slot 1 (placeGroup die core l glin glin s) else s)
  | _ => .next s

/-- Placing the groups of a gang one after the other, on the cores that a pass tries: none where one does not fit. -/
def gangPlace (die cl owner : Nat) (l : Launch) : List Nat → Nat → List Nat → State → Option State
  | [], _, _, s => some s
  | _ :: _, _, [], _ => none
  | g :: gs, i, core :: cores, s =>
    if core / 8 == cl && s.coreFits die core l.rc && !s.placeFenced die core then
      gangPlace die cl owner l gs (i + 1) cores (placeGroup die core l g owner s)
    else none

def gangRestore (die cl : Nat) (l : Launch) : List (GroupKey × Group) → List Nat → State → Option State
  | [], _, s => some s
  | _ :: _, [], _ => none
  | e :: es, core :: cores, s =>
    if core / 8 == cl && s.restoreFits die core l.rc e.2 then gangRestore die cl l es cores (restoreGroup die core e.1 s) else none

/-- GANG_RESERVATION_PASS: a pass over a cluster for a whole gang commits, or aborts with nothing placed (R274, R275). -/
def execGangReservationPass (s : State) : Host.Outcome State Fault Refusal :=
  match s.arg with
  | .list die cl cores =>
    match s.pickBind die cl with
    | none => .next s
    | some (slot, b) =>
      match s.launch b.launch with
      | none => .next s
      | some l =>
        if !b.gang || (s.die die).stalls .binddone then .next s
        else
          let r :=
            match s.savedOf die b with
            | e :: _ =>
              let o := e.2.ownerKey e.1
              (gangRestore die cl l (s.gangLive o) cores s).map (bumpBind die slot 0)
            | [] =>
              let f := b.gfirst + b.next
              if s.winFits die cl l.rc then
                (gangPlace die cl f l ((List.range l.rc.gangSize).map (f + ·)) 0 cores s).map (bumpBind die slot l.rc.gangSize)
              else none
          match r with
          | some t => .next t
          | none =>
            let gang := match s.savedOf die b with
              | e :: _ => e.2.owner
              | [] => b.gfirst + b.next
            .next (s.modDie die fun d =>
              let a := tgetD d.aborts slot (gang, 0)
              { d with aborts := tset d.aborts slot (gang, if a.1 == gang then a.2 + 1 else 1), rr := slot + 1 })
  | _ => .next s

/-! ## The end of a launch (R270, R276) -/

/-- Whether every repl store of the launch is performed at the scope of its end: on its own die, or by every member, and then what its
groups may have learned of too (R256, R276). -/
def State.outsDone (s : State) (l : Launch) (scope : Nat) : Bool :=
  (l.outs.all fun e => s.outPerformed e.1 e.2 scope) && (decide (scope < 4) || s.groups.all fun e => e.1.launch != l.id || s.replKnown e.2.die)

/-- The scope at which the end of a launch is a release (R276). The end of a graph node's happens before everything that its successors do, on
whatever die (R302). -/
def Launch.endScope (l : Launch) : Nat :=
  let n := (lget l.rc.tiers (l.rc.tierCount - 1) Tier.zero).scope
  match l.origin with
  | .queue .. => n
  | .node .. => max n 4

/-- Whether a launch has ended: its groups, its committed engine work, and the accesses that its end releases. -/
def State.launchOver (s : State) (l : Launch) : Bool :=
  (l.killed || l.ended == l.total) && (s.groups.all fun e => e.1.launch != l.id || e.2.life == .ended) &&
    (s.items.all fun (w : Item) => w.owner.grp.launch != l.id) && (s.colls.all fun (c : Coll) => c.launch != l.id) &&
    (s.pend.all fun (p : Pend) => p.owner.grp.launch != l.id) && (s.held.all fun (h : Held) => h.owner.grp.launch != l.id) &&
    (s.globs.all fun (r : GlobReq) => r.owner.all (·.grp.launch != l.id)) &&
    s.outsDone l l.endScope

/-- The endpoint of a rank of a communicator, module and die, as the list of a die's descriptor names it (Table 17.4). -/
def State.rankEnd (s : State) (die comm q : Nat) : Option (Nat × Nat) :=
  let m := tgetD (s.die die).comms comm ⟨false, false, 0, 0, 0, 0, 0, 0, 0⟩
  match s.ctx m.ctxid with
  | some x =>
    match (devRead x.d die (va57 (m.ranks + 4 * q)) 4 s).1 with
    | some l => some (bitsOf (ofBytes l) 19 0, bitsOf (ofBytes l) 22 20)
    | none => none
  | none => none

/-- The dies of this module that are ranks of a die's communicator, with their ranks: that die, and each that its list names at the rank that
it has in its own descriptor, which has the same number, context and size (R362, log 32). -/
def State.ranksOf (s : State) (die comm : Nat) : List (Nat × Nat) :=
  let at_ := fun d => tgetD (s.die d).comms comm ⟨false, false, 0, 0, 0, 0, 0, 0, 0⟩
  (List.range 8).filterMap fun d =>
    let x := at_ d
    if x.valid && x.ctxid == (at_ die).ctxid && x.nranks == (at_ die).nranks &&
        (d == die || s.rankEnd die comm x.myrank == some (s.modId, d)) then some (d, x.myrank) else none

/-- A collective has failed on a die: its ranks on this module that hold it fail, it fails on the others when they submit it, and other
modules are told (R365, R372, R380). -/
def loseColl (ctx die comm order : Nat) (tile : Option Nat) (k : Cause) (s : State) : State :=
  let same := fun (c : Coll) => c.comm == comm && (tgetD (s.die c.die).comms comm ⟨false, false, 0, 0, 0, 0, 0, 0, 0⟩).ctxid == ctx &&
    c.tile == tile && (tile.isSome || c.order == order)
  let ids := (s.colls.filter same).map (·.item)
  let left := ((s.ranksOf die comm).map (·.1)).filter fun d => d != die && !s.colls.any fun c => same c && c.die == d
  let away := decide ((s.ranksOf die comm).length < (tgetD (s.die die).comms comm ⟨false, false, 0, 0, 0, 0, 0, 0, 0⟩).nranks)
  { s with
    items := s.items.map fun (w : Item) => if ids.contains w.id && w.fail.isNone then { w with fail := some k } else w
    losts := if left.isEmpty then s.losts else s.losts ++ [⟨ctx, comm, tile, order, k, left⟩]
    out := if away then s.out ++ [.collLost die comm order tile k] else s.out }

/-- The unfired tiles of an ended launch are withdrawn: their collectives on other ranks fail at once (R372). One that a peer has
withdrawn before is awaited no longer. -/
def withdrawTiles (l : Launch) (s : State) : State :=
  if l.rc.collComm == 0 then s
  else
    let comm := l.rc.collComm - 1
    let die := match s.ctx l.ctx with
      | some x => s.yardHome x.d.yard
      | none => 0
    ((List.range l.total).filterMap fun i => if l.fired.contains (l.first + i) then none else some (l.first + i)).foldl (fun s g =>
      match s.losts.find? fun (x : Lost) => x.ctx == l.ctx && x.comm == comm && x.tile == some g && x.left.contains die with
      | some x =>
        let l := s.losts.map fun (y : Lost) => if y == x then { y with left := y.left.erase die } else y
        { s with losts := l.filter fun (y : Lost) => !y.left.isEmpty }
      | none => loseColl l.ctx die comm 0 (some g) .rplx s) s

/-- Taking a launch out of the machine. -/
def dropLaunch (id : Nat) (s : State) : State :=
  { s with
    launches := tdel s.launches id
    groups := s.groups.filter fun e => e.1.launch != id
    gangs := s.gangs.filter fun e => e.1.launch != id
    cwins := s.cwins.filter fun e => e.1.launch != id }

/-- LAUNCH_END: the completion word, the LAUNCHEND event, and what waits on the launch (R264, R270, R278, R282). -/
def launchEnd (l : Launch) (s : State) : State :=
  let status := if l.killed then 2 else 1
  let s := dropLaunch l.id (withdrawTiles l s)
  match l.origin with
  | .queue q caddr =>
    let s := s.modQueue l.ctx q fun r => { r with open_ := r.open_.filter (· != l.id) }
    if l.silent then s
    else completion l.ctx caddr l.dfc status 0 (logEvent l.ctx ⟨evLaunchEnd, status, q, l.id, l.dfc, s.ns⟩ s)
  | .node die g n =>
    let s := nodeEnds die g n (!l.killed) s
    if l.silent then s else logPlain l.ctx evLaunchEnd status l.id l.dfc s.ns s

def execLaunchEnd (s : State) : Host.Outcome State Fault Refusal :=
  match s.arg with
  | .n1 id =>
    match s.launch id with
    | some l => .next (if s.launchOver l then launchEnd l s else s)
    | none => .next s
  | _ => .next s

end Sys2Proof.Machine
end

