-- ==== Sys2Proof/Machine/Graphs.lean ====
section
/-! DEFINITION. Graphs: their images, their runs and their nodes (R280 to R283, R302 to R304). -/

namespace Sys2Proof.Machine

/-! ## Reading for the front end -/

/-- `n` bytes at any virtual address, page by page; the fuel is the number of pages touched. -/
def devRange (d : CtxDesc) (die : Nat) : Nat → Nat → Nat → State → Option (List Byte) × State
  | 0, _, _, s => (some [], s)
  | fuel + 1, va, n, s =>
    let k := min n (65536 - va % 65536)
    if n == 0 then (some [], s)
    else
      match devRead d die va k s with
      | (none, s) => (none, s)
      | (some l, s) =>
        match devRange d die fuel (va57 (va + k)) (n - k) s with
        | (some t, s) => (some (l ++ t), s)
        | (none, s) => (none, s)

/-- The n64 at an 8-byte word, read for a context. Of an address that is not a multiple of 8 the low bits are dropped (DESIGN CHOICE, log
56). -/
def devWord (d : CtxDesc) (die va : Nat) (s : State) : Option Nat × State :=
  match devRead d die (va / 8 * 8) 8 s with
  | (some l, s) => (some (ofBytes l), s)
  | (none, s) => (none, s)

/-! ## Images (Tables 13.12 to 13.14) -/

def GNode.kind (x : GNode) : Nat := bitsOf x.img.toNat 3 0
def GNode.npred (x : GNode) : Nat := bitsOf x.img.toNat 31 16
def GNode.next (x : GNode) : List Nat := (List.range 4).map fun i => bitsOf x.img.toNat (47 + 16 * i) (32 + 16 * i)
def GNode.alt (x : GNode) : List Nat := (List.range 4).map fun i => bitsOf x.img.toNat (111 + 16 * i) (96 + 16 * i)

/-- `n` bytes from offset `o` of the payload. -/
def GNode.pay (x : GNode) (o n : Nat) : Nat := x.img.toNat / 2 ^ (8 * (24 + o)) % 2 ^ (8 * n)

/-- How many payload bytes a kind uses. -/
def payBytes : Nat → Nat
  | 1 => 8
  | 2 => 20
  | 3 => 16
  | 4 => 17
  | 5 => 17
  | 6 => 4
  | _ => 9

/-- The checks of R281 on one node of a graph of `n` nodes. -/
def GNode.ok (x : GNode) (n : Nat) : Bool :=
  let idx := fun (i : Nat) => i == 0xFFFF || decide (i < n)
  let k := x.kind
  let flow := k == 5 || k == 6
  decide (1 ≤ k) && decide (k ≤ 7) && bitsOf x.img.toNat 15 4 == 0 && (x.npred == 0) == flow && x.next.all idx && x.alt.all idx &&
    x.pay (payBytes k) (40 - payBytes k) == 0 && (k != 4 || decide (x.pay 16 1 ≤ 1)) && (k != 5 || decide (x.pay 16 1 ≤ 3)) &&
    (k != 6 || x.pay 0 4 != 0) && (k != 7 || decide (x.pay 8 1 ≤ 7))

/-- Bytes of graph memory that a graph takes. -/
def Graph.bytes (x : Graph) : Nat := 64 * (1 + x.nodes.length)

/-- GRAPHLD of graph `g` for a context: 0 when loaded, otherwise the reason of its refusal (R280, R281). -/
def loadGraph (c : Ctx) (die addr g : Nat) (s : State) : Nat × State :=
  let held := match tget (s.die die).graphs g with
    | some x => x.ctx != c.d.ctxid || x.running
    | none => false
  if held then (1, s)
  else
    match devRange c.d die 2 addr 64 s with
    | (none, s) => (11, s)
    | (some h, s) =>
      let n := fieldAt h 0 2
      let entries := (List.range 4).map fun i => fieldAt h (4 + 2 * i) 2
      let others := ((s.die die).graphs.filter (·.1 != g)).map fun e => e.2.bytes
      if n == 0 || bitsOf (fieldAt h 2 1) 7 3 != 0 || fieldAt h 3 1 != 0 || fieldAt h 16 48 != 0 ||
          decide (4194304 < others.sum + 64 * (1 + n)) || entries.any (fun i => i != 0xFFFF && decide (n ≤ i)) then (1, s)
      else
        match devRange c.d die 66 (va57 (addr + 64)) (64 * n) s with
        | (none, s) => (11, s)
        | (some l, s) =>
          let nodes := (List.range n).map fun i => (⟨BitVec.ofNat 512 (fieldAt l (64 * i) 64), 0, 0, false, none⟩ : GNode)
          if nodes.all (·.ok n) then
            let x : Graph := ⟨c.d.ctxid, bitsOf (fieldAt h 2 1) 2 0, entries, 0, false, false, none, nodes⟩
            (0, s.modDie die fun d => { d with graphs := tset d.graphs g x })
          else (1, s)

/-! ## Nodes that fire (R281, R282) -/

def State.graph (s : State) (die g : Nat) : Option Graph := tget (s.die die).graphs g
def State.modGraph (s : State) (die g : Nat) (f : Graph → Graph) : State :=
  s.modDie die fun d => { d with graphs := tmod d.graphs g f }
def modNode (die g n : Nat) (f : GNode → GNode) (s : State) : State := s.modGraph die g fun x => { x with nodes := lmod x.nodes n f }

/-- The agent that a node's copies stand for: no strand, and no launch, whose identifiers have 64 bits (R270). -/
def nodeOwner : StrandKey := ⟨⟨2 ^ 64, 0⟩, 0, .a⟩

/-- A copy node fires: an item of the die's copy unit (R281). Its pages decide in which segments its ends lie (log 51). -/
def fireCopy (die g n ctx : Nat) (x : GNode) (s : State) : State :=
  let src := va57 (x.pay 0 8)
  let dst := va57 (x.pay 8 8)
  let len := x.pay 16 4
  let e := fun (va : Nat) => End.mem .chip va 0 0 0
  let w := { Item.blank s.nextId die ctx nodeOwner (.node g n) with
    regions := [⟨.va, src, src + len, false⟩, ⟨.va, dst, dst + len, true⟩], total := len,
    moves := s.cutMoves 0 (e src) (e dst) len len }
  { s.accept w with nextId := s.nextId + 1 }

/-- A kernel node fires: it submits a launch, or fails where the record is refused (R281, R282). -/
def fireKernel (die g n : Nat) (c : Ctx) (x : GNode) (s : State) : State :=
  let addr := va57 (x.pay 0 8)
  match checkRecord c addr s with
  | (.error r, s) => nodeEnds die g n false (logPlain c.d.ctxid evRefused r 0 addr 0 s)
  | (.ok rc, s) => (acceptLaunch c rc addr (.node die g n) s).2

/-- A node fires. The others do what they do when they complete. -/
def fireNode (die g n : Nat) (s : State) : State :=
  match s.graph die g with
  | none => s
  | some x =>
    match x.nodes[n]?, s.liveCtx x.ctx with
    | some y, some c =>
      let s := modNode die g n (fun y => { y with busy := true, res := none }) s
      match y.kind with
      | 1 => fireKernel die g n c y s
      | 2 => fireCopy die g n x.ctx y s
      | _ => s
    | _, _ => s

/-- An arrival at a node: it fires when its arrivals reach NPRED, a conditional or loop node at every arrival, and none after a failure.
A node that is still executing fires when it has completed. -/
def settleNode (die g n : Nat) (s : State) : State :=
  match s.graph die g with
  | none => s
  | some x =>
    match x.nodes[n]? with
    | some y =>
      if y.busy || x.failed.isSome || y.arr == 0 || decide (y.arr < y.npred) then s
      else fireNode die g n (modNode die g n (fun y => { y with arr := y.arr - max 1 y.npred }) s)
    | none => s

def arriveNode (die g : Nat) (s : State) (n : Nat) : State :=
  if n == 0xFFFF then s else settleNode die g n (modNode die g n (fun y => { y with arr := y.arr + 1 }) s)

/-! ## Runs (R282, Table 13.15) -/

/-- A run begins. -/
def startRun (die g : Nat) (s : State) : State :=
  match s.graph die g with
  | none => s
  | some x =>
    let s := s.modGraph die g fun x =>
      { x with running := true, pending := false, failed := none,
               nodes := x.nodes.map fun y => { y with arr := 0, iter := 0, busy := false, res := none } }
    x.entries.foldl (arriveNode die g) s

/-- The end of a run, if no node executes: its event, and the next run where a trigger waits. A run whose entries fire nothing ends at
once; the fuel bounds such runs by the one that a trigger merges into. -/
def settleRun (die g : Nat) : Nat → State → State
  | 0, s => s
  | fuel + 1, s =>
    match s.graph die g with
    | none => s
    | some x =>
      if !x.running || x.nodes.any (·.busy) then s
      else
        let s := match x.failed with
          | some n => logPlain x.ctx evGraphErr g 0 x.runs n s
          | none => logPlain x.ctx evGraphEnd g 0 ((x.runs + 1) % 2 ^ 32) 0 s
        let s := s.modGraph die g fun y =>
          { y with running := false, runs := if x.failed.isSome then y.runs else (y.runs + 1) % 2 ^ 32 }
        if x.pending then settleRun die g fuel (startRun die g s) else s

/-- A trigger reaches a graph (Table 13.15). -/
def triggerRun (die g : Nat) (s : State) : State :=
  match s.graph die g with
  | none => s
  | some x =>
    if x.running then s.modGraph die g fun y => { y with pending := true } else settleRun die g 2 (startRun die g s)

/-! ## Nodes that complete (R281, R282, R302 to R304) -/

/-- How an executing node stands: not complete; complete, with the successors at which it arrives; or failed. -/
inductive NodeEnd where
  | no
  | done (next : List Nat)
  | failed

/-- A copy node's item: gone when its bytes are written, and its unwritten bytes unspecified where it has failed (R206). -/
def copyEnd (die g n : Nat) (x : GNode) (s : State) : NodeEnd × State :=
  match s.items.find? fun (w : Item) => w.die == die && w.kind == .node g n with
  | none => (.no, s)
  | some w =>
    match w.fail with
    | some _ => (.failed, closeItem w (w.moves.foldl (fun s m => garbleMove w m s) s))
    | none => if s.itemRuns w && w.moves.all (·.done) then (.done x.next, closeItem w s) else (.no, s)

/-- A signal node's store or atomic addition (R281), and the trigger that it makes before it completes (R303). It is a release at yard scope:
it waits until what its die has applied to its replica has been applied by every member (R256, R302). A misaligned address fails the node
(DESIGN CHOICE, log 56). -/
def signalEnd (c : Ctx) (die : Nat) (x : GNode) (s : State) : NodeEnd × State :=
  let va := va57 (x.pay 0 8)
  match xlate c.d va s with
  | (.ok p, s) =>
    let add := x.pay 16 1 == 1
    if va % 8 != 0 || (add && !p.r) || !s.devMay c.d die p 8 add true then (.failed, s)
    else if !s.replKnown die then (.no, s)
    else
      let v := if add then (s.read64 p.spa + x.pay 8 8) % 2 ^ 64 else x.pay 8 8
      let l := toBytes 8 v
      let g := (spaOff p.spa - (s.die die).trigWin) / 8
      let hit := spaSpace p.spa == 0 && spaDie p.spa == die && decide ((s.die die).trigWin ≤ spaOff p.spa) && decide (g < 256) &&
        s.holdsGraph die c.d.ctxid g
      (.done x.next, if hit then triggerRun die g ((s.writeSpa p.spa l).repair p.spa 8) else storeSpa c.d.ctxid p.spa l s)
  | (e, s) => (.failed, logWalks c.d.ctxid (e.errs va) s)

/-- A conditional node's comparison (Table 13.14). -/
def condHolds (cmp v w : Nat) : Bool :=
  match cmp with
  | 0 => v == w
  | 1 => v != w
  | 2 => decide (w ≤ v)
  | _ => decide (v < w)

/-- A host-notify node: its entry, and its interrupt at once; nothing of either where its ring is disabled (R304). -/
def notifyEnd (c : Ctx) (die : Nat) (x : GNode) (s : State) : NodeEnd × State :=
  let r := x.pay 8 1
  let s := (appendURing c.d.ctxid 0 die r (x.pay 0 8) 0xFFFF false s).2
  let unsent := match s.ctx c.d.ctxid with
    | some y => (tgetD y.rings r ⟨0, 0⟩).unsent
    | none => 0
  (.done x.next, if unsent == 0 || (ringOf c r).size == 0 then s else sendRingInt c.d.ctxid r s)

/-- What an executing node comes to. -/
def nodeEnd (c : Ctx) (die g n : Nat) (x : GNode) (s : State) : NodeEnd × State :=
  match x.kind with
  | 1 =>
    match x.res with
    | none => (.no, s)
    | some true => (.done x.next, s)
    | some false => (.failed, s)
  | 2 => copyEnd die g n x s
  | 3 =>
    match devWord c.d die (va57 (x.pay 0 8)) s with
    | (none, s) => (.failed, s)
    | (some v, s) => (if x.pay 8 8 ≤ v then .done x.next else .no, s)
  | 4 => signalEnd c die x s
  | 5 =>
    match devWord c.d die (va57 (x.pay 0 8)) s with
    | (none, s) => (.failed, s)
    | (some v, s) => (.done (if condHolds (x.pay 16 1) v (x.pay 8 8) then x.next else x.alt), s)
  | 6 =>
    if x.iter + 1 ≤ x.pay 0 4 then (.done x.next, modNode die g n (fun y => { y with iter := y.iter + 1 }) s)
    else (.done x.alt, modNode die g n (fun y => { y with iter := 0 }) s)
  | _ => notifyEnd c die x s

/-- A copy of a context that is torn down runs to its end, and nothing follows it (R260). -/
def endCopy (die g n : Nat) (x : GNode) (s : State) : State :=
  match copyEnd die g n x s with
  | (.no, s) => s
  | (_, s) => modNode die g n (fun y => { y with busy := false, res := none }) s

/-- The step of an executing node's end: its arrivals, its own next firing, and the end of its run. -/
def nodeComplete (die g n : Nat) (s : State) : State :=
  match s.graph die g with
  | none => s
  | some x =>
    match x.nodes[n]?, s.liveCtx x.ctx with
    | some y, some c =>
      if !x.running || !y.busy then s
      else
        match nodeEnd c die g n y s with
        | (.no, s) => s
        | (.done l, s) =>
          let s := modNode die g n (fun y => { y with busy := false, res := none }) s
          settleRun die g 2 (settleNode die g n (l.foldl (arriveNode die g) s))
        | (.failed, s) =>
          let s := modNode die g n (fun y => { y with busy := false, res := none }) s
          settleRun die g 2 (s.modGraph die g fun x => { x with failed := some (x.failed.getD n) })
    | some y, none => if y.busy && y.kind == 2 then endCopy die g n y s else s
    | none, _ => s

/-- GRAPH_NODE_COMPLETE. -/
def execGraphNodeComplete (s : State) : Host.Outcome State Fault Refusal :=
  match s.arg with
  | .n3 die g n => .next (nodeComplete die g n s)
  | _ => .next s

end Sys2Proof.Machine
end

