-- ==== Sys2Proof/Machine/FrontEnd.lean ====
section
/-! DEFINITION. The front end and the shed: doorbells, commands, shed events, page requests and the interrupts of user rings (R262 to
R269, R278, R298, R339). -/

namespace Sys2Proof.Machine

/-! ## Doorbells and reading commands (R262) -/

/-- Stopping a queue with its QERR event. -/
def stopQueue (c q detail arg0 : Nat) (s : State) : State :=
  match s.ctx c with
  | none => s
  | some x =>
    let s := s.modQueue c q fun r => { r with stopped := true }
    logEvent c ⟨evQErr, detail, q, 0, arg0, (x.queue q).head⟩ s

/-- Whether a host function is there: the physical one, or a virtual one that its driver has assigned to an endpoint (R387). -/
def State.fnPresent (s : State) (fn : Nat) : Bool := fn == 65 || (tget s.vfs fn).isSome

/-- The valid context of a host function's doorbell page. -/
def State.pageCtx (s : State) (fn dbidx : Nat) : Option (Nat × Ctx) :=
  if s.fnPresent fn then s.ctxs.find? fun e => e.2.valid && !e.2.dying && e.2.d.hostfn == fn && e.2.d.dbidx == dbidx else none

/-- A write of a host function to doorbell `q` of its page `page`, at BAR0 offset 0x1000 + 0x200 page + 8 q. A write to no host queue is
ignored and counted, and so is one to a queue whose descriptor cannot be read (DESIGN CHOICE, log 40). -/
def hostDoorbell (fn page q : Nat) (val : BitVec 32) (s : State) : State :=
  match s.pageCtx fn page with
  | none => s.pfDrop
  | some (c, x) =>
    let die := s.homeDie x
    match readQDesc x die q s with
    | (none, s) => s.pfDrop
    | (some d, s) =>
      let v := val.toNat
      if d.size == 0 || d.dev || 64 ≤ q then s.pfDrop
      else if d.size < (v + 2 ^ 32 - (x.queue q).head) % 2 ^ 32 then stopQueue c q 0 v s
      else doorbellEvent die c q (s.modQueue c q fun r => { r with tail := v })

/-- DOORBELL_WRITE. -/
def execDoorbellWrite (s : State) : Host.Outcome State Fault Refusal :=
  match s.arg with
  | .doorbell fn page q val => .next (hostDoorbell fn page q val s)
  | _ => .next s

/-- Reading the next entry of a queue, and publishing HEAD. While the queue's descriptor cannot be read, none is read (DESIGN CHOICE,
log 40). -/
def readCommand (c q : Nat) (x : Ctx) (s : State) : State :=
  let die := s.homeDie x
  let r := x.queue q
  match readQDesc x die q s with
  | (none, s) => s
  | (some d, s) =>
    if d.size == 0 then s
    else
      let a := va57 (d.ring + 32 * (r.head % d.size))
      match devRead x.d die a 32 s with
      | (none, s) => stopQueue c q 1 a s
      | (some l, s) =>
        let h := (r.head + 1) % 2 ^ 32
        let s := s.modQueue c q fun r => { r with head := h, cmd := some ⟨BitVec.ofNat 256 (ofBytes l), a, false⟩ }
        raiseShed die ⟨.cmdread, c, queueLock c q, q, 0, false⟩ (writeForCtx c (d.headAddr / 8 * 8) (toBytes 4 h) s)

/-- Whether the front end of a die reads no command, since it holds a DOORBELL or CMDREAD event that found no room (R265). -/
def Die.readStalls (d : Die) : Bool := d.stalls .doorbell || d.stalls .cmdread

/-- COMMAND_READ. -/
def execCommandRead (s : State) : Host.Outcome State Fault Refusal :=
  match s.arg with
  | .n2 c q =>
    match s.liveCtx c with
    | some x =>
      let r := x.queue q
      .next (if r.stopped || r.cmd.isSome || r.head == r.tail || (s.die (s.homeDie x)).readStalls then s else readCommand c q x s)
    | none => .next s
  | _ => .next s

/-! ## Commands (R263, R278) -/

def Cmd.field (c : Cmd) (o n : Nat) : Nat := c.words.toNat / 2 ^ (8 * o) % 2 ^ (8 * n)
def Cmd.op (c : Cmd) : Nat := bitsOf (c.field 0 4) 3 0
def Cmd.addr_ (c : Cmd) : Nat := va57 (c.field 8 8)
def Cmd.value (c : Cmd) : Nat := c.field 16 8
def Cmd.caddr (c : Cmd) : Nat := va57 (c.field 24 8)

/-- The reason for which a command's own fields refuse it (R263). -/
def Cmd.reason (c : Cmd) : Option Nat :=
  if 5 ≤ c.op || bitsOf (c.field 0 4) 31 4 != 0 || c.field 4 4 != 0 || (c.op == 0 && c.field 8 8 != 0) || (c.op ≤ 1 && c.value != 0) then
    some 1
  else if (c.op == 1 && c.addr_ % 64 != 0) || ((c.op == 3 || c.op == 4) && c.addr_ % 8 != 0) then some 10
  else none

/-- Whether the shed has handled the CMDREAD event of a queue: it neither stands in the event queue nor waits for room there. -/
def State.cmdSeen (s : State) (die c q : Nat) : Bool :=
  !((s.die die).events ++ (s.die die).waiting).any fun e => e.kind == .cmdread && e.ctx == c && e.a0 == q

/-- The command of a queue, once the shed has seen it. -/
def State.cmdOf (s : State) (c q : Nat) : Option (Ctx × Cmd) :=
  match s.liveCtx c with
  | none => none
  | some x =>
    match (x.queue q).cmd with
    | some m => if s.cmdSeen (s.homeDie x) c q then some (x, m) else none
    | none => none

/-- A command that may start: it has the operation, and every command before it is complete. -/
def State.cmdReady (s : State) (c q op : Nat) : Option (Ctx × Cmd) :=
  match s.cmdOf c q with
  | some (x, m) => if m.op == op && (x.queue q).open_.isEmpty then some (x, m) else none
  | none => none

/-- A command completes (R264). -/
def endCmd (c q : Nat) (m : Cmd) (status reason : Nat) (s : State) : State :=
  completion c m.caddr 0 status reason (s.modQueue c q fun r => { r with cmd := none })

/-- A command with a reason to refuse it is refused; another does `f`. -/
def runCmd (op : Nat) (f : Nat → Nat → Ctx → Cmd → State → State) (s : State) : Host.Outcome State Fault Refusal :=
  match s.arg with
  | .n2 c q =>
    match s.cmdReady c q op with
    | none => .next s
    | some (x, m) =>
      match m.reason with
      | some r => .next (endCmd c q m 3 r s)
      | none => .next (f c q x m s)
  | _ => .next s

/-- A command of no known operation is refused in its turn (R263, R278). -/
def refuseUnknown (s : State) : State :=
  match s.arg with
  | .n2 c q =>
    match s.cmdOf c q with
    | some (x, m) => if 5 ≤ m.op && (x.queue q).open_.isEmpty then endCmd c q m 3 1 s else s
    | none => s
  | _ => s

/-- CMD_NOP; a command of no known operation completes as one does, but refused. -/
def execCmdNop (s : State) : Host.Outcome State Fault Refusal := runCmd 0 (fun c q _ m s => endCmd c q m 1 0 s) (refuseUnknown s)

/-- CMD_GRAPHLD. -/
def execCmdGraphld (s : State) : Host.Outcome State Fault Refusal :=
  runCmd 2 (fun c q x m s =>
    let r := loadGraph x (s.homeDie x) m.addr_ (m.value % 256) s
    endCmd c q m (if r.1 == 0 then 1 else 3) r.1 r.2) s

/-- One read of a WAIT: it completes where the word has reached the threshold, or cannot be read. -/
def waitRead (c q : Nat) (x : Ctx) (m : Cmd) (s : State) : State :=
  match devWord x.d (s.homeDie x) m.addr_ s with
  | (none, s) => endCmd c q m 3 11 s
  | (some v, s) => if m.value ≤ v then endCmd c q m 1 0 s else s

/-- CMD_WAIT: the wait starts. -/
def execCmdWait (s : State) : Host.Outcome State Fault Refusal :=
  runCmd 3 (fun c q x m s =>
    if m.started then s
    else
      match devWord x.d (s.homeDie x) m.addr_ s with
      | (none, s) => endCmd c q m 3 11 s
      | (some _, s) => s.modQueue c q fun r => { r with cmd := some { m with started := true } }) s

/-- CMD_WAIT_SATISFIED. -/
def execCmdWaitSatisfied (s : State) : Host.Outcome State Fault Refusal :=
  runCmd 3 (fun c q x m s => if m.started then waitRead c q x m s else s) s

/-- A store that the front end makes for the host function of a context: at a trigger word it triggers the graph (R263, R283). -/
def signalStore (c : Nat) (d : CtxDesc) (va : Nat) (l : List Byte) (s : State) : Bool × State :=
  match xlate d va s with
  | (.ok x, s) => if s.devMay d (s.yardHome d.yard) x l.length false true then (true, storeSpa c x.spa l s) else (false, s)
  | (e, s) => (false, logWalks c (e.errs va) s)

/-- CMD_SIGNAL. -/
def execCmdSignal (s : State) : Host.Outcome State Fault Refusal :=
  runCmd 4 (fun c q x m s =>
    match signalStore c x.d m.addr_ (toBytes 8 m.value) s with
    | (true, s) => endCmd c q m 1 0 s
    | (false, s) => endCmd c q m 3 11 s) s

/-- A refused launch: REFUSED, and the completion word (R269). -/
def refuseLaunch (c q : Nat) (m : Cmd) (reason : Nat) (s : State) : State :=
  endCmd c q m 3 reason (logEvent c ⟨evRefused, reason, q, 0, m.addr_, 0⟩ s)

/-- Whether the launches before a LAUNCH let it begin: they have ended, or OVERLAP is set and they are bound (R278). -/
def State.mayBegin (s : State) (r : QueueRt) (overlap : Bool) : Bool :=
  r.open_.all fun id => match s.launch id with
    | some l => overlap && (l.killed || decide (l.total ≤ l.bound))
    | none => true

/-- A LAUNCH command whose own fields are right (R269, R270). -/
def tryLaunch (c q : Nat) (x : Ctx) (m : Cmd) (s : State) : State :=
  match checkRecord x m.addr_ s with
  | (.error r, t) => if (x.queue q).open_.isEmpty then refuseLaunch c q m r t else s
  | (.ok rc, t) =>
    if s.mayBegin (x.queue q) rc.overlap then
      let r := acceptLaunch x rc m.addr_ (.queue q m.caddr) t
      r.2.modQueue c q fun y => { y with cmd := none, open_ := y.open_ ++ [r.1] }
    else s

/-- CMD_LAUNCH. -/
def execCmdLaunch (s : State) : Host.Outcome State Fault Refusal :=
  match s.arg with
  | .n2 c q =>
    match s.cmdOf c q with
    | some (x, m) =>
      if m.op != 1 then .next s
      else
        match m.reason with
        | some 10 => .next (if (x.queue q).open_.isEmpty then refuseLaunch c q m 10 s else s)
        | some r => .next (if (x.queue q).open_.isEmpty then endCmd c q m 3 r s else s)
        | none => .next (tryLaunch c q x m s)
    | none => .next s
  | _ => .next s

/-- ADMIN_QUEUE_REENABLE. -/
def execAdminQueueReenable (s : State) : Host.Outcome State Fault Refusal :=
  match s.arg with
  | .n2 c q => .next (s.modQueue c q fun r => { r with stopped := false })
  | _ => .next s

/-! ## The shed (R265) -/

/-- The oldest event of a kind that no earlier event of its lock keeps waiting. -/
def shedPick (kind : ShedKind) : List Nat → List ShedEvent → Option ShedEvent
  | _, [] => none
  | locks, e :: l => if e.kind == kind && !locks.contains e.lock then some e else shedPick kind (e.lock :: locks) l

/-- Handling an event of a kind. -/
def shedEvent (kind : ShedKind) (f : Nat → ShedEvent → State → State) (s : State) : Host.Outcome State Fault Refusal :=
  match s.arg with
  | .n1 die =>
    match shedPick kind [] (s.die die).events with
    | some e => .next (f die e (shedPop die e s))
    | none => .next s
  | _ => .next s

/-- SHED_EVENT_DOORBELL: the queue's entries are then read (R262). -/
def execShedEventDoorbell (s : State) : Host.Outcome State Fault Refusal := shedEvent .doorbell (fun _ _ s => s) s

/-- SHED_EVENT_CMDREAD. A command of no known operation completes here, unless a command before it has not completed (R262, R263, R278);
it then completes as CMD_NOP does. -/
def execShedEventCmdread (s : State) : Host.Outcome State Fault Refusal :=
  shedEvent .cmdread (fun _ e s =>
    match s.liveCtx e.ctx with
    | none => s
    | some x =>
      match (x.queue e.a0).cmd with
      | some m => if 5 ≤ m.op && (x.queue e.a0).open_.isEmpty then endCmd e.ctx e.a0 m 3 1 s else s
      | none => s) s

/-- SHED_EVENT_BINDDONE: free slots take records that wait for them (R271). -/
def execShedEventBinddone (s : State) : Host.Outcome State Fault Refusal := shedEvent .binddone (fun _ _ s => bindAll s) s

/-- SHED_EVENT_ERROR: what an uncorrectable error does has been done when it was detected (R341). -/
def execShedEventError (s : State) : Host.Outcome State Fault Refusal := shedEvent .error (fun _ _ s => s) s

/-- SHED_EVENT_TRIGGER. -/
def execShedEventTrigger (s : State) : Host.Outcome State Fault Refusal :=
  shedEvent .trigger (fun die e s => if s.holdsGraph die e.ctx e.a0 then triggerRun die e.a0 s else s) s

/-! ## Page requests (R206, R266, R339) -/

/-- An item joins the request for its page, or a new one is sent to the context's host function. A request that several items share names
the access of the first of them (DESIGN CHOICE, log 55). -/
def joinRequest (c : Nat) (x : Ctx) (id va : Nat) (write : Bool) (s : State) : State :=
  let pause := fun (n : Nat) (s : State) => s.modItem id fun w => { w with paused := some (n + 1) }
  match x.reqs.find? (·.va == va) with
  | some r => pause r.num s
  | none =>
    let s := s.modCtx c fun y => { y with reqs := y.reqs ++ [⟨x.nextReq, va, write, s.cycle⟩], nextReq := y.nextReq + 1 }
    pause x.nextReq { s with out := s.out ++ [.pageRequest x.d.hostfn c x.nextReq va write] }

/-- SHED_EVENT_COPYFLT. -/
def execShedEventCopyflt (s : State) : Host.Outcome State Fault Refusal :=
  shedEvent .copyflt (fun _ e s =>
    match s.item e.a0, s.ctx e.ctx with
    | some w, some x => if w.paused == some 0 then joinRequest e.ctx x w.id (e.a1 / 65536 * 65536) (bitOf e.a1 0) s else s
    | _, _ => s) s

/-- Ending an outstanding request: its items go on, or fail with a cause. -/
def endRequest (c num : Nat) (res : Option Cause) (s : State) : State :=
  let s := s.modCtx c fun y => { y with reqs := y.reqs.filter (·.num != num) }
  { s with items := s.items.map fun (w : Item) =>
      if w.ctx == c && w.paused == some (num + 1) then
        { w with paused := none, fail := match res with
          | some k => some k
          | none => w.fail }
      else w }

def State.request (s : State) (c num : Nat) : Option PageReq :=
  match s.ctx c with
  | some x => x.reqs.find? (·.num == num)
  | none => none

/-- Whether a page request has had no answer within 10 ms (R266). -/
def State.reqLate (s : State) (r : PageReq) : Bool := decide (r.since + cyclesOfNs 10000000 ≤ s.cycle)

/-- PAGE_REQUEST_ANSWER. An answer that names no outstanding request is ignored, and one that comes too late resumes nothing. -/
def execPageRequestAnswer (s : State) : Host.Outcome State Fault Refusal :=
  match s.arg with
  | .ok c num resume =>
    match s.request c num with
    | some r => .next (endRequest c num (if resume && !s.reqLate r then none else some .anrs) s)
    | none => .next s
  | _ => .next s

/-- PAGE_REQUEST_TIMEOUT: no answer within 10 ms. -/
def execPageRequestTimeout (s : State) : Host.Outcome State Fault Refusal :=
  match s.arg with
  | .n2 c num =>
    match s.request c num with
    | some r => .next (if s.reqLate r then endRequest c num (some .anrs) s else s)
    | none => .next s
  | _ => .next s

/-- Firmware posts the pull of a page that has not come with its context's memory (R339). -/
def postCopy (p : Pull) (s : State) : State :=
  let src := match p.src with
    | .inl a => namesByte a && namesByte (a + p.n - 1)
    | .inr l => l.length == p.n
  if p.n == 0 || p.va % p.n != 0 || !namesByte p.dst || !namesByte (p.dst + p.n - 1) || !namesByte p.ent || p.ent % 8 != 0 || !src then s
  else { s with pulls := s.pulls ++ [p] }

/-- The pull that holds a page of a context, done: its bytes copied, and its entry written, so that it is resident. -/
def pullPage (c va : Nat) (s : State) : State :=
  match s.pulls.find? fun (p : Pull) => p.ctx == c && decide (p.va ≤ va) && decide (va < p.va + p.n) with
  | none => s
  | some p =>
    let b := match p.src with
      | .inl a => s.readSpa a p.n
      | .inr l => l
    (({ s with pulls := s.pulls.erase p }.writeSpa p.dst b).repair p.dst p.n).writeSpa p.ent (toBytes 8 p.val.toNat)

/-- The pull of a page whose contents are lost is given up (R339). -/
def dropPull (c va : Nat) (s : State) : State :=
  { s with pulls := s.pulls.filter fun (p : Pull) => !(p.ctx == c && decide (p.va ≤ va) && decide (va < p.va + p.n)) }

/-- PAGE_PULL_COMPLETE: firmware has pulled the page, or its source or path has failed (R339). -/
def execPagePullComplete (s : State) : Host.Outcome State Fault Refusal :=
  match s.arg with
  | .ok c num pulled =>
    match s.request c num with
    | some r =>
      .next (if pulled then endRequest c num none (pullPage c r.va s) else endRequest c num (some .rplx) (logPlain c evPullFail Cause.rplx.code 0 r.va 0 (dropPull c r.va s)))
    | none => .next s
  | _ => .next s

/-! ## Interrupts and fences -/

/-- COALT_TIMER_EXPIRY: COALT after the first entry not yet signalled (R298). -/
def execCoaltTimerExpiry (s : State) : Host.Outcome State Fault Refusal :=
  match s.arg with
  | .n2 c r =>
    match s.liveCtx c with
    | some x =>
      let u := ringOf x r
      let rt := tgetD x.rings r ⟨0, 0⟩
      .next (if u.coalt != 0 && rt.unsent != 0 && decide (rt.since + cyclesOfNs (1000 * u.coalt) ≤ s.cycle) then sendRingInt c r s else s)
    | none => .next s
  | _ => .next s

/-- ADMIN_FENCE_RELEASE: the driver releases a yard's watchdog fence (R288). -/
def execAdminFenceRelease (s : State) : Host.Outcome State Fault Refusal :=
  match s.arg with
  | .n2 die y => .next (s.modDie die fun d => { d with yfence := d.yfence.filter (· != y) })
  | _ => .next s

end Sys2Proof.Machine
end

