-- ==== Sys2Proof/Machine/Admin.lean ====
section
/-! DEFINITION. What firmware does at a driver's request: invalidations, contexts and their tear-down, yards, frames, keys, reach,
gates and communicators (R232 to R236, R244 to R247, R259, R260, R328, R331, R332, R353, R357, R362, R368, R392). -/

namespace Sys2Proof.Machine

/-- Whether the module has booted, so that its host interfaces are enabled (R384). -/
def State.ready (s : State) : Bool := s.boot.state == 1

/-- An event that a host's driver brings about: only while the host interfaces are enabled. -/
def hostEvent (f : State → State) (s : State) : Host.Outcome State Fault Refusal := .next (if s.ready then f s else s)

/-! ## Invalidations (R244 to R246) -/

/-- The VMID under which a virtual function's commands run (Table 12.6): that of its contexts. The spec does not say which it is where
they have several, or where it has none: the first context's, or the command's own (DESIGN CHOICE, log 46). -/
def State.fnVmid (s : State) (fn v : Nat) : Nat :=
  if 1 ≤ fn && fn ≤ 64 then ((s.ctxs.find? fun e => e.2.d.hostfn == fn).map fun e => e.2.d.vmid).getD v else v

/-- Whether a command obeys Table 12.6 and its function may issue it; function 0 is shed firmware. -/
def invalOk (fn op : Nat) (x : Nat) : Bool :=
  let by_ := fun (o n : Nat) => x / 2 ^ (8 * o) % 2 ^ (8 * n)
  decide (1 ≤ op) && decide (op ≤ 5) && bitsOf x 15 4 == 0 && by_ 6 2 == 0 && by_ 20 4 == 0 && by_ 24 8 % 8 == 0 &&
    ((op != 1 && op != 3) || (by_ 8 8 % 65536 == 0 && by_ 16 4 != 0)) && (fn == 0 || fn == 65 || decide (op ≤ 2))

/-- A ring that nobody has set up. -/
def InvalRing.none : InvalRing := ⟨0, 0, 0, 0, false, []⟩

/-- Whether a function may have a ring now: shed firmware, function 0, or a host function that is there, once the module has booted. -/
def State.mayRing (s : State) (fn : Nat) : Bool := s.ready && (fn == 0 || s.fnPresent fn)

/-- A function's ring is set up in its own memory: host memory of a host function, memory of die 0 for firmware (log 17). A ring with
commands still to complete stays as it is; a stopped one that is set up as it stands goes on where it stopped (R262). -/
def setInvalRing (fn base size : Nat) (s : State) : State :=
  let r := tgetD s.invals fn InvalRing.none
  if !s.mayRing fn || base % 32 != 0 || !isPow2 size || size < 16 || 65536 < size || !namesByte base || !namesByte (base + 32 * size - 1) ||
      spaSpace base != (if fn == 0 then 0 else 2) then s
  else if r.stopped && r.base == base && r.size == size then { s with invals := tset s.invals fn { r with stopped := false } }
  else if r.cmds.isEmpty then { s with invals := tset s.invals fn ⟨base, size, 0, 0, false, []⟩ }
  else s

/-- Stopping a ring as a command queue stops, with a QERR entry in the physical function's log (R244, R262, log 17). -/
def stopInval (fn detail arg0 : Nat) (r : InvalRing) (s : State) : State :=
  { s with invals := tset s.invals fn { r with stopped := true } }.pfEvent ⟨evQErr, detail, 0xFFFF, fn, arg0, r.next % 2 ^ 32⟩

/-- The doorbell of a ring sets its TAIL (R244); a value further ahead than the ring is long stops it (R262). -/
def ringInval (fn tail : Nat) (s : State) : State :=
  match tget s.invals fn with
  | none => s
  | some r =>
    let v := tail % 2 ^ 32
    if !s.mayRing fn then s
    else if r.size < (v + 2 ^ 32 - r.next % 2 ^ 32) % 2 ^ 32 then stopInval fn 0 v r s
    else { s with invals := tset s.invals fn { r with tail := v } }

/-- The address of the command at the head of a ring. -/
def InvalRing.headSpa (r : InvalRing) : Nat := r.base + 32 * (r.next % r.size)

/-- The command at the head of a function's ring that is not stopped, as its 32 bytes stand in the function's memory. -/
def State.invalHead (s : State) (fn : Nat) : Option Nat :=
  match tget s.invals fn with
  | some r => if r.stopped || r.next % 2 ^ 32 == r.tail then none else some (ofBytes (s.readSpa r.headSpa 32))
  | none => none

/-- Whether the read of the command at the head of a ring gets an error: its line has failed. -/
def State.invalBad (s : State) (r : InvalRing) : Bool := (s.badAt r.headSpa 32 true).isSome || s.hostBad r.headSpa 32

/-- The fields of a command (Table 12.6), the one with number `n` of its ring. -/
def invalCmd (s : State) (fn n x : Nat) : InvalCmd :=
  let by_ := fun (o n : Nat) => x / 2 ^ (8 * o) % 2 ^ (8 * n)
  let o := bitsOf x 3 0
  let lo := by_ 8 8 % 2 ^ 57
  { n := n, op := o, vmid := s.fnVmid fn (by_ 2 2), asid := by_ 4 2, lo := lo, hi := lo + 65536 * by_ 16 4,
    caddr := by_ 24 8 % 2 ^ 57, refused := !invalOk fn o x }

/-- A command is taken from its ring, in order: it is refused, or it waits for its completion. A reserved OP is taken as OP 5 would be. An
entry that cannot be read stops the ring (R262). -/
def takeInval (op : Nat) (s : State) : State :=
  match s.arg with
  | .n1 fn =>
    match s.invalHead fn with
    | none => s
    | some x =>
      let o := bitsOf x 3 0
      if o != op && !(op == 5 && (o == 0 || decide (5 < o))) then s
      else
        let r := tgetD s.invals fn InvalRing.none
        if s.invalBad r then stopInval fn 1 r.headSpa r s
        else { s with invals := tset s.invals fn { r with next := r.next + 1, cmds := r.cmds ++ [invalCmd s fn r.next x] } }
  | _ => s

def execInvalStage1Va (s : State) : Host.Outcome State Fault Refusal := hostEvent (takeInval 1) s
def execInvalStage1Asid (s : State) : Host.Outcome State Fault Refusal := hostEvent (takeInval 2) s
def execInvalStage2Gpa (s : State) : Host.Outcome State Fault Refusal := hostEvent (takeInval 3) s
def execInvalStage2Vmid (s : State) : Host.Outcome State Fault Refusal := hostEvent (takeInval 4) s
def execInvalAll (s : State) : Host.Outcome State Fault Refusal := hostEvent (takeInval 5) s

/-- Whether a command names a cached entry: any that its range overlaps (R245), and by OP 3 any stage-1 entry that a walk read through a
stage-2 entry so named (R246). -/
def InvalCmd.names (c : InvalCmd) (l : List TlbEnt) (t : TlbEnt) : Bool :=
  let meets := fun (t : TlbEnt) => decide (max c.lo t.lo < min c.hi t.hi)
  let named := fun (t : TlbEnt) => t.stage2 && t.vmid == c.vmid && meets t
  match c.op with
  | 1 => !t.stage2 && t.vmid == c.vmid && t.asid == c.asid && meets t
  | 2 => !t.stage2 && t.vmid == c.vmid && t.asid == c.asid
  | 3 => named t || (!t.stage2 && t.vmid == c.vmid &&
      ((decide (c.lo ≤ t.gpa) && decide (t.gpa < c.hi)) ||
        l.any fun u => named u && decide (u.lo ≤ t.gpa) && decide (t.gpa < u.hi)))
  | 4 => t.vmid == c.vmid
  | _ => true

/-- Whether an access that was translated before may still be on its way: a request to another module, an access not yet performed, or a
repl store that some member has still to apply. Every other access is performed, or has its value bound, as it issues (R246). -/
def State.inFlight (s : State) (c : InvalCmd) : Bool :=
  let hit := fun (n : Nat) => match s.ctx n with
    | some x => c.op == 5 || x.d.vmid == c.vmid
    | none => false
  s.globs.any (fun (r : GlobReq) => hit r.ctx) || s.held.any (fun (h : Held) => hit h.ctx) ||
    s.dies.any fun d => d.repl.upds.any (fun (u : Upd) => hit u.ctx) || d.repl.outLog.any fun o => o.any fun (p : Packet) => hit p.ctx

/-- The place of a completion word of a ring: host memory of a host function, memory of die 0 for firmware (log 17). -/
def invalSpa (fn caddr : Nat) : Nat := mkSpa (if fn == 0 then 0 else 2) 0 (caddr / 8 * 8 % 2 ^ 46)

/-- INVAL_COMPLETE: the oldest command of a ring. -/
def execInvalComplete (s : State) : Host.Outcome State Fault Refusal :=
  match s.arg with
  | .n1 fn =>
    match tget s.invals fn with
    | some r =>
      match r.cmds with
      | [] => .next s
      | c :: rest =>
        if !c.refused && s.inFlight c then .next s
        else
          let s := { s with invals := tset s.invals fn { r with cmds := rest } }
          let s := if c.refused then s else { s with tlb := s.tlb.filter fun t => !c.names s.tlb t }
          .next (s.writeSpa (invalSpa fn c.caddr) (toBytes 8 (if c.refused then 2 ^ 63 + c.n else c.n)))
    | none => .next s
  | _ => .next s

/-! ## Contexts (R259, R357) -/

/-- Whether a user ring descriptor obeys R298. -/
def uringOk (u : URing) : Bool :=
  u.base % 64 == 0 && decide (u.base < 2 ^ 57) && (u.size == 0 || (isPow2 u.size && decide (16 ≤ u.size) && decide (u.size ≤ 2 ^ 20))) &&
    decide (u.coalt < 2 ^ 16) && decide (u.coaln < 2 ^ 8)

/-- Whether the fields of a context descriptor are such as Table 13.1 allows; EVSIZE 0 is a log that nobody has set up (log 37). -/
def ctxDescOk (d : CtxDesc) : Bool :=
  decide (d.yard < 32) && decide (d.pen < 256) && decide (d.ctxid < 2 ^ 16) && decide (d.vmid < 2 ^ 16) && decide (d.asid < 2 ^ 16) &&
    decide (d.root1 < 2 ^ 52) && decide (d.root2 < 2 ^ 52) && decide (d.keyid < 2 ^ 16) && decide (d.tenant < 2 ^ 16) &&
    decide (d.bclass < 64) && decide (d.hostfn ≤ 65) && decide (d.qtable < 2 ^ 57) && decide (d.evbase < 2 ^ 57) && d.evbase % 64 == 0 &&
    (d.evsize == 0 || (isPow2 d.evsize && decide (16 ≤ d.evsize) && decide (d.evsize ≤ 2 ^ 20))) && decide (d.vecbase < 2 ^ 16) &&
    decide (d.dbidx < 16) && decide (d.urings.length ≤ 8) && d.urings.all uringOk

/-- Whether a yard has clusters on a die. -/
def State.yardOn (s : State) (y die : Nat) : Bool := lget (s.yard y).cmask die 0 != 0

/-- Whether the context table of some die of a yard is full for a context (R259). -/
def State.ctxFull (s : State) (d : CtxDesc) : Bool :=
  (List.range 8).any fun e => s.yardOn d.yard e &&
    decide (256 ≤ (s.ctxs.filter fun c => c.1 != d.ctxid && s.yardOn c.2.d.yard e).length)

/-- Whether a context has a group on a core, or a bind record in force. -/
def State.ctxPlaced (s : State) (c : Nat) : Bool :=
  (s.groups.any fun e => e.2.life.resident && s.ctxOf e.1 == c) || s.dies.any fun d => d.binds.any fun e => e.2.valid && e.2.ctx == c

/-- A context comes to a pen, or to its whole yard: it leaves the pen that it held, and holds its own if no other does (R331). -/
def joinPen (c y n : Nat) (s : State) : State :=
  let mine := (y, n)
  { s with pens := s.pens.map fun e =>
      if e.1 == mine then (e.1, { e.2 with holder := some (e.2.holder.getD c) })
      else if e.2.holder == some c then (e.1, { e.2 with holder := none })
      else e }

/-- ADMIN_CONTEXT_WRITE: a descriptor is written, for a new context or over that of a valid one, whose queues, rings and requests stay.
Its doorbell page is its own within its function (R262), its key is not in quarantine (R357), and the table of each of its dies has
room. A pen fixes its contexts' account (R329); a context changes its pen or yard only while it has no launch, so that what a launch reads
of them stays as it is (R49). -/
def writeContext (d : CtxDesc) (s : State) : State :=
  let other := fun (p : CtxDesc → Bool) => s.ctxs.any fun e => e.1 != d.ctxid && e.2.valid && p e.2.d
  let taken := d.hostfn != 0 && other fun x => x.hostfn == d.hostfn && x.dbidx == d.dbidx
  let penned := d.pen != 0xFF && ((tget s.pens (d.yard, d.pen)).isNone || (s.pen d.yard d.pen).acct != d.bclass)
  if !ctxDescOk d || taken || penned || (tget s.quar d.keyid).isSome || s.ctxFull d then s
  else
    match s.ctx d.ctxid with
    | none => joinPen d.ctxid d.yard d.pen { s with ctxs := tset s.ctxs d.ctxid ⟨d, true, false, 0, [], [], [], 0⟩ }
    | some x =>
      if !x.valid || x.dying || ((x.d.yard != d.yard || x.d.pen != d.pen) && s.launches.any fun e => e.2.ctx == d.ctxid) then s
      else joinPen d.ctxid d.yard d.pen (s.modCtx d.ctxid fun x => { x with d := d })

def execAdminContextWrite (s : State) : Host.Outcome State Fault Refusal :=
  match s.arg with
  | .ctxDesc d => hostEvent (writeContext d) s
  | _ => .next s

/-! ## Loft frames (R232 to R236) -/

/-- Step 1 of a tear-down: QUAR in the frames that satisfy a condition. -/
def quarFrames (die : Nat) (p : Nat → Word → Bool) (s : State) : State :=
  s.modDie die fun d => { d with frames := d.frames.map fun e => if frameValid e.2 && p e.1 e.2 then (e.1, e.2 ||| 0x01000000#32) else e }

/-- Whether a die holds frames of a yard that are being torn down. -/
def State.tearing (s : State) (die y : Nat) : Bool :=
  (s.die die).frames.any fun e => frameValid e.2 && frameQuar e.2 && frameYard e.2 == y

/-- Whether a frame of a die is being torn down for a yard. -/
def State.goneFrame (s : State) (die y f : Nat) : Bool :=
  let w := s.frame die f
  frameValid w && frameQuar w && frameYard w == y

/-- Whether a range of slice-linear offsets of a core touches a frame of a yard that is being torn down. -/
def State.touchesGone (s : State) (die y core lo hi : Nat) : Bool :=
  (List.range 128).any fun i => decide (lo < 65536 * (i + 1)) && decide (65536 * i < hi) && s.goneFrame die y (128 * core + i)

/-- Whether an access that was admitted to frames being torn down may still be under way: an item of a TMOV or of an array command, which
were admitted at their checks (R233), or an access of a strand not yet performed. -/
def State.usesGone (s : State) (die y : Nat) : Bool :=
  (s.items.any fun (w : Item) => (w.kind == .tmov || w.kind == .array) && w.regions.any fun r => match r.space with
      | .loft d c => d == die && s.touchesGone die y c r.lo r.hi
      | _ => false) ||
    s.held.any fun (h : Held) => match h.loc with
      | .spa a => spaSpace a == 1 && spaDie a == die && s.goneFrame die y (frameOfOff (spaOff a))
      | _ => false

/-- Step 3 of R236 on a slot that only frames being torn down use: a live one goes to discarding; the keys of one that discards are
overwritten, with what is open (log 2), and it is free. -/
def discardSlot (die k : Nat) (s : State) : State :=
  match (lget (s.die die).keySlots k KeySlot.zero).state with
  | .free => s
  | .live => s.modDie die fun d => { d with keySlots := lmod d.keySlots k fun z => { z with state := .discarding } }
  | .discarding =>
    let r := s.drawNat
    r.2.modDie die fun d => { d with keySlots := lset d.keySlots k ⟨r.1 % 2 ^ 256, 0, .free⟩ }

/-- LOFT_TEARDOWN_FINISH: steps 2 to 4 of R236. VALID is cleared once no slot of the frames is still to be discarded. -/
def execLoftTeardownFinish (s : State) : Host.Outcome State Fault Refusal :=
  match s.arg with
  | .n2 die y =>
    if !s.tearing die y || s.usesGone die y then .next s
    else
      let gone := fun (w : Word) => frameValid w && frameQuar w && frameYard w == y
      let fs := (s.die die).frames
      let slots := ((fs.filter (gone ·.2)).map fun e => frameKslot e.2).eraseDups
      let alone := slots.filter fun k => fs.all fun e => !frameValid e.2 || gone e.2 || frameKslot e.2 != k
      let live := alone.any fun k => (lget (s.die die).keySlots k KeySlot.zero).state == .live
      let s := alone.foldl (fun s k => discardSlot die k s) s
      .next (if live then s
        else s.modDie die fun d => { d with frames := d.frames.map fun e => if gone e.2 then (e.1, e.2 &&& 0xFFFFFFFE#32) else e })
  | _ => .next s

/-- A frame's entry while no tear-down of it goes on: it is given under a live slot of the yard's tenant, which becomes live with fresh keys
(R235, log 2) if the tenant has none; or it is taken, which begins its tear-down. -/
def writeFrame (die f : Nat) (e : Word) (s : State) : State :=
  let old := s.frame die f
  let e := e &&& 0x00FF07FF#32
  let k := frameKslot e
  let slot := lget (s.die die).keySlots k KeySlot.zero
  let key := (s.yard (frameYard e)).keyid
  let other := (List.range 32).any fun i =>
    let z := lget (s.die die).keySlots i KeySlot.zero
    i != k && z.state == .live && z.keyid == key
  if 12288 ≤ f || (frameValid old && frameQuar old) || s.isFenced die 2 (f / 8) then s
  else if frameValid old && (!frameValid e || frameYard e != frameYard old || frameKslot e != frameKslot old) then
    quarFrames die (fun n _ => n == f) s
  else if !frameValid e then s.modDie die fun d => { d with frames := tset d.frames f e }
  else if !(s.yard (frameYard e)).valid || other || slot.state == .discarding || (slot.state == .live && slot.keyid != key) ||
      s.isFenced die 9 k then s
  else
    let s := if slot.state == .live then s
      else
        let r := s.drawNat
        r.2.modDie die fun d => { d with keySlots := lset d.keySlots k ⟨r.1 % 2 ^ 256, key, .live⟩ }
    s.modDie die fun d => { d with frames := tset d.frames f e }

/-- FRAME_OWNERSHIP_WRITE, by the shed firmware of a module that has booted (R232, R384). -/
def execFrameOwnershipWrite (s : State) : Host.Outcome State Fault Refusal :=
  match s.arg with
  | .frame die f e => hostEvent (writeFrame die f e) s
  | _ => .next s

/-! ## The tear-down of a context (R260, R357) -/

/-- Steps 1 and 2. Page requests stay outstanding, so that the committed items that wait for them end (step 3). -/
def teardown (c : Nat) (s : State) : State :=
  match s.liveCtx c with
  | none => s
  | some _ =>
    let s := s.modCtx c fun x => { x with valid := false, dying := true, queues := [] }
    let s := revokeBinds (·.ctx == c) s
    let s := { s with launches := s.launches.map fun (e : Nat × Launch) => if e.2.ctx == c then (e.1, { e.2 with silent := true }) else e }
    ((s.launches.filter fun (e : Nat × Launch) => e.2.ctx == c).map (·.1)).foldl (fun s n => killLaunch n s) s

def execContextTeardown (s : State) : Host.Outcome State Fault Refusal :=
  match s.arg with
  | .n1 c => hostEvent (teardown c) s
  | _ => .next s

/-- Revoking a key on the module (R357): its requests in flight are dropped and counted, and its quarantine begins. -/
def revokeKey (key : Nat) (s : State) : State :=
  { s with
    pfDrops := s.pfDrops + (s.globs.filter (·.keyid == key)).length
    globs := s.globs.filter (·.keyid != key)
    replies := s.replies.filter (·.way.keyid != key)
    revoked := tset s.revoked key s.cycle
    quar := tset s.quar key s.cycle }

/-- CONTEXT_TEARDOWN_FINISH: steps 3 to 5, once the committed engine work and the launches of the context have ended. -/
def execContextTeardownFinish (s : State) : Host.Outcome State Fault Refusal :=
  match s.arg with
  | .n1 c =>
    match s.ctx c with
    | none => .next s
    | some x =>
      if !x.dying || (s.items.any fun (w : Item) => w.ctx == c) || (s.launches.any fun e => e.2.ctx == c) then .next s
      else
        let s := { s with
          ctxs := tdel s.ctxs c
          pens := s.pens.map fun e => if e.2.holder == some c then (e.1, { e.2 with holder := none }) else e
          dies := s.dies.map fun d => { d with graphs := d.graphs.filter fun g => g.2.ctx != c } }
        let others := s.ctxs.filter fun e => e.2.valid
        let s := if others.any fun e => e.2.d.yard == x.d.yard then s
          else (List.range 8).foldl (fun s d => quarFrames d (fun _ w => frameYard w == x.d.yard) s) s
        .next (if others.any fun e => e.2.d.keyid == x.d.keyid then s else revokeKey x.d.keyid s)
  | _ => .next s

/-- REPLY_RESERVATION_RELEASE: 20 µs after the revocation the key's reservations, allowances and entries go. -/
def execReplyReservationRelease (s : State) : Host.Outcome State Fault Refusal :=
  match s.arg with
  | .n1 key =>
    match tget s.revoked key with
    | some t =>
      .next (if t + cyclesOfNs 20000 ≤ s.cycle then
          { s with
            revoked := tdel s.revoked key
            dies := s.dies.map fun d =>
              { d with
                keys := tdel d.keys key
                ports := d.ports.map fun (p : Port) => { p with allow := tdel p.allow (.share key), shares := tdel p.shares key } } }
        else s)
    | none => .next s
  | _ => .next s

/-- KEYID_QUARANTINE_END: 100 µs after the revocation. -/
def execKeyidQuarantineEnd (s : State) : Host.Outcome State Fault Refusal :=
  match s.arg with
  | .n1 key =>
    match tget s.quar key with
    | some t =>
      .next (if t + cyclesOfNs 100000 ≤ s.cycle && (tget s.revoked key).isNone then { s with quar := tdel s.quar key } else s)
    | none => .next s
  | _ => .next s

/-! ## Yards (R328, R331) -/

/-- Whether a cluster holds a group, a window or a loft frame of a yard (R331). -/
def State.clusterHeld (s : State) (die cl y : Nat) : Bool :=
  (s.groups.any fun e => e.2.die == die && e.2.core / 8 == cl && e.2.life.resident && s.yardOf (s.ctxOf e.1) == y) ||
    (s.die die).frames.any fun e => frameValid e.2 && frameYard e.2 == y && e.1 / 128 / 8 == cl

/-- A condition on some cluster of some die. -/
def anyCluster (p : Nat → Nat → Bool) : Bool := (List.range 8).any fun d => (List.range 12).any fun c => p d c

/-- Whether the fields of a yard descriptor fit Table 15.10. -/
def yardDescOk (y : YardDesc) : Bool :=
  decide (y.yard < 32) && decide (y.tenant < 2 ^ 16) && decide (y.keyid < 2 ^ 16) && decide (y.cmask.length ≤ 8) &&
    y.cmask.all (fun m => decide (m < 2 ^ 12)) && decide (y.capCore < 2 ^ 64) && decide (y.capHbm < 2 ^ 64) &&
    decide (y.capFab < 2 ^ 64) && decide (y.allow < 2 ^ 32)

/-- ADMIN_YARD_WRITE: a descriptor, the same on every die. No two valid yards share a cluster; a cluster leaves a yard that stays valid, and
comes to a yard, only when it holds nothing of another (R331); its pens keep no cluster that it has lost (R329). A yard made invalid has its
loft state torn down (R236). The table of a die has room for the contexts of the yards on it (R259). -/
def writeYard (y : YardDesc) (s : State) : State :=
  let old := s.yard y.yard
  let has := fun (z : YardDesc) d c => z.valid && bitOf (lget z.cmask d 0) c
  let clash := anyCluster fun d c => has y d c && s.yards.any fun e => e.1 != y.yard && has e.2 d c
  let left := anyCluster fun d c => has old d c && !has y d c && s.clusterHeld d c y.yard
  let full := anyCluster fun d c => has y d c && !has old d c && (List.range 32).any fun n => n != y.yard && s.clusterHeld d c n
  let pens := s.pens.map fun e =>
    if e.1.1 == y.yard then (e.1, { e.2 with cmask := e.2.cmask.zipWith (· &&& ·) ((List.range 8).map fun d => lget y.cmask d 0) }) else e
  let t : State := { s with yards := tset s.yards y.yard y, pens := pens }
  let crowded := (List.range 8).any fun d => decide (256 < (t.ctxs.filter fun (c : Nat × Ctx) => t.yardOn c.2.d.yard d).length)
  if !yardDescOk y || clash || full || crowded || (y.valid && left) then s
  else
    let s := t
    if old.valid && !y.valid then (List.range 8).foldl (fun s d => quarFrames d (fun _ w => frameYard w == y.yard) s) s else s

/-- Whether firmware may take a pen from its holder: the holder has no group on a core, and the slice of the pen's account has ended wherever
the holder has a bind record in force (R331). -/
def State.penFree (s : State) (p : Pen) : Bool :=
  match p.holder with
  | none => true
  | some c => (s.groups.all fun e => !e.2.life.resident || s.ctxOf e.1 != c) &&
      (List.range 8).all fun d => (s.acct d p.acct).ended || (s.die d).binds.all fun e => !e.2.valid || e.2.ctx != c

/-- Firmware's record of a pen: clusters of its yard that no other pen of the yard has, its account (R329), and the context that holds it.
Clusters and account change only while no context of the pen has anything placed; the holder, a context of the pen, changes only at a slice
end (R331). -/
def writePen (y n : Nat) (p : Pen) (s : State) : State :=
  let old := s.pen y n
  let mine := fun (e : Nat × Ctx) => e.2.valid && e.2.d.yard == y && e.2.d.pen == n
  let clash := anyCluster fun d c => bitOf (lget p.cmask d 0) c &&
    (!bitOf (lget (s.yard y).cmask d 0) c || s.pens.any fun e => e.1.1 == y && e.1.2 != n && bitOf (lget e.2.cmask d 0) c)
  let busy := (p.cmask != old.cmask || p.acct != old.acct) && s.ctxs.any fun e => mine e && (s.ctxPlaced e.1 || e.2.d.bclass != p.acct)
  let moved := p.holder != old.holder && (!s.penFree old || match p.holder with
    | some c => !s.ctxs.any fun e => e.1 == c && mine e
    | none => false)
  if 255 ≤ n || 64 ≤ p.acct || p.cmask.length != 8 || p.cmask.any (fun m => decide (2 ^ 12 ≤ m)) || clash || busy || moved then s
  else { s with pens := tset s.pens (y, n) p }

/-- System software gives an area of HBM to a yard, or takes it back (R229). Areas are whole 64 KiB pages, lie outside the replicated region
and do not overlap. -/
def writeArea (a : Area) (given : Bool) (s : State) : State :=
  if !given then { s with areas := s.areas.filter (· != a) }
  else if 8 ≤ a.die || a.lo % 65536 != 0 || a.hi % 65536 != 0 || a.hi ≤ a.lo || hbmBytes < a.hi ||
      (a.lo < s.replBase + s.replSize && s.replBase < a.hi) ||
      (s.areas.any fun b => b.die == a.die && decide (a.lo < b.hi) && decide (b.lo < a.hi)) then s
  else { s with areas := s.areas ++ [a] }

def execAdminYardWrite (s : State) : Host.Outcome State Fault Refusal :=
  match s.arg with
  | .yardDesc y => hostEvent (writeYard y) s
  | _ => .next s

/-! ## Keys and reach (R353, R392) -/

/-- ADMIN_KEY_INSTALL: a fresh key, or its removal. -/
def execAdminKeyInstall (s : State) : Host.Outcome State Fault Refusal :=
  match s.arg with
  | .ok die key present =>
    hostEvent (fun s => s.modDie die fun d =>
      if 2 ^ 16 ≤ key then d
      else if present then
        if (tget d.keys key).isNone && 256 ≤ d.keys.length then d else { d with keys := tset d.keys key ⟨true, 0⟩ }
      else { d with keys := tdel d.keys key }) s
  | _ => .next s

/-- ADMIN_REACH_LIST. -/
def execAdminReachList (s : State) : Host.Outcome State Fault Refusal :=
  match s.arg with
  | .list die key mods => hostEvent (fun s => s.modDie die fun d => { d with reach := tset d.reach key mods }) s
  | _ => .next s

/-! ## Gates (R332, R333) -/

/-- Whether the fields of a gate's record fit Table 15.11. -/
def gateRecOk (r : GateRec) : Bool :=
  gidOk r.gid && decide (r.rate < 2 ^ 32) && decide (r.burst < 2 ^ 32) && (r.rate == 0 || decide (1 ≤ r.burst)) && decide (r.acl.length ≤ 16) &&
    r.acl.all (fun e => decide (e.tenant < 2 ^ 16)) && decide (r.wins.length ≤ 4) &&
    r.wins.all fun w => w.1 % 65536 == 0 && decide (w.1 < 2 ^ 52) && w.2 % 65536 == 0 && decide (w.2 < 2 ^ 32)

/-- A gate's record as firmware writes it: a new gate starts with VALUE 0. One that is made valid, or whose RATE or BURST changes, has
TOKENS BURST and no partial credit (R334). One made invalid denies its waiters. -/
def writeGate (die : Nat) (r : GateRec) (s : State) : State :=
  if 8 ≤ die || !gateRecOk r then s else
  match tget s.gates r.gid with
  | none =>
    if s.isFenced die 8 0 then s
    else
      let g : Gate :=
          { gid := r.gid, home := die, value := 0, valid := r.valid, rate := r.rate, burst := r.burst, tokens := r.burst,
            delayedCount := 0, acl := r.acl, wins := r.wins, credit := 0, at_ := s.cycle, delayed := [], logged := [],
            mig := .active, newHome := 0, newMod := 0, held := [] }
      { s with gates := tset s.gates r.gid g }
  | some g =>
    if g.home != die || g.mig != .active then s
    else
      let anew := (r.valid && !g.valid) || r.rate != g.rate || r.burst != g.burst
      let g := { g with valid := r.valid, rate := r.rate, burst := r.burst, acl := r.acl, wins := r.wins }
      let g := if anew then { g with tokens := r.burst, credit := 0, at_ := s.cycle } else g
      let s := { s with gates := tset s.gates r.gid g }
      if r.valid then s
      else
        { s with gateOps := s.gateOps.map fun (o : GateOp) =>
            if o.gid == r.gid && o.st == .waiting then { o with st := .denied } else o }

def execAdminGateWrite (s : State) : Host.Outcome State Fault Refusal :=
  match s.arg with
  | .gate die r => hostEvent (writeGate die r) s
  | _ => .next s

/-! ## Communicators (R362, R368) -/

/-- ADMIN_COMMUNICATOR_WRITE: live communicators of a die have virtual channels of their own, 2 to 15. -/
def writeComm (die n : Nat) (c : CommDesc) (s : State) : State :=
  let clash := (s.die die).comms.any fun e => e.1 != n && e.2.valid && e.2.vc == c.vc
  let bad := decide (c.vc < 2) || decide (15 < c.vc) || c.nranks == 0 || decide (2 ^ 20 < c.nranks) || decide (c.nranks ≤ c.myrank) || clash
  let wide := decide (2 ^ 16 ≤ c.ctxid) || decide (2 ^ 16 ≤ c.keyid) || decide (2 ^ 16 ≤ c.share) || decide (2 ^ 57 ≤ c.ranks) || decide (16 ≤ c.vc) ||
    decide (2 ^ 21 ≤ c.nranks) || decide (2 ^ 20 ≤ c.myrank)
  if 256 ≤ n || wide || (c.valid && bad) then s
  else s.modDie die fun d => { d with comms := tset d.comms n c, collSeq := tdel d.collSeq n }

def execAdminCommunicatorWrite (s : State) : Host.Outcome State Fault Refusal :=
  match s.arg with
  | .comm die n c => hostEvent (writeComm die n c) s
  | _ => .next s

/-- ADMIN_ENROL. Where a chunk is reduced changes only timing. -/
def execAdminEnrol (s : State) : Host.Outcome State Fault Refusal :=
  match s.arg with
  | .ok die n on => hostEvent (fun s => s.modDie die fun d => { d with comms := tmod d.comms n fun c => { c with enrol := on } }) s
  | _ => .next s

end Sys2Proof.Machine
end

