-- ==== Sys2Proof/Machine/Keccak.lean ====
section
/-! DEFINITION. SHAKE256 with a 256-bit output, as FIPS 202 defines it: the digest of the boot measurement (R385, R386). -/

namespace Sys2Proof.Machine

/-- The 24 round constants. -/
def keccakRounds : List (BitVec 64) :=
  [0x0000000000000001, 0x0000000000008082, 0x800000000000808A, 0x8000000080008000, 0x000000000000808B, 0x0000000080000001,
    0x8000000080008081, 0x8000000000008009, 0x000000000000008A, 0x0000000000000088, 0x0000000080008009, 0x000000008000000A] ++
  [0x000000008000808B, 0x800000000000008B, 0x8000000000008089, 0x8000000000008003, 0x8000000000008002, 0x8000000000000080,
    0x000000000000800A, 0x800000008000000A, 0x8000000080008081, 0x8000000000008080, 0x0000000080000001, 0x8000000080008008]

/-- The rotation of lane (x, y), at place x + 5 y. -/
def keccakRot : List Nat :=
  [0, 1, 62, 28, 27, 36, 44, 6, 55, 20, 3, 10, 43, 25, 39, 41, 45, 15, 21, 8, 18, 2, 61, 56, 14]

/-- One round of the permutation over the 25 lanes. -/
def keccakRound (a : List (BitVec 64)) (rc : BitVec 64) : List (BitVec 64) :=
  let at_ := fun (l : List (BitVec 64)) (i : Nat) => l.getD i 0
  let c := (List.range 5).map fun x => at_ a x ^^^ at_ a (x + 5) ^^^ at_ a (x + 10) ^^^ at_ a (x + 15) ^^^ at_ a (x + 20)
  let d := (List.range 5).map fun x => at_ c ((x + 4) % 5) ^^^ (at_ c ((x + 1) % 5)).rotateLeft 1
  let t := (List.range 25).map fun i => at_ a i ^^^ at_ d (i % 5)
  let b := (List.range 25).map fun i =>
    let j := (i % 5 + 3 * (i / 5)) % 5 + 5 * (i % 5)
    (at_ t j).rotateLeft (keccakRot.getD j 0)
  (List.range 25).map fun i =>
    let y := 5 * (i / 5)
    let v := at_ b i ^^^ (~~~ at_ b (y + (i + 1) % 5) &&& at_ b (y + (i + 2) % 5))
    if i == 0 then v ^^^ rc else v

/-- SHAKE256 of a message, its first 32 bytes. -/
def shake256 (m : List (BitVec 8)) : List (BitVec 8) :=
  let k := 136 - m.length % 136
  let p := if k == 1 then m ++ [0x9F] else m ++ [0x1F] ++ List.replicate (k - 2) 0 ++ [0x80]
  let st := (List.range (p.length / 136)).foldl (fun st i =>
    let st := (List.range 25).map fun j =>
      let v := st.getD j 0
      if j < 17 then v ^^^ BitVec.ofNat 64 (ofBytes ((p.drop (136 * i + 8 * j)).take 8)) else v
    keccakRounds.foldl keccakRound st) (List.replicate 25 0)
  (st.take 4).flatMap fun v => toBytes 8 v.toNat

end Sys2Proof.Machine
end

