-- ==== Sys2Proof/Machine/Xmss.lean ====
section
/-! DEFINITION. The verification of an XMSS signature with the parameter set XMSS-SHAKE256_20_256 (R383): RFC 8391 and NIST SP 800-208, to
which the spec refers (PRESUMED, log 19). -/

namespace Sys2Proof.Machine

/-- An `n`-byte number, most significant byte first. -/
def beBytes (n x : Nat) : List Byte := (toBytes n x).reverse

/-- The four keyed hashes, by their prefix: F is 0, H is 1, the message hash is 2 and the pseudorandom function is 3. -/
def xmssHash (p : Nat) (key m : List Byte) : List Byte := shake256 (beBytes 32 p ++ key ++ m)

/-- The bitwise exclusive or of two strings of 32 bytes. -/
def xmssXor (a b : List Byte) : List Byte := a.zipWith (· ^^^ ·) b

/-- A hash address: layer 0 and tree 0, the type, and the three words that it gives a meaning to. -/
structure XAddr where
  kind : Nat
  a : Nat
  b : Nat
  c : Nat
deriving DecidableEq, Repr

/-- The 32 bytes of an address with its last word. -/
def XAddr.bytes (x : XAddr) (last : Nat) : List Byte :=
  List.replicate 12 0#8 ++ beBytes 4 x.kind ++ beBytes 4 x.a ++ beBytes 4 x.b ++ beBytes 4 x.c ++ beBytes 4 last

/-- A key or a mask drawn from the public seed. -/
def xmssPrf (seed : List Byte) (x : XAddr) (last : Nat) : List Byte := xmssHash 3 seed (x.bytes last)

/-- The steps `i`, `i` + 1, … of a chain (RFC 8391, 3.1.2). -/
def xmssChain (seed : List Byte) (ots chain : Nat) : Nat → Nat → List Byte → List Byte
  | 0, _, v => v
  | k + 1, i, v =>
    let x : XAddr := ⟨0, ots, chain, i⟩
    xmssChain seed ots chain k (i + 1) (xmssHash 0 (xmssPrf seed x 0) (xmssXor v (xmssPrf seed x 1)))

/-- The hash of two nodes into one (RFC 8391, 4.1.4). -/
def randHash (seed : List Byte) (x : XAddr) (l r : List Byte) : List Byte :=
  xmssHash 1 (xmssPrf seed x 0) (xmssXor l (xmssPrf seed x 1) ++ xmssXor r (xmssPrf seed x 2))

/-- The base-16 digits of bytes, the high one first. -/
def nibbles (l : List Byte) : List Nat := l.flatMap fun b => [b.toNat / 16, b.toNat % 16]

/-- The 67 digits that a one-time signature signs: those of the message, and those of their checksum. -/
def wotsDigits (m : List Byte) : List Nat :=
  let d := nibbles m
  d ++ (nibbles (beBytes 2 (16 * (d.map (15 - ·)).sum))).take 3

/-- One level of the tree that compresses a one-time public key, and all of them (RFC 8391, 4.1.5); the fuel is the number of levels. -/
def ltreeLevel (seed : List Byte) (ots height : Nat) : Nat → List (List Byte) → List (List Byte)
  | i, l :: r :: rest => randHash seed ⟨1, ots, height, i⟩ l r :: ltreeLevel seed ots height (i + 1) rest
  | _, rest => rest

def ltree (seed : List Byte) (ots : Nat) : Nat → Nat → List (List Byte) → List Byte
  | 0, _, l => l.headD []
  | fuel + 1, h, l => ltree seed ots fuel (h + 1) (ltreeLevel seed ots h 0 l)

/-- The way from a leaf to the root along an authentication path (RFC 8391, 4.1.10). -/
def xmssClimb (seed : List Byte) (idx : Nat) : Nat → List (List Byte) → List Byte → List Byte
  | _, [], v => v
  | k, a :: rest, v =>
    let x : XAddr := ⟨2, 0, k, idx / 2 ^ (k + 1)⟩
    xmssClimb seed idx (k + 1) rest (if idx / 2 ^ k % 2 == 0 then randHash seed x v a else randHash seed x a v)

/-- A string in pieces of 32 bytes. -/
def pieces32 (l : List Byte) : List (List Byte) := (List.range (l.length / 32)).map fun i => (l.drop (32 * i)).take 32

/-- Whether a signature of a message verifies under a public key: the number of the leaf, the randomiser, the 67 chain values and the path of
20 nodes, 2,820 bytes (RFC 8391, 4.1.8 and 4.1.10). -/
def xmssVerify (root seed m sig : List Byte) : Bool :=
  let idx := ofBytes (sig.take 4).reverse
  let r := (sig.drop 4).take 32
  let parts := pieces32 (sig.drop 36)
  let d := wotsDigits (xmssHash 2 (r ++ root ++ beBytes 32 idx) m)
  let pk := (List.range 67).map fun i => xmssChain seed idx i (15 - lget d i 0) (lget d i 0) (lget parts i [])
  sig.length == 2820 && decide (idx < 2 ^ 20) && xmssClimb seed idx 0 (parts.drop 67) (ltree seed idx 7 0 pk) == root

end Sys2Proof.Machine
end

