-- ==== Sys2Proof/Machine/Boot.lean ====
section
/-! DEFINITION. Reset, boot, attestation, host registers, thermal limits, telemetry and uncorrectable errors (R341, R342, R382 to R389). -/

namespace Sys2Proof.Machine

/-! ## Reset and boot (R382, R384) -/

/-- The module after a reset that keeps what is not its own: host memory, the flash, the inputs to come and the model's counters. What its
HBM then holds the spec does not state; the model keeps it (log 18). The loft is zeroed in stage 5. A reset that comes while the module boots
starts over at stage 1. -/
def resetModule (s : State) : State :=
  { State.reset with
    agenda := s.agenda, cur := s.cur, arg := s.arg, turn := s.turn, late := s.late, free := s.free, nextId := s.nextId, modId := s.modId
    flash := s.flash
    out := s.out
    mem := s.mem
    loftKey := s.loftKey
    bad := s.bad }

/-- MODULE_RESET. -/
def execModuleReset (s : State) : Host.Outcome State Fault Refusal := .next (resetModule s)

/-- The bytes of an image's header, which the signature signs (log 19). -/
def ImgHeader.bytes (h : ImgHeader) : List Byte := Config.headerBytes h.series h.serial h.stepping h.digests

def State.dieBoot (s : State) (die : Nat) : DieBoot := lget s.boot.dies die DieBoot.zero
def State.modBoot (s : State) (die : Nat) (f : DieBoot → DieBoot) : State := { s with boot := { s.boot with dies := lmod s.boot.dies die f } }

/-- What SHAKE256 of a die's seed yields under a label (R385): the module serial is use 0, the identity key 1, the attestation key 2. -/
def derived (seed : List Byte) (use : Nat) : List Byte := shake256 (seed ++ Config.kdfLabel use)

/-- The module serial that a die has derived: 64 bits (R385). -/
def DieBoot.serial (d : DieBoot) : Nat := ofBytes ((derived d.seed 0).take 8)

/-- The first 80 bytes of a die's boot measurement (Table 19.4). -/
def Image.record (img : Image) (die : Nat) (d : DieBoot) : List Byte :=
  toBytes 8 d.serial ++ toBytes 1 die ++ toBytes 1 d.digests.length ++ toBytes 2 0 ++ toBytes 4 0x3B0 ++
    shake256 (img.header.bytes ++ img.sig) ++ shake256 d.digests.flatten

/-- Stage 5 of a die: the sections' repair maps, trims and firmware are its own, its loft reads 0 and its replication state is at reset (no
window of a group is left). Stage 6 begins with its boot measurement. -/
def takeImage (die : Nat) (s : State) : State :=
  let mine := fun (a : Nat) => spaSpace a == 1 && spaDie a == die
  let s := { s with mem := s.mem.filter fun c => !mine c.1, loftKey := s.loftKey.filter fun e => !mine (64 * e.1) }
  (s.modRepl die fun _ => Repl.zero).modBoot die fun d =>
    { d with stage := 6, loaded := s.flash.sections, record := s.flash.record die d }

/-- What one of the first five stages of Table 19.1 does on a die, or none where it fails (R382, R383, R385). -/
def runStage (die : Nat) (s : State) : Option State :=
  let d := s.dieBoot die
  let img := s.flash
  let on := fun (s : State) => some (s.modBoot die fun d => { d with stage := d.stage + 1 })
  match d.stage with
  | 1 =>
    match Config.fuzzy (Config.sram die s.free) (lget img.helper die []) with
    | some seed => on ({ s with free := s.free + 1 }.modBoot die fun d => { d with seed := seed })
    | none => none
  | 2 => if xmssVerify Config.romRoot Config.romSeed img.header.bytes img.sig && img.header.series == 3 then on s else none
  | 3 => if img.header.serial == d.serial && img.header.stepping == 0xB0 then on s else none
  | 4 =>
    let l := img.sections.map shake256
    if l == img.header.digests then on (s.modBoot die fun d => { d with digests := l }) else none
  | 5 => some (takeImage die s)
  | _ => some s

/-- One stage of one die's boot: the next stage, or the failure code and the wait at stage 6. `ok` says that the die's hardware did what the
stage asks. -/
def bootStage (die : Nat) (ok : Bool) (s : State) : State :=
  let n := (s.dieBoot die).stage
  if s.boot.state != 0 || 8 ≤ die || 6 ≤ n then s
  else
    match if ok then runStage die s else none with
    | some t => t
    | none => s.modBoot die fun d => { d with stage := 6, code := n }

/-- BOOT_ALL_DIES_READY: every die has come to stage 6, those of the argument failing it; the boot status register is then written (Table
19.1, Table 19.2). -/
def bootDone (l : List (Nat × Nat)) (s : State) : State :=
  let code := fun (d : Nat) => if (s.dieBoot d).code == 0 && l.contains (d, 6) then 6 else (s.dieBoot d).code
  let f := (List.range 8).filter fun d => code d != 0
  if s.boot.state != 0 || s.boot.dies.any (·.stage != 6) then s
  else if f.isEmpty then { s with boot := { s.boot with state := 1, failDie := 0, failCode := 0, series := 3 } }
  else { s with boot := { s.boot with
    state := 2, failDie := f.foldl (fun m d => setBit m d true) 0, failCode := f.foldl (fun c d => min c (code d)) 7, series := 0 } }

def execBootAllDiesReady (s : State) : Host.Outcome State Fault Refusal :=
  match s.arg with
  | .fails l => .next (bootDone l s)
  | _ => .next s

/-- The bytes that an image takes in the flash. -/
def Image.size (img : Image) : Nat :=
  img.header.bytes.length + img.sig.length + (img.helper.map (·.length)).sum + (img.sections.map (·.length)).sum

/-- The flash of 256 MiB is written anew (R382); an image has 1 to 255 sections (Table 19.4). -/
def setFlash (img : Image) (s : State) : State :=
  if img.sections.isEmpty || 255 < img.sections.length || 2 ^ 28 < img.size then s else { s with flash := img }

/-- CONFIG_REQUEST: a retry status until the boot completes on every die. -/
def execConfigRequest (s : State) : Host.Outcome State Fault Refusal :=
  match s.arg with
  | .n1 die => .next (if die == 0 || die == 4 then { s with out := s.out ++ [if s.ready then .configAnswer die else .configRetry die] } else s)
  | _ => .next s

/-- The physical function's driver assigns a virtual function to the endpoint of die 0 or die 4, or to none. Each of the 64 is assigned to at
most one, so that the endpoints' NumVFs sum to at most 64 (R387). It changes only while the function has no context (DESIGN CHOICE, log
65). -/
def assignVf (fn : Nat) (die : Option Nat) (s : State) : State :=
  if !s.ready || fn == 0 || 64 < fn || die.any (fun d => d != 0 && d != 4) || (s.ctxs.any fun e => e.2.d.hostfn == fn) then s
  else { s with vfs := match die with
      | some d => tset s.vfs fn d
      | none => tdel s.vfs fn }

/-- How many virtual functions an endpoint has: its NumVFs. -/
def State.numVfs (s : State) (die : Nat) : Nat := (s.vfs.filter (·.2 == die)).length

/-- FUNCTION_LEVEL_RESET of a virtual function (R387). -/
def execFunctionLevelReset (s : State) : Host.Outcome State Fault Refusal :=
  match s.arg with
  | .n1 fn =>
    hostEvent (fun s =>
      if 1 ≤ fn && fn ≤ 64 && s.fnPresent fn then
        ((s.ctxs.filter fun e => e.2.d.hostfn == fn).map (·.1)).foldl (fun s c => teardown c s) s
      else s) s
  | _ => .next s

/-! ## Host registers (R308, R387, R389) -/

/-- The boot status register (Table 19.2). -/
def State.bootWord (s : State) : Nat :=
  s.boot.state % 4 + 2 ^ 8 * (s.boot.failDie % 2 ^ 8) + 2 ^ 16 * (s.boot.failCode % 8) + 2 ^ 24 * (s.boot.series % 2 ^ 8)

/-- How many packets of a source wait in the paddock of a die. -/
def Repl.occupancy (r : Repl) (src : Nat) : Nat := (r.paddock.filter (·.src == src)).length

/-- A word of the replication status registers of a die (Table 15.2). -/
def State.replWord (s : State) (die off : Nat) : Option Nat :=
  let r := s.repl die
  if off == 0x00 then some (s.memb % 2 ^ 8 + 2 ^ 8 * (s.capo.holder % 8) + 2 ^ 16 * (s.epoch % 2 ^ 16))
  else if off == 0x04 then
    some (r.sep % 2 ^ 8 + 2 ^ 8 * ((List.range 8).foldl (fun m d => setBit m d ((s.repl d).mstate == .lagging)) 0) +
      2 ^ 16 * (if s.quies then 1 else 0))
  else if off == 0x08 then some (r.issued % 2 ^ 32)
  else if off == 0x0C then some (r.clock % 2 ^ 32)
  else if off == 0x10 then some (r.gseq % 2 ^ 32)
  else if 0x20 ≤ off && off < 0x40 then some (lget r.applied ((off - 0x20) / 4) 0 % 2 ^ 32)
  else if 0x40 ≤ off && off < 0x50 then
    let w := (off - 0x40) / 4
    some (r.occupancy (2 * w) % 2 ^ 11 + 2 ^ 16 * (r.occupancy (2 * w + 1) % 2 ^ 11))
  else none

/-- A word of a die's telemetry (Table 19.3). -/
def Telem.word (t : Telem) (off : Nat) : Option Nat :=
  let half := fun (v : Nat) => some (v / 2 ^ (8 * (off % 8)) % 2 ^ 32)
  if off == 0x00 then some (t.power % 2 ^ 32)
  else if off == 0x04 then some (t.tempMax % 2 ^ 16)
  else if off / 8 == 1 then half t.energy
  else if off / 8 == 2 then half t.throttle
  else if off / 8 == 3 then half t.cecc
  else if off / 8 == 4 then half t.uecc
  else none

/-- A 32-bit word of the physical function's BAR0. -/
def State.barWord (s : State) (off : Nat) : Option Nat :=
  if off == 0 then some s.bootWord
  else if 0x8000 ≤ off && off < 0x8800 then s.replWord ((off - 0x8000) / 0x100) (off % 0x100)
  else if 0x10000 ≤ off && off < 0x10800 then ((s.die ((off - 0x10000) / 0x100)).telem).word (off % 0x100)
  else none

/-- A host's read of an aligned 64-bit word of the BAR0 of a function that is there, of one moment (R389). What a word holds to which the spec gives no
register, it leaves open (log 2). -/
def regRead (fn off : Nat) (s : State) : State :=
  let a := off / 8 * 8
  if !s.fnPresent fn then s else
  let half := fun (o : Nat) (s : State) =>
    match if fn == 65 then s.barWord o else none with
    | some v => (v, s)
    | none => let r := s.drawNat; (r.1 % 2 ^ 32, r.2)
  let l := half a s
  let h := half (a + 4) l.2
  { h.2 with out := h.2.out ++ [.register fn a (l.1 + 2 ^ 32 * h.1)] }

/-- REGISTER_WRITE: a doorbell (R262); every other host register is read only (Tables 15.2, 19.2, 19.3), so a write of it changes nothing.
-/
def execRegisterWrite (s : State) : Host.Outcome State Fault Refusal :=
  match s.arg with
  | .regWrite fn off val =>
    .next (if 0x1000 ≤ off && off < 0x3000 && off % 8 == 0 then
      hostDoorbell fn ((off - 0x1000) / 0x200) (off % 0x200 / 8) (val.truncate 32) s else s)
  | _ => .next s

/-! ## Attestation (R386) -/

/-- The boot measurement of a die with a host's nonce (Table 19.4): its digests are those of the boot. -/
def State.measurement (s : State) (die nonce : Nat) : List Byte := (s.dieBoot die).record ++ toBytes 32 nonce ++ toBytes 16 0

/-- A die's signature over a record with its attestation key; what it draws for it is open (R385, R386, log 19). -/
def State.sign (s : State) (die : Nat) (m : List Byte) : List Byte :=
  toBytes 3309 (Config.mldsaSign (derived (s.dieBoot die).seed 2) (Config.freeNat s.free) m)

/-- ATTESTATION_REQUEST: each is served whole, in the order of arrival. -/
def execAttestationRequest (s : State) : Host.Outcome State Fault Refusal :=
  match s.arg with
  | .n2 die nonce =>
    let m := s.measurement die nonce
    .next (if s.ready && decide (die < 8) then { s with free := s.free + 1, out := s.out ++ [.attestation die m (s.sign die m)] }
      else { s with out := s.out ++ [.attestationRefused die] })
  | _ => .next s

/-! ## Errors and temperature (R341, R388, R389) -/

/-- UNCORRECTABLE_ERROR. -/
def execUncorrectableError (s : State) : Host.Outcome State Fault Refusal :=
  match s.arg with
  | .n3 die cls num => .next (uncorrectable die cls num s)
  | _ => .next s

/-- Slots that a die's governors have withheld, and the hottest junction in 0.1 °C (R388, R389). -/
def withhold (die n temp : Nat) (s : State) : State :=
  s.modDie die fun d => { d with telem := { d.telem with throttle := count64 d.telem.throttle n, tempMax := temp } }

/-- THERMAL_THROTTLE: a block at 105 °C withholds issue slots, which only telemetry shows; how many, and how far below 115 °C it is, are
open (log 2). -/
def execThermalThrottle (s : State) : Host.Outcome State Fault Refusal :=
  match s.arg with
  | .n3 die _ _ =>
    let r := s.drawNat
    let t := r.2.drawNat
    .next (withhold die r.1 (1050 + t.1 % 100) t.2)
  | _ => .next s

/-- THERMAL_FENCE: a block at 115 °C or more is fenced as a structure under R341. -/
def execThermalFence (s : State) : Host.Outcome State Fault Refusal :=
  match s.arg with
  | .n3 die cls num =>
    let t := s.drawNat
    .next (uncorrectable die cls num (withhold die 0 (1150 + t.1 % (2 ^ 16 - 1150)) t.2))
  | _ => .next s

/-- New samples of a die's power, temperature and energy, and the slots that governors withhold to cut power: measurements, which the spec
leaves open (R388, R389, log 2). A block at 105 °C or more throttles, and at 115 °C is fenced, so that a sample with neither is below. -/
def sampleDie (s : State) (die : Nat) : State :=
  let p := s.drawNat
  let t := p.2.drawNat
  let e := t.2.drawNat
  let w := e.2.drawNat
  (withhold die w.1 (t.1 % 1050) w.2).modDie die fun d =>
    { d with telem := { d.telem with power := p.1 % 2 ^ 32, energy := count64 d.telem.energy e.1 } }

/-- The passing of `n` cycles. -/
def elapse (n : Nat) (s : State) : State := (List.range 8).foldl sampleDie (tick n s)

/-- An uncorrectable error that appears in a line of memory (R230); no line stands where an address names no byte (R228). -/
def lineError (spa : Nat) (s : State) : Host.Outcome State Fault Refusal :=
  if !namesByte spa then .fault (.noByte spa)
  else .next (if s.bad.contains (spa / 32) then s else { s with bad := spa / 32 :: s.bad })

/-- A store by the host to its own memory, which it reaches through die 0 or die 4 (R228). -/
def hostStore (die off : Nat) (l : List Byte) (s : State) : Host.Outcome State Fault Refusal :=
  let a := mkSpa 2 die off
  if 2 ^ 46 < off + l.length || !namesByte a then .fault (.noByte a) else .next (s.writeSpa a l)

/-- A store by a host function to HBM that system software lets it reach: performed normally, it triggers the graphs of the contexts to
which the function is assigned (R283). No window maps the replicated region (R306), and none is there before the module has booted (R384). -/
def hostHbm (fn spa : Nat) (l : List Byte) (s : State) : Host.Outcome State Fault Refusal :=
  if spaSpace spa != 0 || !namesByte spa || hbmBytes < spaOff spa + l.length then .fault (.noByte spa)
  else if l.isEmpty || !s.ready || !s.fnPresent fn ||
      (decide (spaOff spa < s.replBase + s.replSize) && decide (s.replBase < spaOff spa + l.length)) then .next s
  else
    let d := spaDie spa
    let s := (s.writeSpa spa l).repair spa l.length
    .next ((triggersOf (s.die d).trigWin (spaOff spa) l.length).foldl (fun s g =>
      (s.ctxs.filter fun e => e.2.valid && e.2.d.hostfn == fn).foldl (fun s e => triggerGraph d e.1 g s) s) s)

/-- Firmware sets the replicated region on every die, and zeroes it and its stamps, before a context with REPL is valid (R306). -/
def setReplRegion (base size : Nat) (s : State) : State :=
  if base % 2 ^ 21 != 0 || size % 2 ^ 21 != 0 || 2 ^ 36 < size || hbmBytes < base + size ||
    (s.ctxs.any fun e => e.2.valid && e.2.d.repl) then s
  else { s with
    replBase := base
    replSize := size
    mem := s.mem.filter fun c => !(spaSpace c.1 == 0 && decide (base ≤ spaOff c.1) && decide (spaOff c.1 < base + size))
    dies := s.dies.map fun d => { d with repl := { d.repl with stamps := [], sepRest := 0 } } }

/-- System software places a die's trigger window of 64 KiB in its HBM (R283). -/
def setTrigWindow (die off : Nat) (s : State) : State :=
  if off % 8 != 0 || hbmBytes < off + 65536 then s else s.modDie die fun d => { d with trigWin := off }

/-- The module's 20-bit identifier (Table 3.3); it does not change while a launch lives (R49). -/
def setModuleId (n : Nat) (s : State) : State := if s.launches.isEmpty then { s with modId := n % 2 ^ 20 } else s

/-- The physical function has read its log up to an entry (R112, R289). -/
def readPf (n : Nat) (s : State) : State :=
  if s.pfLog.read ≤ n && n ≤ s.pfLog.ents.length then { s with pfLog := { s.pfLog with read := n } } else s

/-- Corrected errors are counted (R230, R389). -/
def corrected (die n : Nat) (s : State) : State := s.modDie die fun d => { d with telem := { d.telem with cecc := count64 d.telem.cecc n } }

end Sys2Proof.Machine
end

