-- ==== Sys2Proof/Machine/Replication.lean ====
section
/-! DEFINITION. The replication unit's own events: update packets on their way, slots, lag, eviction, counter wraps, rejoins and line
repair (R306 to R327, R342). -/

namespace Sys2Proof.Machine

/-! ## Applying received packets (R311, R312) -/

/-- Nanoseconds of a number of cycles. -/
def nsOfCycles (n : Nat) : Nat := n * 4 / 5

/-- The update a packet carries for one line (R312): it wins by a stale stamp, or by the greater pair of WSEQ and rank. -/
def resolveLine (die : Nat) (p : Packet) (line : Nat) (b : List Byte) (s : State) : State :=
  let t := s.stampOf die line
  let sep := (s.repl die).sep
  if t.sep != sep || decide (t.wseq < p.wseq) || (p.wseq == t.wseq && decide (t.rank < p.src)) then
    writeStamped die line b ⟨p.wseq, p.src, sep⟩ s
  else s

/-- Whether a packet is of the present epochs (R311, first condition). -/
def State.epochOk (s : State) (die : Nat) (p : Packet) : Bool := p.epoch == s.epoch && p.sep == (s.repl die).sep

/-- Whether a member may apply a packet (R311). A null slot asks only for its turn. -/
def State.applicable (s : State) (die : Nat) (p : Packet) : Bool :=
  let r := s.repl die
  if p.null then p.gs == r.gseq
  else
    s.epochOk die p && p.sq == lget r.applied p.src 0 + 1 &&
      ((List.range 8).all fun k => k == p.src || decide (lget p.dep k 0 ≤ lget r.applied k 0)) && (!p.strong || p.gs == r.gseq)

/-- Applying a packet (R311). -/
def applyPacket (die : Nat) (p : Packet) (s : State) : State :=
  if p.null then s.modRepl die fun r => { r with gseq := r.gseq + 1 }
  else
    let s := s.modRepl die fun r => { r with clock := max r.clock p.wseq }
    let s := p.lines.foldl (fun s l => resolveLine die p l.1 l.2 s) s
    s.modRepl die fun r =>
      { r with applied := lset r.applied p.src p.sq, gseq := if p.strong then r.gseq + 1 else r.gseq }

/-- A die applies what it can: its own updates, and packets of its paddock in any order (R311); the fuel is the paddock's size. -/
def settlePaddock (die : Nat) : Nat → State → State
  | 0, s => runUpds die s
  | fuel + 1, s =>
    let s := runUpds die s
    match (s.repl die).paddock.find? (s.applicable die) with
    | none => s
    | some p =>
      settlePaddock die fuel (applyPacket die p (s.modRepl die fun r => { r with paddock := dropFirst (· == p) r.paddock }))

def settleDie (die : Nat) (s : State) : State := settlePaddock die (s.repl die).paddock.length s

/-! ## Acknowledgements and RSYNC (R307, R316) -/

/-- Whether every other member has acknowledged each update of a die up to SEQ `sq`. -/
def State.ackedTo (s : State) (die sq : Nat) : Bool :=
  (s.others die).all fun d => (lget (s.repl die).outLog d []).all fun p => decide (sq < p.sq)

/-- The RSYNCs of a die that no member holds up any longer are ready. -/
def wakeRsyncs (die : Nat) (s : State) : State :=
  { s with pend := s.pend.map fun (p : Pend) =>
      match p.kind with
      | .rsync d sq => if d == die && s.ackedTo die sq then { p with kind := .ready } else p
      | _ => p }

/-! ## Lag (R321, R326) -/

/-- Packets of source `k` that die `d` has not applied. -/
def State.unapplied (s : State) (d k : Nat) : List Packet :=
  (lget (s.repl k).outLog d []).filter fun p => decide (lget (s.repl d).applied k 0 < p.sq)

/-- The oldest wait at a die, in cycles, from the issue of the update: those that their own die has still to apply wait too (R321). -/
def State.oldestWait (s : State) (d : Nat) : Nat :=
  let own := (s.repl d).upds.map (·.since)
  let rest := (s.others d).flatMap fun k => (s.unapplied d k).map (·.since) ++ (s.repl k).upds.map (·.since)
  (own ++ rest).foldl (fun m t => max m (s.cycle - t)) 0

/-- The greatest number of updates of one source, its own included, that a die has still to apply. -/
def State.backlog (s : State) (d : Nat) : Nat :=
  (d :: s.others d).foldl (fun m k => max m ((s.repl k).issued - lget (s.repl d).applied k 0)) 0

/-- The fullest share of a die's paddock. -/
def State.paddockMost (s : State) (d : Nat) : Nat :=
  (s.others d).foldl (fun m k => max m ((s.repl d).paddock.filter (·.src == k)).length) 0

/-- Whether a measure of lag reaches its threshold, halved `h` times. -/
def State.lagging (s : State) (d h : Nat) : Bool :=
  decide (768 / 2 ^ h ≤ s.paddockMost d) || decide (2 ^ 20 / 2 ^ h ≤ s.backlog d) ||
    decide (cyclesOfNs 1000000 / 2 ^ h ≤ s.oldestWait d)

/-- The end of a lag: every measure is below half its threshold. -/
def endLag (d : Nat) (s : State) : State :=
  if (s.repl d).mstate == .lagging && !s.lagging d 1 then
    logRepl evReplLag (d + 128) (s.backlog d) (nsOfCycles (s.oldestWait d)) (s.modRepl d fun r => { r with mstate := .member })
  else s

/-- LAG_DETECT. -/
def execLagDetect (s : State) : Host.Outcome State Fault Refusal :=
  match s.arg with
  | .n1 d =>
    if s.arch.isSome || !s.isMember d then .next s
    else if (s.repl d).mstate == .member && s.lagging d 0 then
      .next (logRepl evReplLag d (s.backlog d) (nsOfCycles (s.oldestWait d)) (s.modRepl d fun r =>
        { r with mstate := .lagging, lagSince := s.cycle
                 lagBack := (List.range 8).map fun k => (lget (s.repl k).outLog d []).length }))
    else .next (endLag d s)
  | _ => .next s

/-! ## Packets on their way (R309, R311) -/

/-- The 128-byte block of a packet. -/
def Packet.block (p : Packet) : Nat := (p.lines.headD (0, [])).1 / 128 * 128

/-- Line `i` of a packet's block, if it is carried. -/
def Packet.line (p : Packet) (i : Nat) : Option (List Byte) := (p.lines.find? fun l => l.1 == p.block + 32 * i).map (·.2)

/-- The 192 bytes of an update packet (Table 15.3). -/
def Packet.bytes (p : Packet) : List Byte :=
  let carried := (List.range 4).filterMap p.line
  toBytes 1 (p.src % 8 + 8 * b2n p.strong + 16 * b2n p.null) ++ toBytes 1 p.sep ++ toBytes 2 p.epoch ++ toBytes 4 p.sq ++ toBytes 4 p.wseq ++
    toBytes 4 p.gs ++ ((List.range 8).flatMap fun k => toBytes 4 (lget p.dep k 0)) ++ toBytes 8 (p.block % 2 ^ 46) ++
    toBytes 1 (((List.range 4).map fun i => b2n (p.line i).isSome * 2 ^ i).sum) ++ toBytes 7 0 ++ carried.flatten ++
    List.replicate (128 - 32 * carried.length) 0#8

/-- PACKET_SEND: a die's next packet for a member leaves its outbound log's unsent part, if the member's paddock has room for the
sender and the link between them works. -/
def sendUpdate (src dst : Nat) (s : State) : State :=
  let r := s.repl src
  let n := lget r.sent dst 0
  let held := ((s.repl dst).paddock.filter (·.src == src)).length + (s.air.filter fun a => a.1 == src && a.2.1 == dst).length
  if src == dst || !s.isMember src || !s.isMember dst || s.linkDead src dst || 1024 ≤ held then s
  else
    match (lget r.outLog dst [])[n]? with
    | none => s
    | some p => { s.modRepl src fun r => { r with sent := lset r.sent dst (n + 1) } with air := s.air ++ [(src, dst, p)] }

def execPacketSend (s : State) : Host.Outcome State Fault Refusal :=
  match s.arg with
  | .n2 src dst => .next (sendUpdate src dst s)
  | _ => .next s

/-- PACKET_RECEIVE: packet `idx` of those between two dies arrives: discarded if it is of another epoch or already applied, and
otherwise applied now or from the paddock later. -/
def receiveUpdate (src dst idx : Nat) (s : State) : State :=
  match (s.air.filter fun a => a.1 == src && a.2.1 == dst)[idx]? with
  | none => s
  | some a =>
    let s := { s with air := dropFirst (· == a) s.air }
    let p := a.2.2
    if !s.epochOk dst p || p.sq ≤ lget (s.repl dst).applied src 0 then s
    else endLag dst (settleDie dst (s.modRepl dst fun r => { r with paddock := r.paddock ++ [p] }))

def execPacketReceive (s : State) : Host.Outcome State Fault Refusal :=
  match s.arg with
  | .n3 src dst idx => .next (receiveUpdate src dst idx s)
  | _ => .next s

/-- UPDATE_ACKNOWLEDGEMENT: a member acknowledges update `sq` of a die once it has applied it. -/
def acknowledge (src dst sq : Nat) (s : State) : State :=
  let l := lget (s.repl src).outLog dst []
  let at_ := (l.takeWhile (·.sq != sq)).length
  if s.linkDead src dst || l.length ≤ at_ || lget (s.repl dst).applied src 0 < sq then s
  else
    let s := s.modRepl src fun r =>
      { r with outLog := lset r.outLog dst (l.eraseIdx at_), sent := lmod r.sent dst fun n => if at_ < n then n - 1 else n }
    endLag dst (wakeRsyncs src s)

def execUpdateAcknowledgement (s : State) : Host.Outcome State Fault Refusal :=
  match s.arg with
  | .n3 src dst sq => .next (acknowledge src dst sq s)
  | _ => .next s

/-! ## Slots (R314, R315) -/

/-- Whether the holder passes the capo on before its next grant: 4,096 grants made, or 100 µs of holding (R314). It keeps the capo while an
architected event is in progress (log 28). -/
def State.capoDue (s : State) : Bool :=
  s.arch.isNone && (decide (4096 ≤ s.capo.grants) || decide (s.capo.since + cyclesOfNs 100000 ≤ s.cycle))

/-- CAPO_GRANT: the oldest request. -/
def execCapoGrant (s : State) : Host.Outcome State Fault Refusal :=
  match s.slotReqs with
  | [] => .next s
  | q :: rest =>
    if s.capoDue then .next s else
    let c := s.capo
    let w := max q.clock c.last + 1
    .next { s with
      slotReqs := rest
      capo := { c with next := c.next + 1, last := w, grants := c.grants + 1 }
      grants := s.grants ++ [⟨q.die, q.sq, c.next, w⟩] }

/-- A grant reaches its die. -/
def takeGrant (g : Grant) (s : State) : State :=
  { s with grants := dropFirst (· == g) s.grants }.modRepl g.die fun r =>
    { r with upds := r.upds.map fun (u : Upd) => if u.sq == g.sq && u.strong.isSome then { u with grant := some (g.gs, g.wseq) } else u }

/-- STRONG_GRANT_RECEIVE: the first grant on its way to a die; the die applies what is due. -/
def execStrongGrantReceive (s : State) : Host.Outcome State Fault Refusal :=
  match s.arg with
  | .n1 die =>
    match s.grants.find? (·.die == die) with
    | none => .next s
    | some g => .next (wakeRsyncs die (settleDie die (takeGrant g s)))
  | _ => .next s

/-- The member after a rank, in ascending order from 7 round to 0. -/
def State.nextMember (s : State) (d : Nat) : Nat :=
  (((List.range 8).map fun i => (d + 1 + i) % 8).find? s.isMember).getD d

/-- CAPO_HANDOFF. -/
def execCapoHandoff (s : State) : Host.Outcome State Fault Refusal :=
  let c := s.capo
  if s.capoDue then
    .next { s with capo := { c with holder := s.nextMember c.holder, grants := 0, since := s.cycle } }
  else .next s

/-! ## Eviction (R321 to R323) -/

/-- The decision to evict a member: step 1 of R322. -/
def condemn (d : Nat) (s : State) : State :=
  { s.modRepl d fun r => { r with mstate := .evicted } with quies := true }

/-- Whether a member's eviction is in progress. -/
def State.condemned (s : State) (d : Nat) : Bool := s.isMember d && (s.repl d).mstate == .evicted

/-- LAG_EVICT_TIMEOUT: a lag of 10 ms without a break. -/
def execLagEvictTimeout (s : State) : Host.Outcome State Fault Refusal :=
  match s.arg with
  | .n1 d =>
    let s := endLag d s
    let r := s.repl d
    .next (if s.isMember d && r.mstate == .lagging && !(s.others d).isEmpty && decide (r.lagSince + cyclesOfNs 10000000 ≤ s.cycle) then
      condemn d s else s)
  | _ => .next s

/-- LINKS_LOST: the links of a member to every other member have failed. -/
def execLinksLost (s : State) : Host.Outcome State Fault Refusal :=
  match s.arg with
  | .n1 d =>
    .next (if s.isMember d && (s.repl d).mstate != .evicted && !(s.others d).isEmpty && (s.others d).all (s.linkDead d) then
      condemn d s else s)
  | _ => .next s

/-- The cut (R322, step 3): from the greatest number applied by a survivor on, as far as some paddock holds the next packet. -/
def cutFrom (s : State) (e : Nat) (l : List Nat) : Nat → Nat → Nat
  | 0, q => q
  | fuel + 1, q =>
    if l.any fun d => (s.repl d).paddock.any fun p => p.src == e && !p.null && p.sq == q + 1 && s.epochOk d p then
      cutFrom s e l fuel (q + 1)
    else q

def State.cut (s : State) (e : Nat) (l : List Nat) : Nat :=
  cutFrom s e l 8192 (l.foldl (fun m d => max m (lget (s.repl d).applied e 0)) 0)

/-- Packets of die `k` up to SEQ `c` that a survivor still lacks are forwarded into its paddock (R322, steps 3 and 4). -/
def forwardTo (d k c : Nat) (s : State) : State :=
  let have_ := (s.repl d).paddock
  let new := (s.unapplied d k).filter fun p => decide (p.sq ≤ c) && !have_.contains p
  s.modRepl d fun r => { r with paddock := r.paddock ++ new }

/-- One round among the survivors: forwarding, and applying what can be applied. -/
def evictRound (e c : Nat) (l : List Nat) (s : State) : State :=
  l.foldl (fun s d =>
    settleDie d (forwardTo d e c ((l.filter (· != d)).foldl (fun s k => forwardTo d k (2 ^ 32) s) s))) s

def evictRounds (e c : Nat) (l : List Nat) : Nat → State → State
  | 0, s => s
  | fuel + 1, s => evictRounds e c l fuel (evictRound e c l s)

/-- Whether a granted slot of the dying die's time has a packet or an operation that a survivor holds (R322, step 5). -/
def State.slotHeld (s : State) (l : List Nat) (d gs : Nat) : Bool :=
  ((s.repl d).paddock.any fun p => p.strong && !p.null && p.gs == gs) ||
    l.any fun k => ((s.repl k).upds.any fun u => match u.grant with
        | some g => g.1 == gs
        | none => false) ||
      (s.unapplied d k).any fun p => p.strong && p.gs == gs

/-- The null slots of a survivor (R311, R322). -/
def nullSlots (e d : Nat) (l : List Nat) (s : State) : State :=
  let g0 := (s.repl d).gseq
  let nulls := ((List.range (s.capo.next - g0)).map (g0 + ·)).filter fun g => !s.slotHeld l d g
  s.modRepl d fun r => { r with paddock := r.paddock ++ nulls.map fun g =>
    { src := e, strong := true, null := true, sep := r.sep, epoch := s.epoch, sq := 0, wseq := 0, gs := g, dep := List.replicate 8 0,
      lines := [], since := s.cycle, ctx := 0 } }

/-- Steps 2 to 5: the survivors agree on the packets of `e`, and apply everything that they hold. -/
def evictDrain (e : Nat) (l : List Nat) (s : State) : Nat × State :=
  let s := (s.grants.filter fun g => l.contains g.die).foldl (fun s g => takeGrant g s) s
  let c := s.cut e l
  let s := l.foldl (fun s d =>
    forwardTo d e c (s.modRepl d fun r => { r with paddock := r.paddock.filter fun p => p.src != e || decide (p.sq ≤ c) })) s
  let s := l.foldl (fun s d => nullSlots e d l s) s
  let n := l.foldl (fun n d =>
    n + (s.repl d).upds.length + (s.repl d).paddock.length + ((s.repl d).outLog.map (·.length)).sum) 1
  (c, evictRounds e c l n s)

/-- The number of a lost strong operation (Table 15.8). -/
def StrongKind.lost : StrongKind → Nat
  | .sst => 0
  | .add => 1
  | .xchg => 1
  | .cas => 1
  | .rsync => 2

/-- Completing an operation of an evicted die with all ones (R323). -/
def onesPend (p : Pend) : Pend := { p with kind := .ready, dests := destsOf p.places (tagVals p.tags (2 ^ 128 - 1)) }

/-- The operations of the evicted die that its own replica has not applied (R323). -/
def loseUpds : List Upd → State → State
  | [], s => s
  | u :: l, s =>
    match u.strong with
    | none => loseUpds l s
    | some k =>
      loseUpds l (logRepl evReplLost k.lost ((u.grant.map (·.1)).getD 0) u.fpc.toNat (s.modPend u.op fun p =>
        match k with
        | .sst => { p with kind := .ready }
        | .add | .xchg | .cas | .rsync => onesPend p))

/-- Those that it has applied beyond the cut and that have not completed; `gs` gives the slot of a SEQ. -/
def losePends (e c : Nat) (gs : Nat → Nat) : List Pend → State → State
  | [], s => s
  | p :: l, s =>
    let lost := fun (k sq : Nat) (f : Pend → Pend) => logRepl evReplLost k (gs sq) p.fpc.toNat (s.modPend p.id f)
    losePends e c gs l (match p.kind with
      | .strongDone d sq => if d == e && decide (c < sq) then lost 1 sq onesPend else s
      | .replStore d sq => if p.sc && d == e && decide (c < sq) then lost 0 sq id else s
      | .rsync d sq =>
        if d == e then if c < sq then lost 2 sq onesPend else s.modPend p.id fun p => { p with kind := .ready } else s
      | _ => s)

/-- An architected event starts again after an eviction (R325). -/
def Arch.again (now : Nat) : Arch → Arch
  | .wrap _ => .wrap now
  | .rejoin d _ => .rejoin d now

/-- EVICTION of a condemned member: steps 2 to 7 of R322, and R323. -/
def evict (e : Nat) (s : State) : State :=
  let l := s.others e
  let (c, s) := evictDrain e l s
  let ups := (s.repl e).upds
  let sent := (s.repl e).outLog.flatten
  let s := l.foldl (fun s d => s.modRepl d fun r =>
    let o := lset r.outLog e []
    { r with paddock := [], outLog := o, sent := o.map (·.length) }) s
  let s := s.modRepl e fun r => { r with paddock := [], outLog := List.replicate 8 [], sent := List.replicate 8 0, upds := [] }
  let s := { s with
    memb := setBit s.memb e false
    epoch := (s.epoch + 1) % 2 ^ 16
    air := []
    slotReqs := s.slotReqs.filter (·.die != e)
    grants := s.grants.filter (·.die != e)
    capo := if s.capo.holder == e then { s.capo with holder := l.headD 0, grants := 0, since := s.cycle } else s.capo
    arch := s.arch.map (Arch.again s.cycle) }
  let s := losePends e c (fun n => ((sent.find? (·.sq == n)).map (·.gs)).getD 0) s.pend (loseUpds ups s)
  let s := l.foldl (fun s d => endLag d (wakeRsyncs d s)) s
  let s := { s with quies := s.arch.isSome || (List.range 8).any s.condemned }
  logRepl evReplEvict e c s.epoch s

def execEviction (s : State) : Host.Outcome State Fault Refusal :=
  match s.arg with
  | .n1 e => .next (if s.condemned e then evict e s else s)
  | _ => .next s

/-! ## Counter wraps and rejoins (R324, R325) -/

/-- Whether a counter of a member, or the capo's last WSEQ, has reached 2^31. -/
def State.wrapDue (s : State) : Bool :=
  decide (2 ^ 31 ≤ s.capo.last) || (List.range 8).any fun d => s.isMember d &&
    let r := s.repl d
    decide (2 ^ 31 ≤ r.issued) || r.applied.any (fun n => decide (2 ^ 31 ≤ n)) || decide (2 ^ 31 ≤ r.clock) || decide (2 ^ 31 ≤ r.gseq)

/-- Whether an architected event may begin: no other in progress, and the pass of the last wrap over. -/
def State.archFree (s : State) : Bool := s.arch.isNone && !(List.range 8).any s.condemned && s.rewrite.isEmpty

/-- COUNTER_WRAP. -/
def execCounterWrap (s : State) : Host.Outcome State Fault Refusal :=
  .next (if s.archFree && s.wrapDue then { s with arch := some (.wrap s.cycle), quies := true } else s)

/-- Whether every paddock and outbound log is empty and every slot that was asked for has been applied. -/
def State.drained (s : State) : Bool :=
  s.slotReqs.isEmpty && s.grants.isEmpty && s.air.isEmpty &&
    ((List.range 8).all fun d => !s.isMember d ||
      (s.repl d).upds.isEmpty && (s.repl d).paddock.isEmpty && (s.repl d).outLog.all (·.isEmpty)) && !(List.range 8).any s.condemned

/-- Every counter of a die to 0 under a new SEP (R324, step 3). -/
def Repl.rebase (r : Repl) (sep : Nat) : Repl :=
  { r with issued := 0, applied := List.replicate 8 0, clock := 0, gseq := 0, sep := sep, sent := List.replicate 8 0
           lagBack := List.replicate 8 0 }

/-- The rebase of every member, and the lines that the pass after it has to cover: each listed one, and all others together under the
number REPLSIZE (R324). -/
def rebaseAll (s : State) : State :=
  let l := (List.range 8).filter s.isMember
  let s := l.foldl (fun s d => s.modRepl d fun r => r.rebase ((r.sep + 1) % 256)) s
  { s with
    capo := { s.capo with next := 0, last := 0 }
    strands := s.strands.map fun (e : StrandKey × Strand) => (e.1, { e.2 with replOut := none })
    launches := s.launches.map fun (e : Nat × Launch) => (e.1, { e.2 with outs := [] })
    pend := s.pend.map fun (p : Pend) =>
      match p.kind with
      | .replStore .. => { p with kind := .ready }
      | k => if k.isReady then { p with kind := .ready } else p
    rewrite := l.flatMap fun d => ((s.repl d).stamps.map fun x => (d, x.1)) ++ [(d, s.replSize)] }

/-- WRAP_REBASE. -/
def execWrapRebase (s : State) : Host.Outcome State Fault Refusal :=
  match s.arch with
  | some (.wrap t) =>
    if s.drained then
      let s := { rebaseAll s with arch := none, quies := false }
      .next (logRepl evReplWrap (s.repl s.capo.holder).sep (nsOfCycles (s.cycle - t)) s.epoch s)
    else .next s
  | _ => .next s

/-- STAMP_REWRITE: one stamp of an older SEP, or those of all lines never written, become (0, 0, SEP). -/
def rewriteStamp (die line : Nat) (s : State) : State :=
  if !s.rewrite.contains (die, line) then s
  else
    { s with rewrite := dropFirst (· == (die, line)) s.rewrite }.modRepl die fun r =>
      if line == s.replSize then { r with sepRest := r.sep }
      else { r with stamps := tmod r.stamps line fun t => if t.sep == r.sep then t else ⟨0, 0, r.sep⟩ }

def execStampRewrite (s : State) : Host.Outcome State Fault Refusal :=
  match s.arg with
  | .n2 die line => .next (rewriteStamp die line s)
  | _ => .next s

/-- REJOIN_REQUEST of an evicted die. -/
def execRejoinRequest (s : State) : Host.Outcome State Fault Refusal :=
  match s.arg with
  | .n1 d =>
    .next (if s.archFree && !s.isMember d && (s.repl d).mstate == .evicted && decide (d < 8) then
      { s.modRepl d fun r => { r with mstate := .rejoining } with arch := some (.rejoin d s.cycle), quies := true } else s)
  | _ => .next s

/-- Copying one replica's region over another's. -/
def copyReplica (src dst : Nat) (s : State) : State :=
  let a := s.replSpa src 0
  let b := s.replSpa dst 0
  let rest := s.mem.filter fun c => !(decide (b ≤ c.1) && decide (c.1 < b + s.replSize))
  let cells := s.mem.filter fun c => decide (a ≤ c.1) && decide (c.1 < a + s.replSize)
  { s with mem := cells.foldl (fun m (c : Host.Cell) => memSet m (c.1 - a + b) c.2) rest }.repair b s.replSize

/-- REJOIN_COPY_COMPLETE: with the copy done, the counters are rebased and the die is a member again; a copy that fails leaves it
evicted (Table 15.7). -/
def rejoined (d : Nat) (ok : Bool) (s : State) : State :=
  let src := ((List.range 8).find? s.isMember).getD d
  let r := s.repl src
  if ok && !s.linkDead src d then
    let s := { (copyReplica src d s).modRepl d fun y =>
        { y with stamps := r.stamps, sepRest := r.sepRest, sep := r.sep, mstate := .member, paddock := [], upds := []
                 outLog := List.replicate 8 [] } with
      memb := setBit s.memb d true, epoch := (s.epoch + 1) % 2 ^ 16, arch := none, quies := false }
    let s := rebaseAll s
    logRepl evReplJoin d s.epoch 0 s
  else
    let s := { s.modRepl d fun y => { y with mstate := .evicted } with arch := none, quies := false }
    logRepl evReplEvict d (lget r.applied d 0) s.epoch s

def execRejoinCopyComplete (s : State) : Host.Outcome State Fault Refusal :=
  match s.arg, s.arch with
  | .ok1 d ok, some (.rejoin e _) => .next (if d == e && s.drained then rejoined d ok s else s)
  | _, _ => .next s

/-! ## Line repair (R342) -/

/-- Whether a member has applied every update that another has. -/
def State.caughtUp (s : State) (die d : Nat) : Bool :=
  (List.range 8).all fun k => decide (lget (s.repl die).applied k 0 ≤ lget (s.repl d).applied k 0)

/-- REPLFIX: a failed line of a replica is fetched with its stamp from the lowest-ranked other member that holds it intact, once that has
applied what the die has, so that no update is lost (log 27); the die then goes on with the updates that waited for the line. Where no
member holds it, the replication unit has failed. -/
def fixLine (die line : Nat) (s : State) : State :=
  let line := lineOf line
  let a := s.replSpa die line
  if !s.isMember die || s.replSize ≤ line || !s.bad.contains (a / 32) then s
  else
    match (s.others die).find? fun d => !s.bad.contains (s.replSpa d line / 32) with
    | none => uncorrectable die 7 0 s
    | some d =>
      if !s.caughtUp die d then s
      else settleDie die (logRepl evReplFix die a 0 (writeStamped die line (s.replBytes d line 32) (s.stampOf d line) s))

def execReplfix (s : State) : Host.Outcome State Fault Refusal :=
  match s.arg with
  | .n2 die line => .next (fixLine die line s)
  | _ => .next s

end Sys2Proof.Machine
end

