-- ==== Sys2Proof/Machine/Gates.lean ====
section
/-! DEFINITION. Gates at their homes: admission, the token bucket, answers, migration (R332 to R338). -/

namespace Sys2Proof.Machine

/-! ## The token bucket (R334) -/

/-- What a gate's partial credit counts: RATE for each quarter of a core cycle's 0.8 ns, so that 5,000,000 of it are one token. -/
def tokenCredit : Nat := 5000000

/-- Applying a signal: the sum saturates. -/
def Gate.signal (g : Gate) (n : Nat) : Gate := { g with value := min (g.value + n) (2 ^ 64 - 1) }

/-- The gate at a cycle: its whole tokens, of which delayed signals take theirs first, in order. -/
def Gate.accrue (g : Gate) (now : Nat) : Gate :=
  if g.rate == 0 then { g.delayed.foldl (fun g d => g.signal d.2) g with delayed := [], at_ := now }
  else
    let c := g.credit + g.rate * (now - g.at_) * 4
    let n := g.tokens + c / tokenCredit
    let k := min n g.delayed.length
    let g' := (g.delayed.take k).foldl (fun g d => g.signal d.2) g
    { g' with tokens := min g.burst (n - k), delayed := g.delayed.drop k, credit := c % tokenCredit, at_ := now }

/-! ## At the home (R333, R336, R337) -/

def State.gateOp (s : State) (id : Nat) : Option GateOp := s.gateOps.find? (·.id == id)
def State.setGateSt (s : State) (id : Nat) (st : GateSt) : State :=
  { s with gateOps := s.gateOps.map fun (o : GateOp) => if o.id == id then { o with st := st } else o }
def State.dropGateOp (s : State) (id : Nat) : State := { s with gateOps := s.gateOps.filter fun (o : GateOp) => o.id != id }

/-- Whether the access list of a gate grants what an operation asks for. -/
def Gate.grants (g : Gate) (o : GateOp) : Bool :=
  g.valid && g.acl.any fun a => a.tenant == o.tenant && match o.ask with
    | .sig _ => a.sig
    | .wait _ => a.wait
    | .rd => a.read

/-- The waits whose threshold the value meets are answered with it. -/
def wakeGate (g : Gate) (s : State) : State :=
  { s with gateOps := s.gateOps.map fun (o : GateOp) =>
      match o.ask, o.st with
      | .wait thr, .waiting => if o.gid == g.gid && decide (thr ≤ g.value) then { o with st := .answered g.value } else o
      | _, _ => o }

def putGate (g : Gate) (s : State) : State := wakeGate g { s with gates := tset s.gates g.gid g }

/-- The strand's gate word, tried again: an admitted GSIG or GRD commits, an answered GWAIT issues. -/
def retryGate (k : StrandKey) (s : State) : State :=
  match s.strand k with
  | none => s
  | some x =>
    match x.word with
    | none => s
    | some w =>
      match decode w none with
      | .ok (.gsig fb a b) => wordState k (gateSig fb a b) s
      | .ok (.gwait fb d a b) => wordState k (gateWait fb d a b) s
      | .ok (.grd fb d a) => wordState k (gateRead fb d a) s
      | _ => s

/-- The module of the context that issued an operation. -/
def GateOp.home (o : GateOp) (here : Nat) : Nat :=
  match o.away with
  | some a => a.1
  | none => here

/-- The issuing context is told that its signal is delayed: by GATEDELAY in its log, or by word to its module, which logs it (R334). -/
def tellDelay (o : GateOp) (g : Gate) (s : State) : State :=
  match o.away with
  | none => logPlain o.ctx evGateDelay 0 o.owner.grp.launch g.gid g.delayedCount s
  | some (m, d, tag) => { s with out := s.out ++ [.gateLate m d tag g.delayedCount] }

/-- Word comes from a home on another module that a signal of this module is delayed there (R334). -/
def gateLate (op count : Nat) (s : State) : State :=
  match s.gateOp op with
  | some o =>
    match o.ask with
    | .sig _ => if o.away.isNone && s.gateFar o.gid then logPlain o.ctx evGateDelay 0 o.owner.grp.launch o.gid count s else s
    | .wait _ | .rd => s
  | none => s

/-- An admitted operation at a gate that is up to date (R334, R336). -/
def serveGate (o : GateOp) (g : Gate) (s : State) : State :=
  match o.ask with
  | .sig n =>
    let s :=
      if g.rate == 0 then putGate (g.signal n) s
      else if 0 < g.tokens && g.delayed.isEmpty then putGate ({ g with tokens := g.tokens - 1 }.signal n) s
      else
        let g' := { g with delayed := g.delayed ++ [(o.ctx, n)], delayedCount := g.delayedCount + 1 }
        if g.logged.contains (o.home s.modId, o.ctx) then putGate g' s
        else tellDelay o g' (putGate { g' with logged := (o.home s.modId, o.ctx) :: g.logged } s)
    retryGate o.owner (s.setGateSt o.id (.answered 0))
  | .wait thr => (putGate g s).setGateSt o.id (if thr ≤ g.value then .answered g.value else .waiting)
  | .rd => retryGate o.owner ((putGate g s).setGateSt o.id (.answered g.value))

/-- An operation reaches a home on another module: whether it is admitted, and the value that it is answered with, are open to this one
(log 20), but that VALUE never decreases (R338): no answer is below one that this module has seen. -/
def serveAway (o : GateOp) (s : State) : State :=
  let a := s.drawBool
  let d := a.2.drawNat
  let seen := tgetD s.gateSeen o.gid 0
  let lo := match o.ask with
    | .wait thr => max thr seen
    | _ => seen
  let v := lo + d.1 % (2 ^ 64 - lo)
  if !a.1 && o.st != .waiting then a.2.setGateSt o.id .denied
  else
    let s := d.2
    match o.ask with
    | .sig _ => retryGate o.owner (s.setGateSt o.id (.answered 0))
    | .wait _ => { s with gateSeen := tset s.gateSeen o.gid v }.setGateSt o.id (.answered v)
    | .rd => retryGate o.owner ({ s with gateSeen := tset s.gateSeen o.gid v }.setGateSt o.id (.answered v))

/-- An operation reaches the home of its gate on this module. A fenced home kills the launch that uses it (R341). -/
def serveHome (o : GateOp) (g : Gate) (s : State) : State :=
  if s.isFenced g.home 8 0 then blastUse o.owner.grp.launch g.home 8 0 s
  else if g.grants o then serveGate o (g.accrue s.cycle) s
  else s.setGateSt o.id .denied

/-- The GATE event of an operation, with its die. -/
def State.gateEvent (s : State) (id : Nat) : Option (Nat × ShedEvent) :=
  (List.range 8).findSome? fun d =>
    (((s.die d).events ++ (s.die d).waiting).find? fun e => e.kind == .gate && e.a0 == id).map fun e => (d, e)

/-- An operation is taken up at its home. A gate that was never made is not VALID. One whose home is another module answers there; one that
freezes, is copied or is arriving holds the operation, unless the old home has forwarded it. -/
def gateServe (o : GateOp) (s : State) : State :=
  match tget s.gates o.gid with
  | none =>
    if o.st != .sent then s else if bitsOf o.gid 35 16 == s.modId || o.away.isSome then s.setGateSt o.id .denied else serveAway o s
  | some g =>
    if 8 ≤ g.home then if o.st == .sent || o.st == .waiting then serveAway o s else s
    else if o.st != .sent || g.held.contains o.id then s
    else
      let hold := { s with gates := tset s.gates o.gid { g with held := g.held ++ [o.id] } }
      match g.mig with
      | .active | .forwarding => serveHome o g s
      | .freezing | .copying => hold
      | .arriving => if o.fwd then serveHome o g s else hold

/-- The first event of a die that an idle shed core takes without a row of the opcode table: a PERIOD, MIGR or WDOG event, for which
firmware has done its part with what raised it (log 25), or the GATE event of an operation that has been withdrawn. -/
def State.idleEvent (s : State) (die : Nat) : Option ShedEvent :=
  let d := s.die die
  d.events.find? fun e => d.oldest e && match e.kind with
    | .period | .migr | .wdog => true
    | .gate => (s.gateOp e.a0).isNone
    | _ => false

def shedIdle (die : Nat) (s : State) : State :=
  match s.idleEvent die with
  | some e => shedPop die e s
  | none => s

/-- GATE_REQUEST: the home's shed takes the operation's event when it is the oldest of its lock (R265). -/
def gateRequest (id : Nat) (s : State) : State :=
  match s.gateOp id with
  | none => s
  | some o =>
    match s.gateEvent id with
    | none => gateServe o s
    | some (d, e) => if (s.die d).oldest e then gateServe o (shedPop d e s) else s

def execGateRequest (s : State) : Host.Outcome State Fault Refusal :=
  match s.arg with
  | .n1 id => .next (gateRequest id s)
  | _ => .next s

/-- An answer for another module's strand leaves. -/
def answerFar (o : GateOp) (s : State) : State :=
  let r := match o.st with
    | .answered v => some (some v)
    | .denied => some none
    | _ => none
  match o.away, r with
  | some (m, d, tag), some v => { s.dropGateOp o.id with out := s.out ++ [.gateAnswer m d tag v] }
  | _, _ => s

/-- GATE_ANSWER: the answer reaches the strand. A denial traps; an admitted GSIG or GRD completes, or goes on under its flag; a GWAIT
that is met issues. -/
def gateAnswer (id : Nat) (s : State) : State :=
  match s.gateOp id with
  | none => s
  | some o =>
    if o.away.isSome then answerFar o s else
    match o.st with
    | .sent | .waiting => s
    | .denied => takeTrap o.owner .word { cause := .gden } (s.dropGateOp id)
    | .answered _ =>
      match o.ask with
      | .wait _ => retryGate o.owner s
      | .sig _ | .rd =>
        match s.pend.find? (·.kind == .gate id) with
        | none => s
        | some p =>
          let s := s.dropGateOp id
          match p.flag with
          | none => pendWhole p s
          | some f =>
            (s.modPend p.id fun p => { p with kind := .ready }).modStrand p.owner fun x =>
              { x with phase := .body, flags := lmod x.flags f (· + 1) }.advance p.len

def execGateAnswer (s : State) : Host.Outcome State Fault Refusal :=
  match s.arg with
  | .n1 id => .next (gateAnswer id s)
  | _ => .next s

/-- GATE_TOKEN_ACCRUE. -/
def execGateTokenAccrue (s : State) : Host.Outcome State Fault Refusal :=
  match s.arg with
  | .n1 gid =>
    match tget s.gates gid with
    | some g => .next (if g.mig == .copying || 8 ≤ g.home then s else putGate (g.accrue s.cycle) s)
    | none => .next s
  | _ => .next s

/-! ## Migration (R338) -/

/-- A step of a gate in one state of Table 15.13. -/
def gateStep (st : GMig) (f : Gate → State → State) (s : State) : Host.Outcome State Fault Refusal :=
  match s.arg with
  | .n1 gid =>
    match tget s.gates gid with
    | some g => .next (if g.mig == st && decide (g.home < 8) then f g s else s)
    | none => .next s
  | _ => .next s

/-- GATE_MIGRATE: MIGR at the old home. -/
def execGateMigrate (s : State) : Host.Outcome State Fault Refusal :=
  match s.arg with
  | .n3 gid m d =>
    match tget s.gates gid with
    | some g =>
      .next (if g.mig == .active && decide (g.home < 8) && decide (d < 8) && decide (m < 2 ^ 20) && !(m == s.modId && d == g.home) &&
          !(m == s.modId && s.isFenced d 8 0) then
        raiseShed g.home ⟨.migr, 0, gateLock gid, gid, m * 8 + d, false⟩
          { s with gates := tset s.gates gid { g with mig := .freezing, newMod := m, newHome := d } } else s)
    | none => .next s
  | _ => .next s

/-- GATE_MIGRATE_COPY: every operation in progress at the old home has been served whole, so the record, its delayed signals and its
waiters go. -/
def execGateMigrateCopy (s : State) : Host.Outcome State Fault Refusal :=
  gateStep .freezing (fun g s => { s with gates := tset s.gates g.gid { g.accrue s.cycle with mig := .copying } }) s

/-- The operations that the old home held are forwarded, in order. -/
def forwardHeld : List Nat → State → State
  | [], s => s
  | id :: l, s => forwardHeld l (gateRequest id s)

/-- The gate's record and what waits at it go to a home on another module (R338): no value below its VALUE is seen from now on. -/
def sendGateAway (g : Gate) (s : State) : State :=
  let w := s.gateOps.filter fun (o : GateOp) => o.gid == g.gid && o.st == .waiting
  { s with
    gateSeen := tset s.gateSeen g.gid g.value
    gateOps := s.gateOps.filter fun (o : GateOp) => !(o.gid == g.gid && o.away.isSome && o.st == .waiting)
    out := s.out ++ [.gateMove g.gid g.newMod g.newHome g w] }

/-- GATE_MIGRATE_ACK: the new home is active. Home 8 stands for a die of another module. -/
def execGateMigrateAck (s : State) : Host.Outcome State Fault Refusal :=
  gateStep .copying (fun g s =>
    let g' := { g with mig := .forwarding, home := if g.newMod == s.modId then g.newHome else 8, held := [] }
    forwardHeld g.held (if g.newMod == s.modId then putGate g' s else sendGateAway g (putGate g' s))) s

/-- A gate operation of another module's strand reaches a home of this one (R333, R338). -/
def gateAway (m d tag tenant ctx gid : Nat) (ask : GateAsk) (fwd : Bool) (s : State) : State :=
  let o : GateOp := { id := s.nextId, owner := noStrandKey, ctx := ctx, tenant := tenant, gid := gid, ask := ask, st := .sent,
                      away := some (m, d, tag), fwd := fwd }
  if m == s.modId || !gidOk gid then s
  else
    let s := { s with nextId := s.nextId + 1, gateOps := s.gateOps ++ [o] }
    match tget s.gates gid with
    | some g => if g.home < 8 then raiseShed g.home ⟨.gate, 0, gateLock gid, o.id, 0, false⟩ s else s
    | none => s

/-- Another module withdraws one of its operations: its strand has been discarded or killed (R337). -/
def gateAwayDrop (m d tag : Nat) (s : State) : State :=
  { s with gateOps := s.gateOps.filter fun (o : GateOp) => o.away != some (m, d, tag) }

/-- A gate's home moves to a die of this module (R338): the record comes with its VALUE, which never decreases. Operations that reach it
before the old home has drained are held, and its waiters come as operations that the old home forwards. -/
def gateArrive (die : Nat) (g : Gate) (s : State) : State :=
  let here := match tget s.gates g.gid with
    | some x => decide (x.home < 8)
    | none => false
  if here || 8 ≤ die || s.isFenced die 8 0 || !gidOk g.gid || g.value < tgetD s.gateSeen g.gid 0 || 2 ^ 64 ≤ g.value then s
  else putGate { g with home := die, mig := .arriving, held := [], at_ := s.cycle } s

/-- The old home on another module has forwarded what it held: the operations held here are admitted, in order (R338). -/
def gateDrained (gid : Nat) (s : State) : State :=
  match tget s.gates gid with
  | some g =>
    if g.mig == .arriving then forwardHeld g.held { s with gates := tset s.gates gid { g with mig := .active, held := [] } } else s
  | none => s

/-- GATEMOVE goes to every context of this module whose tenant is in a gate's access list (R338). -/
def logMoved (gid m d : Nat) (acl : List AclEntry) (s : State) : State :=
  logAll (fun x => acl.any fun a => a.tenant == x.d.tenant && (a.sig || a.wait || a.read)) ⟨evGateMove, 0, 0xFFFF, 0, gid, m * 8 + d⟩ s.ctxs s

/-- Word comes from the old home of a gate on another module that every die has acknowledged the new home. -/
def gateMoved (gid m d : Nat) (acl : List AclEntry) (s : State) : State :=
  if !gidOk gid || 8 ≤ d || 2 ^ 20 ≤ m then s else logMoved gid m d acl s

/-- GATE_RETIRE: every die has acknowledged the new home. The other modules' contexts are told by their own modules. -/
def execGateRetire (s : State) : Host.Outcome State Fault Refusal :=
  match s.arg with
  | .n1 gid =>
    match tget s.gates gid with
    | some g =>
      .next (if g.mig == .forwarding then
        logMoved gid g.newMod g.newHome g.acl { s with
          gates := tset s.gates gid { g with mig := .active }, out := s.out ++ [.gateMoved gid g.newMod g.newHome g.acl] }
      else s)
    | none => .next s
  | _ => .next s

end Sys2Proof.Machine
end

