-- ==== Sys2Proof/Machine/Colls.lean ====
section
/-! DEFINITION. The collective engines at work: chunks, exchanges, completion and failure (R363 to R380). -/

namespace Sys2Proof.Machine

/-! ## The ranks of a communicator -/

def State.coll (s : State) (die id : Nat) : Option Coll := s.colls.find? fun (c : Coll) => c.die == die && c.id == id
def State.modColl (s : State) (id : Nat) (f : Coll → Coll) : State :=
  { s with colls := s.colls.map fun (c : Coll) => if c.id == id then f c else c }

/-- The dies of this module that are ranks of a collective's communicator, with their ranks. -/
def State.localRanks (s : State) (c : Coll) : List (Nat × Nat) := s.ranksOf c.die c.comm

/-- The submission of a die that matches a collective: the same tile, or the same place in the communicator's order (R365, R372). -/
def State.matchOn (s : State) (c : Coll) (d : Nat) : Option Coll :=
  s.colls.find? fun (x : Coll) => x.die == d && x.comm == c.comm && x.tile == c.tile && (x.tile.isSome || x.order == c.order)

/-- The matching submissions of this module, with their ranks. -/
def State.peers (s : State) (c : Coll) : List (Nat × Coll) :=
  (s.localRanks c).filterMap fun e => (s.matchOn c e.1).map fun x => (e.2, x)

/-- Whether the accesses of a group that fired a tile are performed at the scope of tier 1: the firing is a release (R372). -/
def State.tileReleased (s : State) (x : Coll) (w : Item) : Bool :=
  x.tile.isNone || ((s.held.all fun (h : Held) => h.owner.grp != w.owner.grp) &&
    (s.globs.all fun (r : GlobReq) => r.owner.all (·.grp != w.owner.grp)) &&
    match s.launch x.launch with
    | some l => s.outsDone l x.scope
    | none => true)

/-- Every rank of this module has submitted, and its item may work (R199). -/
def State.allHere (s : State) (c : Coll) : Bool :=
  (s.localRanks c).all fun e => match s.matchOn c e.1 with
    | some x => match s.item x.item with
      | some w => s.itemRuns w && s.tileReleased x w
      | none => false
    | none => false

/-- A collective fails on every rank that holds it (R370); one that the ranks submitted differently fails on those too that submit it later
(R365, R380). -/
def failColl (c : Coll) (k : Cause) (s : State) : State :=
  let ids := (s.peers c).map (·.2.item)
  let s := { s with items := s.items.map fun (w : Item) => if ids.contains w.id && w.fail.isNone then { w with fail := some k } else w }
  if k == .irsv then loseColl (s.comm c.die c.comm).ctxid c.die c.comm c.order c.tile k s else s

/-! ## Pieces of memory -/

/-- The pieces of `n` bytes at an end, page by page. -/
def State.pieces (s : State) (e : End) (n : Nat) : List (End × Nat) := (s.cutMoves 0 e (.pat []) n n).map fun m => (m.src, m.n)

/-- A place of chip memory. -/
def chipEnd (va : Nat) : End := .mem .chip (va57 va) 0 0 0

/-- Where a rank's destination bytes go: chip memory, or its handle's buffer (R377). -/
def State.collDst (s : State) (c : Coll) (w : Item) (off : Nat) : End :=
  if c.dmem then chipEnd (c.dst + off)
  else
    match s.group w.owner.grp with
    | some g => descEnd w.owner.grp g (BitVec.ofNat 32 c.dst) off
    | none => chipEnd 0

/-- The first piece that an item cannot access now, with what it met. -/
def probe (w : Item) (wr : Bool) : List (End × Nat) → State → Option (End × Nat × Meet) × State
  | [], s => (none, s)
  | (e, n) :: l, s =>
    match meetEnd w e n wr s with
    | (.at_ loc, s) => if s.hbmOk w.ctx loc n then probe w wr l s else (some (e, n, .wait), s)
    | (m, s) => (some (e, n, m), s)

/-- Reading pieces that can be read. -/
def readPieces (w : Item) : List (End × Nat) → State → List Byte × State
  | [], s => ([], s)
  | (e, n) :: l, s =>
    match meetEnd w e n false s with
    | (.at_ loc, s) =>
      let b := readEnd w e loc n s
      let r := readPieces w l (chargeHbm w.ctx loc n s)
      (b ++ r.1, r.2)
    | (_, s) => readPieces w l s

/-- Writing pieces that can be written. -/
def writePieces (w : Item) : List (End × Nat) → List Byte → State → State
  | [], _, s => s
  | (e, n) :: l, b, s =>
    match meetEnd w e n true s with
    | (.at_ loc, s) => writePieces w l (b.drop n) (writeEnd w e loc (b.take n) (chargeHbm w.ctx loc n s))
    | (_, s) => writePieces w l (b.drop n) s

/-- Every item's pieces, or what the first that cannot be accessed does to its item. -/
def probeAll (wr : Bool) : List (Item × List (End × Nat)) → State → Bool × State
  | [], s => (true, s)
  | (w, ps) :: l, s =>
    match probe w wr ps s with
    | (none, s) => probeAll wr l s
    | (some (e, n, m), s) => (false, meetStop w 0 ⟨0, e, e, n, none, false⟩ wr m s)

/-! ## The fabric side (R352 to R355, R368, R373) -/

/-- The endpoint of a rank, as the communicator's list names it. -/
def State.rankAt (s : State) (c : Coll) (q : Nat) : Option (Nat × Nat) := s.rankEnd c.die c.comm q

/-- The way of a communicator's packets from a die to an endpoint: its virtual channel, on a path that a hash of the endpoint pins (R347,
R362, log 10). -/
def State.collWay (s : State) (c : Coll) (e : Nat × Nat) : Way :=
  let m := s.comm c.die c.comm
  let strm := 16 + m.vc
  ⟨m.ctxid, c.die, m.keyid, e.2, Config.pinnedPlane c.die e.1 e.2 strm (tgetD s.repins (c.die, e.1, e.2, strm) 0) % 16, e.1, e.2, m.vc, 0⟩

/-- The ranks of a communicator that are not on this module. -/
def State.awayRanks (s : State) (c : Coll) : List Nat :=
  (List.range (s.comm c.die c.comm).nranks).filter fun q => !(s.localRanks c).any (·.2 == q)

/-- Where a rank's contribution goes: to the next rank in ring order that another module holds. -/
def State.ringNext (s : State) (c : Coll) : Option (Nat × Nat) :=
  let n := (s.comm c.die c.comm).nranks
  let away := s.awayRanks c
  match ((List.range n).map fun i => ((s.comm c.die c.comm).myrank + 1 + i) % n).find? away.contains with
  | some q => s.rankAt c q
  | none => none

/-- The port that a collective's chunks take, with its die: 16 for the in-package links of a die, where no rank is on another module. -/
def State.collPort (s : State) (c : Coll) : Nat × Nat :=
  if (s.awayRanks c).isEmpty then (c.die, 16)
  else
    match s.ringNext c with
    | some e => (e.2, (s.collWay c e).port)
    | none => (c.die, 16)

/-- Packets of `n` bytes, at least one (R352). -/
def packetsOf (n : Nat) : Nat := max 1 ((n + 255) / 256)

/-- The flits of packet `i` of some bytes. -/
def flitsAt (b : List Byte) (i : Nat) : Nat := 1 + (((b.drop (256 * i)).take 256).length + 31) / 32

/-- Whether a rank has brought its part of the present chunk to the fabric. -/
def Coll.passed (c : Coll) : Bool :=
  match c.data with
  | some b => decide (packetsOf b.length ≤ c.put)
  | none => false

/-- Packets of a rank's contribution, while its communicator has allowances and its account a balance (R286, R355, R373); the fuel is their
number. -/
def sendPackets (c : Coll) (y : Way) (acct : Nat) (b : List Byte) : Nat → Nat → State → Nat × State
  | 0, i, s => (i, s)
  | fuel + 1, i, s =>
    let n := flitsAt b i
    if s.canSend y acct n then
      sendPackets c y acct b fuel (i + 1) (sendPacket y acct n (.part c.comm c.order (c.pos + 256 * i) ((b.drop (256 * i)).take 256)) s)
    else (i, s)

/-! ## Chunks (R365, R367, R373) -/

/-- Whether a collective has a chunk that can move on its port now: on this module, its chunk; toward others, its next packet, with an
allowance. -/
def State.chunkReady (s : State) (x : Coll) : Bool :=
  let n := (s.comm x.die x.comm).nranks
  x.map.isNone && s.allHere x && (s.awayRanks x).all (x.met.contains ·) && (decide (x.pos < x.opBytes n) || (x.op == 4 && x.got == 0)) &&
    ((s.awayRanks x).isEmpty || (!x.passed && match s.ringNext x, s.item x.item with
      | some e, some w => s.canSend (s.collWay x e) (s.acctOf w.ctx) 1
      | _, _ => false))

/-- How far a communicator's turn on a port is away, round-robin by number. -/
def State.turnOf (s : State) (at_ : Nat × Nat) (comm : Nat) : Nat := (comm + 255 - tgetD (s.die at_.1).turns at_.2 255) % 256

/-- Whether another collective goes first on the port: one of higher priority, or of the same and an earlier turn (R373). -/
def State.outranked (s : State) (c : Coll) : Bool :=
  let at_ := s.collPort c
  s.colls.any fun (x : Coll) => x.id != c.id && s.collPort x == at_ && s.chunkReady x &&
    (decide (c.prio < x.prio) || (x.prio == c.prio && x.comm != c.comm && decide (s.turnOf at_ x.comm < s.turnOf at_ c.comm)))

/-- A communicator has taken its turn on a port. -/
def takeTurn (c : Coll) (s : State) : State :=
  let at_ := s.collPort c
  s.modDie at_.1 fun d => { d with turns := tset d.turns at_.2 c.comm }

/-- Whether a submission asks for what another rank asks for (R365). -/
def Coll.sameAs (c x : Coll) : Bool := x.op == c.op && x.dt == c.dt && x.count == c.count && x.root == c.root && x.map.isNone
def Coll.samePart (c : Coll) (p : CollPart) : Bool := p.op == c.op && p.dt == c.dt && p.count == c.count && p.root == c.root

/-- The bytes of the operation from `lo` on that every rank's part together give. -/
def Coll.combine (c : Coll) (parts : List (Nat × List Byte)) : List Byte × Log :=
  match c.op with
  | 0 | 1 => reduceBytes c.dt (parts.map (·.2))
  | 2 => (parts.flatMap (·.2), {})
  | _ => (((parts.find? (·.1 == c.root)).map (·.2)).getD [], {})

/-- The parts of all ranks in rank order: this module's and the others'. -/
def rankParts (n : Nat) (here : List (Nat × List Byte)) (inp : List CollPart) : List (Nat × List Byte) :=
  (List.range n).map fun q =>
    match here.find? (·.1 == q) with
    | some e => e
    | none => (q, ((inp.find? (·.rank == q)).map (·.bytes)).getD [])

/-- The rank's result of a chunk is written and counted. -/
def writeChunk (lo hi : Nat) (r : List Byte × Log) (e : Nat × Coll) (w : Item) (s : State) : State :=
  let x := e.2
  let t := x.takes e.1 lo hi
  let s := writePieces w (s.pieces (chipEnd (x.dstAt e.1 t.1)) t.2) ((r.1.drop (t.1 - lo)).take t.2) s
  let s := s.modItem w.id fun w =>
    { (w.wrote t.2) with invl := w.invl || r.2.invl, ovfl := w.ovfl || r.2.ovfl, unfl := w.unfl || r.2.unfl }
  s.modColl x.id fun x => { x with pos := hi, got := x.got + t.2, since := s.cycle, data := none, put := 0 }

/-- The pieces that a rank still has to read for a chunk. -/
def State.chunkSrc (s : State) (lo hi : Nat) (e : Nat × Coll × Item) : List (End × Nat) :=
  let b := e.2.1.brings e.1 lo hi
  if e.2.1.data.isSome then [] else s.pieces (chipEnd (e.2.1.srcAt e.1 b.1)) b.2

/-- A rank's contribution leaves for the other modules: it is read, and then sent packet by packet, a chunk that its port has begun going
on to its end (R373). -/
def sendChunk (lo hi : Nat) (e : Nat × Coll × Item) (s : State) : State :=
  let c := e.2.1
  match c.data with
  | none =>
    match probeAll false [(e.2.2, s.chunkSrc lo hi e)] s with
    | (false, s) => s
    | (true, s) =>
      let r := readPieces e.2.2 (s.chunkSrc lo hi e) s
      r.2.modColl c.id fun c => { c with data := some r.1 }
  | some b =>
    if c.passed || (c.put == 0 && s.outranked c) then s
    else
      match s.ringNext c with
      | none => s
      | some ep =>
        let r := sendPackets c (s.collWay c ep) (s.acctOf e.2.2.ctx) b (packetsOf b.length - c.put) c.put s
        if r.1 == c.put then s
        else (takeTurn c r.2).modColl c.id fun c => { c with put := r.1, since := s.cycle }

/-- One chunk of a collective in which every rank takes part. -/
def chunkGo (c : Coll) (n : Nat) (ps : List (Nat × Coll × Item)) (inp : List CollPart) (s : State) : State :=
  let lo := c.pos
  let hi := min (lo + c.chunk) (c.opBytes n)
  let src := s.chunkSrc lo hi
  let dst := fun (e : Nat × Coll × Item) =>
    let t := e.2.1.takes e.1 lo hi
    s.pieces (chipEnd (e.2.1.dstAt e.1 t.1)) t.2
  match probeAll false (ps.map fun e => (e.2.2, src e)) s with
  | (false, s) => s
  | (true, s) =>
    match probeAll true (ps.map fun e => (e.2.2, dst e)) s with
    | (false, s) => s
    | (true, s) =>
      let rd := ps.foldl (fun (a : List (Nat × List Byte) × State) e =>
        let r := readPieces e.2.2 (src e) a.2
        (a.1 ++ [(e.1, e.2.1.data.getD r.1)], r.2)) ([], s)
      let r := c.combine (rankParts n rd.1 inp)
      ps.foldl (fun s e => writeChunk lo hi r (e.1, e.2.1) e.2.2 s) (if ps.length == n then takeTurn c rd.2 else rd.2)

/-- The other modules are told that a rank has submitted, the first time (R366). -/
def announce (r : Nat) (x : Coll) (s : State) : State :=
  if x.met.contains r then s
  else { s with out := s.out ++ [.collJoin x.die x.comm x.order x.tile r x.op x.dt x.count x.root x.map] }

/-- The ranks of this module learn that ranks of others have submitted, and these of theirs (R366). -/
def hearRanks (ps : List (Nat × Coll × Item)) (l : List Nat) (s : State) : State :=
  let s := ps.foldl (fun s e => announce e.1 e.2.1 s) s
  { s with colls := s.colls.map fun (x : Coll) => match ps.find? (·.2.1.id == x.id) with
      | some e => { x with met := (e.1 :: l ++ x.met).eraseDups }
      | none => x }

/-- A chunk of a collective that every rank has submitted: first what each rank brings goes to the other modules, and then the chunk is made
with what theirs bring, which is `inp`. -/
def chunkMove (c : Coll) (n : Nat) (away : List Nat) (ps : List (Nat × Coll × Item)) (inp : List CollPart) (s : State) : State :=
  let lo := c.pos
  let hi := min (lo + c.chunk) (c.opBytes n)
  if c.op != 4 && c.opBytes n ≤ lo then s
  else if c.op == 4 && c.got != 0 then s
  else if !away.isEmpty && ps.any (fun e => !e.2.1.passed) then
    (ps.filter fun e => !e.2.1.passed).foldl (fun s e => sendChunk lo hi e s) s
  else if (away.isEmpty && s.outranked c) || !away.all (fun q => inp.any (·.rank == q)) then s
  else if c.op == 4 then
    ps.foldl (fun s e => s.modColl e.2.1.id fun x => { x with got := 1, since := s.cycle }) (if away.isEmpty then takeTurn c s else s)
  else if inp.any (fun p => away.contains p.rank && p.bytes.length != (c.brings p.rank lo hi).2) then s
  else chunkGo c n ps inp s

/-- COLL_CHUNK_STEP of a collective. No rank's memory is accessed before every rank has submitted (R366); of ranks of other modules that is
known from the parts that they bring (log 32). -/
def chunkStep (c : Coll) (inp : List CollPart) (s : State) : State :=
  let n := (s.comm c.die c.comm).nranks
  let away := s.awayRanks c
  let ps := (s.peers c).filterMap fun e => (s.item e.2.item).map fun w => (e.1, e.2, w)
  let cut := ps.any fun e => ps.any fun f => s.linkDead e.2.1.die f.2.1.die
  if !s.allHere c || cut then s
  else if ps.any (fun e => !c.sameAs e.2.1) || away.any (fun q => inp.any fun p => p.rank == q && !c.samePart p) then failColl c .irsv s
  else if away.isEmpty then chunkMove c n away ps inp s
  else
    let l := away.filter fun q => inp.any (·.rank == q)
    let s := hearRanks ps l s
    if away.all fun q => c.met.contains q || l.contains q then chunkMove c n away ps inp s else s

/-! ## Exchanges (R376 to R380) -/

/-- The bytes that one rank of this module sends to another, element by element, under the destination's submission. -/
def exchangeHere (c x : Coll) (w y : Item) (r q : Nat) (m : LMap) (s : State) : State :=
  let sz := 2 ^ m.esz
  let prs := m.sends r q
  let src := prs.map fun e => (chipEnd (c.src + sz * e.1), sz)
  let dst := prs.map fun e => (s.collDst x y (sz * e.2), sz)
  match probeAll false [(w, src)] s with
  | (false, s) => s
  | (true, s) =>
    match probeAll true [(y, dst)] s with
    | (false, s) => s
    | (true, s) =>
      let b := readPieces w src s
      let s := writePieces y dst b.1 b.2
      let n := sz * prs.length
      let s := s.modItem y.id (·.wrote n)
      let s := s.modColl x.id fun x => { x with got := x.got + n, since := s.cycle }
      s.modColl c.id fun c => { c with sent := q :: c.sent, since := s.cycle }

/-- Runs that a rank sends to a rank of another module, one for each element, while allowances last; the fuel is their number. -/
def sendRuns (c : Coll) (w : Item) (y : Way) (sz map : Nat) (prs : List (Nat × Nat)) : Nat → Nat → State → Nat × State
  | 0, i, s => (i, s)
  | fuel + 1, i, s =>
    let e := lget prs i (0, 0)
    let src := [(chipEnd (c.src + sz * e.1), sz)]
    let acct := s.acctOf w.ctx
    if !s.canSend y acct 2 then (i, s)
    else
      match probeAll false [(w, src)] s with
      | (false, s) => (i, s)
      | (true, s) =>
        let b := readPieces w src s
        sendRuns c w y sz map prs fuel (i + 1) (sendPacket y acct 2 (.run c.comm c.order map (sz * e.2) b.1) b.2)

/-- What it sends to a rank of another module; the exchange goes on with that rank until all has left. -/
def exchangeAway (c : Coll) (w : Item) (r q : Nat) (img : BitVec 1024) (s : State) : State :=
  let m := lmap img
  let prs := m.sends r q
  match s.rankAt c q with
  | none => s
  | some e =>
    let t := sendRuns c w (s.collWay c e) (2 ^ m.esz) img.toNat prs (prs.length - c.put) c.put s
    let fin := decide (prs.length ≤ t.1)
    t.2.modColl c.id fun x =>
      { x with put := if fin then 0 else t.1, goal := if fin then none else some q, since := if t.1 == c.put && !fin then x.since else s.cycle,
               sent := if fin then q :: x.sent else x.sent }

/-- Whether a rank's map, as it stands in another rank's submission, is this one's. -/
def Coll.mapIs (c : Coll) (l : List Byte) : Bool :=
  match c.map with
  | some img => l == toBytes 128 img.toNat
  | none => false

/-- Ranks that have submitted equal maps know it of each other: the rank `r` of `c`, the others of this module, and those of other modules
(R380). -/
def agreeMaps (c : Coll) (r : Nat) (here : List (Nat × Coll)) (away : List Nat) (s : State) : State :=
  { s with colls := s.colls.map fun (x : Coll) =>
      if x.id == c.id then { x with met := (r :: here.map (·.1) ++ away ++ x.met).eraseDups }
      else if here.any (·.2.id == x.id) then { x with met := (r :: x.met).eraseDups }
      else x }

/-- COLL_CHUNK_STEP of an exchange: it compares its map with those of the ranks that have submitted, and goes on with the rank to which it is
sending, or the next with an equal map to which nothing has been sent. A rank of another module brings its map as its part. Nothing passes
over a dead link. -/
def exchangeStep (c : Coll) (img : BitVec 1024) (inp : List CollPart) (s : State) : State :=
  let cm := s.comm c.die c.comm
  let here := (s.peers c).filter fun e => !s.linkDead c.die e.2.die
  let away := s.awayRanks c
  let parts := inp.filter fun p => away.contains p.rank
  match s.item c.item with
  | none => s
  | some w =>
    if !s.itemRuns w then s
    else if here.any (fun e => e.2.map != some img) || parts.any (fun p => !c.mapIs p.bytes) then failColl c .irsv s
    else
      let s := agreeMaps c cm.myrank here (parts.map (·.rank)) (if away.isEmpty then s else announce cm.myrank c s)
      let ready := fun q => !c.sent.contains q && c.goal.all (· == q) && match here.find? (·.1 == q) with
        | some e => (s.item e.2.item).any s.itemRuns
        | none => away.contains q && (c.met.contains q || parts.any (·.rank == q))
      match (List.range cm.nranks).find? ready with
      | none => s
      | some q =>
        match here.find? (·.1 == q) with
        | some e =>
          match s.item e.2.item with
          | some y => exchangeHere c e.2 w y cm.myrank q (lmap img) s
          | none => s
        | none => exchangeAway c w cm.myrank q img s

/-- COLL_CHUNK_STEP. -/
def execCollChunkStep (s : State) : Host.Outcome State Fault Refusal :=
  match s.arg with
  | .parts die id inp =>
    match s.coll die id with
    | none => .next s
    | some c =>
      .next (match c.map with
        | some img => exchangeStep c img inp s
        | none => chunkStep c inp s)
  | _ => .next s

/-- The exchange that a run from a rank of another module is for, with its item: the one that has the run's place in the communicator's
order. -/
def State.runFor (s : State) (die comm key order off n : Nat) : Option (Coll × Item) :=
  match s.colls.find? fun (c : Coll) => c.die == die && c.comm == comm && c.map.isSome && c.order == order with
  | none => none
  | some c =>
    match s.item c.item with
    | none => none
    | some w => if (s.comm die comm).keyid != key || c.need < c.got + n || c.need < off + n then none else some (c, w)

/-- A run that cannot be written yet, since its exchange is held, is paused or has no balance (R286, R380): it stays in its port's input
buffer, and its page may be asked for. -/
def holdRun (die comm key order map off n : Nat) (s : State) : Option State :=
  match s.runFor die comm key order off n with
  | none => none
  | some (c, w) =>
    if (c.map.map (·.toNat)) != some map then none
    else if !s.itemRuns w then some s
    else
      match probeAll true [(w, s.pieces (s.collDst c w off) n)] s with
      | (false, s) => some s
      | (true, _) => none

/-- A run of an exchange arrives from a rank of another module (R380): at the exchange that has the same place in the communicator's
order, if the maps agree. Nothing arrives before the rank has submitted. -/
def runArrives (die comm key order map off : Nat) (b : List Byte) (s : State) : State :=
  match s.runFor die comm key order off b.length with
  | none => s
  | some (c, w) =>
    if (c.map.map (·.toNat)) != some map then failColl c .irsv s
    else
      let ps := s.pieces (s.collDst c w off) b.length
      match probeAll true [(w, ps)] s with
      | (false, s) => s
      | (true, s) =>
        let s := (writePieces w ps b s).modItem w.id (·.wrote b.length)
        s.modColl c.id fun c => { c with got := c.got + b.length, since := s.cycle }

/-- Word from another module that a collective has failed on a rank of it (R365, R372, R380). -/
def lostArrives (die comm order : Nat) (tile : Option Nat) (k : Cause) (s : State) : State :=
  let m := s.comm die comm
  if m.valid then
    let t := { loseColl m.ctxid die comm order tile k s with out := s.out }
    let held := s.colls.any fun (c : Coll) => c.die == die && c.comm == comm && c.tile == tile && (tile.isSome || c.order == order)
    if held then t else { t with losts := t.losts ++ [⟨m.ctxid, comm, tile, order, k, [die]⟩] }
  else s

/-! ## Ends (R366, R370) -/

/-- Whether a rank's part in a collective is over: what it receives written and counted, what it gives passed on. An exchange waits until
every rank has submitted an equal map, also for one to which it gives nothing (R380). -/
def State.collOver (s : State) (c : Coll) (w : Item) : Bool :=
  let n := (s.comm c.die c.comm).nranks
  w.fail.isNone && w.landed == w.arrived && c.got == c.need &&
    match c.map with
    | some img => (List.range n).all fun q =>
      c.met.contains q && (c.sent.contains q || ((lmap img).sends (s.comm c.die c.comm).myrank q).isEmpty)
    | none => c.op == 4 || c.opBytes n ≤ c.pos

/-- COLL_COMPLETE. -/
def execCollComplete (s : State) : Host.Outcome State Fault Refusal :=
  match s.arg with
  | .n2 die id =>
    match s.coll die id with
    | none => .next s
    | some c =>
      match s.item c.item with
      | none => .next s
      | some w =>
        .next (if s.collOver c w then closeItem w { s with colls := s.colls.filter fun (x : Coll) => x.id != id } else s)
  | _ => .next s

/-- COLL_TIMEOUT: 10 ms without progress. -/
def execCollTimeout (s : State) : Host.Outcome State Fault Refusal :=
  match s.arg with
  | .n2 die id =>
    match s.coll die id with
    | some c => .next (if c.since + cyclesOfNs 10000000 ≤ s.cycle then failColl c .rplx s else s)
    | none => .next s
  | _ => .next s

end Sys2Proof.Machine
end

