-- ==== Sys2Proof/Machine/Links.lean ====
section
/-! DEFINITION. The fabric's and the links' events: packets from other modules, responses, failures, flits and allowances (R242, R346 to
R357). -/

namespace Sys2Proof.Machine

/-! ## Responses (R168, R206, R348) -/

def State.globReq (s : State) (id : Nat) : Option GlobReq := s.globs.find? fun (r : GlobReq) => r.id == id
def State.dropReq (s : State) (id : Nat) : State := { s with globs := s.globs.filter fun (r : GlobReq) => r.id != id }

/-- The operation of a request has its answer: the value loaded, or the old value of an atomic with what the atomic logs. -/
def answerOp (r : GlobReq) (v : Nat) (p : Pend) : Pend :=
  match r.ask with
  | .read n => { p with kind := .ready, dests := destsOf p.places (loadedVals r.etag r.esz (v % 2 ^ (8 * n))) }
  | .write _ => { p with kind := .ready }
  | .atomic op a b =>
    { p.withLog (atomNew op v a b).2 with kind := .ready, dests := destsOf p.places (op.oldVals r.etag v) }

/-- The transfer of an item has its answer. -/
def answerMove (r : GlobReq) (n v : Nat) (w : Item) : Item :=
  match r.ask with
  | .read k => w.modMove n fun m => { m with data := some (toBytes k v) }
  | .write l => (w.wrote l.length).modMove n fun m => { m with done := true }
  | .atomic op a b =>
    let lg := (atomNew op v a b).2
    { (w.wrote 4).modMove n fun m => { m with done := true } with
      invl := w.invl || lg.invl, ovfl := w.ovfl || lg.ovfl, unfl := w.unfl || lg.unfl }

/-- The launch for which a request was made. -/
def State.reqLaunch (s : State) (r : GlobReq) : Nat :=
  match r.owner, r.item with
  | some k, _ => k.grp.launch
  | none, some e => match s.item e.1 with
    | some w => w.owner.grp.launch
    | none => 0
  | none, none => 0

/-- A request completes with an error response: FABERR, all ones in every result register (R168), RPLX for an item (R206), a denied
destination for a multicast (R360). -/
def errorReq (detail : Nat) (r : GlobReq) (s : State) : State :=
  let s := logFab r.ctx (s.reqLaunch r) detail r.tmod r.tdie r.va (s.dropReq r.id)
  match r.op, r.item with
  | some o, _ => s.modPend o fun p => { p with kind := .ready, dests := destsOf p.places (onesVals r.etag r.esz) }
  | none, some e => s.modItem e.1 fun w =>
      match w.kind with
      | .mcst _ => denyMove e.2 w
      | _ => if w.fail.isNone then { w with fail := some .rplx } else w
  | none, none => s

def errorReqs (detail : Nat) : List GlobReq → State → State
  | [], s => s
  | r :: l, s => errorReqs detail l (errorReq detail r s)

/-- The answer of a request: a value, or an error response. -/
def globAnswer (id : Nat) (data : Option Nat) (s : State) : State :=
  match s.globReq id with
  | none => s
  | some r =>
    match data with
    | none => errorReq 0 r s
    | some v =>
      let s := s.dropReq id
      match r.op, r.item with
      | some o, _ => s.modPend o (answerOp r v)
      | none, some e => s.modItem e.1 (answerMove r e.2 v)
      | none, none => s

/-- GLOB_RESPONSE. A response without data is an error response: the packet was refused or discarded where it arrived (R242, R354). -/
def execGlobResponse (s : State) : Host.Outcome State Fault Refusal :=
  match s.arg with
  | .globRsp id data => .next (globAnswer id data s)
  | _ => .next s

/-- PATH_FAILURE of a pinned path: its requests in flight fail, and the stream is pinned anew (R347, R348). -/
def execPathFailure (s : State) : Host.Outcome State Fault Refusal :=
  match s.arg with
  | .n4 die m d strm =>
    let on := fun (r : GlobReq) => r.die == die && r.tmod == m && r.tdie == d && r.strm == strm && !r.ask.isAtomic
    let s := errorReqs 1 (s.globs.filter on) s
    let k := (die, m, d, strm)
    .next { s with repins := tset s.repins k (tgetD s.repins k 0 + 1) }
  | _ => .next s

/-- RESPONSE_TIMEOUT: 1 ms without a response. -/
def execResponseTimeout (s : State) : Host.Outcome State Fault Refusal :=
  match s.arg with
  | .n1 id =>
    match s.globReq id with
    | some r => .next (if r.since + cyclesOfNs 1000000 ≤ s.cycle then errorReq 2 r s else s)
    | none => .next s
  | _ => .next s

/-! ## Packets from other modules (R242, R353, R354) -/

/-- A port counts the packets that it discards; with more than 64 in 1 ms it has failed (R341, R354). -/
def discardAt (die port : Nat) (s : State) : State :=
  let l := ((lget (s.die die).ports port Port.zero).discards.filter fun t => decide (s.cycle < t + cyclesOfNs 1000000)) ++ [s.cycle]
  let s := s.modDie die fun d => { d with ports := lmod d.ports port fun p => { p with discards := l } }
  if 64 < l.length then uncorrectable die 5 port s else s

/-- A response leaves by the port by which its request came, on virtual channel 1 (R346, R362). -/
def replyGo (r : Reply) (s : State) : State := putPacket r.way (1 + (r.data.length + 31) / 32) (.response r.tag r.data r.err) s

def State.replyMay (s : State) (r : Reply) : Bool := s.wayFree r.way (1 + (r.data.length + 31) / 32)

/-- What a home answers: the data, or an error. It waits behind the responses of its port, and for its allowances (R355). -/
def respond (p : FabPacket) (tag : Nat) (data : List Byte) (err : Bool) (s : State) : State :=
  let r : Reply := ⟨⟨0, p.die, p.keyid, p.die, p.port, p.srcMod, p.srcDie, 1, p.strm⟩, tag, data, err⟩
  if !(s.replies.any fun q => q.way.die == p.die && q.way.port == p.port) && s.replyMay r then replyGo r s
  else { s with replies := s.replies ++ [r] }

/-- The first waiting response of a port leaves, where it may. -/
def sendReply (die port : Nat) (s : State) : State :=
  match s.replies.find? fun q => q.way.die == die && q.way.port == port with
  | some r => if s.replyMay r then replyGo r { s with replies := s.replies.erase r } else s
  | none => s

/-- Whether the home admits a request (R242), and holds its lines intact. -/
def admitsPacket (s : State) (p : FabPacket) (spa n : Nat) (reads : Bool) : Bool :=
  decide (0 < n) && s.globAdmits p.die spa n p.keyid && (s.badAt (mkSpa 0 p.die (spaOff spa)) n reads).isNone

/-- A store of another module's agent: no context of this one triggers by it (R283). -/
def storeHome (die spa : Nat) (l : List Byte) (s : State) : State :=
  let a := mkSpa 0 die (spaOff spa)
  (s.writeSpa a l).repair a l.length

/-- What a packet does that verifies. A part of a collective comes to its chunk with the argument of COLL_CHUNK_STEP (log 32). -/
def servePacket (p : FabPacket) (s : State) : State :=
  match p.body with
  | .read tag spa n =>
    if admitsPacket s p spa n true then respond p tag (s.readSpa (mkSpa 0 p.die (spaOff spa)) n) false s else respond p tag [] true s
  | .write tag spa l =>
    if admitsPacket s p spa l.length false then respond p tag [] false (storeHome p.die spa l s) else respond p tag [] true s
  | .atomic tag op spa a b =>
    let n := if op.wide then 8 else 4
    if admitsPacket s p spa n true && spa % n == 0 then
      let m := ofBytes (s.readSpa (mkSpa 0 p.die (spaOff spa)) n)
      respond p tag (toBytes n m) false (storeHome p.die spa (toBytes n (atomNew op m a b).1) s)
    else respond p tag [] true s
  | .response tag l err => globAnswer tag (if err then none else some (ofBytes l)) s
  | .run comm order map off l => runArrives p.die comm p.keyid order map off l s
  | .part .. => s
  | .lost comm order tile k => lostArrives p.die comm order tile k s

/-- The tag of a packet that asks for a response. -/
def packetTag : FabBody → Option Nat
  | .read tag .. => some tag
  | .write tag .. => some tag
  | .atomic tag .. => some tag
  | .response .. | .run .. | .part .. | .lost .. => none

/-- The payload flits of a packet's body (R352). -/
def bodyPayload : FabBody → Nat
  | .read .. | .lost .. => 0
  | .write _ _ l | .response _ l _ | .run _ _ _ _ l | .part _ _ _ l => (l.length + 31) / 32
  | .atomic .. => 1

/-- Whether a virtual channel is one on which a body travels (R362). -/
def bodyOnVc (b : FabBody) (vc : Nat) : Bool :=
  match b with
  | .read .. | .write .. | .atomic .. => vc == 0
  | .response .. => vc == 1
  | .run .. | .part .. | .lost .. => decide (2 ≤ vc) && decide (vc < 16)

/-- Whether the fields of a header agree with each other, with its body and with the die that it reaches (Table 17.2). -/
def packetFits (p : FabPacket) (modId : Nat) : Bool :=
  p.dmod == modId && p.len == bodyPayload p.body && decide (p.len ≤ 8) && bodyOnVc p.body p.vc && p.nonce % 2 ^ 20 == p.srcMod &&
    p.nonce / 2 ^ 20 % 8 == p.srcDie && decide (p.srcDie < 8)

/-- The flits of a packet in the input buffer of a port, oldest first. -/
def Port.flitsOf (q : Port) (p : FabPacket) : List Flit := (q.buf.filter fun f => f.keyid == p.keyid && f.vc == p.vc).take (1 + p.len)

/-- Allowances of the kinds that freed flits spent go back to the sender (R355). -/
def giveBack (die port : Nat) (l : List Flit) (s : State) : State :=
  let out := l.map fun f => Out.allowance die port (if f.share then .share f.keyid else .pool f.vc) 1
  { s with out := s.out ++ out }

/-- A packet leaves the input buffer. -/
def takePacket (p : FabPacket) (l : List Flit) (s : State) : State :=
  giveBack p.die p.port l (s.modDie p.die fun d => { d with ports := lmod d.ports p.port fun q => { q with buf := q.buf.filter (!l.contains ·) } })

/-- A run of an exchange that stays in the input buffer for now, and what its trial does. -/
def holdPacket (p : FabPacket) (s : State) : Option State :=
  match p.body with
  | .run comm order map off l => holdRun p.die comm p.keyid order map off l.length s
  | .read .. | .write .. | .atomic .. | .response .. | .part .. | .lost .. => none

/-- FABRIC_PACKET_RECEIVE: a packet whose flits have all arrived (R356). One that does not verify, or comes under a key without a live
entry, is discarded; one of a key that is being revoked is also counted (R354, R357). -/
def execFabricPacketReceive (s : State) : Host.Outcome State Fault Refusal :=
  match s.arg with
  | .packet p =>
    let l := (lget (s.die p.die).ports p.port Port.zero).flitsOf p
    if 8 ≤ p.die || 16 ≤ p.port || s.isFenced p.die 5 p.port || !packetFits p s.modId || l.length != 1 + p.len then .next s
    else
      if p.tagOk && s.keyLive p.die p.keyid then .next ((holdPacket p s).getD (servePacket p (takePacket p l s)))
      else
        let s := takePacket p l s
        let s := discardAt p.die p.port (if (tget s.revoked p.keyid).isSome then s.pfDrop else s)
        .next (match packetTag p.body with
          | some tag => { s with out := s.out ++ [.discarded p.die p.port p.srcMod p.srcDie tag] }
          | none => s)
  | _ => .next s

/-! ## Links (R355, R356) -/

def modPort (die port : Nat) (f : Port → Port) (s : State) : State :=
  s.modDie die fun d => { d with ports := lmod d.ports port f }

/-- The flits of a port's input buffer (R355). -/
def bufferRoom : Nat := 16384

/-- A received flit: a CRC error starts a discard that the replay of the expected flit ends; a flit that is not discarded is stored
(R356). No flit comes without room, since each spends an allowance (R355). -/
def Port.flitIn (p : Port) (fl : Flit) (crcOk : Bool) : Port :=
  if !crcOk then { p with replay := true }
  else if fl.num == p.expect && decide (p.buf.length < bufferRoom) then
    { p with expect := p.expect + 1, replay := false, buf := p.buf ++ [{ fl with ctx := 0 }] }
  else p

/-- Firmware divides a port's input buffer: minimum shares by key, at most 64 of at least 8 flits and 8,192 in all, and a pool for each
virtual channel. The sender is granted the allowances (R355). -/
def setBuffers (die port : Nat) (shares pools : List (Nat × Nat)) (s : State) : State :=
  let sum := fun (l : List (Nat × Nat)) => (l.map (·.2)).sum
  if 8 ≤ die || 16 ≤ port || 64 < shares.length || shares.any (fun e => decide (e.2 < 8)) || 8192 < sum shares ||
      bufferRoom < sum shares + sum pools || pools.any (fun e => decide (16 ≤ e.1)) || (shares.map (·.1)).eraseDups.length != shares.length ||
      (pools.map (·.1)).eraseDups.length != pools.length then s
  else
    let s := modPort die port (fun p => { p with shares := shares, pools := pools }) s
    let out := shares.map (fun e => Out.allowance die port (.share e.1) e.2) ++ pools.map fun e => .allowance die port (.pool e.1) e.2
    { s with out := s.out ++ out }

/-- LINK_FLIT_RECEIVE. -/
def execLinkFlitReceive (s : State) : Host.Outcome State Fault Refusal :=
  match s.arg with
  | .flit die port fl ok => .next (modPort die port (·.flitIn fl ok) s)
  | _ => .next s

/-- FLIT_ACK: every flit up to a link sequence number. -/
def execFlitAck (s : State) : Host.Outcome State Fault Refusal :=
  match s.arg with
  | .n3 die port upto => .next (modPort die port (fun p => { p with sent := p.sent.filter fun f => decide (upto < f.num) }) s)
  | _ => .next s

/-- The count of one kind of allowance. -/
def Port.allowed (p : Port) (k : Allowance) : Nat := tgetD p.allow k 0

/-- ALLOWANCE_RETURN: one allowance of a kind. -/
def execAllowanceReturn (s : State) : Host.Outcome State Fault Refusal :=
  match s.arg with
  | .allow die port k => .next (modPort die port (fun p => { p with allow := tset p.allow k (p.allowed k + 1) }) s)
  | _ => .next s

/-- Whether a transfer still to be made crosses the link between two dies. -/
def crosses (w : Item) (a b : Nat) (m : Move) : Bool :=
  let far := fun (e : End) => match e with
    | .mem .glob _ _ d _ => (w.die == a && d == b) || (w.die == b && d == a)
    | _ => false
  !m.done && ((m.data.isNone && far m.src) || far m.dst)

/-- What the loss of a link does to an item: RPLX (R206), or its destinations there denied (R360). -/
def loseLink (a b : Nat) (w : Item) : Item :=
  match w.kind with
  | .mcst _ => (List.range w.moves.length).foldl (fun v n => if (w.moves[n]?.map (crosses w a b)).getD false then denyMove n v else v) w
  | _ => if w.fail.isNone && w.moves.any (crosses w a b) then { w with fail := some .rplx } else w

/-- IN_PACKAGE_LINK_FAILURE between two dies: the items that depend on it fail, requests across it fail as on a failed path (R346,
R348), and update packets in flight on it are lost, so that their logs hold them unsent (R307, R321). -/
def loseLinkAll (a b : Nat) (s : State) : State :=
  let back := fun (src dst : Nat) (s : State) =>
    let n := (s.air.filter fun x => x.1 == src && x.2.1 == dst).length
    s.modRepl src fun r => { r with sent := lmod r.sent dst (· - n) }
  let s := back a b (back b a s)
  let s := { s with
    deadLinks := (a, b) :: s.deadLinks
    air := s.air.filter fun x => !((x.1 == a && x.2.1 == b) || (x.1 == b && x.2.1 == a))
    items := s.items.map (loseLink a b) }
  errorReqs 1 (s.globs.filter fun (r : GlobReq) => (r.die == a && r.tdie == b) || (r.die == b && r.tdie == a)) s

def execInPackageLinkFailure (s : State) : Host.Outcome State Fault Refusal :=
  match s.arg with
  | .n2 a b => .next (if a == b || decide (8 ≤ a) || decide (8 ≤ b) || s.linkDead a b then s else loseLinkAll a b s)
  | _ => .next s

end Sys2Proof.Machine
end

