-- ==== Sys2Proof/Machine/Agents.lean ====
section
/-! DEFINITION. What each agent of the module could do next of its own accord, for the schedule of the steps (log 1). An event that is not
enabled changes nothing. -/

namespace Sys2Proof.Machine

/-- An event with one, two or three numbers. -/
def ev1 (i : Instr) (a : Nat) : Input := .ev i (.n1 a)
def ev2 (i : Instr) (a b : Nat) : Input := .ev i (.n2 a b)
def ev3 (i : Instr) (a b c : Nat) : Input := .ev i (.n3 a b c)

/-- Strands, their pending operations, rendezvous and stalls (R25, R119, R124, R126). -/
def State.strandMoves (s : State) : List Input :=
  (s.strands.filterMap fun e => if s.groupIssues e.1.grp && e.2.phase.active then some (.run e.1) else none) ++
    (s.pend.filter fun p => s.pendReady p || match p.kind with
        | .data _ => true
        | _ => false).map (fun p => ev2 .longLatencyComplete p.id 0) ++
    (s.held.filter s.inTurn).map (fun h => ev2 .longLatencyComplete h.id 0) ++
    (s.groups.flatMap fun e => e.2.circ.map fun c => .ev .rvtoTimeout (.circle e.1 c.1.1 c.1.2)) ++
    s.threads.map (fun e => .ev .qdlkTimeout (.thread e.1.grp e.1.tid))

/-- Engine items (R199 to R206). -/
def State.itemMoves (s : State) : List Input :=
  s.items.flatMap fun (w : Item) =>
    [ev2 .engineItemAccess w.id (w.moves.takeWhile (·.done)).length, ev2 .handleArrival w.id (w.landed - w.arrived),
     ev1 .itemComplete w.id] ++
      match w.fail with
      | some c => [.ev .itemFail (.itemFail w.id c)]
      | none => []

/-- Groups and budgets of a die (R273 to R288). -/
def State.dieMoves (s : State) : List Input :=
  (List.range 8).flatMap fun d =>
    let x := s.die d
    (x.binds.flatMap fun e =>
      if e.2.valid then
        (List.range 12).flatMap fun cl =>
          if bitOf e.2.cmask cl then
            if e.2.gang then [.ev .gangReservationPass (.list d cl ((List.range 64).map fun i => 8 * cl + i % 8))]
            else (List.range 8).map fun i => ev3 .dispatcherPlace d cl (8 * cl + i)
          else []
      else []) ++
    (if x.periodAt + x.period ≤ s.cycle then [ev1 .periodBoundary d] else []) ++
    (if x.events.isEmpty then []
     else [ev1 .shedEventDoorbell d, ev1 .shedEventCmdread d, ev1 .shedEventBinddone d, ev1 .shedEventCopyflt d,
       ev1 .shedEventError d, ev1 .shedEventTrigger d, .shed d]) ++
    (x.events.filterMap fun e => if e.kind == .slice then some (ev2 .sliceEnd d e.a0) else none) ++
    (x.graphs.flatMap fun g => (List.range g.2.nodes.length).filterMap fun n =>
      if (g.2.nodes[n]?.map (·.busy)).getD false then some (ev3 .graphNodeComplete d g.1 n) else none) ++
    (List.range 32).filterMap fun y => if s.tearing d y then some (ev2 .loftTeardownFinish d y) else none

def State.groupMoves (s : State) : List Input :=
  s.groups.flatMap fun e =>
    match e.2.life with
    | .running => [ev2 .sliceEnd e.2.die (s.groupAcct e.1)]
    | .draining => [.ev .drainLimitExpiry (.group e.1)]
    | .discarding => [.ev .groupSave (.group e.1), .ev .watchdogExpiry (.dieGroup e.2.die e.1)]
    | .overrunning => [.ev .watchdogExpiry (.dieGroup e.2.die e.1)]
    | .saved | .ended => []

/-- The event of an invalidation command of an operation (Table 12.6). -/
def invalEvent (op : Nat) : Instr :=
  match op with
  | 1 => .invalStage1Va
  | 2 => .invalStage1Asid
  | 3 => .invalStage2Gpa
  | 4 => .invalStage2Vmid
  | _ => .invalAll

/-- Contexts: their queues, rings, page requests and tear-downs; launches; invalidations; key quarantines (R246, R260 to R266, R298,
R357). -/
def State.hostMoves (s : State) : List Input :=
  (s.ctxs.flatMap fun e =>
    (e.2.queues.flatMap fun q =>
      match q.2.cmd with
      | none => if q.2.head == q.2.tail then [] else [ev2 .commandRead e.1 q.1]
      | some _ => [ev2 .cmdNop e.1 q.1, ev2 .cmdLaunch e.1 q.1, ev2 .cmdGraphld e.1 q.1, ev2 .cmdWait e.1 q.1,
          ev2 .cmdWaitSatisfied e.1 q.1, ev2 .cmdSignal e.1 q.1]) ++
    e.2.rings.map (fun r => ev2 .coaltTimerExpiry e.1 r.1) ++ e.2.reqs.map (fun r => ev2 .pageRequestTimeout e.1 r.num) ++
    if e.2.dying then [ev1 .contextTeardownFinish e.1] else []) ++
  s.launches.map (fun e => ev1 .launchEnd e.1) ++
  (s.invals.filterMap fun e => (s.invalHead e.1).map fun x => ev1 (invalEvent (bitsOf x 3 0)) e.1) ++
  (s.invals.filterMap fun e => if e.2.cmds.isEmpty then none else some (ev1 .invalComplete e.1)) ++
  s.revoked.map (fun e => ev1 .replyReservationRelease e.1) ++ s.quar.map (fun e => ev1 .keyidQuarantineEnd e.1)

/-- The replication units (R311 to R326, R342). -/
def State.replMoves (s : State) : List Input :=
  ((List.range 8).flatMap fun d =>
    let r := s.repl d
    ((List.range 8).flatMap fun k =>
      let l := lget r.outLog k []
      (if lget r.sent k 0 < l.length then [ev2 .packetSend d k] else []) ++
        match l with
        | p :: _ => [ev3 .updateAcknowledgement d k p.sq]
        | [] => []) ++
    (if s.isMember d && (r.mstate == .lagging || s.lagging d 0) then [ev1 .lagDetect d, ev1 .lagEvictTimeout d] else []) ++
    (if s.condemned d then [ev1 .eviction d] else []) ++ if s.deadLinks.isEmpty then [] else [ev1 .linksLost d]) ++
  s.air.map (fun a => ev3 .packetReceive a.1 a.2.1 0) ++
  (if s.slotReqs.isEmpty then [] else [.ev .capoGrant .none]) ++ s.grants.map (fun g => ev1 .strongGrantReceive g.die) ++
  (if s.capoDue then [.ev .capoHandoff .none] else []) ++
  (if s.wrapDue then [.ev .counterWrap .none] else []) ++ (if s.arch.isSome then [.ev .wrapRebase .none] else []) ++
  (match s.rewrite with
    | x :: _ => [ev2 .stampRewrite x.1 x.2]
    | [] => []) ++
  s.bad.filterMap fun l =>
    if spaSpace (32 * l) == 0 && s.inRepl (spaOff (32 * l)) then some (ev2 .replfix (spaDie (32 * l)) (spaOff (32 * l) - s.replBase))
    else none

/-- Gates, requests to other modules, collectives (R333 to R338, R348, R364 to R373). -/
def State.fabricMoves (s : State) : List Input :=
  (s.gateOps.flatMap fun (o : GateOp) => [ev1 .gateRequest o.id, ev1 .gateAnswer o.id]) ++
  (s.gates.flatMap fun g =>
    (if g.2.delayed.isEmpty then [] else [ev1 .gateTokenAccrue g.1]) ++
      match g.2.mig with
      | .active => []
      | .freezing => [ev1 .gateMigrateCopy g.1]
      | .copying => [ev1 .gateMigrateAck g.1]
      | .forwarding => [ev1 .gateRetire g.1]
      | .arriving => []) ++
  s.replies.map (fun (r : Reply) => .reply r.way.die r.way.port) ++
  (s.globs.filterMap fun (r : GlobReq) => if r.since + cyclesOfNs 1000000 ≤ s.cycle then some (ev1 .responseTimeout r.id) else none) ++
  s.colls.flatMap fun (c : Coll) => [.ev .collChunkStep (.parts c.die c.id []), ev2 .collComplete c.die c.id, ev2 .collTimeout c.die c.id]

/-- The boot of the dies (R382, Table 19.1). -/
def State.bootMoves (s : State) : List Input :=
  if s.boot.state != 0 then []
  else if s.boot.dies.any (·.stage != 6) then (List.range 8).filterMap fun d => if (s.dieBoot d).stage < 6 then some (.bootStage d true) else none
  else [.ev .bootAllDiesReady (.fails [])]

/-- What the agents other than the current strand could do next. -/
def State.candidates (s : State) : List Input :=
  s.bootMoves ++ s.strandMoves ++ s.itemMoves ++ s.dieMoves ++ s.groupMoves ++ s.hostMoves ++ s.replMoves ++ s.fabricMoves

end Sys2Proof.Machine
end

