-- ==== Sys2Proof/Machine/Compare.lean ====
section
/-! DEFINITION. Class 0x2, compare and predicate (R79, R80, Table 4.3). -/

namespace Sys2Proof.Machine

/-- The form of a compare: operands a and b of `w` registers, no data destination. -/
def cmpForm (a b : RegNo) (w : Nat) (t : Accept) : WordForm :=
  { cls := 2, a := some { n := a, w := w, acc := t }, b := some { n := b, w := w, acc := t } }

def icmp (pd a b : RegNo) (f : List TVal → List TVal → Bool) (s : State) : Host.Outcome State Fault Refusal :=
  runWord s.cur (predWord (cmpForm a b 1 .int) pd fun v => (f v.a v.b, noLog)) s

def execIcmpEq (d a b : RegNo) (s : State) : Host.Outcome State Fault Refusal := icmp d a b (fun x y => nval x == nval y) s
def execIcmpNe (d a b : RegNo) (s : State) : Host.Outcome State Fault Refusal := icmp d a b (fun x y => nval x != nval y) s
def execIcmpLtI (d a b : RegNo) (s : State) : Host.Outcome State Fault Refusal := icmp d a b (fun x y => decide (ival x < ival y)) s
def execIcmpLeI (d a b : RegNo) (s : State) : Host.Outcome State Fault Refusal := icmp d a b (fun x y => decide (ival x ≤ ival y)) s
def execIcmpGtI (d a b : RegNo) (s : State) : Host.Outcome State Fault Refusal := icmp d a b (fun x y => decide (ival x > ival y)) s
def execIcmpGeI (d a b : RegNo) (s : State) : Host.Outcome State Fault Refusal := icmp d a b (fun x y => decide (ival x ≥ ival y)) s
def execIcmpLtN (d a b : RegNo) (s : State) : Host.Outcome State Fault Refusal := icmp d a b (fun x y => decide (nval x < nval y)) s
def execIcmpLeN (d a b : RegNo) (s : State) : Host.Outcome State Fault Refusal := icmp d a b (fun x y => decide (nval x ≤ nval y)) s
def execIcmpGtN (d a b : RegNo) (s : State) : Host.Outcome State Fault Refusal := icmp d a b (fun x y => decide (nval x > nval y)) s
def execIcmpGeN (d a b : RegNo) (s : State) : Host.Outcome State Fault Refusal := icmp d a b (fun x y => decide (nval x ≥ nval y)) s

/-- A quiet comparison: a relation on ordered values, the answer beside a NaN, and INVL for a signalling NaN (R79). -/
def fcmpVal (x y : FVal) (ifNan : Bool) (f : Ordering → Bool) : Bool × Log :=
  (if x.isNan || y.isNan then ifNan else f (x.cmp y), if x.isSig || y.isSig then logInvl else noLog)

def fcmp (pd a b : RegNo) (ifNan : Bool) (f : Ordering → Bool) (s : State) : Host.Outcome State Fault Refusal :=
  runWord s.cur (predWord (cmpForm a b 1 .f32) pd fun v => fcmpVal (f32.dec (v32 v.a)) (f32.dec (v32 v.b)) ifNan f) s

def dcmp (pd a b : RegNo) (ifNan : Bool) (f : Ordering → Bool) (s : State) : Host.Outcome State Fault Refusal :=
  runWord s.cur (predWord (cmpForm a b 2 .f64) pd fun v => fcmpVal (f64.dec (v64 v.a)) (f64.dec (v64 v.b)) ifNan f) s

def execFcmpEq (d a b : RegNo) (s : State) : Host.Outcome State Fault Refusal := fcmp d a b false (· == .eq) s
def execFcmpNe (d a b : RegNo) (s : State) : Host.Outcome State Fault Refusal := fcmp d a b true (· != .eq) s
def execFcmpLt (d a b : RegNo) (s : State) : Host.Outcome State Fault Refusal := fcmp d a b false (· == .lt) s
def execFcmpLe (d a b : RegNo) (s : State) : Host.Outcome State Fault Refusal := fcmp d a b false (· != .gt) s
def execFcmpGt (d a b : RegNo) (s : State) : Host.Outcome State Fault Refusal := fcmp d a b false (· == .gt) s
def execFcmpGe (d a b : RegNo) (s : State) : Host.Outcome State Fault Refusal := fcmp d a b false (· != .lt) s
def execFcmpUn (d a b : RegNo) (s : State) : Host.Outcome State Fault Refusal := fcmp d a b true (fun _ => false) s

def execDcmpEq (d a b : RegNo) (s : State) : Host.Outcome State Fault Refusal := dcmp d a b false (· == .eq) s
def execDcmpLt (d a b : RegNo) (s : State) : Host.Outcome State Fault Refusal := dcmp d a b false (· == .lt) s
def execDcmpLe (d a b : RegNo) (s : State) : Host.Outcome State Fault Refusal := dcmp d a b false (· != .gt) s
def execDcmpUn (d a b : RegNo) (s : State) : Host.Outcome State Fault Refusal := dcmp d a b true (fun _ => false) s

/-- A word over predicates only (R80). -/
def predOp (pd : RegNo) (f : Strand → Bool) (s : State) : Host.Outcome State Fault Refusal :=
  runWord s.cur (predWord { cls := 2 } pd fun v => (f v.x, noLog)) s

def execPand (d a b : RegNo) (s : State) : Host.Outcome State Fault Refusal := predOp d (fun x => x.pred a && x.pred b) s
def execPor (d a b : RegNo) (s : State) : Host.Outcome State Fault Refusal := predOp d (fun x => x.pred a || x.pred b) s
def execPxor (d a b : RegNo) (s : State) : Host.Outcome State Fault Refusal := predOp d (fun x => x.pred a != x.pred b) s
def execPandn (d a b : RegNo) (s : State) : Host.Outcome State Fault Refusal := predOp d (fun x => x.pred a && !x.pred b) s
def execPnot (d a : RegNo) (s : State) : Host.Outcome State Fault Refusal := predOp d (fun x => !x.pred a) s
def execPmov (d a : RegNo) (s : State) : Host.Outcome State Fault Refusal := predOp d (fun x => x.pred a) s
def execPset (d : RegNo) (v : BitVec 1) (s : State) : Host.Outcome State Fault Refusal := predOp d (fun _ => v == 1#1) s

def execPtod (d a : RegNo) (s : State) : Host.Outcome State Fault Refusal :=
  runWord s.cur (valueWord { cls := 2, out := some (d, 1) } fun v => ret1 n32Tag (if v.x.pred a then 1#32 else 0#32)) s

def execDtop (d a : RegNo) (s : State) : Host.Outcome State Fault Refusal :=
  runWord s.cur (predWord { cls := 2, a := some { n := a, acc := .int } } d fun v => (v32 v.a != 0, noLog)) s

end Sys2Proof.Machine
end

