-- ==== Sys2Proof/Machine/Control.lean ====
section
/-! DEFINITION. Class 0x4, control: branches, regions, traps, ends and waits (R22, R23, R83 to R86, R108, R109). -/

namespace Sys2Proof.Machine

/-! ## Transfers (R22, R23, R83) -/

/-- A transfer: operands, then the registers it writes, then the clause header it goes to. -/
def transferWord (sp : WordForm) (f : Vals → List TVal × BitVec 57) : Exec Unit := do
  let v ← readWord { sp with cls := 4, transfer := true }
  let r := f v
  match sp.out with
  | some o => writeVals v.k v.x o.1 r.1
  | none => pure ()
  act (·.modStrand v.k (·.goto r.2))

/-- The target of a relative transfer (R23). -/
def Strand.relTarget (x : Strand) (im : BitVec 14) : BitVec 57 := x.cpc + im.signExtend 57 * 4#57

/-- A register pair that holds a code address (R83). -/
def addrOpnd (a : RegNo) : Opnd := { n := a, w := 2, acc := .i64 }

/-- The address of the following clause header as a pair (R23). -/
def Strand.linkPair (x : Strand) : List TVal :=
  [⟨x.nextHdr.extractLsb' 0 32, 13#5⟩, ⟨(x.nextHdr.extractLsb' 32 25).zeroExtend 32, 14#5⟩]

def execBra (im : BitVec 14) (s : State) : Host.Outcome State Fault Refusal :=
  runWord s.cur (transferWord { cls := 4 } fun v => ([], v.x.relTarget im)) s
def execBrp (d : RegNo) (im : BitVec 14) (s : State) : Host.Outcome State Fault Refusal :=
  runWord s.cur (transferWord { cls := 4 } fun v => ([], if v.x.pred d then v.x.relTarget im else v.x.nextHdr)) s
def execBrn (d : RegNo) (im : BitVec 14) (s : State) : Host.Outcome State Fault Refusal :=
  runWord s.cur (transferWord { cls := 4 } fun v => ([], if v.x.pred d then v.x.nextHdr else v.x.relTarget im)) s
def execJmp (a : RegNo) (s : State) : Host.Outcome State Fault Refusal :=
  runWord s.cur (transferWord { cls := 4, a := some (addrOpnd a) } fun v => ([], pcOf (v64 v.a))) s
def execCall (d : RegNo) (im : BitVec 14) (s : State) : Host.Outcome State Fault Refusal :=
  runWord s.cur (transferWord { cls := 4, out := some (d, 2) } fun v => (v.x.linkPair, v.x.relTarget im)) s
def execCallr (d a : RegNo) (s : State) : Host.Outcome State Fault Refusal :=
  runWord s.cur (transferWord { cls := 4, a := some (addrOpnd a), out := some (d, 2) } fun v => (v.x.linkPair, pcOf (v64 v.a))) s
def execRet (a : RegNo) (s : State) : Host.Outcome State Fault Refusal :=
  runWord s.cur (transferWord { cls := 4, a := some (addrOpnd a) } fun v => ([], pcOf (v64 v.a))) s

/-! ## Regions and waits (R83, R84, R119, R134) -/

/-- RGN commits at its own word (R84); it waits behind a flagged wait at a barrier (R134). Executed again by a strand that resumes at the
point, it has no further effect. -/
def execRgn (s : State) : Host.Outcome State Fault Refusal :=
  runWord s.cur (do
    let v ← readWord { cls := 4 }
    if v.x.again then done v 1 {}
    else do
      holdForBar v.k
      act (commitAt v.k (v.x.cpc, v.x.pc) none)
      done v 1 {}) s

def execNop (s : State) : Host.Outcome State Fault Refusal :=
  runWord s.cur (do
    let v ← readWord { cls := 4 }
    done v 1 {}) s

/-- WAITF waits until every flag of the mask is clear (R83). -/
def execWaitf (im : BitVec 12) (s : State) : Host.Outcome State Fault Refusal :=
  runWord s.cur (do
    let v ← readWord { cls := 4 }
    if v.x.pendingMask &&& im.toNat == 0 then done v 1 {} else block .flag) s

/-- YIELD lets other strands go first and has no other effect (R119). -/
def execYield (s : State) : Host.Outcome State Fault Refusal :=
  runWord s.cur (do
    let v ← readWord { cls := 4 }
    done v 1 {}
    act (·.modStrand v.k fun x => { x with blk := .yield, blkAt := s.cycle })) s

/-! ## Traps and their returns (R86, R108) -/

def execTrap (im : BitVec 7) (s : State) : Host.Outcome State Fault Refusal :=
  runWord s.cur (do
    let _ ← readWord { cls := 4, transfer := true }
    trapWith { cause := .trap, code := im.toNat }) s

def execTret (m : BitVec 1) (s : State) : Host.Outcome State Fault Refusal :=
  runWord s.cur (do
    let v ← readWord { cls := 4, transfer := true }
    check v.x.inHandler .ilop
    act (·.modStrand v.k (·.tret (m == 1#1)))) s

/-! ## Ends (R85, R109) -/

/-- TKILL ends the group or the launch, with its event. -/
def execTkill (m : BitVec 1) (s : State) : Host.Outcome State Fault Refusal :=
  runWord s.cur (do
    let v ← readWord { cls := 4, transfer := true }
    let l ← need (s.launch v.k.grp.launch)
    act (logPlain l.ctx evTKilled m.toNat l.id v.k.grp.glin 0)
    if m == 1#1 then act (killLaunch l.id) else act (endGroup v.k.grp false)) s

/-- The end of a strand (R85): its commit; the end of its thread and of its group when they are the last; and the circle instances
that waited only for it (R125). -/
def endStrand (k : StrandKey) (s : State) : State :=
  match s.strand k with
  | none => s
  | some x =>
    let s := commitAt k (x.cpc, x.pc) none s
    let s := s.modStrand k fun y => { y with phase := .ended, blk := .none }
    let s := if s.hasEnded { k with kind := k.kind.other } then { s with threads := tdel s.threads k.thread } else s
    if s.strands.all fun e => e.1.grp != k.grp || e.2.phase == .ended then endGroup k.grp true s
    else
      match k.kind with
      | .a => settleRendezvous k.grp (k.tid / 32) .a s
      | .x => settleMatrix k.grp (k.tid / 32) (settleRendezvous k.grp (k.tid / 32) .x s)

def execExit (s : State) : Host.Outcome State Fault Refusal :=
  runWord s.cur (do
    let v ← readWord { cls := 4, transfer := true }
    if v.x.pendingMask == 0 then act (endStrand v.k) else block .flag) s

end Sys2Proof.Machine
end

