-- ==== Sys2Proof/Machine/LongMath.lean ====
section
/-! DEFINITION. Class 0x7, long-latency math (R94 to R100). -/

namespace Sys2Proof.Machine

def lnsTag : Tag := 10#5
def lval (l : List TVal) : LVal := lnsDec (v32 l)
def lres (r : FRes) : List TVal × Log := ret1 lnsTag (BitVec.ofNat 32 r.1) r.2

def math2 (fb : Bool) (d a : RegNo) (t : Accept) (f : List TVal → List TVal × Log) (s : State) : Host.Outcome State Fault Refusal :=
  runWord s.cur (mathWord fb (form2 7 d a t) fun v => f v.a) s

def math3 (fb : Bool) (d a b : RegNo) (ta tb : Accept) (f : List TVal → List TVal → List TVal × Log) (s : State) :
    Host.Outcome State Fault Refusal :=
  runWord s.cur (mathWord fb (form3 7 d a b ta tb) fun v => f v.a v.b) s

def execLncv (fb : Bool) (d a : RegNo) (s : State) : Host.Outcome State Fault Refusal :=
  math2 fb d a .f32 (fun x => lres (lnsOfF32 (fval x))) s
def execLnbk (fb : Bool) (d a : RegNo) (s : State) : Host.Outcome State Fault Refusal :=
  math2 fb d a .lns (fun x => fres (f32OfLns (lval x))) s
def execLexp (fb : Bool) (d a : RegNo) (s : State) : Host.Outcome State Fault Refusal :=
  math2 fb d a .f32 (fun x => lres (lnsExp (fval x))) s
def execLlog (fb : Bool) (d a : RegNo) (s : State) : Host.Outcome State Fault Refusal :=
  math2 fb d a .lns (fun x => fres (f32Log (lval x))) s
def execLmul (fb : Bool) (d a b : RegNo) (s : State) : Host.Outcome State Fault Refusal :=
  math3 fb d a b .lns .lns (fun x y => lres (lnsMul (lval x) (lval y))) s
def execLdiv (fb : Bool) (d a b : RegNo) (s : State) : Host.Outcome State Fault Refusal :=
  math3 fb d a b .lns .lns (fun x y => lres (lnsDiv (lval x) (lval y))) s
def execLsqr (fb : Bool) (d a : RegNo) (s : State) : Host.Outcome State Fault Refusal :=
  math2 fb d a .lns (fun x => lres (lnsSqrt (lval x))) s
def execLpow (fb : Bool) (d a b : RegNo) (s : State) : Host.Outcome State Fault Refusal :=
  math3 fb d a b .lns .int (fun x y => lres (lnsPow (lval x) (ival y))) s
def execLadd (fb : Bool) (d a b : RegNo) (s : State) : Host.Outcome State Fault Refusal :=
  math3 fb d a b .lns .lns (fun x y => lres (lnsAdd (lval x) (lval y))) s
def execLsub (fb : Bool) (d a b : RegNo) (s : State) : Host.Outcome State Fault Refusal :=
  math3 fb d a b .lns .lns (fun x y => lres (lnsAdd (lval x) (lval y).negate)) s
def execFdiv (fb : Bool) (d a b : RegNo) (s : State) : Host.Outcome State Fault Refusal :=
  math3 fb d a b .f32 .f32 (fun x y => fres (f32.div (fval x) (fval y))) s
def execFsqrt (fb : Bool) (d a : RegNo) (s : State) : Host.Outcome State Fault Refusal :=
  math2 fb d a .f32 (fun x => fres (f32.sqrt (fval x))) s

def execDdiv (fb : Bool) (d a b : RegNo) (s : State) : Host.Outcome State Fault Refusal :=
  runWord s.cur (mathWord fb (formP3 7 d a b .f64) fun v => dres (f64.div (dval v.a) (dval v.b))) s

def execDsqrt (fb : Bool) (d a : RegNo) (s : State) : Host.Outcome State Fault Refusal :=
  runWord s.cur (mathWord fb { cls := 7, a := some { n := a, w := 2, acc := .f64 }, out := some (d, 2) } fun v =>
    dres (f64.sqrt (dval v.a))) s

end Sys2Proof.Machine
end

