-- ==== Sys2Proof/Machine/Dispatch.lean ====
section
/-! DEFINITION. Which meaning each instruction and event has. -/

namespace Sys2Proof.Machine

/-- The effect of one instruction or event. -/
def exec (i : Instr) (s : State) : Host.Outcome State Fault Refusal :=
  match i with
  | .iadd d a b => Sys2Proof.Machine.execIadd d a b s
  | .iaddi d a im => Sys2Proof.Machine.execIaddi d a im s
  | .isub d a b => Sys2Proof.Machine.execIsub d a b s
  | .imul d a b => Sys2Proof.Machine.execImul d a b s
  | .imulhI d a b => Sys2Proof.Machine.execImulhI d a b s
  | .imulhN d a b => Sys2Proof.Machine.execImulhN d a b s
  | .imad d a b => Sys2Proof.Machine.execImad d a b s
  | .imulwI d a b => Sys2Proof.Machine.execImulwI d a b s
  | .imulwN d a b => Sys2Proof.Machine.execImulwN d a b s
  | .idivI d a b => Sys2Proof.Machine.execIdivI d a b s
  | .idivN d a b => Sys2Proof.Machine.execIdivN d a b s
  | .iremI d a b => Sys2Proof.Machine.execIremI d a b s
  | .iremN d a b => Sys2Proof.Machine.execIremN d a b s
  | .iminI d a b => Sys2Proof.Machine.execIminI d a b s
  | .iminN d a b => Sys2Proof.Machine.execIminN d a b s
  | .imaxI d a b => Sys2Proof.Machine.execImaxI d a b s
  | .imaxN d a b => Sys2Proof.Machine.execImaxN d a b s
  | .iabs d a => Sys2Proof.Machine.execIabs d a s
  | .ineg d a => Sys2Proof.Machine.execIneg d a s
  | .iaddsI d a b => Sys2Proof.Machine.execIaddsI d a b s
  | .iaddsN d a b => Sys2Proof.Machine.execIaddsN d a b s
  | .isubsI d a b => Sys2Proof.Machine.execIsubsI d a b s
  | .isubsN d a b => Sys2Proof.Machine.execIsubsN d a b s
  | .iadd64 d a b => Sys2Proof.Machine.execIadd64 d a b s
  | .isub64 d a b => Sys2Proof.Machine.execIsub64 d a b s
  | .ixadd2 d a b => Sys2Proof.Machine.execIxadd2 d a b s
  | .ixadd4 d a b => Sys2Proof.Machine.execIxadd4 d a b s
  | .ixadd8 d a b => Sys2Proof.Machine.execIxadd8 d a b s
  | .ixadd16 d a b => Sys2Proof.Machine.execIxadd16 d a b s
  | .ldi d im => Sys2Proof.Machine.execLdi d im s
  | .ldw d lit => Sys2Proof.Machine.execLdw d lit s
  | .and d a b => Sys2Proof.Machine.execAnd d a b s
  | .andi d a im => Sys2Proof.Machine.execAndi d a im s
  | .or d a b => Sys2Proof.Machine.execOr d a b s
  | .ori d a im => Sys2Proof.Machine.execOri d a im s
  | .xor d a b => Sys2Proof.Machine.execXor d a b s
  | .xori d a im => Sys2Proof.Machine.execXori d a im s
  | .andn d a b => Sys2Proof.Machine.execAndn d a b s
  | .not d a => Sys2Proof.Machine.execNot d a s
  | .shl d a b => Sys2Proof.Machine.execShl d a b s
  | .shli d a n => Sys2Proof.Machine.execShli d a n s
  | .shr d a b => Sys2Proof.Machine.execShr d a b s
  | .shri d a n => Sys2Proof.Machine.execShri d a n s
  | .sar d a b => Sys2Proof.Machine.execSar d a b s
  | .sari d a n => Sys2Proof.Machine.execSari d a n s
  | .rol d a b => Sys2Proof.Machine.execRol d a b s
  | .roli d a n => Sys2Proof.Machine.execRoli d a n s
  | .bfxI d a b => Sys2Proof.Machine.execBfxI d a b s
  | .bfxN d a b => Sys2Proof.Machine.execBfxN d a b s
  | .bfi d a b => Sys2Proof.Machine.execBfi d a b s
  | .popc d a => Sys2Proof.Machine.execPopc d a s
  | .clz d a => Sys2Proof.Machine.execClz d a s
  | .ctz d a => Sys2Proof.Machine.execCtz d a s
  | .brev d a => Sys2Proof.Machine.execBrev d a s
  | .permb d a b => Sys2Proof.Machine.execPermb d a b s
  | .icmpEq d a b => Sys2Proof.Machine.execIcmpEq d a b s
  | .icmpNe d a b => Sys2Proof.Machine.execIcmpNe d a b s
  | .icmpLtI d a b => Sys2Proof.Machine.execIcmpLtI d a b s
  | .icmpLeI d a b => Sys2Proof.Machine.execIcmpLeI d a b s
  | .icmpGtI d a b => Sys2Proof.Machine.execIcmpGtI d a b s
  | .icmpGeI d a b => Sys2Proof.Machine.execIcmpGeI d a b s
  | .icmpLtN d a b => Sys2Proof.Machine.execIcmpLtN d a b s
  | .icmpLeN d a b => Sys2Proof.Machine.execIcmpLeN d a b s
  | .icmpGtN d a b => Sys2Proof.Machine.execIcmpGtN d a b s
  | .icmpGeN d a b => Sys2Proof.Machine.execIcmpGeN d a b s
  | .fcmpEq d a b => Sys2Proof.Machine.execFcmpEq d a b s
  | .fcmpNe d a b => Sys2Proof.Machine.execFcmpNe d a b s
  | .fcmpLt d a b => Sys2Proof.Machine.execFcmpLt d a b s
  | .fcmpLe d a b => Sys2Proof.Machine.execFcmpLe d a b s
  | .fcmpGt d a b => Sys2Proof.Machine.execFcmpGt d a b s
  | .fcmpGe d a b => Sys2Proof.Machine.execFcmpGe d a b s
  | .fcmpUn d a b => Sys2Proof.Machine.execFcmpUn d a b s
  | .dcmpEq d a b => Sys2Proof.Machine.execDcmpEq d a b s
  | .dcmpLt d a b => Sys2Proof.Machine.execDcmpLt d a b s
  | .dcmpLe d a b => Sys2Proof.Machine.execDcmpLe d a b s
  | .dcmpUn d a b => Sys2Proof.Machine.execDcmpUn d a b s
  | .pand d a b => Sys2Proof.Machine.execPand d a b s
  | .por d a b => Sys2Proof.Machine.execPor d a b s
  | .pxor d a b => Sys2Proof.Machine.execPxor d a b s
  | .pandn d a b => Sys2Proof.Machine.execPandn d a b s
  | .pnot d a => Sys2Proof.Machine.execPnot d a s
  | .pmov d a => Sys2Proof.Machine.execPmov d a s
  | .pset d v => Sys2Proof.Machine.execPset d v s
  | .ptod d a => Sys2Proof.Machine.execPtod d a s
  | .dtop d a => Sys2Proof.Machine.execDtop d a s
  | .mov d a => Sys2Proof.Machine.execMov d a s
  | .cmov d a b => Sys2Proof.Machine.execCmov d a b s
  | .tag d a t => Sys2Proof.Machine.execTag d a t s
  | .tagq d a => Sys2Proof.Machine.execTagq d a s
  | .win im => Sys2Proof.Machine.execWin im s
  | .winq d => Sys2Proof.Machine.execWinq d s
  | .movs d sel => Sys2Proof.Machine.execMovs d sel s
  | .sext8 d a => Sys2Proof.Machine.execSext8 d a s
  | .sext16 d a => Sys2Proof.Machine.execSext16 d a s
  | .zext8 d a => Sys2Proof.Machine.execZext8 d a s
  | .zext16 d a => Sys2Proof.Machine.execZext16 d a s
  | .mov64 d a => Sys2Proof.Machine.execMov64 d a s
  | .bra im => Sys2Proof.Machine.execBra im s
  | .brp d im => Sys2Proof.Machine.execBrp d im s
  | .brn d im => Sys2Proof.Machine.execBrn d im s
  | .jmp a => Sys2Proof.Machine.execJmp a s
  | .call d im => Sys2Proof.Machine.execCall d im s
  | .callr d a => Sys2Proof.Machine.execCallr d a s
  | .ret a => Sys2Proof.Machine.execRet a s
  | .rgn => Sys2Proof.Machine.execRgn s
  | .trap im => Sys2Proof.Machine.execTrap im s
  | .tret m => Sys2Proof.Machine.execTret m s
  | .tkill m => Sys2Proof.Machine.execTkill m s
  | .exit => Sys2Proof.Machine.execExit s
  | .nop => Sys2Proof.Machine.execNop s
  | .waitf im => Sys2Proof.Machine.execWaitf im s
  | .yield => Sys2Proof.Machine.execYield s
  | .fadd rm d a b => Sys2Proof.Machine.execFadd rm d a b s
  | .fsub rm d a b => Sys2Proof.Machine.execFsub rm d a b s
  | .fmul rm d a b => Sys2Proof.Machine.execFmul rm d a b s
  | .ffma rm d a b => Sys2Proof.Machine.execFfma rm d a b s
  | .fmin d a b => Sys2Proof.Machine.execFmin d a b s
  | .fmax d a b => Sys2Proof.Machine.execFmax d a b s
  | .fabs d a => Sys2Proof.Machine.execFabs d a s
  | .fneg d a => Sys2Proof.Machine.execFneg d a s
  | .frnd rm d a => Sys2Proof.Machine.execFrnd rm d a s
  | .fcvtI32F32 d a => Sys2Proof.Machine.execFcvtI32F32 d a s
  | .fcvtN32F32 d a => Sys2Proof.Machine.execFcvtN32F32 d a s
  | .fcvtF32I32 d a => Sys2Proof.Machine.execFcvtF32I32 d a s
  | .fcvtF32N32 d a => Sys2Proof.Machine.execFcvtF32N32 d a s
  | .fcvtF16F32 d a => Sys2Proof.Machine.execFcvtF16F32 d a s
  | .fcvtF32F16 d a => Sys2Proof.Machine.execFcvtF32F16 d a s
  | .fcvtBf16F32 d a => Sys2Proof.Machine.execFcvtBf16F32 d a s
  | .fcvtF32Bf16 d a => Sys2Proof.Machine.execFcvtF32Bf16 d a s
  | .fcvtF64F32 d a => Sys2Proof.Machine.execFcvtF64F32 d a s
  | .fcvtF32F64 d a => Sys2Proof.Machine.execFcvtF32F64 d a s
  | .dadd d a b => Sys2Proof.Machine.execDadd d a b s
  | .dsub d a b => Sys2Proof.Machine.execDsub d a b s
  | .dmul d a b => Sys2Proof.Machine.execDmul d a b s
  | .dfma d a b => Sys2Proof.Machine.execDfma d a b s
  | .dmin d a b => Sys2Proof.Machine.execDmin d a b s
  | .dmax d a b => Sys2Proof.Machine.execDmax d a b s
  | .hadd2F16 d a b => Sys2Proof.Machine.execHadd2F16 d a b s
  | .hadd2Bf16 d a b => Sys2Proof.Machine.execHadd2Bf16 d a b s
  | .hmul2F16 d a b => Sys2Proof.Machine.execHmul2F16 d a b s
  | .hmul2Bf16 d a b => Sys2Proof.Machine.execHmul2Bf16 d a b s
  | .hfma2F16 d a b => Sys2Proof.Machine.execHfma2F16 d a b s
  | .hfma2Bf16 d a b => Sys2Proof.Machine.execHfma2Bf16 d a b s
  | .pkhF16 d a b => Sys2Proof.Machine.execPkhF16 d a b s
  | .pkhBf16 d a b => Sys2Proof.Machine.execPkhBf16 d a b s
  | .unpkhF16Lo d a => Sys2Proof.Machine.execUnpkhF16Lo d a s
  | .unpkhF16Hi d a => Sys2Proof.Machine.execUnpkhF16Hi d a s
  | .unpkhBf16Lo d a => Sys2Proof.Machine.execUnpkhBf16Lo d a s
  | .unpkhBf16Hi d a => Sys2Proof.Machine.execUnpkhBf16Hi d a s
  | .idp4I8 d a b => Sys2Proof.Machine.execIdp4I8 d a b s
  | .idp4N8 d a b => Sys2Proof.Machine.execIdp4N8 d a b s
  | .idp2I16 d a b => Sys2Proof.Machine.execIdp2I16 d a b s
  | .ncvtRn d a k sl => Sys2Proof.Machine.execNcvtRn d a k sl s
  | .ncvtRz d a k sl => Sys2Proof.Machine.execNcvtRz d a k sl s
  | .nunp d a k sl => Sys2Proof.Machine.execNunp d a k sl s
  | .nscl d a b => Sys2Proof.Machine.execNscl d a b s
  | .scx d a im => Sys2Proof.Machine.execScx d a im s
  | .lncv fb d a => Sys2Proof.Machine.execLncv fb d a s
  | .lnbk fb d a => Sys2Proof.Machine.execLnbk fb d a s
  | .lexp fb d a => Sys2Proof.Machine.execLexp fb d a s
  | .llog fb d a => Sys2Proof.Machine.execLlog fb d a s
  | .lmul fb d a b => Sys2Proof.Machine.execLmul fb d a b s
  | .ldiv fb d a b => Sys2Proof.Machine.execLdiv fb d a b s
  | .lsqr fb d a => Sys2Proof.Machine.execLsqr fb d a s
  | .lpow fb d a b => Sys2Proof.Machine.execLpow fb d a b s
  | .ladd fb d a b => Sys2Proof.Machine.execLadd fb d a b s
  | .lsub fb d a b => Sys2Proof.Machine.execLsub fb d a b s
  | .fdiv fb d a b => Sys2Proof.Machine.execFdiv fb d a b s
  | .fsqrt fb d a => Sys2Proof.Machine.execFsqrt fb d a s
  | .ddiv fb d a b => Sys2Proof.Machine.execDdiv fb d a b s
  | .dsqrt fb d a => Sys2Proof.Machine.execDsqrt fb d a s
  | .xshf fb d a b => Sys2Proof.Machine.execXshf fb d a b s
  | .xbfly fb d a im => Sys2Proof.Machine.execXbfly fb d a im s
  | .xbcst fb d a im => Sys2Proof.Machine.execXbcst fb d a im s
  | .xvoteAny fb d a => Sys2Proof.Machine.execXvoteAny fb d a s
  | .xvoteAll fb d a => Sys2Proof.Machine.execXvoteAll fb d a s
  | .xballot fb d a => Sys2Proof.Machine.execXballot fb d a s
  | .xredAddI32 fb d a => Sys2Proof.Machine.execXredAddI32 fb d a s
  | .xredAddF32 fb d a => Sys2Proof.Machine.execXredAddF32 fb d a s
  | .xredMinI fb d a => Sys2Proof.Machine.execXredMinI fb d a s
  | .xredMaxI fb d a => Sys2Proof.Machine.execXredMaxI fb d a s
  | .xscanAddI32 fb d a => Sys2Proof.Machine.execXscanAddI32 fb d a s
  | .xscanAddF32 fb d a => Sys2Proof.Machine.execXscanAddF32 fb d a s
  | .xmatch fb d a => Sys2Proof.Machine.execXmatch fb d a s
  | .bwait fb a im => Sys2Proof.Machine.execBwait fb a im s
  | .barv a im => Sys2Proof.Machine.execBarv a im s
  | .bqryBarrier d im => Sys2Proof.Machine.execBqryBarrier d im s
  | .gbar fb a im => Sys2Proof.Machine.execGbar fb a im s
  | .gbarv a im => Sys2Proof.Machine.execGbarv a im s
  | .ld fb d sl b => Sys2Proof.Machine.execLd fb d sl b s
  | .ld2 fb d sl b => Sys2Proof.Machine.execLd2 fb d sl b s
  | .ld4 fb d sl b => Sys2Proof.Machine.execLd4 fb d sl b s
  | .st fb d sl b => Sys2Proof.Machine.execSt fb d sl b s
  | .st2 fb d sl b => Sys2Proof.Machine.execSt2 fb d sl b s
  | .st4 fb d sl b => Sys2Proof.Machine.execSt4 fb d sl b s
  | .lda fb d sl b lit => Sys2Proof.Machine.execLda fb d sl b lit s
  | .stl fb d sl b lit => Sys2Proof.Machine.execStl fb d sl b lit s
  | .bload fb sl a => Sys2Proof.Machine.execBload fb sl a s
  | .bqrySlot d sl im => Sys2Proof.Machine.execBqrySlot d sl im s
  | .lload fb sl a => Sys2Proof.Machine.execLload fb sl a s
  | .aaddI32 fb d sl b => Sys2Proof.Machine.execAaddI32 fb d sl b s
  | .aaddF32 fb d sl b => Sys2Proof.Machine.execAaddF32 fb d sl b s
  | .aminI fb d sl b => Sys2Proof.Machine.execAminI fb d sl b s
  | .aminN fb d sl b => Sys2Proof.Machine.execAminN fb d sl b s
  | .amaxI fb d sl b => Sys2Proof.Machine.execAmaxI fb d sl b s
  | .amaxN fb d sl b => Sys2Proof.Machine.execAmaxN fb d sl b s
  | .aand fb d sl b => Sys2Proof.Machine.execAand fb d sl b s
  | .aor fb d sl b => Sys2Proof.Machine.execAor fb d sl b s
  | .axor fb d sl b => Sys2Proof.Machine.execAxor fb d sl b s
  | .axchg fb d sl b => Sys2Proof.Machine.execAxchg fb d sl b s
  | .acas fb d sl b => Sys2Proof.Machine.execAcas fb d sl b s
  | .ainc fb d sl b => Sys2Proof.Machine.execAinc fb d sl b s
  | .aadd64 fb d sl b => Sys2Proof.Machine.execAadd64 fb d sl b s
  | .acas64 fb d sl b => Sys2Proof.Machine.execAcas64 fb d sl b s
  | .fence k sc => Sys2Proof.Machine.execFence k sc s
  | .mminit fb t a => Sys2Proof.Machine.execMminit fb t a s
  | .mmloop fb t a b lit => Sys2Proof.Machine.execMmloop fb t a b lit s
  | .mmnorm fb t a => Sys2Proof.Machine.execMmnorm fb t a s
  | .mmdrain fb t m => Sys2Proof.Machine.execMmdrain fb t m s
  | .mmq d t im => Sys2Proof.Machine.execMmq d t im s
  | .cpt fb l a b lit => Sys2Proof.Machine.execCpt fb l a b lit s
  | .cps fb sl a b lit => Sys2Proof.Machine.execCps fb sl a b lit s
  | .tmov fb d a b lit => Sys2Proof.Machine.execTmov fb d a b lit s
  | .hset h a b => Sys2Proof.Machine.execHset h a b s
  | .hwait fb d h m => Sys2Proof.Machine.execHwait fb d h m s
  | .hrel h b => Sys2Proof.Machine.execHrel h b s
  | .hq d h im => Sys2Proof.Machine.execHq d h im s
  | .jobs fb => Sys2Proof.Machine.execJobs fb s
  | .sst fb d sl b => Sys2Proof.Machine.execSst fb d sl b s
  | .satmAdd fb d sl b => Sys2Proof.Machine.execSatmAdd fb d sl b s
  | .satmXchg fb d sl b => Sys2Proof.Machine.execSatmXchg fb d sl b s
  | .satmCas fb d sl b => Sys2Proof.Machine.execSatmCas fb d sl b s
  | .rsync fb d => Sys2Proof.Machine.execRsync fb d s
  | .rstamp fb d sl b => Sys2Proof.Machine.execRstamp fb d sl b s
  | .gsig fb a b => Sys2Proof.Machine.execGsig fb a b s
  | .gwait fb d a b => Sys2Proof.Machine.execGwait fb d a b s
  | .grd fb d a => Sys2Proof.Machine.execGrd fb d a s
  | .coll fb => Sys2Proof.Machine.execColl fb s
  | .a2at fb d a b lit => Sys2Proof.Machine.execA2at fb d a b lit s
  | .mcst fb d sl o => Sys2Proof.Machine.execMcst fb d sl o s
  | .launch d a b => Sys2Proof.Machine.execLaunch d a b s
  | .trig a => Sys2Proof.Machine.execTrig a s
  | .capq d a => Sys2Proof.Machine.execCapq d a s
  | .clk d a => Sys2Proof.Machine.execClk d a s
  | .elog a b => Sys2Proof.Machine.execElog a b s
  | .ulog d a b => Sys2Proof.Machine.execUlog d a b s
  | .clauseEntry => Sys2Proof.Machine.execClauseEntry s
  | .clauseWaitEnd => Sys2Proof.Machine.execClauseWaitEnd s
  | .longLatencyComplete => Sys2Proof.Machine.execLongLatencyComplete s
  | .queueUnblock => Sys2Proof.Machine.execQueueUnblock s
  | .rvtoTimeout => Sys2Proof.Machine.execRvtoTimeout s
  | .qdlkTimeout => Sys2Proof.Machine.execQdlkTimeout s
  | .submissionAccept => Sys2Proof.Machine.execSubmissionAccept s
  | .engineItemAccess => Sys2Proof.Machine.execEngineItemAccess s
  | .handleArrival => Sys2Proof.Machine.execHandleArrival s
  | .itemComplete => Sys2Proof.Machine.execItemComplete s
  | .itemFail => Sys2Proof.Machine.execItemFail s
  | .dispatcherPlace => Sys2Proof.Machine.execDispatcherPlace s
  | .gangReservationPass => Sys2Proof.Machine.execGangReservationPass s
  | .sliceEnd => Sys2Proof.Machine.execSliceEnd s
  | .drainLimitExpiry => Sys2Proof.Machine.execDrainLimitExpiry s
  | .groupSave => Sys2Proof.Machine.execGroupSave s
  | .watchdogExpiry => Sys2Proof.Machine.execWatchdogExpiry s
  | .periodBoundary => Sys2Proof.Machine.execPeriodBoundary s
  | .doorbellWrite => Sys2Proof.Machine.execDoorbellWrite s
  | .commandRead => Sys2Proof.Machine.execCommandRead s
  | .cmdNop => Sys2Proof.Machine.execCmdNop s
  | .cmdLaunch => Sys2Proof.Machine.execCmdLaunch s
  | .cmdGraphld => Sys2Proof.Machine.execCmdGraphld s
  | .cmdWait => Sys2Proof.Machine.execCmdWait s
  | .cmdWaitSatisfied => Sys2Proof.Machine.execCmdWaitSatisfied s
  | .cmdSignal => Sys2Proof.Machine.execCmdSignal s
  | .launchEnd => Sys2Proof.Machine.execLaunchEnd s
  | .shedEventDoorbell => Sys2Proof.Machine.execShedEventDoorbell s
  | .shedEventCmdread => Sys2Proof.Machine.execShedEventCmdread s
  | .shedEventBinddone => Sys2Proof.Machine.execShedEventBinddone s
  | .shedEventCopyflt => Sys2Proof.Machine.execShedEventCopyflt s
  | .shedEventError => Sys2Proof.Machine.execShedEventError s
  | .shedEventTrigger => Sys2Proof.Machine.execShedEventTrigger s
  | .pageRequestAnswer => Sys2Proof.Machine.execPageRequestAnswer s
  | .pageRequestTimeout => Sys2Proof.Machine.execPageRequestTimeout s
  | .graphNodeComplete => Sys2Proof.Machine.execGraphNodeComplete s
  | .coaltTimerExpiry => Sys2Proof.Machine.execCoaltTimerExpiry s
  | .invalStage1Va => Sys2Proof.Machine.execInvalStage1Va s
  | .invalStage1Asid => Sys2Proof.Machine.execInvalStage1Asid s
  | .invalStage2Gpa => Sys2Proof.Machine.execInvalStage2Gpa s
  | .invalStage2Vmid => Sys2Proof.Machine.execInvalStage2Vmid s
  | .invalAll => Sys2Proof.Machine.execInvalAll s
  | .invalComplete => Sys2Proof.Machine.execInvalComplete s
  | .adminContextWrite => Sys2Proof.Machine.execAdminContextWrite s
  | .contextTeardown => Sys2Proof.Machine.execContextTeardown s
  | .contextTeardownFinish => Sys2Proof.Machine.execContextTeardownFinish s
  | .loftTeardownFinish => Sys2Proof.Machine.execLoftTeardownFinish s
  | .replyReservationRelease => Sys2Proof.Machine.execReplyReservationRelease s
  | .keyidQuarantineEnd => Sys2Proof.Machine.execKeyidQuarantineEnd s
  | .adminYardWrite => Sys2Proof.Machine.execAdminYardWrite s
  | .adminKeyInstall => Sys2Proof.Machine.execAdminKeyInstall s
  | .adminReachList => Sys2Proof.Machine.execAdminReachList s
  | .adminQueueReenable => Sys2Proof.Machine.execAdminQueueReenable s
  | .adminFenceRelease => Sys2Proof.Machine.execAdminFenceRelease s
  | .adminGateWrite => Sys2Proof.Machine.execAdminGateWrite s
  | .adminCommunicatorWrite => Sys2Proof.Machine.execAdminCommunicatorWrite s
  | .adminEnrol => Sys2Proof.Machine.execAdminEnrol s
  | .attestationRequest => Sys2Proof.Machine.execAttestationRequest s
  | .packetSend => Sys2Proof.Machine.execPacketSend s
  | .packetReceive => Sys2Proof.Machine.execPacketReceive s
  | .capoGrant => Sys2Proof.Machine.execCapoGrant s
  | .strongGrantReceive => Sys2Proof.Machine.execStrongGrantReceive s
  | .capoHandoff => Sys2Proof.Machine.execCapoHandoff s
  | .lagDetect => Sys2Proof.Machine.execLagDetect s
  | .lagEvictTimeout => Sys2Proof.Machine.execLagEvictTimeout s
  | .linksLost => Sys2Proof.Machine.execLinksLost s
  | .eviction => Sys2Proof.Machine.execEviction s
  | .counterWrap => Sys2Proof.Machine.execCounterWrap s
  | .wrapRebase => Sys2Proof.Machine.execWrapRebase s
  | .stampRewrite => Sys2Proof.Machine.execStampRewrite s
  | .rejoinRequest => Sys2Proof.Machine.execRejoinRequest s
  | .rejoinCopyComplete => Sys2Proof.Machine.execRejoinCopyComplete s
  | .replfix => Sys2Proof.Machine.execReplfix s
  | .uncorrectableError => Sys2Proof.Machine.execUncorrectableError s
  | .gateRequest => Sys2Proof.Machine.execGateRequest s
  | .gateAnswer => Sys2Proof.Machine.execGateAnswer s
  | .gateTokenAccrue => Sys2Proof.Machine.execGateTokenAccrue s
  | .gateMigrate => Sys2Proof.Machine.execGateMigrate s
  | .gateMigrateCopy => Sys2Proof.Machine.execGateMigrateCopy s
  | .gateMigrateAck => Sys2Proof.Machine.execGateMigrateAck s
  | .gateRetire => Sys2Proof.Machine.execGateRetire s
  | .pagePullComplete => Sys2Proof.Machine.execPagePullComplete s
  | .fabricPacketReceive => Sys2Proof.Machine.execFabricPacketReceive s
  | .globResponse => Sys2Proof.Machine.execGlobResponse s
  | .pathFailure => Sys2Proof.Machine.execPathFailure s
  | .responseTimeout => Sys2Proof.Machine.execResponseTimeout s
  | .linkFlitReceive => Sys2Proof.Machine.execLinkFlitReceive s
  | .flitAck => Sys2Proof.Machine.execFlitAck s
  | .allowanceReturn => Sys2Proof.Machine.execAllowanceReturn s
  | .collChunkStep => Sys2Proof.Machine.execCollChunkStep s
  | .collComplete => Sys2Proof.Machine.execCollComplete s
  | .collTimeout => Sys2Proof.Machine.execCollTimeout s
  | .moduleReset => Sys2Proof.Machine.execModuleReset s
  | .bootAllDiesReady => Sys2Proof.Machine.execBootAllDiesReady s
  | .configRequest => Sys2Proof.Machine.execConfigRequest s
  | .functionLevelReset => Sys2Proof.Machine.execFunctionLevelReset s
  | .thermalThrottle => Sys2Proof.Machine.execThermalThrottle s
  | .thermalFence => Sys2Proof.Machine.execThermalFence s
  | .registerWrite => Sys2Proof.Machine.execRegisterWrite s
  | .encodingFault => Sys2Proof.Machine.execEncodingFault s
  | .updateAcknowledgement => Sys2Proof.Machine.execUpdateAcknowledgement s
  | .frameOwnershipWrite => Sys2Proof.Machine.execFrameOwnershipWrite s
  | .inPackageLinkFailure => Sys2Proof.Machine.execInPackageLinkFailure s

end Sys2Proof.Machine
end

