-- ==== Sys2Proof/Machine/Step.lean ====
section
/-! DEFINITION. One step of the module: an input of the agenda, the next word of the current strand, or what another agent does
next (log 1); and the placing of one word where the next step fetches it. -/

namespace Sys2Proof.Machine

/-- An instruction word tried by the current strand. -/
def tryWord (i : Instr) (s : State) : Host.Outcome State Fault Refusal :=
  match exec i s with
  | .next t => .next (chosen s t)
  | .fault f => .fault f
  | .refused r => .refused r

/-- The current strand goes on: it fetches a clause, ends its wait on flags, or issues the body word at its program counter (R18). -/
def issue (s : State) : Host.Outcome State Fault Refusal :=
  match s.strand s.cur with
  | none => .next s
  | some x =>
    match x.phase with
    | .header => exec .clauseEntry { s with arg := .strand s.cur }
    | .flags => exec .clauseWaitEnd { s with arg := .strand s.cur }
    | .body =>
      match x.word with
      | none => .next s
      | some w =>
        match decode w x.litWord with
        | .ok i => tryWord i s
        | .error _ => exec .encodingFault { s with arg := .words w (x.litWord.getD 0#32) }
    | .sync _ => .next s
    | .arrived _ => .next s
    | .ended => .next s

/-- One input. -/
def runInput (i : Input) (s : State) : Host.Outcome State Fault Refusal :=
  match i with
  | .ev e a => exec e { s with arg := a }
  | .run k => if s.groupIssues k.grp && !s.passedOver k then issue { s with cur := k } else .next s
  | .hostWrite die off bytes => hostStore die off bytes s
  | .elapse n => .next (elapse n s)
  | .lineError spa => lineError spa s
  | .corrected die n => .next (corrected die n s)
  | .replRegion base size => .next (setReplRegion base size s)
  | .trigWindow die off => .next (setTrigWindow die off s)
  | .moduleId n => .next (setModuleId n s)
  | .hostHbm fn spa bytes => hostHbm fn spa bytes s
  | .pen yard num p => .next (writePen yard num p s)
  | .area a given => .next (writeArea a given s)
  | .period die ns => .next (setPeriod die ns s)
  | .invalRing fn base size => .next (setInvalRing fn base size s)
  | .invalDoorbell fn tail => .next (ringInval fn tail s)
  | .pfRead n => .next (readPf n s)
  | .flash img => .next (setFlash img s)
  | .bootStage die ok => .next (bootStage die ok s)
  | .sliceTimer die acct => .next (sliceTimer die acct s)
  | .shed die => .next (shedIdle die s)
  | .late on => .next { s with late := on }
  | .gateAway m d tag tenant ctx gid ask fwd => .next (gateAway m d tag tenant ctx gid ask fwd s)
  | .gateAwayDrop m d tag => .next (gateAwayDrop m d tag s)
  | .gateArrive die g => .next (gateArrive die g s)
  | .gateDrained gid => .next (gateDrained gid s)
  | .gateLate op count => .next (gateLate op count s)
  | .gateMoved gid m d acl => .next (gateMoved gid m d acl s)
  | .vf fn die => .next (assignVf fn die s)
  | .buffers die port shares pools => .next (setBuffers die port shares pools s)
  | .reply die port => .next (sendReply die port s)
  | .regRead fn off => .next (regRead fn off s)
  | .postCopy p => .next (postCopy p s)

/-- Another agent's turn: the clock runs on by one cycle, and the candidates are taken in rotation. -/
def background (s : State) : Host.Outcome State Fault Refusal :=
  let l := s.candidates
  let s' := { tick 1 s with turn := s.turn + 1, ran := 0 }
  match l[s.turn % l.length]? with
  | some i => runInput i s'
  | none => .next s'

/-- One step. -/
def step (s : State) : Host.Outcome State Fault Refusal :=
  match s.agenda with
  | i :: rest => runInput i { s with agenda := rest }
  | [] => if s.curReady then issue { s with ran := s.ran + 1 } else background s

/-- The strand that a placed word needs: an X-strand for the classes that only an X-strand may use (Table 2.5). -/
def kindOfWord (w : Nat) : StrandKind :=
  let c := w / 2 ^ 28 % 16
  if c == 5 || c == 6 || c == 7 || c == 11 then .x else .a

/-- A group of one thread with both strands at address 0 under launch 1 of context 1. -/
def State.withThread (s : State) (k : StrandKey) : State :=
  { s with
    ctxs := tset s.ctxs 1 ⟨CtxDesc.blank, true, false, 1, [], [], [], 0⟩
    launches := tset s.launches 1 ⟨1, 1, LaunchRec.blank, 0, false, 0, .queue 0 0, 0, 1, 1, 0, 1, [], [], false, s.mem, s.loftKey, none⟩
    groups := tset s.groups k.grp (Group.fresh LaunchRec.blank 1 0 0 0 s.cycle false)
    threads := tset s.threads k.thread (Thread.fresh 0 s.cycle LaunchRec.blank.qdepth)
    strands := tset (tset s.strands { k with kind := .a } (Strand.fresh 0#57 128)) { k with kind := .x } (Strand.fresh 0#57 128) }

/-- The state in which the next step fetches and runs the word `w` of the opcode table, its literal taken from the bits above 32
that `nbits` covers (log 12). -/
def State.withFetchWord (s : State) (nbits w : Nat) : State :=
  let v := w % 2 ^ nbits
  let w0 := BitVec.ofNat 32 v
  let body := if isXForm w0 then [w0, BitVec.ofNat 32 (v / 2 ^ 32)] else [w0]
  let k : StrandKey := ⟨⟨1, 0⟩, 0, kindOfWord v⟩
  let s := if (s.strand k).isSome && s.groupIssues k.grp then s else s.withThread k
  { s.modStrand k (·.holding body) with agenda := [], cur := k, ran := 0 }

end Sys2Proof.Machine
end

