-- ==== Sys2Proof/Safety.lean ====
section
/-! DEFINITION. What claims call a safe run, and the form that every memory of the module keeps. -/

namespace Sys2Proof.Machine

/-- Every memory of the module stands in canonical form: system memory, the core windows and the cluster windows. -/
def State.memsWf (s : State) : Prop :=
  memWf s.mem = true ∧ (∀ e ∈ s.groups, memWf e.2.win = true) ∧ ∀ e ∈ s.cwins, memWf e.2 = true

/-- A step that goes on. -/
def State.goesOn (s : State) : Prop := ∃ t, step s = .next t

/-- A run of at most `n` steps that no fault and no refusal ends. -/
def State.safeFor (s : State) : Nat → Prop
  | 0 => True
  | n + 1 => ∃ t, step s = .next t ∧ t.safeFor n

/-- An input that names memory names bytes that exist (R228). -/
def Input.sound : Input → Prop
  | .hostWrite die off bytes => namesByte (mkSpa 2 die off) = true ∧ off + bytes.length ≤ 2 ^ 46
  | .lineError spa => namesByte spa = true
  | .hostHbm _ spa bytes => spaSpace spa = 0 ∧ namesByte spa = true ∧ spaOff spa + bytes.length ≤ hbmBytes
  | .ev _ _ | .run _ | .elapse _ | .corrected _ _ | .replRegion _ _ | .trigWindow _ _ | .moduleId _ | .pen _ _ _ | .area _ _ | .period _ _
  | .invalRing _ _ _ | .invalDoorbell _ _ | .pfRead _ | .flash _ | .bootStage _ _ | .sliceTimer _ _ | .shed _ | .late _
  | .gateAway _ _ _ _ _ _ _ _ | .gateLate _ _ | .gateMoved _ _ _ _ | .vf _ _ | .gateAwayDrop _ _ _ | .gateArrive _ _ | .gateDrained _ | .buffers _ _ _ _ | .reply _ _ | .regRead _ _
  | .postCopy _ => True

end Sys2Proof.Machine
end

