-- ==== Sys2Proof/Certificates/Slice0/Obligations.lean ====
section
/-! DEFINITION. The statements for the provers. The results that the spec's tables give the words are written here a second time, over
words of 32 and 64 bits; a statement says that the machine gives them. -/

namespace Sys2Proof.Claims

open Sys2Proof Sys2Proof.Machine

/-! ## Operand values and results -/

/-- A one-register operand, and a pair with its low word first (R30). -/
def w32 (l : List TVal) : BitVec 32 := (l.headD ⟨0#32, 0#5⟩).bits
def w64 (l : List TVal) : BitVec 64 := w32 (l.drop 1) ++ w32 l
def tagOf (l : List TVal) : Tag := (l.headD ⟨0#32, 0#5⟩).tag

/-- A result of one register and a result pair, with what it logs. -/
def one (t : Tag) (w : BitVec 32) (lg : Log := {}) : List TVal × Log := ([⟨w, t⟩], lg)
def two (lo hi : Tag) (w : BitVec 64) (lg : Log := {}) : List TVal × Log :=
  ([⟨w.setWidth 32, lo⟩, ⟨(w >>> 32).setWidth 32, hi⟩], lg)

/-- A word's operands and destination, and its result. -/
abbrev Row := WordForm × (Vals → List TVal × Log)

/-! ## Class 0x0 (Table 4.1, R74, R75) -/

def divz : Log := { divz := true }

def clamp (lo hi x : Int) : BitVec 32 := BitVec.ofInt 32 (max lo (min hi x))

def intRow : Instr → Option Row
  | .iadd d a b => some (form3 0 d a b .int .int, fun v => one (tagOf v.a) (w32 v.a + w32 v.b))
  | .iaddi d a im => some (form2 0 d a .int, fun v => one (tagOf v.a) (w32 v.a + im.signExtend 32))
  | .isub d a b => some (form3 0 d a b .int .int, fun v => one (tagOf v.a) (w32 v.a - w32 v.b))
  | .imul d a b => some (form3 0 d a b .int .int, fun v => one (tagOf v.a) (w32 v.a * w32 v.b))
  | .imulhI d a b => some (form3 0 d a b .int .int, fun v =>
      one 1#5 (((w32 v.a).signExtend 64 * (w32 v.b).signExtend 64).extractLsb' 32 32))
  | .imulhN d a b => some (form3 0 d a b .int .int, fun v =>
      one 2#5 (((w32 v.a).setWidth 64 * (w32 v.b).setWidth 64).extractLsb' 32 32))
  | .imad d a b => some (form4 0 d a b .int .int .int, fun v => one (tagOf v.d) (w32 v.a * w32 v.b + w32 v.d))
  | .imulwI d a b => some ({ form3 0 d a b .int .int with out := some (d, 2) }, fun v =>
      two 13#5 14#5 ((w32 v.a).signExtend 64 * (w32 v.b).signExtend 64))
  | .imulwN d a b => some ({ form3 0 d a b .int .int with out := some (d, 2) }, fun v =>
      two 13#5 14#5 ((w32 v.a).setWidth 64 * (w32 v.b).setWidth 64))
  | .idivI d a b => some (form3 0 d a b .int .int, fun v =>
      if w32 v.b = 0#32 then one 1#5 0xFFFFFFFF#32 divz else one 1#5 ((w32 v.a).sdiv (w32 v.b)))
  | .idivN d a b => some (form3 0 d a b .int .int, fun v =>
      if w32 v.b = 0#32 then one 2#5 0xFFFFFFFF#32 divz else one 2#5 (w32 v.a / w32 v.b))
  | .iremI d a b => some (form3 0 d a b .int .int, fun v =>
      if w32 v.b = 0#32 then one 1#5 (w32 v.a) divz else one 1#5 ((w32 v.a).srem (w32 v.b)))
  | .iremN d a b => some (form3 0 d a b .int .int, fun v =>
      if w32 v.b = 0#32 then one 2#5 (w32 v.a) divz else one 2#5 (w32 v.a % w32 v.b))
  | .iminI d a b => some (form3 0 d a b .int .int, fun v => one 1#5 (if (w32 v.b).slt (w32 v.a) then w32 v.b else w32 v.a))
  | .iminN d a b => some (form3 0 d a b .int .int, fun v => one 2#5 (if (w32 v.b).ult (w32 v.a) then w32 v.b else w32 v.a))
  | .imaxI d a b => some (form3 0 d a b .int .int, fun v => one 1#5 (if (w32 v.a).slt (w32 v.b) then w32 v.b else w32 v.a))
  | .imaxN d a b => some (form3 0 d a b .int .int, fun v => one 2#5 (if (w32 v.a).ult (w32 v.b) then w32 v.b else w32 v.a))
  | .iabs d a => some (form2 0 d a .int, fun v => one 1#5 (if (w32 v.a).msb then -(w32 v.a) else w32 v.a))
  | .ineg d a => some (form2 0 d a .int, fun v => one 1#5 (-(w32 v.a)))
  | .iaddsI d a b => some (form3 0 d a b .int .int, fun v =>
      one 1#5 (clamp (-(2 ^ 31)) (2 ^ 31 - 1) ((w32 v.a).toInt + (w32 v.b).toInt)))
  | .iaddsN d a b => some (form3 0 d a b .int .int, fun v => one 2#5 (clamp 0 (2 ^ 32 - 1) ((w32 v.a).toNat + (w32 v.b).toNat)))
  | .isubsI d a b => some (form3 0 d a b .int .int, fun v =>
      one 1#5 (clamp (-(2 ^ 31)) (2 ^ 31 - 1) ((w32 v.a).toInt - (w32 v.b).toInt)))
  | .isubsN d a b => some (form3 0 d a b .int .int, fun v => one 2#5 (clamp 0 (2 ^ 32 - 1) ((w32 v.a).toNat - (w32 v.b).toNat)))
  | .iadd64 d a b => some (formP3 0 d a b .i64, fun v => two 13#5 14#5 (w64 v.a + w64 v.b))
  | .isub64 d a b => some (formP3 0 d a b .i64, fun v => two 13#5 14#5 (w64 v.a - w64 v.b))
  | .ixadd2 d a b => some (form3 0 d a b .int .int, fun v => one (tagOf v.a) (w32 v.a + w32 v.b <<< 1))
  | .ixadd4 d a b => some (form3 0 d a b .int .int, fun v => one (tagOf v.a) (w32 v.a + w32 v.b <<< 2))
  | .ixadd8 d a b => some (form3 0 d a b .int .int, fun v => one (tagOf v.a) (w32 v.a + w32 v.b <<< 3))
  | .ixadd16 d a b => some (form3 0 d a b .int .int, fun v => one (tagOf v.a) (w32 v.a + w32 v.b <<< 4))
  | .ldi d im => some ({ cls := 0, out := some (d, 1) }, fun _ => one 1#5 (im.signExtend 32))
  | .ldw d lit => some ({ cls := 0, len := 2, out := some (d, 1) }, fun _ => one 0#5 lit)
  | _ => none

/-! ## Class 0x1 (Table 4.2, R76 to R78) -/

/-- Rotation left by a count below 32. -/
def rot (x : BitVec 32) (n : Nat) : BitVec 32 := x.rotateLeft n

/-- Where a field starts, and its width cut at bit 31 (R77). -/
def fpos (b : BitVec 32) : Nat := (b.setWidth 5).toNat
def fwid (b : BitVec 32) : Nat := min (min (b.extractLsb' 8 6).toNat 32) (32 - fpos b)

/-- The field as a number with its top bit at bit 31. -/
def ftop (a b : BitVec 32) : BitVec 32 := a <<< (32 - fpos b - fwid b)

/-- The bits of a field. -/
def fmask (b : BitVec 32) : BitVec 32 := (BitVec.allOnes 32 >>> (32 - fwid b)) <<< fpos b

/-- How many bits in a row, from a list of positions, are clear. -/
def zerosOf (x : BitVec 32) (l : List Nat) : BitVec 32 := BitVec.ofNat 32 (l.takeWhile fun i => !x.getLsbD i).length

/-- The byte that selector `n` picks: from a, from d, or 0x00 (R78). -/
def pick (a b d : BitVec 32) (n : Nat) : BitVec 8 :=
  let sel := b.extractLsb' (4 * n) 4
  if sel.ult 4#4 then (a >>> (8 * (sel.setWidth 2).toNat)).setWidth 8
  else if sel.ult 8#4 then (d >>> (8 * (sel.setWidth 2).toNat)).setWidth 8 else 0#8

def logicRow : Instr → Option Row
  | .and d a b => some (form3 1 d a b .any .any, fun v => one (tagOf v.a) (w32 v.a &&& w32 v.b))
  | .andi d a im => some (form2 1 d a .any, fun v => one (tagOf v.a) (w32 v.a &&& im.signExtend 32))
  | .or d a b => some (form3 1 d a b .any .any, fun v => one (tagOf v.a) (w32 v.a ||| w32 v.b))
  | .ori d a im => some (form2 1 d a .any, fun v => one (tagOf v.a) (w32 v.a ||| im.signExtend 32))
  | .xor d a b => some (form3 1 d a b .any .any, fun v => one (tagOf v.a) (w32 v.a ^^^ w32 v.b))
  | .xori d a im => some (form2 1 d a .any, fun v => one (tagOf v.a) (w32 v.a ^^^ im.signExtend 32))
  | .andn d a b => some (form3 1 d a b .any .any, fun v => one (tagOf v.a) (w32 v.a &&& ~~~(w32 v.b)))
  | .not d a => some (form2 1 d a .any, fun v => one (tagOf v.a) (~~~(w32 v.a)))
  | .shl d a b => some (form3 1 d a b .any .any, fun v => one (tagOf v.a) (w32 v.a <<< ((w32 v.b).setWidth 5).toNat))
  | .shli d a n => some (form2 1 d a .any, fun v => one (tagOf v.a) (w32 v.a <<< n.toNat))
  | .shr d a b => some (form3 1 d a b .any .any, fun v => one (tagOf v.a) (w32 v.a >>> ((w32 v.b).setWidth 5).toNat))
  | .shri d a n => some (form2 1 d a .any, fun v => one (tagOf v.a) (w32 v.a >>> n.toNat))
  | .sar d a b => some (form3 1 d a b .any .any, fun v => one (tagOf v.a) ((w32 v.a).sshiftRight ((w32 v.b).setWidth 5).toNat))
  | .sari d a n => some (form2 1 d a .any, fun v => one (tagOf v.a) ((w32 v.a).sshiftRight n.toNat))
  | .rol d a b => some (form3 1 d a b .any .any, fun v => one (tagOf v.a) (rot (w32 v.a) ((w32 v.b).setWidth 5).toNat))
  | .roli d a n => some (form2 1 d a .any, fun v => one (tagOf v.a) (rot (w32 v.a) n.toNat))
  | .bfxI d a b => some (form3 1 d a b .any .any, fun v =>
      one 1#5 (if fwid (w32 v.b) = 0 then 0#32 else (ftop (w32 v.a) (w32 v.b)).sshiftRight (32 - fwid (w32 v.b))))
  | .bfxN d a b => some (form3 1 d a b .any .any, fun v =>
      one 2#5 (if fwid (w32 v.b) = 0 then 0#32 else ftop (w32 v.a) (w32 v.b) >>> (32 - fwid (w32 v.b))))
  | .bfi d a b => some (form4 1 d a b .any .any .any, fun v =>
      one (tagOf v.d) ((w32 v.d &&& ~~~(fmask (w32 v.b))) ||| (w32 v.a <<< fpos (w32 v.b) &&& fmask (w32 v.b))))
  | .popc d a => some (form2 1 d a .any, fun v =>
      one 2#5 (BitVec.ofNat 32 ((List.range 32).filter fun i => (w32 v.a).getLsbD i).length))
  | .clz d a => some (form2 1 d a .any, fun v => one 2#5 (zerosOf (w32 v.a) (List.range 32).reverse))
  | .ctz d a => some (form2 1 d a .any, fun v => one 2#5 (zerosOf (w32 v.a) (List.range 32)))
  | .brev d a => some (form2 1 d a .any, fun v => one (tagOf v.a) (w32 v.a).reverse)
  | .permb d a b => some (form4 1 d a b .any .any .any, fun v =>
      let p := pick (w32 v.a) (w32 v.b) (w32 v.d)
      one (tagOf v.d) (p 3 ++ p 2 ++ p 1 ++ p 0))
  | _ => none

/-! ## Class 0x2 (Table 4.3, R79, R80) -/

/-- A word that writes a predicate: its operands, the predicate, and the result. -/
abbrev PRow := WordForm × BitVec 7 × (Vals → Bool × Log)

/-- How two floating-point values stand to each other; none where one of them is a NaN (R79). -/
def order (x y : FVal) : Option Ordering := if x.isNan || y.isNan then none else some (x.cmp y)

/-- A comparison that logs INVL for a signalling NaN (R79). -/
def quiet (f : Fmt) (x y : Nat) (p : Option Ordering → Bool) : Bool × Log :=
  (p (order (f.dec x) (f.dec y)), if (f.dec x).isSig || (f.dec y).isSig then { invl := true } else {})

def cmp32 (d a b : RegNo) (p : BitVec 32 → BitVec 32 → Bool) : Option PRow :=
  some (cmpForm a b 1 .int, d, fun v => (p (w32 v.a) (w32 v.b), {}))
def cmpF (d a b : RegNo) (p : Option Ordering → Bool) : Option PRow :=
  some (cmpForm a b 1 .f32, d, fun v => quiet f32 (w32 v.a).toNat (w32 v.b).toNat p)
def cmpD (d a b : RegNo) (p : Option Ordering → Bool) : Option PRow :=
  some (cmpForm a b 2 .f64, d, fun v => quiet f64 (w64 v.a).toNat (w64 v.b).toNat p)
def onPreds (d : RegNo) (f : BitVec 128 → Bool) : Option PRow := some ({ cls := 2 }, d, fun v => (f v.x.preds, {}))

def predRow : Instr → Option PRow
  | .icmpEq d a b => cmp32 d a b fun x y => x == y
  | .icmpNe d a b => cmp32 d a b fun x y => x != y
  | .icmpLtI d a b => cmp32 d a b fun x y => x.slt y
  | .icmpLeI d a b => cmp32 d a b fun x y => x.sle y
  | .icmpGtI d a b => cmp32 d a b fun x y => y.slt x
  | .icmpGeI d a b => cmp32 d a b fun x y => y.sle x
  | .icmpLtN d a b => cmp32 d a b fun x y => x.ult y
  | .icmpLeN d a b => cmp32 d a b fun x y => x.ule y
  | .icmpGtN d a b => cmp32 d a b fun x y => y.ult x
  | .icmpGeN d a b => cmp32 d a b fun x y => y.ule x
  | .fcmpEq d a b => cmpF d a b (· == some .eq)
  | .fcmpNe d a b => cmpF d a b (· != some .eq)
  | .fcmpLt d a b => cmpF d a b (· == some .lt)
  | .fcmpLe d a b => cmpF d a b fun o => o == some .lt || o == some .eq
  | .fcmpGt d a b => cmpF d a b (· == some .gt)
  | .fcmpGe d a b => cmpF d a b fun o => o == some .gt || o == some .eq
  | .fcmpUn d a b => cmpF d a b (· == none)
  | .dcmpEq d a b => cmpD d a b (· == some .eq)
  | .dcmpLt d a b => cmpD d a b (· == some .lt)
  | .dcmpLe d a b => cmpD d a b fun o => o == some .lt || o == some .eq
  | .dcmpUn d a b => cmpD d a b (· == none)
  | .pand d a b => onPreds d fun p => p.getLsbD a.toNat && p.getLsbD b.toNat
  | .por d a b => onPreds d fun p => p.getLsbD a.toNat || p.getLsbD b.toNat
  | .pxor d a b => onPreds d fun p => p.getLsbD a.toNat ^^ p.getLsbD b.toNat
  | .pandn d a b => onPreds d fun p => p.getLsbD a.toNat && !p.getLsbD b.toNat
  | .pnot d a => onPreds d fun p => !p.getLsbD a.toNat
  | .pmov d a => onPreds d fun p => p.getLsbD a.toNat
  | .pset d v => onPreds d fun _ => v == 1#1
  | .dtop d a => some ({ cls := 2, a := some { n := a, acc := .int } }, d, fun v => (w32 v.a != 0#32, {}))
  | _ => none

/-! ## Special registers (Table 3.3, R4, R47, R48, R268) -/

/-- Coordinate `c` of a linear index in extents: x varies fastest, then y (R4). -/
def coordIn (x y z : Nat) (i : Nat) : Nat → Nat
  | 0 => i % x
  | 1 => i / x % y
  | _ => i / (x * y) % z

/-- The extents of tier `t` of a launch; 1 in each dimension above its last tier (R48). -/
def extOf (r : LaunchRec) (t : Nat) : Nat × Nat × Nat :=
  if t < r.tierCount then let e := (r.tiers[t]?).getD ⟨1, 1, 1, 0, 0⟩
    (e.x, e.y, e.z)
  else (1, 1, 1)

/-- How many instances of tier `t` − 1 an instance of tier `t` holds, and how many groups an instance of tier `t` − 1 (R268). -/
def volume (e : Nat × Nat × Nat) : Nat := e.1 * e.2.1 * e.2.2
def groupsBelow (r : LaunchRec) (t : Nat) : Nat := (((List.range t).drop 2).map fun u => volume (extOf r u)).prod

/-- The counts of completion flags, four bits each, the first lowest. -/
def counts (x : Strand) (l : List Nat) : Nat := l.foldr (fun i a => lget x.flags i 0 + 16 * a) 0

/-- A field of the group, the launch record or the context of a strand; 0 where there is none. -/
def ofGroup (s : State) (k : StrandKey) (f : Group → Nat) : Nat := ((s.group k.grp).map f).getD 0
def ofLaunch (s : State) (k : StrandKey) (f : LaunchRec → Nat) : Nat := ((s.launch k.grp.launch).map fun l => f l.rc).getD 0
def ofCtx (s : State) (k : StrandKey) (f : CtxDesc → Nat) : Nat :=
  (((s.launch k.grp.launch).bind fun l => s.ctx l.ctx).map fun c => f c.d).getD 0

/-- Table 3.3: the value of a selector as a number, of which the register takes the low 32 bits. -/
def special (s : State) (k : StrandKey) (x : Strand) (sel : Nat) : Nat :=
  match sel with
  | 0x000 => k.tid
  | 0x001 | 0x002 | 0x003 => ofLaunch s k fun r => coordIn (extOf r 1).1 (extOf r 1).2.1 (extOf r 1).2.2 k.tid (sel - 1)
  | 0x004 => ofGroup s k (·.size)
  | 0x005 => match k.kind with
    | .a => 0
    | .x => 1
  | 0x008 => k.grp.glin
  | 0x009 => k.grp.glin / 2 ^ 32
  | 0x010 => ofGroup s k (·.core)
  | 0x011 => ofGroup s k (·.core / 8)
  | 0x012 => ofGroup s k (·.die)
  | 0x013 => s.modId
  | 0x014 => ofCtx s k (·.yard)
  | 0x015 => ofCtx s k (·.pen)
  | 0x018 => k.grp.launch
  | 0x019 => k.grp.launch / 2 ^ 32
  | 0x01A => ofLaunch s k (·.params)
  | 0x01B => ofLaunch s k fun r => r.params / 2 ^ 32
  | 0x01C => ofLaunch s k (·.prio)
  | 0x020 => x.wb
  | 0x021 => x.regs.length
  | 0x022 => ofLaunch s k (·.handlerWb)
  | 0x024 => x.rgn.w.toNat
  | 0x025 => x.rgn.w.toNat / 2 ^ 32
  | 0x028 => counts x [0, 1, 2, 3, 4, 5, 6, 7]
  | 0x029 => counts x [8, 9, 10, 11]
  | 0x200 => 0x356
  | 0x201 => 0xB0 + 2 ^ 8 * 3
  | _ =>
    if sel < 0x48 then ofLaunch s k fun r => (lget r.fmt (sel - 0x40) 0#32).toNat
    else if sel < 0x90 then (lget x.fault (sel - 0x80) 0#32).toNat
    else
      let t := (sel - 0x100) / 8 + 2
      ofLaunch s k fun r =>
        let e := extOf r t
        match (sel - 0x100) % 8 with
        | 4 => e.1
        | 5 => e.2.1
        | 6 => e.2.2
        | c => coordIn e.1 e.2.1 e.2.2 (k.grp.glin / groupsBelow r t % volume e) c

/-- The format registers and the fault record are untyped, all else is n32. -/
def specialTag (sel : Nat) : Tag := if 0x40 ≤ sel ∧ sel < 0x90 then 0#5 else 2#5

/-! ## Classes 0x2 and 0x3: moves (R80 to R82, R46 to R48) -/

/-- The special registers are those of the state in which the word issues. -/
def moveRow (s : State) : Instr → Option Row
  | .ptod d a => some ({ cls := 2, out := some (d, 1) }, fun v => one 2#5 (if v.x.preds.getLsbD a.toNat then 1#32 else 0#32))
  | .mov d a => some (form2 3 d a .any, fun v => (v.a, {}))
  | .cmov d a b => some (form2 3 d a .any, fun v => (if v.x.preds.getLsbD b.toNat then v.a else [], {}))
  | .tag d a t => some ({ form2 3 d a .any with rsv := t == 15#5 }, fun v => one t (w32 v.a))
  | .tagq d a => some (form2 3 d a .any, fun v => one 2#5 ((tagOf v.a).setWidth 32))
  | .winq d => some ({ cls := 3, out := some (d, 1) }, fun v => one 2#5 (BitVec.ofNat 32 v.x.wb))
  | .movs d sel => some ({ cls := 3, rsv := !selectorOk sel, out := some (d, 1) }, fun v =>
      one (specialTag sel.toNat) (BitVec.ofNat 32 (special s v.k v.x sel.toNat)))
  | .sext8 d a => some (form2 3 d a .any, fun v => one 1#5 (((w32 v.a).setWidth 8).signExtend 32))
  | .sext16 d a => some (form2 3 d a .any, fun v => one 1#5 (((w32 v.a).setWidth 16).signExtend 32))
  | .zext8 d a => some (form2 3 d a .any, fun v => one 2#5 (((w32 v.a).setWidth 8).setWidth 32))
  | .zext16 d a => some (form2 3 d a .any, fun v => one 2#5 (((w32 v.a).setWidth 16).setWidth 32))
  | .mov64 d a => some ({ cls := 3, a := some { n := a, w := 2 }, out := some (d, 2) }, fun v => (v.a, {}))
  | _ => none

/-! ## Class 0x5 (Tables 4.6 and 4.7, R57 to R60, R87, R88) -/

/-- A decoded operand, and a result with its flags. -/
def fl (l : List TVal) : FVal := f32.dec (w32 l).toNat
def dbl (l : List TVal) : FVal := f64.dec (w64 l).toNat
def oneF (r : FRes) : List TVal × Log := one 3#5 (BitVec.ofNat 32 r.1) r.2
def twoD (r : FRes) : List TVal × Log := two 11#5 12#5 (BitVec.ofNat 64 r.1) r.2

def ff (d a b : RegNo) (f : FVal → FVal → FRes) : Option Row := some (form3 5 d a b .f32 .f32, fun v => oneF (f (fl v.a) (fl v.b)))
def dd (d a b : RegNo) (f : FVal → FVal → FRes) : Option Row := some (formP3 5 d a b .f64, fun v => twoD (f (dbl v.a) (dbl v.b)))

def signed (x : BitVec 32) : FVal := .fin x.msb x.toInt.natAbs 0
def unsigned (x : BitVec 32) : FVal := .fin false x.toNat 0

def floatRow : Instr → Option Row
  | .fadd rm d a b => ff d a b (f32.add rm)
  | .fsub rm d a b => ff d a b fun x y => f32.add rm x y.negate
  | .fmul rm d a b => ff d a b (f32.mul rm)
  | .ffma rm d a b => some (form4 5 d a b .f32 .f32 .f32, fun v => oneF (f32.fma rm (fl v.a) (fl v.b) (fl v.d)))
  | .fmin d a b => some (form3 5 d a b .f32 .f32, fun v => oneF (f32.minmax false (w32 v.a).toNat (w32 v.b).toNat))
  | .fmax d a b => some (form3 5 d a b .f32 .f32, fun v => oneF (f32.minmax true (w32 v.a).toNat (w32 v.b).toNat))
  | .fabs d a => some (form2 5 d a .f32, fun v => oneF (f32.withSign (fun _ => false) (w32 v.a).toNat))
  | .fneg d a => some (form2 5 d a .f32, fun v => oneF (f32.withSign (fun n => !n) (w32 v.a).toNat))
  | .frnd rm d a => some (form2 5 d a .f32, fun v => oneF (f32.rint rm (w32 v.a).toNat))
  | .fcvtI32F32 d a => some (form2 5 d a .f32, fun v =>
      one 1#5 (BitVec.ofInt 32 (toIntSat (-(2 ^ 31)) (2 ^ 31 - 1) (fl v.a)).1) (toIntSat (-(2 ^ 31)) (2 ^ 31 - 1) (fl v.a)).2)
  | .fcvtN32F32 d a => some (form2 5 d a .f32, fun v =>
      one 2#5 (BitVec.ofInt 32 (toIntSat 0 (2 ^ 32 - 1) (fl v.a)).1) (toIntSat 0 (2 ^ 32 - 1) (fl v.a)).2)
  | .fcvtF32I32 d a => some (form2 5 d a .int, fun v => oneF (f32.conv .rn (signed (w32 v.a))))
  | .fcvtF32N32 d a => some (form2 5 d a .int, fun v => oneF (f32.conv .rn (unsigned (w32 v.a))))
  | .fcvtF16F32 d a => some (form2 5 d a .f32, fun v => one 4#5 (BitVec.ofNat 32 (f16.conv .rn (fl v.a)).1) (f16.conv .rn (fl v.a)).2)
  | .fcvtF32F16 d a => some (form2 5 d a (.one [4#5]), fun v => oneF (f32.conv .rn (f16.dec ((w32 v.a).setWidth 16).toNat)))
  | .fcvtBf16F32 d a => some (form2 5 d a .f32, fun v =>
      one 5#5 (BitVec.ofNat 32 (bf16.conv .rn (fl v.a)).1) (bf16.conv .rn (fl v.a)).2)
  | .fcvtF32Bf16 d a => some (form2 5 d a (.one [5#5]), fun v => oneF (f32.conv .rn (bf16.dec ((w32 v.a).setWidth 16).toNat)))
  | .fcvtF64F32 d a => some ({ form2 5 d a .f32 with out := some (d, 2) }, fun v => twoD (f64.conv .rn (fl v.a)))
  | .fcvtF32F64 d a => some ({ cls := 5, a := some { n := a, w := 2, acc := .f64 }, out := some (d, 1) }, fun v =>
      oneF (f32.conv .rn (dbl v.a)))
  | .dadd d a b => dd d a b (f64.add .rn)
  | .dsub d a b => dd d a b fun x y => f64.add .rn x y.negate
  | .dmul d a b => dd d a b (f64.mul .rn)
  | .dfma d a b => some ({ formP3 5 d a b .f64 with d := some { n := d, w := 2, acc := .f64 } }, fun v =>
      twoD (f64.fma .rn (dbl v.a) (dbl v.b) (dbl v.d)))
  | .dmin d a b => some (formP3 5 d a b .f64, fun v => twoD (f64.minmax false (w64 v.a).toNat (w64 v.b).toNat))
  | .dmax d a b => some (formP3 5 d a b .f64, fun v => twoD (f64.minmax true (w64 v.a).toNat (w64 v.b).toNat))
  | _ => none

/-! ## Class 0x6 (Table 4.8, R89 to R93) -/

/-- Element `i` of 16 bits, and of 8. -/
def h16 (x : BitVec 32) (i : Nat) : BitVec 16 := x.extractLsb' (16 * i) 16
def h8 (x : BitVec 32) (i : Nat) : BitVec 8 := x.extractLsb' (8 * i) 8

/-- Two element results, element 1 above element 0, with the causes of both. -/
def pack (t : Tag) (r0 r1 : FRes) : List TVal × Log := one t (BitVec.ofNat 16 r1.1 ++ BitVec.ofNat 16 r0.1) (r0.2.join r1.2)

def hh (f : Fmt) (t : Tag) (d a b : RegNo) (g : FVal → FVal → FRes) : Option Row :=
  some (form3 6 d a b (.one [t]) (.one [t]), fun v =>
    pack t (g (f.dec (h16 (w32 v.a) 0).toNat) (f.dec (h16 (w32 v.b) 0).toNat))
      (g (f.dec (h16 (w32 v.a) 1).toNat) (f.dec (h16 (w32 v.b) 1).toNat)))

def hfma (f : Fmt) (t : Tag) (d a b : RegNo) : Option Row :=
  some (form4 6 d a b (.one [t]) (.one [t]) (.one [t]), fun v =>
    pack t (f.fma .rn (f.dec (h16 (w32 v.a) 0).toNat) (f.dec (h16 (w32 v.b) 0).toNat) (f.dec (h16 (w32 v.d) 0).toNat))
      (f.fma .rn (f.dec (h16 (w32 v.a) 1).toNat) (f.dec (h16 (w32 v.b) 1).toNat) (f.dec (h16 (w32 v.d) 1).toNat)))

def unpack (f : Fmt) (t : Tag) (i : Nat) (d a : RegNo) : Option Row :=
  some (form2 6 d a (.one [t]), fun v => oneF (f32.conv .rn (f.dec (h16 (w32 v.a) i).toNat)))

/-- A narrow conversion (R91): container `i` of d takes the code, the other containers stay. -/
def narrow (f : NFmt) (k i : Nat) (m : RMode) (d a : RegNo) : Option Row :=
  some (narrowForm f k i d a, fun v =>
    let mask := (BitVec.allOnes 32 >>> (32 - f.cbits)) <<< (f.cbits * i)
    one (f.tagOf k) ((w32 v.d &&& ~~~mask) ||| (BitVec.ofNat 32 (f.enc m (fl v.a)).1 <<< (f.cbits * i) &&& mask)) (f.enc m (fl v.a)).2)

/-- The format registers are those of the launch (R61). -/
def packedRow (s : State) : Instr → Option Row
  | .hadd2F16 d a b => hh f16 4#5 d a b (f16.add .rn)
  | .hadd2Bf16 d a b => hh bf16 5#5 d a b (bf16.add .rn)
  | .hmul2F16 d a b => hh f16 4#5 d a b (f16.mul .rn)
  | .hmul2Bf16 d a b => hh bf16 5#5 d a b (bf16.mul .rn)
  | .hfma2F16 d a b => hfma f16 4#5 d a b
  | .hfma2Bf16 d a b => hfma bf16 5#5 d a b
  | .pkhF16 d a b => some (form3 6 d a b .f32 .f32, fun v => pack 4#5 (f16.conv .rn (fl v.a)) (f16.conv .rn (fl v.b)))
  | .pkhBf16 d a b => some (form3 6 d a b .f32 .f32, fun v => pack 5#5 (bf16.conv .rn (fl v.a)) (bf16.conv .rn (fl v.b)))
  | .unpkhF16Lo d a => unpack f16 4#5 0 d a
  | .unpkhF16Hi d a => unpack f16 4#5 1 d a
  | .unpkhBf16Lo d a => unpack bf16 5#5 0 d a
  | .unpkhBf16Hi d a => unpack bf16 5#5 1 d a
  | .idp4I8 d a b => some (form4 6 d a b (.one [7#5]) (.one [7#5]) .int, fun v =>
      let p := fun i => (h8 (w32 v.a) i).signExtend 32 * (h8 (w32 v.b) i).signExtend 32
      one 1#5 (w32 v.d + p 0 + p 1 + p 2 + p 3))
  | .idp4N8 d a b => some (form4 6 d a b (.one [8#5]) (.one [8#5]) .int, fun v =>
      let p := fun i => (h8 (w32 v.a) i).setWidth 32 * (h8 (w32 v.b) i).setWidth 32
      one 2#5 (w32 v.d + p 0 + p 1 + p 2 + p 3))
  | .idp2I16 d a b => some (form4 6 d a b (.one [6#5]) (.one [6#5]) .int, fun v =>
      let p := fun i => (h16 (w32 v.a) i).signExtend 32 * (h16 (w32 v.b) i).signExtend 32
      one 1#5 (w32 v.d + p 0 + p 1))
  | .ncvtRn d a k sl => narrow (s.curFmt k.toNat) k.toNat sl.toNat .rn d a
  | .ncvtRz d a k sl => narrow (s.curFmt k.toNat) k.toNat sl.toNat .rz d a
  | .nunp d a k sl => let f := s.curFmt k.toNat
      some ({ form2 6 d a (.one [f.tagOf k.toNat]) with rsv := decide (f.slots ≤ sl.toNat) }, fun v =>
        oneF (f32.conv .rn (f.dec ((w32 v.a >>> (f.cbits * sl.toNat)).toNat % 2 ^ f.cbits))))
  | .nscl d a b => some (form3 6 d a b .f32 (.one [9#5]), fun v =>
      if h8 (w32 v.b) 0 = 0xFF#8 then oneF (f32.nanRes false) else oneF (f32.conv .rn (scaleVal (fl v.a) (h8 (w32 v.b) 0).toNat)))
  | .scx d a im => some (form2 6 d a (.one [9#5]), fun v =>
      oneF (f32.conv .rn (scaleVal (.fin false 1 0) (h8 (w32 v.a) im.toNat).toNat)))
  | _ => none

/-! ## Class 0x7 (Table 4.10, R94 to R100) -/

/-- A word that a completion flag may defer: its flag field, its operands and its result. -/
abbrev MRow := Bool × WordForm × (Vals → List TVal × Log)

def ln (l : List TVal) : LVal := lnsDec (w32 l).toNat
def oneL (r : FRes) : List TVal × Log := one 10#5 (BitVec.ofNat 32 r.1) r.2

def mathRow : Instr → Option MRow
  | .lncv fb d a => some (fb, form2 7 d a .f32, fun v => oneL (lnsOfF32 (fl v.a)))
  | .lnbk fb d a => some (fb, form2 7 d a .lns, fun v => oneF (f32OfLns (ln v.a)))
  | .lexp fb d a => some (fb, form2 7 d a .f32, fun v => oneL (lnsExp (fl v.a)))
  | .llog fb d a => some (fb, form2 7 d a .lns, fun v => oneF (f32Log (ln v.a)))
  | .lmul fb d a b => some (fb, form3 7 d a b .lns .lns, fun v => oneL (lnsMul (ln v.a) (ln v.b)))
  | .ldiv fb d a b => some (fb, form3 7 d a b .lns .lns, fun v => oneL (lnsDiv (ln v.a) (ln v.b)))
  | .lsqr fb d a => some (fb, form2 7 d a .lns, fun v => oneL (lnsSqrt (ln v.a)))
  | .lpow fb d a b => some (fb, form3 7 d a b .lns .int, fun v => oneL (lnsPow (ln v.a) (w32 v.b).toInt))
  | .ladd fb d a b => some (fb, form3 7 d a b .lns .lns, fun v => oneL (lnsAdd (ln v.a) (ln v.b)))
  | .lsub fb d a b => some (fb, form3 7 d a b .lns .lns, fun v => oneL (lnsAdd (ln v.a) (ln v.b).negate))
  | .fdiv fb d a b => some (fb, form3 7 d a b .f32 .f32, fun v => oneF (f32.div (fl v.a) (fl v.b)))
  | .fsqrt fb d a => some (fb, form2 7 d a .f32, fun v => oneF (f32.sqrt (fl v.a)))
  | .ddiv fb d a b => some (fb, formP3 7 d a b .f64, fun v => twoD (f64.div (dbl v.a) (dbl v.b)))
  | .dsqrt fb d a => some (fb, { cls := 7, a := some { n := a, w := 2, acc := .f64 }, out := some (d, 2) }, fun v =>
      twoD (f64.sqrt (dbl v.a)))
  | _ => none

/-! ## A word of the register classes -/

/-- The destination of a word takes the result (R28, R71). -/
def putOut (sp : WordForm) (v : Vals) (l : List TVal) : Exec Unit :=
  match sp.out with
  | some o => writeVals v.k v.x o.1 l
  | none => pure ()

/-- What ends a word: its log entries, then the next word of the clause or the next clause. -/
def onward (v : Vals) (len : Nat) (lg : Log) (s : State) : State :=
  (alogFor v.k v.k.tid v.x.cpc lg s).modStrand v.k (·.advance len)

/-- Every word of a table completes where its operands are read (R71, steps 1 to 5) and its destination takes the result: the result is
the table's, then come the log entries, then the next word. -/
def Gives (row : State → Instr → Option Row) : Prop :=
  ∀ (i : Instr) (sp : WordForm) (f : Vals → List TVal × Log) (s s1 s2 : State) (v : Vals),
    row s i = some (sp, f) → readWord sp s = .ok (v, s1) → putOut sp v (f v).1 s1 = .ok ((), s2) →
    exec i s = .next (onward v sp.len (f v).2 s2)

/-- A word that writes a predicate needs no room: it completes where its operands are read. -/
def GivesPred (row : Instr → Option PRow) : Prop :=
  ∀ (i : Instr) (sp : WordForm) (p : BitVec 7) (f : Vals → Bool × Log) (s s1 : State) (v : Vals),
    row i = some (sp, p, f) → readWord sp s = .ok (v, s1) →
    exec i s = .next (onward v sp.len (f v).2 (s1.modStrand v.k fun x =>
      { x with preds := BitVec.ofNat 128 (setBit x.preds.toNat p.toNat (f v).1) }))

/-- A completion flag with room for one more operation, or none selected (R25). -/
def FlagRoom (x : Strand) (fb : Bool) : Prop := ∀ f, x.selFlag fb = some f → lget x.flags f 0 < 15

/-- The operation that a flagged word leaves behind (R25, R26). -/
def pendOf (s : State) (k : StrandKey) (x : Strand) (f : Nat) (len : Nat) (ds : List Dest) (lg : Log) (committed : Bool) : Pend :=
  { id := s.nextId, owner := k, flag := some f, committed := committed, cpc := x.cpc, fpc := x.pc, len := len, kind := .ready,
    places := [], tags := [], dests := ds, invl := lg.invl, divz := lg.divz, ovfl := lg.ovfl, unfl := lg.unfl }

/-- Leaving it: the flag counts it and the strand goes on. -/
def leave (p : Pend) (f : Nat) (s : State) : State :=
  { s with nextId := s.nextId + 1, pend := s.pend ++ [p] }.modStrand p.owner fun x =>
    { x with flags := lmod x.flags f (· + 1) }.advance p.len

/-- A long-latency word without a flag gives its result at once; with one, its result waits in the operation (R24, R25, R94). -/
def GivesLong (row : Instr → Option MRow) : Prop :=
  ∀ (i : Instr) (fb : Bool) (sp : WordForm) (f : Vals → List TVal × Log) (o : RegNo × Nat) (s s1 s2 : State) (v : Vals),
    row i = some (fb, sp, f) → sp.out = some o → readWord sp s = .ok (v, s1) →
    (v.x.selFlag fb = none → writeVals v.k v.x o.1 (f v).1 s1 = .ok ((), s2) → exec i s = .next (onward v sp.len (f v).2 s2)) ∧
    ∀ g pl, v.x.selFlag fb = some g → lget v.x.flags g 0 < 15 → places v.k v.x o.1 o.2 s1 = .ok (pl, s2) →
      exec i s = .next (leave (pendOf s2 v.k v.x g sp.len (destsOf pl (f v).1) (f v).2 false) g s2)

/-! ## Class 0x4 (Table 4.4, R22, R23, R83 to R86) -/

/-- Where a relative transfer goes: 4 × the immediate beyond the clause (R23). -/
def relTo (v : Vals) (im : BitVec 14) : BitVec 57 := v.x.cpc + (im.signExtend 57 <<< 2)
/-- Where a transfer through a register pair goes, bits [1:0] ignored (R15, R83). -/
def pairTo (v : Vals) : BitVec 57 := (w64 v.a).setWidth 57 &&& ~~~3#57
/-- The following clause header, and as a pair (R23, R83). -/
def nextOf (v : Vals) : BitVec 57 := v.x.cpc + (4#57 * ((v.x.hdr.extractLsb' 8 4).setWidth 57 + 2#57))
def linkOf (v : Vals) : List TVal := (two 13#5 14#5 ((nextOf v).setWidth 64)).1

abbrev TRow := WordForm × (Vals → List TVal × BitVec 57)

def xfer (a : Option RegNo) (d : Option RegNo) : WordForm :=
  { cls := 4, transfer := true, a := a.map fun a => { n := a, w := 2, acc := .i64 }, out := d.map fun d => (d, 2) }

def xferRow : Instr → Option TRow
  | .bra im => some (xfer none none, fun v => ([], relTo v im))
  | .brp d im => some (xfer none none, fun v => ([], if v.x.preds.getLsbD d.toNat then relTo v im else nextOf v))
  | .brn d im => some (xfer none none, fun v => ([], if v.x.preds.getLsbD d.toNat then nextOf v else relTo v im))
  | .jmp a => some (xfer (some a) none, fun v => ([], pairTo v))
  | .call d im => some (xfer none (some d), fun v => (linkOf v, relTo v im))
  | .callr d a => some (xfer (some a) (some d), fun v => (linkOf v, pairTo v))
  | .ret a => some (xfer (some a) none, fun v => ([], pairTo v))
  | _ => none

/-- A strand whose word waits from cycle `now` on, or since it began to: a word on a queue that was tried again counts as having waited all
along (R119, R124). -/
def stays (b : Block) (now : Nat) (x : Strand) : Strand :=
  { x with blk := b, blkAt := if x.blk = b ∨ (x.blk = .again ∧ b = .queue) then x.blkAt else now }

/-- The strand stands at a clause header not yet entered. -/
def atHeader (a : BitVec 57) (x : Strand) : Strand :=
  { x with cpc := a, pc := a, phase := .header, inside := false, blk := .none, redo := x.redo && x.inHandler }

end Sys2Proof.Claims

open Sys2Proof Sys2Proof.Machine

/-- The integer words of class 0x0 (R74, R75, Table 4.1). -/
def Obligations.IntegerWords : Prop := Claims.Gives fun _ => Claims.intRow

/-- The logic, shift, field, count and permutation words of class 0x1 (R76 to R78, Table 4.2). -/
def Obligations.LogicWords : Prop := Claims.Gives fun _ => Claims.logicRow

/-- The words that write a predicate: compares, predicate logic, PSET and DTOP (R79, R80, Table 4.3). -/
def Obligations.CompareWords : Prop := Claims.GivesPred Claims.predRow

/-- The moves of class 0x3 and PTOD, MOVS with every special register of Table 3.3 (PRIO is the record's, log 54); and WIN, which sets the
window base inside the allocation and takes WINF beyond it (R46 to R48, R80 to R82). -/
def Obligations.MoveWords : Prop :=
  Claims.Gives Claims.moveRow ∧
    ∀ (im : BitVec 7) (s s1 : State) (v : Vals), readWord { cls := 3 } s = .ok (v, s1) →
      (im.toNat * 8 < v.x.regs.length →
        exec (.win im) s = .next ((s1.modStrand v.k fun x => { x with wb := im.toNat * 8 }).modStrand v.k (·.advance 1))) ∧
      (v.x.regs.length ≤ im.toNat * 8 →
        exec (.win im) s = .next (takeTrap s.cur .word { cause := .winf } { s with tlb := s1.tlb, free := s1.free, dies := s1.dies }))

/-- The floating-point words of class 0x5, each rounded once (R57 to R60, R87, R88, Tables 4.6 and 4.7). -/
def Obligations.FloatWords : Prop := Claims.Gives fun _ => Claims.floatRow

/-- The packed words of class 0x6 (R89 to R93, Table 4.8). -/
def Obligations.PackedWords : Prop := Claims.Gives Claims.packedRow

/-- The words of class 0x7, with a completion flag and without one (R24, R25, R94 to R100, Table 4.10). The elementary functions of lns
stand in the model's fixed point (log 8). -/
def Obligations.MathWords : Prop := Claims.GivesLong Claims.mathRow

/-- The transfers: the registers that a call writes, and the clause header that the strand goes to (R22, R23, R83). -/
def Obligations.TransferWords : Prop :=
  ∀ (i : Instr) (sp : WordForm) (f : Vals → List TVal × BitVec 57) (s s1 s2 : State) (v : Vals),
    Claims.xferRow i = some (sp, f) → readWord sp s = .ok (v, s1) → Claims.putOut sp v (f v).1 s1 = .ok ((), s2) →
    exec i s = .next (s2.modStrand v.k (Claims.atHeader (f v).2))

/-- RGN commits at its own word, and has no effect where the strand resumes at its point; NOP and YIELD go on, WAITF goes on once its flags
are clear and waits until then, TRET ends the handler, EXIT ends the strand once no flag is pending, TKILL ends the group or the launch with
its event (R83 to R86, R108, R109, R119). -/
def Obligations.ControlWords : Prop :=
  ∀ (s s1 : State) (v : Vals),
    (readWord { cls := 4 } s = .ok (v, s1) →
      exec .nop s = .next (s1.modStrand v.k (·.advance 1)) ∧
      (v.x.again = true → exec .rgn s = .next (s1.modStrand v.k (·.advance 1))) ∧
      (v.x.again = false → s1.barWaiting v.k = false → exec .rgn s = .next ((commitAt v.k (v.x.cpc, v.x.pc) none s1).modStrand v.k (·.advance 1))) ∧
      exec .yield s = .next ((s1.modStrand v.k (·.advance 1)).modStrand v.k fun x => { x with blk := .yield, blkAt := s1.cycle }) ∧
      ∀ im : BitVec 12,
        ((∀ n, n < 12 → im.getLsbD n = true → lget v.x.flags n 0 = 0) →
          exec (.waitf im) s = .next (s1.modStrand v.k (·.advance 1))) ∧
        ((∃ n, n < 12 ∧ im.getLsbD n = true ∧ lget v.x.flags n 0 ≠ 0) →
          exec (.waitf im) s = .next (s.modStrand s.cur (Claims.stays .flag s.cycle)))) ∧
    (readWord { cls := 4, transfer := true } s = .ok (v, s1) →
      (∀ m, v.x.inHandler = true → exec (.tret m) s = .next (s1.modStrand v.k (·.tret (m == 1#1)))) ∧
      ((∀ n, n < 12 → lget v.x.flags n 0 = 0) → exec .exit s = .next (endStrand v.k s1)) ∧
      (∀ l, s1.launch v.k.grp.launch = some l →
        exec (.tkill 0#1) s = .next (endGroup v.k.grp false (logPlain l.ctx 0x04 0 l.id v.k.grp.glin 0 s1)) ∧
        exec (.tkill 1#1) s = .next (killLaunch l.id (logPlain l.ctx 0x04 1 l.id v.k.grp.glin 0 s1))) ∧
      ∀ im, exec (.trap im) s = .next (takeTrap s.cur .word { cause := .trap, code := im.toNat }
        { s with tlb := s1.tlb, free := s1.free, dies := s1.dies }))

namespace Sys2Proof.Claims

open Sys2Proof Sys2Proof.Machine

/-! ## Operands and checks (R28 to R35, R51, R71) -/

/-- Data registers of a strand from field `n` on (R28, R29). -/
def window (x : Strand) (n : RegNo) (w : Nat) : List TVal := (List.range w).map fun i => lget x.regs (x.wb + n.toNat + i) ⟨0#32, 0#5⟩

/-- What an operand that names no queue port gives: its registers, or zeros with a tag that it accepts (R28, R31). -/
def plain (x : Strand) (o : Opnd) : List TVal :=
  if o.n.toNat < 120 then window x o.n o.w else (List.range o.w).map fun i => ⟨0#32, o.acc.zrTag i⟩

def plainOpt (x : Strand) (o : Option Opnd) : List TVal := (o.map (plain x)).getD []

/-- An operand that names a data register or `zr`. -/
def isPlain (o : Option Opnd) : Prop := ∀ p, o = some p → p.n.toNat < 120 ∨ p.n = 126#7

/-- The tag check of an operand (R51, R52): every register of it carries a tag of its set; on a pair the low tag, then the high one. -/
def carries (o : Option Opnd) (l : List TVal) : Prop :=
  ∀ p, o = some p → ∀ i v, l[i]? = some v →
    match p.acc with
    | .any => True
    | .one ts => v.tag ∈ ts
    | .pair lo hi => v.tag = if i = 0 then lo else hi

/-- The words that a class lets a strand use (Table 2.5). -/
def admits (cls : Nat) (k : StrandKind) : Prop :=
  match k with
  | .a => cls ∉ [5, 6, 7, 11]
  | .x => cls ∉ [9, 10, 12, 13]

/-! ## Traps (R104 to R109, Table 5.2) -/

/-- The addresses that a fault record holds, and the word with its literal. -/
def faultPc (x : Strand) (fa : FaultAt) (t : TrapInfo) : Nat :=
  match fa with
  | .fetch => t.va
  | .header => x.cpc.toNat
  | .word => x.pc.toNat

def faultInsn (x : Strand) (fa : FaultAt) : BitVec 32 × BitVec 32 :=
  match fa, x.word with
  | .word, some w => (w, if isXForm w then x.litWord.getD 0#32 else 0#32)
  | _, _ => (0#32, 0#32)

def lo (n : Nat) : BitVec 32 := BitVec.ofNat 32 n
def hi (n : Nat) : BitVec 32 := BitVec.ofNat 32 (n / 2 ^ 32)

def flagBit (b : Bool) (n : Nat) : BitVec 32 := if b then 1#32 <<< n else 0#32

/-- The sixteen words of Table 5.2. -/
def record (k : StrandKey) (x : Strand) (fa : FaultAt) (t : TrapInfo) : List (BitVec 32) :=
  [lo t.cause.code ||| flagBit (k.kind == .x) 8 ||| flagBit x.inHandler 9 ||| (lo t.code <<< 16),
   lo k.tid, lo k.grp.launch, hi k.grp.launch, lo k.grp.glin, hi k.grp.glin, lo (faultPc x fa t), hi (faultPc x fa t),
   lo x.cpc.toNat, hi x.cpc.toNat, lo (t.va % 2 ^ 57), hi (t.va % 2 ^ 57), (faultInsn x fa).1, (faultInsn x fa).2,
   match t.slot with
   | some (sl, e) => lo sl + (if t.slv then 256#32 else 0#32) + (lo (e / 2 ^ 32 % 256) <<< 16)
   | none => 0#32,
   match t.slot with
   | some (_, e) => lo e
   | none => 0#32]

def handlerOf (k : StrandKey) (l : Launch) : Nat :=
  match k.kind with
  | .a => l.rc.aHandler
  | .x => l.rc.xHandler

/-- The slot of FAULT_AREA that a strand writes (R105). -/
def faultSlot (k : StrandKey) (l : Launch) : Nat :=
  l.rc.faultArea + 128 * k.tid + match k.kind with
    | .a => 0
    | .x => 64

/-- The words whose readings decide all: their forms. -/
def formOf (s : State) (i : Instr) : Option WordForm :=
  ((intRow i).map (·.1)).orElse fun _ => ((logicRow i).map (·.1)).orElse fun _ => ((predRow i).map (·.1)).orElse fun _ =>
  ((moveRow s i).map (·.1)).orElse fun _ => ((floatRow i).map (·.1)).orElse fun _ => ((packedRow s i).map (·.1)).orElse fun _ =>
  ((mathRow i).map (·.2.1)).orElse fun _ => (xferRow i).map (·.1)

/-! ## Class 0x8 (Tables 6.1 and 6.2, R125 to R132) -/

/-- What a completed instance gives a participant. -/
def vals (l : List TVal) (lg : Log := {}) : CircRes := .vals l lg

/-- Operand a of place `i`, or an identity where no thread takes part. -/
def place (x : CircIn) (ident : BitVec 32) (i : Nat) : BitVec 32 := ((x.at_ i).map fun y => y.a.bits).getD ident
def vote (x : CircIn) (ident : Bool) (i : Nat) : Bool := ((x.at_ i).map fun y => y.pa).getD ident

/-- The value of another place, or zero with the tag of the own operand. -/
def shuffle (x : CircIn) (i : Nat) : CircRes := vals [((x.at_ i).map fun y => y.a).getD ⟨0#32, x.own.a.tag⟩]

/-- A word with bit `i` set where a condition holds of place `i`. -/
def mask32 (f : Nat → Bool) : BitVec 32 := (List.range 32).foldl (fun w i => if f i then w ||| (1#32 <<< i) else w) 0#32

def sumTo (f : Nat → BitVec 32) (n : Nat) : BitVec 32 := (List.range n).foldl (fun t i => t + f i) 0#32
def leastOf (f : Nat → BitVec 32) : BitVec 32 := (List.range 32).foldl (fun m i => if (f i).slt m then f i else m) 0x7FFFFFFF#32
def greatestOf (f : Nat → BitVec 32) : BitVec 32 := (List.range 32).foldl (fun m i => if m.slt (f i) then f i else m) 0x80000000#32

/-- One f32 addition of partial sums: the result, and every cause that it depends on (R127, R129). -/
def plus (x y : FRes) : FRes :=
  let r := f32.add .rn (f32.dec x.1) (f32.dec y.1)
  (r.1, (x.2.join y.2).join r.2)

/-- The tree over 32 places: at each level neighbours are added (R129). -/
def tree (f : Nat → FRes) : Nat → Nat → FRes
  | 0, i => f i
  | n + 1, i => plus (tree f n (2 * i)) (tree f n (2 * i + 1))

/-- The scan: at level `n` place `i` takes the partial sum 2^n places below it (R129). -/
def scan (f : Nat → FRes) : Nat → Nat → FRes
  | 0, i => f i
  | n + 1, i => if 2 ^ n ≤ i then plus (scan f n (i - 2 ^ n)) (scan f n i) else scan f n i

def f32At (x : CircIn) (i : Nat) : FRes := ((place x 0x80000000#32 i).toNat, {})

/-- Table 6.1: the form of the word, its predicate operand, and what each participant gets. -/
def circRow : Instr → Option (Bool × WordForm × Option RegNo × (CircIn → CircRes))
  | .xshf fb d a b => some (fb, form3 8 d a b .any .int, none, fun x => shuffle x ((x.own.b.bits.setWidth 5).toNat))
  | .xbfly fb d a m => some (fb, form2 8 d a .any, none, fun x => shuffle x (BitVec.ofNat 5 x.own.tid ^^^ m).toNat)
  | .xbcst fb d a i => some (fb, form2 8 d a .any, none, fun x => shuffle x i.toNat)
  | .xvoteAny fb _ a => some (fb, { cls := 8 }, some a, fun x => .pred ((List.range 32).any (vote x false)))
  | .xvoteAll fb _ a => some (fb, { cls := 8 }, some a, fun x => .pred ((List.range 32).all (vote x true)))
  | .xballot fb d a => some (fb, { cls := 8, out := some (d, 1) }, some a, fun x => vals [⟨mask32 (vote x false), 2#5⟩])
  | .xredAddI32 fb d a => some (fb, form2 8 d a .int, none, fun x => vals [⟨sumTo (place x 0#32) 32, x.own.a.tag⟩])
  | .xredAddF32 fb d a => some (fb, form2 8 d a .f32, none, fun x =>
      vals [⟨BitVec.ofNat 32 (tree (f32At x) 5 0).1, 3#5⟩] (tree (f32At x) 5 0).2)
  | .xredMinI fb d a => some (fb, form2 8 d a .int, none, fun x => vals [⟨leastOf (place x 0x7FFFFFFF#32), 1#5⟩])
  | .xredMaxI fb d a => some (fb, form2 8 d a .int, none, fun x => vals [⟨greatestOf (place x 0x80000000#32), 1#5⟩])
  | .xscanAddI32 fb d a => some (fb, form2 8 d a .int, none, fun x =>
      vals [⟨sumTo (place x 0#32) (x.own.tid % 32 + 1), x.own.a.tag⟩])
  | .xscanAddF32 fb d a => some (fb, form2 8 d a .f32, none, fun x =>
      vals [⟨BitVec.ofNat 32 (scan (f32At x) 5 (x.own.tid % 32)).1, 3#5⟩] (scan (f32At x) 5 (x.own.tid % 32)).2)
  | .xmatch fb d a => some (fb, form2 8 d a .any, none, fun x =>
      vals [⟨mask32 fun i => ((x.at_ i).map fun y => y.a.bits == x.own.a.bits).getD false, 2#5⟩])
  | _ => none

/-- The sequence of a strand kind (R125). -/
def seqOf : StrandKind → RvSeq
  | .a => .a
  | .x => .x

/-- The arrival of a word (R126). -/
def arrivalOf (v : Vals) (sp : WordForm) (pa : Option RegNo) (w : BitVec 32) : Arrival :=
  { tid := v.k.tid, word := w, lit := 0#32, a := v.a.headD ⟨0#32, 0#5⟩, b := v.b.headD ⟨0#32, 0#5⟩,
    pa := (pa.map v.x.pred).getD false, pops := sp.pops v.k.kind }

/-- The strand arrived and held, its arrival the last of the instance. -/
def held (v : Vals) (ci : Machine.Circle) (a : Arrival) (s : State) : State :=
  (s.modGroup v.k.grp fun y => { y with
      circ := tset y.circ (v.k.tid / 32, seqOf v.k.kind) { ci with arr := ci.arr ++ [a] } }).modStrand v.k fun x =>
    { x with phase := .arrived (seqOf v.k.kind), blk := .none }

/-- The room for the result of a word that is held: a data register, `zr` or a predicate needs none, a port a free entry. -/
def resultRoom (s : State) (k : StrandKey) (sp : WordForm) : Prop :=
  ∀ o q, sp.out = some o → pushPort k.kind o.1.toNat = some q →
    ∃ t, s.thread k.thread = some t ∧ (s.deadPort k q = true ∨ (t.q q).room o.2 = true)

/-! ## Barriers (R130 to R135, R224, R225) -/

/-- The barrier words: flag, whether they wait, whether of the gang, count register and number. -/
def barRow : Instr → Option (Bool × Bool × Bool × RegNo × BitVec 7)
  | .bwait fb a im => some (fb, true, false, a, im)
  | .barv a im => some (false, false, false, a, im)
  | .gbar fb a im => some (fb, true, true, a, im)
  | .gbarv a im => some (false, false, true, a, im)
  | _ => none

/-- The numbers that a barrier word may name here, and its greatest count (R130, R225). -/
def barNumOk (s : State) (gang : Bool) (im : BitVec 7) : Bool :=
  if gang then decide (im.toNat < 8) && s.curGang else decide (im.toNat < s.curBarriers)
def barLimit (gang : Bool) : Nat := if gang then 131072 else 4096

def barForm (ok : Bool) (a : RegNo) : WordForm := { cls := 8, rsv := !ok, a := some { n := a, acc := .int } }

/-- The strand waits for a generation: under its flag, or inside the word. -/
def waitOp (v : Vals) (fb gang : Bool) (num gen : Nat) (s : State) : Pend :=
  { id := s.nextId, owner := v.k, flag := v.x.selFlag fb, committed := false, cpc := v.x.cpc, fpc := v.x.pc, len := 1,
    kind := .bar gang num gen, places := [], tags := [], dests := [], invl := false, divz := false, ovfl := false, unfl := false }

def awaits (v : Vals) (fb gang : Bool) (num gen : Nat) (s : State) : State :=
  { s with nextId := s.nextId + 1, pend := s.pend ++ [waitOp v fb gang num gen s] }.modStrand v.k fun x =>
    match v.x.selFlag fb with
    | some f => { x with flags := lmod x.flags f (· + 1) }.advance 1
    | none => { x with phase := .sync s.nextId, blk := .none }

/-- A barrier after `n` arrivals that each bring the same count (Table 6.2). -/
def arrivals (b : Bar) (count : Nat) : Nat → Bar
  | 0 => b
  | n + 1 => (arrivals b count n).arrive count

def bqryRow (s : State) : Instr → Option Row
  | .bqryBarrier d im => some ({ cls := 8, rsv := !decide (im.toNat < s.curBarriers), out := some (d, 1) }, fun v =>
      let b := ((s.group v.k.grp).map fun g => lget g.bars im.toNat Bar.zero)
      one 2#5 ((b.map fun b => (BitVec.ofNat 32 b.gen <<< 16) ||| flagBit b.collecting 15 ||| (BitVec.ofNat 32 b.arr &&& 0xFFF#32)).getD 0#32))
  | _ => none

end Sys2Proof.Claims

/-- What an operand reads (R28 to R31, R85, R122): registers of the window; zeros with a tag that it accepts for `zr`; and for a queue
port the oldest entries, which are popped, or a block where they are not all there, or QDLK where the port is empty and the strand that
pushes it has ended. -/
def Obligations.OperandRead : Prop :=
  ∀ (k : StrandKey) (x : Strand) (o : Opnd) (s : State),
    (o.n.toNat < 120 → readOpnd k x o s = .ok (Claims.window x o.n o.w, s)) ∧
    (o.n = 126#7 → readOpnd k x o s = .ok ((List.range o.w).map fun i => ⟨0#32, o.acc.zrTag i⟩, s)) ∧
    ∀ q t, popPort k.kind o.n.toNat = some q → s.thread k.thread = some t →
      (∀ l : List TVal, l.length = o.w → (∀ i v, l[i]? = some v → (t.q q).front i = some v) →
        readOpnd k x o s = .ok (l, s.modQ k.thread q fun y => { y with q := y.q + o.w })) ∧
      ((∃ i, i < o.w ∧ (t.q q).front i = none) →
        ((t.q q).q < (t.q q).p ∨ ∀ p, pusherOf q = some p → s.hasEnded { k with kind := p } = false) →
        readOpnd k x o s = .error (.block .queue)) ∧
      (0 < o.w → (t.q q).p ≤ (t.q q).q → ∀ p, pusherOf q = some p → s.hasEnded { k with kind := p } = true →
        readOpnd k x o s = .error (.trap { cause := .qdlk } s))

/-- What a destination does (R28 to R31, R44, R85, R122): registers of the window take the values, and what a discard would put back there
is kept no longer; `zr` discards them, and a queue port takes them all together, or waits for room, or discards them where the strand that
pops it has ended. -/
def Obligations.OperandWrite : Prop :=
  ∀ (k : StrandKey) (x y : Strand) (n : RegNo) (l : List TVal) (s : State), s.strand k = some y →
    (n.toNat < 120 → ∃ t z, writeVals k x n l s = .ok ((), t) ∧ t.strand k = some z ∧
      (∀ i v, l[i]? = some v → x.wb + n.toNat + i < y.regs.length → z.regs[x.wb + n.toNat + i]? = some v) ∧
      (∀ j, j < x.wb + n.toNat ∨ x.wb + n.toNat + l.length ≤ j → z.regs[j]? = y.regs[j]?) ∧
      (∀ e, e ∈ z.prov ↔ e ∈ y.prov ∧ (e.reg < x.wb + n.toNat ∨ x.wb + n.toNat + l.length ≤ e.reg)) ∧
      { z with regs := y.regs, prov := y.prov } = y ∧ (∀ j, j ≠ k → t.strand j = s.strand j) ∧ { t with strands := s.strands } = s) ∧
    (n = 126#7 → writeVals k x n l s = .ok ((), s)) ∧
    ∀ q t, pushPort k.kind n.toNat = some q → s.thread k.thread = some t → l ≠ [] →
      (s.deadPort k q = true → writeVals k x n l s = .ok ((), s)) ∧
      (s.deadPort k q = false → (t.q q).s = 0 → (t.q q).p - (t.q q).c + l.length ≤ (t.q q).depth →
        writeVals k x n l s = .ok ((), s.modQ k.thread q fun y => { y with ents := y.ents ++ l.map some, p := y.p + l.length })) ∧
      (s.deadPort k q = false → (t.q q).s = 0 → (t.q q).depth < (t.q q).p - (t.q q).c + l.length →
        writeVals k x n l s = .error (.block .queue))

/-- The checks of a word before its effect: the order of its encoding and window faults, which pop nothing, and where no operand
names a port, FTAG or its values (R29 to R31, R35, R51, R71). -/
def Obligations.WordChecks : Prop :=
  ∀ (sp : WordForm) (s : State) (x : Strand), s.strand s.cur = some x →
    (∀ c, sp.encFault s.cur.kind x = some c → readWord sp s = .error (.trap { cause := c } s)) ∧
    (¬Claims.admits sp.cls s.cur.kind → sp.cls < 16 → sp.encFault s.cur.kind x = some .istr) ∧
    (Claims.admits sp.cls s.cur.kind → sp.cls < 16 →
      (sp.transfer = true ∧ x.isLast sp.len = false → sp.encFault s.cur.kind x = some .icls) ∧
      (sp.transfer = false ∨ x.isLast sp.len = true →
        (sp.rsv = true → sp.encFault s.cur.kind x = some .irsv) ∧
        (∀ o, o ∈ sp.ins → (o.n.toNat < 120 ∨ o.n = 127#7) → o.n.toNat % o.w ≠ 0 → sp.encFault s.cur.kind x = some .irsv) ∧
        (sp.rsv = false → (∀ o, o ∈ sp.ins → alignedReg o.n o.w = true) → (∀ o, sp.out = some o → alignedReg o.1 o.2 = true) →
          ((∃ o, o ∈ sp.ins ∧ o.n = 127#7) → sp.encFault s.cur.kind x = some .iqpt) ∧
          ((∀ o, o ∈ sp.ins → canRead s.cur.kind o.n = true) → (∀ o, sp.out = some o → canWrite s.cur.kind o.1 = true) →
            (∀ o, o ∈ sp.ins → o.n.toNat < 120 → x.regs.length < x.wb + o.n.toNat + o.w →
              sp.encFault s.cur.kind x = some .winf) ∧
            ((∀ o, o ∈ sp.ins → o.n.toNat < 120 → x.wb + o.n.toNat + o.w ≤ x.regs.length) →
              (∀ o, sp.out = some o ∨ sp.more = some o → o.1.toNat < 120 → x.wb + o.1.toNat + o.2 ≤ x.regs.length) →
              sp.encFault s.cur.kind x = none))))) ∧
    (sp.encFault s.cur.kind x = none → Claims.isPlain sp.a → Claims.isPlain sp.b → Claims.isPlain sp.d →
      let a := Claims.plainOpt x sp.a
      let b := Claims.plainOpt x sp.b
      let d := Claims.plainOpt x sp.d
      (Claims.carries sp.a a ∧ Claims.carries sp.b b ∧ Claims.carries sp.d d → readWord sp s = .ok (⟨s.cur, x, a, b, d⟩, s)) ∧
      (¬(Claims.carries sp.a a ∧ Claims.carries sp.b b ∧ Claims.carries sp.d d) →
        readWord sp s = .error (.trap { cause := .ftag } s)))

/-- A word of the register classes that takes a precise trap while its operands are read leaves nothing of its own behind: the trap is
taken from the state before the word, so that popped entries are in their queues again (R51, R71). A word that waits changes nothing
but the note why it waits. -/
def Obligations.FaultingWords : Prop :=
  ∀ (i : Instr) (sp : WordForm) (s s1 : State), Claims.formOf s i = some sp →
    (∀ t, readWord sp s = .error (.trap t s1) →
      exec i s = .next (takeTrap s.cur .word t { s with tlb := s1.tlb, free := s1.free, dies := s1.dies })) ∧
    ∀ b, readWord sp s = .error (.block b) → exec i s = .next (s.modStrand s.cur (Claims.stays b s.cycle))

/-- A precise trap with a handler (R104 to R106, R110): the record, the saved window base and return point, HANDLER_WB, the handler's
clause header; no queue, no other strand and no other register of the strand changes. -/
def Obligations.TrapEntry : Prop :=
  ∀ (k : StrandKey) (fa : FaultAt) (t : TrapInfo) (s : State) (x : Strand) (l : Launch),
    s.strand k = some x → s.launch k.grp.launch = some l → Claims.handlerOf k l ≠ 0 → x.inHandler = false →
    (takeTrap k fa t s).strand k = some { x with
      fault := Claims.record k x fa t, inHandler := true, hWb := x.wb, hCpc := x.cpc, hFpc := x.pc, hAt := fa,
      hSkip := (x.skipPoint fa).1, hSkipIn := (x.skipPoint fa).2, wb := l.rc.handlerWb,
      cpc := pcOf (Claims.handlerOf k l), pc := pcOf (Claims.handlerOf k l), phase := .header, inside := false, blk := .none } ∧
    (takeTrap k fa t s).threads = s.threads ∧ (∀ j, j ≠ k → (takeTrap k fa t s).strand j = s.strand j)

/-- The record in FAULT_AREA (R105): the slot is claimed where its word 0 is 0, words 1 to 15 follow, and word 0 comes last; a slot that is
claimed already counts a dropped fault; a slot whose word 0 cannot be swapped counts one and logs LOGFAIL 2, and so does a write that fails
later, which leaves what it had written; and with no area nothing is written. -/
def Obligations.FaultArea : Prop :=
  ∀ (k : StrandKey) (fa : FaultAt) (t : TrapInfo) (s : State) (x : Strand) (l : Launch),
    s.strand k = some x → s.launch k.grp.launch = some l → t.errs = [] → t.evs = [] →
    let r := Claims.record k x fa t
    let bytes := fun (w : List (BitVec 32)) => w.flatMap fun v => toBytes 4 v.toNat
    let a := Claims.faultSlot k l
    let s0 := s.modStrand k fun y => { y with fault := r }
    let drop := fun (u : State) => u.modLaunch l.id fun y => { y with dfc := y.dfc + 1 }
    let fails := fun (u : State) => drop (logPlain l.ctx 0x06 2 l.id a 0 u)
    (l.rc.faultArea = 0 → recordTrap k fa t s = s0) ∧
    ∀ c, l.rc.faultArea ≠ 0 → s.liveCtx l.ctx = some c →
      let die := ((s.group k.grp).map (·.die)).getD (s.homeDie c)
      (∀ e s1, devWordE c.d die a s0 = (none, e, s1) → recordTrap k fa t s = fails (logWalks l.ctx e s1)) ∧
      (∀ w e s1, w ≠ 0 → devWordE c.d die a s0 = (some w, e, s1) → recordTrap k fa t s = drop s1) ∧
      ∀ e s1, devWordE c.d die a s0 = (some 0, e, s1) →
        let first := bytes (0xFFFFFFFF#32 :: (r.take 8).drop 1)
        (∀ e1 s2, devWriteE c.d die a first s1 = (false, e1, s2) → recordTrap k fa t s = fails (logWalks l.ctx e1 s2)) ∧
        ∀ e1 s2, devWriteE c.d die a first s1 = (true, e1, s2) →
          (∀ e2 s3, devWriteE c.d die (a + 32) (bytes (r.drop 8)) s2 = (false, e2, s3) → recordTrap k fa t s = fails (logWalks l.ctx e2 s3)) ∧
          ∀ e2 s3, devWriteE c.d die (a + 32) (bytes (r.drop 8)) s2 = (true, e2, s3) →
            (∀ e3 s4, devWriteE c.d die a (bytes (r.take 1)) s3 = (false, e3, s4) → recordTrap k fa t s = fails (logWalks l.ctx e3 s4)) ∧
            ∀ e3 s4, devWriteE c.d die a (bytes (r.take 1)) s3 = (true, e3, s4) → recordTrap k fa t s = s4

/-- A precise trap without a handler, or inside it, kills the launch (R107, R109): no strand of it is left, it is marked as killed,
and none of its bind records places another group. -/
def Obligations.TrapKills : Prop :=
  ∀ (k : StrandKey) (fa : FaultAt) (t : TrapInfo) (s : State) (x : Strand) (l : Launch),
    s.strand k = some x → s.launch k.grp.launch = some l → l.id = k.grp.launch → Claims.handlerOf k l = 0 ∨ x.inHandler = true →
    let u := takeTrap k fa t s
    (∀ g y, g.launch = k.grp.launch → s.group g = some y → y.life ≠ .ended → ∀ j, j.grp = g → u.strand j = none) ∧
    (∀ m, u.launch k.grp.launch = some m → m.killed = true) ∧
    (∀ d ∈ u.dies, ∀ e ∈ d.binds, e.2.launch = k.grp.launch → e.2.valid = false)

/-- TRET (R108): the in-handler state ends and WB is restored; a retry goes back to the clause header, or into the clause at the
faulting word; a skip goes past it. -/
def Obligations.TretResumes : Prop :=
  ∀ (m : BitVec 1) (s s1 : State) (v : Vals),
    readWord { cls := 4, transfer := true } s = .ok (v, s1) →
    (v.x.inHandler = false → exec (.tret m) s = .next (takeTrap s.cur .word { cause := .ilop } s)) ∧
    (v.x.inHandler = true → ∃ t y, exec (.tret m) s = .next t ∧ t.strand s.cur = some y ∧
      y.inHandler = false ∧ y.wb = v.x.hWb ∧ y.regs = v.x.regs ∧ y.preds = v.x.preds ∧ y.flags = v.x.flags ∧ y.phase = .header ∧
      (m = 0#1 ∨ v.x.hAt = .fetch → y.cpc = v.x.hCpc ∧ y.pc = if v.x.hAt = .word then v.x.hFpc else v.x.hCpc) ∧
      (m = 0#1 → v.x.hAt = .word → y.inside = (v.x.hCpc != v.x.hFpc)) ∧
      (m = 1#1 → v.x.hAt = .header → y.cpc = v.x.hSkip ∧ y.pc = v.x.hSkip ∧ y.inside = false) ∧
      (m = 1#1 → v.x.hAt = .word → y.pc = v.x.hSkip ∧ y.cpc = if v.x.hSkipIn then v.x.hCpc else v.x.hSkip))

/-- The circle words: every one arrives, is held until the others arrive, and what it then gives is Table 6.1's (R125 to R129). -/
def Obligations.CircleWords : Prop :=
  ∀ (i : Instr) (fb : Bool) (sp : WordForm) (pa : Option RegNo) (f : CircIn → CircRes),
    Claims.circRow i = some (fb, sp, pa, f) → (∀ x, (circEffect i).2 x = f x) ∧
    ∀ (s s1 : State) (v : Vals) (w : BitVec 32) (g : Group),
      readWord sp s = .ok (v, s1) → Claims.FlagRoom v.x fb → s.barWaiting v.k = false → Claims.resultRoom s v.k sp →
      v.x.word = some w → s.group v.k.grp = some g →
      let q := Claims.seqOf v.k.kind
      let ci := tgetD g.circ (v.k.tid / 32, q) ⟨s.cycle, []⟩
      let a := Claims.arrivalOf v sp pa w
      let u := Claims.held v ci a s
      (ci.arr.all fun b => rvSignature b.word == rvSignature w) = true →
      (u.instFull v.k.grp g.size (v.k.tid / 32) q (ci.arr ++ [a]) = false → exec i s = .next u) ∧
      (u.instFull v.k.grp g.size (v.k.tid / 32) q (ci.arr ++ [a]) = true →
        exec i s = .next ((inTidOrder (ci.arr ++ [a]) (v.k.tid / 32)).foldl (fun s b =>
          circDone (seqStrand v.k.grp q b.tid) q (fun n => (ci.arr ++ [a]).find? (·.tid == 32 * (v.k.tid / 32) + n)) b s)
          (clearCircle v.k.grp (v.k.tid / 32, q) u)))

/-- The barrier words (R130 to R135, R224, R225, Table 12.8): the arrival, which waits as a release at core or cluster scope, the commit at
the word, and the wait for the generation joined, which is over at once where the arrival was the last. A strand that goes on from the word
that made its token arrives no second time, and reads nothing again. BQRY packs GEN, PHASE and ARR. -/
def Obligations.BarrierWords : Prop :=
  Claims.Gives Claims.bqryRow ∧
  ∀ (i : Instr) (fb wf gang : Bool) (a : RegNo) (im : BitVec 7) (s : State), Claims.barRow i = some (fb, wf, gang, a, im) →
    (∀ (s1 : State) (v : Vals), readWord (Claims.barForm (Claims.barNumOk s gang im) a) s = .ok (v, s1) → v.x.tokenHere = none →
      a = 126#7 ∨ (1 ≤ (Claims.w32 v.a).toNat ∧ (Claims.w32 v.a).toNat ≤ Claims.barLimit gang) →
      (wf = true → Claims.FlagRoom v.x fb) → s1.barWaiting v.k = false →
      (s1.released v.k s1.nextId (if gang then 2 else 1) false = false → exec i s = .next (s.modStrand s.cur (Claims.stays .room s.cycle))) ∧
      (s1.released v.k s1.nextId (if gang then 2 else 1) false = true →
        let n := if a = 126#7 then none else some (Claims.w32 v.a).toNat
        let gen := s1.barGen v.k.grp gang im.toNat
        let s2 := wakeBars (commitAt v.k (v.x.cpc, v.x.pc) (some ⟨gang, im.toNat, gen⟩) (barArrive v.k.grp gang im.toNat n s1))
        (wf = false ∨ s2.barGen v.k.grp gang im.toNat ≠ gen → exec i s = .next (s2.modStrand v.k (·.advance 1))) ∧
        (wf = true → s2.barGen v.k.grp gang im.toNat = gen → exec i s = .next (Claims.awaits v fb gang im.toNat gen s2)))) ∧
    ∀ (x : Strand) (t : Token), s.strand s.cur = some x → x.tokenHere = some t → (wf = true → Claims.FlagRoom x fb) →
      (wf = false ∨ s.barGen s.cur.grp gang im.toNat ≠ t.gen → exec i s = .next (s.modStrand s.cur (·.advance 1))) ∧
      (wf = true → s.barGen s.cur.grp gang im.toNat = t.gen →
        exec i s = .next (Claims.awaits ⟨s.cur, x, [], [], []⟩ fb gang im.toNat t.gen s))

/-- A named barrier that is idle completes its generation with the n-th arrival of count n and not before (R131, Table 6.2). -/
def Obligations.BarrierGeneration : Prop :=
  ∀ (b : Bar) (n m : Nat), b.collecting = false → 1 ≤ n →
    (1 ≤ m → m < n → Claims.arrivals b n m = { b with collecting := true, exp := n, arr := m }) ∧
    ((Claims.arrivals b n n).gen = (b.gen + 1) % 65536 ∧ (Claims.arrivals b n n).collecting = false ∧ (Claims.arrivals b n n).arr = 0)

namespace Sys2Proof.Claims

open Sys2Proof Sys2Proof.Machine

/-! ## Accesses (classes 0x9, 0xA and 0xD: R143 to R169) -/

/-- The results of an access reach their places at once, or under the flag (R25). A page marked SC makes the access synchronous. -/
def give (w : Who) (fb : Bool) (len : Nat) (sync committed : Bool) (dests : List Dest) (lg : Log) (s : State) : State :=
  match if sync then none else w.x.selFlag fb with
  | none => (alogFor w.k w.k.tid w.x.cpc lg (deliverAll w.k dests s)).modStrand w.k (·.advance len)
  | some f => leave (pendOf s w.k w.x f len dests lg committed) f s

/-- The registers of an element of `n` bytes. -/
def regsOf (n : Nat) : Nat := if n ≤ 4 then 1 else n / 4

/-- A word that loads: flag, form, slot, element sizes, and whether it is an acquire with an ordering stream of its own (Table 7.6). -/
abbrev LRow := Bool × WordForm × BitVec 5 × List Nat × RegNo × Option Nat

def ldForm (b d : RegNo) (w : Nat) : WordForm := { cls := 9, b := some { n := b, acc := .int }, out := some (d, w) }
def stForm (b d : RegNo) (w : Nat) : WordForm := { cls := 9, b := some { n := b, acc := .int }, d := some { n := d, w := w } }

def loadRow : Instr → Option LRow
  | .ld fb d sl b => some (fb, ldForm b d 1, sl, [0, 1, 2], d, none)
  | .ld2 fb d sl b => some (fb, ldForm b d 2, sl, [3], d, none)
  | .ld4 fb d sl b => some (fb, ldForm b d 4, sl, [4], d, none)
  | .lda fb d sl b lit => some (fb, { ldForm b d 1 with len := 2, rsv := !memLitOk lit }, sl, [0, 1, 2], d,
      some (lit.extractLsb' 3 4).toNat)
  | _ => none

/-- A word that stores; STL has a scope and an ordering stream. -/
abbrev SRow := Bool × WordForm × BitVec 5 × List Nat × Option (Nat × Nat)

def storeRow : Instr → Option SRow
  | .st fb d sl b => some (fb, stForm b d 1, sl, [0, 1, 2], none)
  | .st2 fb d sl b => some (fb, stForm b d 2, sl, [3], none)
  | .st4 fb d sl b => some (fb, stForm b d 4, sl, [4], none)
  | .stl fb d sl b lit => some (fb, { stForm b d 1 with len := 2, rsv := !memLitOk lit }, sl, [0, 1, 2],
      some ((lit.extractLsb' 0 3).toNat, (lit.extractLsb' 3 4).toNat))
  | _ => none

/-- The data of a store, lowest register first. -/
def dataOf (l : List TVal) (n : Nat) : List Byte := toBytes n ((w64 (l.drop 2)).toNat * 2 ^ 64 + (w64 l).toNat)

def storeNeeds (esz : List Nat) : RecNeed := { ak := .write, esz := esz, bits := (·.pw) }

/-- What a store waits for beside its checks: its flag, a flagged wait at a barrier where it commits, and a replicated region that takes
stores (R25, R134, R310). -/
def storeReady (r : SRow) (a : Acc) (s : State) : Prop :=
  FlagRoom a.w.x r.1 ∧ (a.t.sc = true → s.barWaiting a.w.k = false) ∧ ∀ d o, a.t.loc = .repl d o → s.replHeld d = false

/-- A store to a page marked SC commits (R134, R165). -/
def committed (a : Acc) (len : Nat) (s : State) : State := if a.t.sc then commitWord a.w.k len s else s

/-- An access as it issues, with the registers that it has still to read (R26, R162, R163): its number is the module's next, and that of the
operation that waits for it follows. -/
def asked (a : Acc) (s : State) (ask : GlobAsk) (waits acq com : Bool) (rel : Option Nat) (strm : Nat) (src : Option Opnd) : Held :=
  { id := s.nextId, owner := a.w.k, pend := if waits then some (s.nextId + 1) else none, committed := com, ask := ask,
    regs := sourceRegs a.w.x src a.data, loc := a.t.loc, va := a.t.va, strm := strm, acq := acq, rel := rel, die := a.w.g.die,
    ctx := a.w.l.ctx, keyid := a.w.d.keyid, acct := a.w.d.bclass, etag := a.r.etag, esz := a.r.esz, sc := a.t.sc, done := [] }

/-- All ones in every register of an element, with the tags of a load (R168). -/
def allOnes (a : Acc) : List TVal := (loadedVals a.r.etag a.r.esz 0).map fun v => { v with bits := 0xFFFFFFFF#32 }

def loadAsk (a : Acc) (q : Option Nat) (s : State) : Held :=
  asked a s (.read (2 ^ a.r.esz)) true q.isSome false none (q.getD a.r.ostrm) none
def storeAsk (r : SRow) (a : Acc) (s : State) : Held :=
  asked a s (.write (dataOf a.data (2 ^ a.r.esz))) a.t.sc false a.t.sc (r.2.2.2.2.map (·.1)) ((r.2.2.2.2.map (·.2)).getD a.r.ostrm) r.2.1.d

/-- The two numbers that an access takes. -/
def numbered (s : State) : State := { s with nextId := s.nextId + 2 }

/-- An access is performed as it issues where its turn has come and the schedule does not put it off (R162, log 1). -/
def now (h : Held) (s : State) : Prop := s.inTurn h = true ∧ s.late = false

/-- The operation that waits for an access: under its flag the strand goes on, and without one, or on a page marked SC, it waits (R25,
R165). -/
def waits (w : Who) (fb : Bool) (len : Nat) (h : Held) (kind : PendKind) (pl : List Place) (s : State) : State :=
  let f := if h.sc then none else w.x.selFlag fb
  { s with pend := s.pend ++ [{ pendOf s w.k w.x 0 len [] {} h.committed with id := h.id + 1, flag := f, kind := kind, places := pl }] }.modStrand
    w.k fun x => match f with
      | some f => { x with flags := lmod x.flags f (· + 1) }.advance len
      | none => { x with phase := .sync (h.id + 1), blk := .none }

/-- The state in which the bytes of a store stand where it went. A store to an SC page of repl holds its strand until every member has
applied it (R165). -/
def stored (r : SRow) (a : Acc) (s : State) : State :=
  let n := 2 ^ a.r.esz
  let h := storeAsk r a s
  let u := writeLoc a.w.k a.w.l.ctx a.t.loc (dataOf a.data n) (chargeHbm a.w.l.ctx a.t.loc n (numbered (committed a r.2.1.len s)))
  match a.t.sc, a.t.loc with
  | true, .repl die _ => waits a.w r.1 r.2.1.len h (.replStore die (u.repl die).issued) [] u
  | sc, _ => give a.w r.1 r.2.1.len sc sc [] {} u

/-- A store that is held until its turn: under a flag its operation waits until its registers have been read, without one they are read as
it issues, and on an SC page the strand waits (R26, R161, R165). -/
def storeHeld (r : SRow) (a : Acc) (s : State) : State :=
  let h := storeAsk r a s
  let u := numbered (committed a r.2.1.len s)
  if a.t.sc then waits a.w r.1 r.2.1.len h .held [] { u with held := u.held ++ [h] }
  else if h.regs = [] ∨ a.w.x.selFlag r.1 = none then give a.w r.1 r.2.1.len false false [] {} { u with held := u.held ++ [{ h with regs := [] }] }
  else waits a.w r.1 r.2.1.len h (.data h.id) [] { u with held := u.held ++ [{ h with pend := some (h.id + 1) }] }

/-- The new value of an element `m` (Table 7.7): `d` the operand, `e` the second one. -/
def newValue (op : AOp) (m d e : BitVec 64) : BitVec 64 × Log :=
  let m32 := m.setWidth 32
  let d32 := d.setWidth 32
  match op with
  | .addI => ((m32 + d32).setWidth 64, {})
  | .addF => (BitVec.ofNat 64 (f32.add .rn (f32.dec m32.toNat) (f32.dec d32.toNat)).1, (f32.add .rn (f32.dec m32.toNat) (f32.dec d32.toNat)).2)
  | .minI => (if d32.slt m32 then d else m, {})
  | .minN => (if d.ult m then d else m, {})
  | .maxI => (if m32.slt d32 then d else m, {})
  | .maxN => (if m.ult d then d else m, {})
  | .and => (m &&& d, {})
  | .or => (m ||| d, {})
  | .xor => (m ^^^ d, {})
  | .xchg => (d, {})
  | .cas => (if m = d then e else m, {})
  | .inc => (if m.ult e then m + 1 else 0, {})
  | .add64 => (m + d, {})
  | .cas64 => (if m = d then e else m, {})

/-- The operands of an atomic from its data registers. -/
def amoOperands (op : AOp) (l : List TVal) : BitVec 64 × BitVec 64 :=
  match op with
  | .add64 | .cas64 => (w64 l, w64 (l.drop 2))
  | _ => ((w32 l).setWidth 64, (w32 (l.drop 1)).setWidth 64)

def isWide (op : AOp) : Bool := op == .add64 || op == .cas64

def amoRow : Instr → Option (AOp × Bool × RegNo × BitVec 5 × RegNo)
  | .aaddI32 fb d sl b => some (.addI, fb, d, sl, b)
  | .aaddF32 fb d sl b => some (.addF, fb, d, sl, b)
  | .aminI fb d sl b => some (.minI, fb, d, sl, b)
  | .aminN fb d sl b => some (.minN, fb, d, sl, b)
  | .amaxI fb d sl b => some (.maxI, fb, d, sl, b)
  | .amaxN fb d sl b => some (.maxN, fb, d, sl, b)
  | .aand fb d sl b => some (.and, fb, d, sl, b)
  | .aor fb d sl b => some (.or, fb, d, sl, b)
  | .axor fb d sl b => some (.xor, fb, d, sl, b)
  | .axchg fb d sl b => some (.xchg, fb, d, sl, b)
  | .acas fb d sl b => some (.cas, fb, d, sl, b)
  | .ainc fb d sl b => some (.inc, fb, d, sl, b)
  | .aadd64 fb d sl b => some (.add64, fb, d, sl, b)
  | .acas64 fb d sl b => some (.cas64, fb, d, sl, b)
  | _ => none

def amoForm (op : AOp) (d b : RegNo) : WordForm :=
  { cls := 10, b := some { n := b, acc := .int }, d := some { n := d, w := op.reads }, out := some (d, if isWide op then 2 else 1) }

/-- An atomic as it issues; ADD64 has no second operand. -/
def amoAsk (op : AOp) (d : RegNo) (a : Acc) (s : State) : Held :=
  let o := amoOperands op a.data
  asked a s (.atomic op o.1.toNat (if op = .add64 then 0 else o.2.toNat)) true false true none 0 (some { n := d, w := op.reads })

def amoNeed (op : AOp) : RecNeed :=
  { ak := .rmw, esz := [if isWide op then 3 else 2], etag := op.etagOk, seg := op.segOk, bits := fun r => r.pr && r.pw && r.pa }

/-- The operand pair of a slot word, its address, and the access of its thread. -/
def slotWordForm (a : RegNo) : WordForm := { cls := 9, a := some { n := a, w := 2, acc := .i64 } }
def addr57 (l : List TVal) : Nat := ((w64 l).setWidth 57).toNat

/-- A byte of each kind of memory. -/
def byteAt (s : State) (a : Nat) : List Byte := s.readSpa a 1
def coreByte (s : State) (g : GroupKey) (a : Nat) : List Byte := s.readCore g a 1
def clusByte (s : State) (g : GroupKey) (a : Nat) : List Byte := s.readClus g a 1

/-- Every byte of memory reads as before. -/
def SameMemory (s t : State) : Prop :=
  (∀ a, byteAt t a = byteAt s a) ∧ (∀ g a, coreByte t g a = coreByte s g a) ∧ ∀ g a, clusByte t g a = clusByte s g a

/-- Every byte of memory reads as before but the `n` bytes from a location on. -/
def OnlyAt (s t : State) (l : Loc) (n : Nat) : Prop :=
  let spas := fun (q : Nat) => (∀ p, (p < q ∨ q + n ≤ p) → byteAt t p = byteAt s p) ∧
    (∀ h p, coreByte t h p = coreByte s h p) ∧ ∀ h p, clusByte t h p = clusByte s h p
  match l with
  | .core g o => (∀ h p, (h ≠ g ∨ p < o ∨ o + n ≤ p) → coreByte t h p = coreByte s h p) ∧
      (∀ h p, clusByte t h p = clusByte s h p) ∧ ∀ p, byteAt t p = byteAt s p
  | .clus g o => (∀ h p, (h ≠ g ∨ p < o ∨ o + n ≤ p) → clusByte t h p = clusByte s h p) ∧
      (∀ h p, coreByte t h p = coreByte s h p) ∧ ∀ p, byteAt t p = byteAt s p
  | .spa o => spas o
  | .glob _ d o => spas (mkSpa 0 d (spaOff o))
  | .repl d o => spas (s.replSpa d o)

end Sys2Proof.Claims

/-- An access through a record of the core segment (R148 to R153, R155): the order of its checks, and where it falls. -/
def Obligations.CoreAccess : Prop :=
  ∀ (sp : WordForm) (sl : BitVec 5) (need : RecNeed) (acc : Nat → Accept) (s : State) (x : Strand) (g : Group) (l : Launch) (c : Ctx)
    (img : BitVec 256),
    s.strand s.cur = some x → s.group s.cur.grp = some g → s.launch s.cur.grp.launch = some l → s.ctx l.ctx = some c →
    sp.encFault s.cur.kind x = none → sp.a = none → Claims.isPlain sp.b → Claims.isPlain sp.d → s.pend = [] →
    lget g.slots sl.toNat 0#256 = img →
    let k := s.cur
    let b := Claims.plainOpt x sp.b
    let data := Claims.plainOpt x sp.d
    let r := bufRec img
    let i := (Claims.w32 b).toNat
    let va := r.form i (k.grp.glin * g.size + k.tid)
    let n := 2 ^ r.esz
    let typed := need.esz.contains r.esz = true ∧ need.etag r.etag = true ∧
      ((∃ o, sp.d = some o ∧ o.n = 126#7) ∨ dataTagsOk r acc 0 data = true)
    let at_ := fun (c : Cause) => (.error (.trap { cause := c, va := va, slot := some (sl.toNat, i) } s) : Except Stop (Acc × State))
    let answer := accessWord sp sl need acc s
    (¬Claims.carries sp.b b ∨ (img ≠ 0#256 ∧ ¬typed) →
      answer = .error (.trap { cause := .ftag, slot := some (sl.toNat, i), slv := false } s)) ∧
    (Claims.carries sp.b b → (img = 0#256 ∨ (typed ∧ need.seg r.seg = false)) →
      answer = .error (.trap { cause := .aseg, va := 0, slot := some (sl.toNat, i) } s)) ∧
    (Claims.carries sp.b b → img ≠ 0#256 → typed → need.seg r.seg = true → r.seg = .core →
      (r.extent ≤ i → answer = at_ .abnd) ∧
      (i < r.extent → need.bits r = false ∨ l.rc.scratch < va + n → answer = at_ .aprm) ∧
      (i < r.extent → need.bits r = true → va + n ≤ l.rc.scratch → va % n ≠ 0 → answer = at_ .aaln) ∧
      (i < r.extent → need.bits r = true → va + n ≤ l.rc.scratch → va % n = 0 →
        answer = .ok (⟨⟨k, x, g, l, c.d⟩, r, ⟨.core k.grp (r.swizzle va), false, va⟩, data⟩, s)))

/-- The loads (R160 to R165, R168, Table 7.6): where its turn has come a load gives the element read where the access falls, in registers
with the record's tag; all ones where the answer is an error, with its event; and a request where another module holds it. Put off, it is
held with its place in the program order, and its operation waits. -/
def Obligations.LoadWords : Prop :=
  ∀ (i : Instr) (fb : Bool) (sp : WordForm) (sl : BitVec 5) (esz : List Nat) (d : RegNo) (q : Option Nat) (s s1 s2 : State) (a : Acc)
    (pl : List Place),
    Claims.loadRow i = some (fb, sp, sl, esz, d, q) →
    accessWord sp sl { ak := .read, esz := esz, bits := (·.pr) } (fun _ => .any) s = .ok (a, s1) → Claims.FlagRoom a.w.x fb →
    places a.w.k a.w.x d (Claims.regsOf (2 ^ a.r.esz)) s1 = .ok (pl, s2) →
    let n := 2 ^ a.r.esz
    let h := Claims.loadAsk a q s2
    let u := Claims.numbered s2
    (Claims.now h s2 → waitAccess h s2 = .ok ((), s2) →
      (reachOf h u = .here →
        let v := chargeHbm a.w.l.ctx a.t.loc n u
        exec i s = .next (Claims.give a.w fb sp.len a.t.sc false
          (destsOf pl (loadedVals a.r.etag a.r.esz (ofBytes (readLoc a.w.k a.t.loc n v)))) {} v)) ∧
      (reachOf h u = .error →
        exec i s = .next (Claims.give a.w fb sp.len a.t.sc false (destsOf pl (Claims.allOnes a)) {}
          (errorEvent h u))) ∧
      (reachOf h u = .away → exec i s = .next (Claims.waits a.w fb sp.len h (.glob h.id) pl (askAway h u)))) ∧
    (¬Claims.now h s2 → exec i s = .next (Claims.waits a.w fb sp.len h .held pl { u with held := u.held ++ [h] }))

/-- The stores (R26, R161 to R165, R168, R310, Table 7.6): where its turn has come the bytes of a store stand where the access falls;
nothing is stored where the answer is an error; and a request goes to another module, for which the store does not wait. Put off, it is
held. -/
def Obligations.StoreWords : Prop :=
  ∀ (i : Instr) (r : Claims.SRow) (s s1 : State) (a : Acc),
    Claims.storeRow i = some r → accessWord r.2.1 r.2.2.1 (Claims.storeNeeds r.2.2.2.1) (fun _ => .any) s = .ok (a, s1) →
    Claims.storeReady r a s1 →
    let h := Claims.storeAsk r a s1
    let s2 := Claims.committed a r.2.1.len s1
    let u := Claims.numbered s2
    (Claims.now h s2 → waitAccess h s2 = .ok ((), s2) →
      (reachOf h u = .here → exec i s = .next (Claims.stored r a s1)) ∧
      (reachOf h u = .error → exec i s = .next (Claims.give a.w r.1 r.2.1.len a.t.sc a.t.sc [] {} (errorEvent h u))) ∧
      (reachOf h u = .away →
        (a.t.sc = false → exec i s = .next (Claims.give a.w r.1 r.2.1.len false false [] {} (askAway h u))) ∧
        (a.t.sc = true → exec i s = .next (Claims.waits a.w r.1 r.2.1.len h (.glob h.id) [] (askAway h u))))) ∧
    (¬Claims.now h s2 → exec i s = .next (Claims.storeHeld r a s1))

/-- The atomics (R158, R166 to R168, R346, R349, Table 7.7): the word commits, and where its turn has come the element takes its new value
where it lives, a glob atomic leaving its packet for the owner switch, and the old value comes back. Put off, it is held. -/
def Obligations.AtomicWords : Prop :=
  ∀ (i : Instr) (op : AOp) (fb : Bool) (d : RegNo) (sl : BitVec 5) (b : RegNo) (s s1 s2 : State) (a : Acc) (pl : List Place),
    Claims.amoRow i = some (op, fb, d, sl, b) →
    accessWord (Claims.amoForm op d b) sl (Claims.amoNeed op) op.accepts s = .ok (a, s1) → Claims.FlagRoom a.w.x fb →
    s1.barWaiting a.w.k = false →
    places a.w.k a.w.x d (if Claims.isWide op then 2 else 1) s1 = .ok (pl, s2) →
    let n := 2 ^ a.r.esz
    let s3 := commitWord a.w.k 1 s2
    let o := Claims.amoOperands op a.data
    let h := Claims.amoAsk op d a s3
    let u := Claims.numbered s3
    (Claims.now h s3 → waitAccess h s3 = .ok ((), s3) →
      (reachOf h u = .here →
        let y := chargeHbm a.w.l.ctx a.t.loc n (sendAccess h u)
        let m := ofBytes (readLoc a.w.k a.t.loc n y)
        let v := Claims.newValue op (BitVec.ofNat 64 m) o.1 o.2
        exec i s = .next (Claims.give a.w fb 1 a.t.sc true (destsOf pl (loadedVals a.r.etag a.r.esz m)) v.2
          (writeLoc a.w.k a.w.l.ctx a.t.loc (toBytes n v.1.toNat) y))) ∧
      (reachOf h u = .error →
        exec i s = .next (Claims.give a.w fb 1 a.t.sc true (destsOf pl (Claims.allOnes a)) {}
          (errorEvent h u))) ∧
      (reachOf h u = .away → exec i s = .next (Claims.waits a.w fb 1 h (.glob h.id) pl (askAway h u)))) ∧
    (¬Claims.now h s3 → exec i s = .next (Claims.waits a.w fb 1 h .held pl { u with held := u.held ++ [h] }))

/-- What the accesses leave alone (R155, R160, R161, R166, R195, R234). A load leaves every byte of memory; a store and an atomic leave
every byte outside those that they store to, the address being the one that the access procedure computes; and one that is put off or goes
to another module leaves every byte. An atomic that logs an arithmetic cause writes its log too and is left out. The memories stand in
their canonical form, which every step keeps. -/
def Obligations.StoreFrame : Prop :=
  (∀ (i : Instr) (r : Claims.SRow) (s s1 : State) (a : Acc), s.memsWf →
    Claims.storeRow i = some r → accessWord r.2.1 r.2.2.1 (Claims.storeNeeds r.2.2.2.1) (fun _ => .any) s = .ok (a, s1) →
    Claims.storeReady r a s1 →
    let h := Claims.storeAsk r a s1
    let s2 := Claims.committed a r.2.1.len s1
    (¬Claims.now h s2 → ∃ t, exec i s = .next t ∧ Claims.SameMemory s t) ∧
    (Claims.now h s2 → waitAccess h s2 = .ok ((), s2) →
      (reachOf h (Claims.numbered s2) = .here → ∃ t, exec i s = .next t ∧ Claims.OnlyAt s t a.t.loc (2 ^ a.r.esz)) ∧
      (reachOf h (Claims.numbered s2) = .away → ∃ t, exec i s = .next t ∧ Claims.SameMemory s t))) ∧
  (∀ (i : Instr) (fb : Bool) (sp : WordForm) (sl : BitVec 5) (esz : List Nat) (d : RegNo) (q : Option Nat) (s s1 s2 : State) (a : Acc)
    (pl : List Place),
    Claims.loadRow i = some (fb, sp, sl, esz, d, q) →
    accessWord sp sl { ak := .read, esz := esz, bits := (·.pr) } (fun _ => .any) s = .ok (a, s1) → Claims.FlagRoom a.w.x fb →
    places a.w.k a.w.x d (Claims.regsOf (2 ^ a.r.esz)) s1 = .ok (pl, s2) →
    let h := Claims.loadAsk a q s2
    (¬Claims.now h s2 → ∃ t, exec i s = .next t ∧ Claims.SameMemory s t) ∧
    (Claims.now h s2 → waitAccess h s2 = .ok ((), s2) → reachOf h (Claims.numbered s2) ≠ .error →
      ∃ t, exec i s = .next t ∧ Claims.SameMemory s t)) ∧
  ∀ (i : Instr) (op : AOp) (fb : Bool) (d : RegNo) (sl : BitVec 5) (b : RegNo) (s s1 s2 : State) (a : Acc) (pl : List Place), s.memsWf →
    Claims.amoRow i = some (op, fb, d, sl, b) →
    accessWord (Claims.amoForm op d b) sl (Claims.amoNeed op) op.accepts s = .ok (a, s1) → Claims.FlagRoom a.w.x fb →
    s1.barWaiting a.w.k = false →
    places a.w.k a.w.x d (if Claims.isWide op then 2 else 1) s1 = .ok (pl, s2) →
    let s3 := commitWord a.w.k 1 s2
    let o := Claims.amoOperands op a.data
    let h := Claims.amoAsk op d a s3
    (¬Claims.now h s3 → ∃ t, exec i s = .next t ∧ Claims.SameMemory s t) ∧
    (Claims.now h s3 → waitAccess h s3 = .ok ((), s3) →
      (reachOf h (Claims.numbered s3) = .here →
        let y := chargeHbm a.w.l.ctx a.t.loc (2 ^ a.r.esz) (sendAccess h (Claims.numbered s3))
        (Claims.newValue op (BitVec.ofNat 64 (ofBytes (readLoc a.w.k a.t.loc (2 ^ a.r.esz) y))) o.1 o.2).2 = {} →
        ∃ t, exec i s = .next t ∧ Claims.OnlyAt s t a.t.loc (2 ^ a.r.esz)) ∧
      (reachOf h (Claims.numbered s3) = .away → ∃ t, exec i s = .next t ∧ Claims.SameMemory s t))

/-- The slot words and FENCE (R143 to R147, R165, R169): BLOAD and LLOAD put the image in the slot, or trap with ASEG where it is no
record that the strand may use; their FTAG records the address that the pair holds; BQRY gives a word of a slot; a fence goes on once its
accesses are bound and performed, and waits until then. -/
def Obligations.SlotAndFenceWords : Prop :=
  ∀ (s s1 : State) (v : Vals),
    (∀ (fb : Bool) (sl : BitVec 5) (a : RegNo) (img0 : BitVec 256) (w : Who) (l : RecRead) (s2 : State),
      readWord (Claims.slotWordForm a) s = .ok (v, s1) → slotRec v.k sl.toNat s1 = .ok (img0, s1) → who v.k v.x s1 = .ok (w, s1) →
      readRecord w (Claims.addr57 v.a) 32 32 s1 = .ok (l, s2) →
      let img := BitVec.ofNat 256 (ofBytes l.bytes)
      let r := bufRec img
      let good := img = 0#256 ∨ (recWellFormed img = true ∧ s2.usable w.g.die w.d w.l.rc r.seg r.epmod = true)
      (good → Claims.FlagRoom v.x fb → exec (.bload fb sl a) s =
        .next (Claims.give w fb 1 l.sc false [.slot sl.toNat img] {} (l.evs.foldl (fun t e => logEvent w.l.ctx e t) s2))) ∧
      (¬good → exec (.bload fb sl a) s = .next (takeTrap s.cur .word { cause := .aseg, va := Claims.addr57 v.a, evs := l.evs }
        { s with tlb := s2.tlb, free := s2.free, dies := s2.dies }))) ∧
    (∀ (fb : Bool) (sl : BitVec 3) (a : RegNo) (w : Who) (l : RecRead) (s2 : State),
      readWord (Claims.slotWordForm a) s = .ok (v, s1) → who v.k v.x s1 = .ok (w, s1) →
      readRecord w (Claims.addr57 v.a) 64 64 s1 = .ok (l, s2) →
      let img := BitVec.ofNat 512 (ofBytes l.bytes)
      let r := layRec img
      let good := img = 0#512 ∨ (layValid img = true ∧ s2.usable w.g.die w.d w.l.rc r.seg r.epmod = true)
      (good → Claims.FlagRoom v.x fb → exec (.lload fb sl a) s =
        .next (Claims.give w fb 1 l.sc false [.lslot sl.toNat img] {} (l.evs.foldl (fun t e => logEvent w.l.ctx e t) s2))) ∧
      (¬good → exec (.lload fb sl a) s = .next (takeTrap s.cur .word { cause := .aseg, va := Claims.addr57 v.a, evs := l.evs }
        { s with tlb := s2.tlb, free := s2.free, dies := s2.dies }))) ∧
    (∀ (fb : Bool) (sl : BitVec 5) (sl3 : BitVec 3) (a : RegNo) (x : Strand), s.strand s.cur = some x → a.toNat < 120 →
      (Claims.slotWordForm a).encFault s.cur.kind x = none → ¬Claims.carries (Claims.slotWordForm a).a (Claims.window x a 2) →
      let t := takeTrap s.cur .word { cause := .ftag, va := Claims.addr57 (Claims.window x a 2) } s
      exec (.bload fb sl a) s = .next t ∧ exec (.lload fb sl3 a) s = .next t) ∧
    (∀ (d : RegNo) (sl : BitVec 5) (im : BitVec 7) (img : BitVec 256) (s2 : State),
      readWord { cls := 9, rsv := decide (9 ≤ im.toNat), out := some (d, 1) } s = .ok (v, s1) → slotRec v.k sl.toNat s1 = .ok (img, s1) →
      let q := if im = 8#7 then (if img = 0#256 then 0#32 else 1#32) else img.extractLsb' (32 * im.toNat) 32
      writeVals v.k v.x d [⟨q, 2#5⟩] s1 = .ok ((), s2) → exec (.bqrySlot d sl im) s = .next (s2.modStrand v.k (·.advance 1))) ∧
    ∀ (kd : BitVec 2) (sc : BitVec 3), readWord { cls := 10 } s = .ok (v, s1) →
      let met := if kd = 0#2 then ∀ y ∈ s1.openOf v.k, y.ask.reads = false
        else s1.openOf v.k = [] ∧ s1.replDoneAt v.k v.x sc.toNat = true
      (met → exec (.fence kd sc) s = .next (s1.modStrand v.k (·.advance 1))) ∧
      (¬met → exec (.fence kd sc) s = .next (s.modStrand s.cur (Claims.stays .room s.cycle)))

/-- What a word of the register classes leaves alone (R44, R71): all of the module but the strand and its thread's queues, so every byte
of memory; of the strand everything but its place in the program and the destination's registers; and without queue ports no queue. -/
def Obligations.RegisterWordFrame : Prop :=
  ∀ (i : Instr) (sp : WordForm) (f : Vals → List TVal × Log) (s s1 s2 : State) (v : Vals),
    (Claims.intRow i = some (sp, f) ∨ Claims.logicRow i = some (sp, f) ∨ Claims.moveRow s i = some (sp, f) ∨
      Claims.floatRow i = some (sp, f) ∨ Claims.packedRow s i = some (sp, f)) →
    readWord sp s = .ok (v, s1) → Claims.putOut sp v (f v).1 s1 = .ok ((), s2) → (f v).2 = {} →
    ∃ t y, exec i s = .next t ∧ { t with strands := s.strands, threads := s.threads } = s ∧ Claims.SameMemory s t ∧
      (∀ j, j ≠ s.cur → t.strand j = s.strand j) ∧ (∀ j, j ≠ s.cur.thread → t.thread j = s.thread j) ∧
      (Claims.isPlain sp.a → Claims.isPlain sp.b → Claims.isPlain sp.d → (∀ o, sp.out = some o → o.1.toNat < 120 ∨ o.1 = 126#7) →
        t.threads = s.threads) ∧
      t.strand s.cur = some y ∧ y.preds = v.x.preds ∧ y.flags = v.x.flags ∧ y.wb = v.x.wb ∧ y.fault = v.x.fault ∧
      y.inHandler = v.x.inHandler ∧ y.hWb = v.x.hWb ∧ y.hCpc = v.x.hCpc ∧ y.hFpc = v.x.hFpc ∧ y.rgn = v.x.rgn ∧
      y.seqCopy = v.x.seqCopy ∧ y.seqFab = v.x.seqFab ∧ y.replOut = v.x.replOut ∧ y.regs.length = v.x.regs.length ∧
      ∀ j, (∀ o, sp.out = some o → o.1.toNat < 120 → j < v.x.wb + o.1.toNat ∨ v.x.wb + o.1.toNat + o.2 ≤ j) → y.regs[j]? = v.x.regs[j]?

namespace Sys2Proof.Claims

open Sys2Proof Sys2Proof.Machine

/-! ## Class 0xB (R170 to R191) -/

/-- A class 0xB word: its flag (MMQ has none), its form, the check of its operand value, and the entries that it delivers. -/
abbrev MmRow := Option Bool × WordForm × (Vals → Prop) × Nat

def mmRow (s : State) : Instr → Option MmRow
  | .mminit fb t a => some (some fb, { cls := 11, rsv := !s.tileOk t, a := some { n := a, acc := .int } },
      fun v => -32768 ≤ (w32 v.a).toInt ∧ (w32 v.a).toInt ≤ 32767, 0)
  | .mmloop fb t a b _ => some (some fb,
      { cls := 11, len := 2, rsv := !s.tileOk t, a := some { n := a, acc := .int }, b := some { n := b, acc := .int }, out := some (126#7, 1) },
      fun _ => True, 0)
  | .mmnorm fb t a => some (some fb, { cls := 11, rsv := !s.tileOk t, a := some { n := a, acc := .int } },
      fun v => 1 ≤ (w32 v.a).toNat ∧ (w32 v.a).toNat ≤ 46, 0)
  | .mmdrain fb t m => some (some fb, { cls := 11, rsv := !s.tileOk t }, fun _ => True, if m = 1#1 then 2 else 4)
  | .mmq d t im => some (none, { cls := 11, rsv := !s.tileOk t || decide (3 ≤ im.toNat), out := some (d, 1) }, fun _ => True, 0)
  | _ => none

/-- The scale registers of an MMLOOP at this place of the circle carry the scale tag (R186). -/
def scalesTagged (v : Vals) (w : BitVec 32) : Prop :=
  mmSupplies w (v.k.tid % 32) = true → ∀ y ∈ window v.x (mmSreg w) (mmScaleRegs w), y.tag = 9#5

/-- What a class 0xB word reads (R179, R186): its operands; for MMLOOP its literal, or with QL set the command popped from `mq`. `w` is
the command, and `ql` says that it was popped. -/
def mmReads (s : State) (fmt : List (BitVec 32)) (i : Instr) (sp : WordForm) (v : Vals) (w : BitVec 32) (ql : Bool) (s2 : State) : Prop :=
  match i with
  | .mmloop _ _ _ _ lit =>
    let good := fun (y : BitVec 32) => !litQl y && mmLitOk y && mmClassOk fmt y
    if litQl lit then
      ql = true ∧ ∃ s1 c, readWord { sp with rsv := sp.rsv || !mmLitOk lit } s = .ok (v, s1) ∧ popVals v.k .mqOut 1 s1 = .ok ([c], s2) ∧
        w = c.bits ∧ good w = true ∧ (mmSupplies w (v.k.tid % 32) = true → v.x.inWindow (mmSreg w) (mmScaleRegs w) = true) ∧ scalesTagged v w
    else
      ql = false ∧ w = lit ∧ scalesTagged v w ∧ readWord { sp with
        rsv := sp.rsv || !good lit, more := if mmSupplies lit (s.cur.tid % 32) then some (mmSreg lit, mmScaleRegs lit) else none } s = .ok (v, s2)
  | _ => ql = false ∧ w = 0#32 ∧ readWord sp s = .ok (v, s2)

/-- The arrival at the class 0xB instance of a circle, and the strand held by it (R178). -/
def mmArrival (sp : WordForm) (v : Vals) (iw w : BitVec 32) (ql : Bool) : Arrival :=
  { tid := v.k.tid, word := iw, lit := w, a := v.a.headD ⟨0#32, 0#5⟩, b := v.b.headD ⟨0#32, 0#5⟩, pa := ql,
    pops := sp.pops v.k.kind ++ if ql then [(.mqOut, 1)] else [] }

def mmHeld (v : Vals) (ci : Machine.Circle) (a : Arrival) (s : State) : State :=
  (s.modGroup v.k.grp fun y => { y with circ := tset y.circ (v.k.tid / 32, .matrix) { ci with arr := ci.arr ++ [a] } }).modStrand v.k fun x =>
    { x with phase := .arrived .matrix, blk := .none }

/-- The command of an instance: the tile, and what the array is to do (Table 8.4). -/
def mmCommand (i : Instr) (a : Arrival) (rows cols : List (List Byte)) : Option (Nat × ArrOp) :=
  match i with
  | .mminit _ t _ => some (t.toNat, .init a.a.bits.toInt)
  | .mmloop _ t _ _ _ => some (t.toNat, .loop a.a.bits.toNat a.b.bits.toNat a.lit rows cols)
  | .mmnorm _ t _ => some (t.toNat, .norm a.a.bits.toNat)
  | .mmdrain _ t m => some (t.toNat, .drain (m == 1#1))
  | .mmq _ t sel => some (t.toNat, .query sel.toNat)
  | _ => none

/-- `m` / 2^k rounded to the nearest integer, ties to even (R57). -/
def rneShift (m : Int) (k : Nat) : Int :=
  let f := m / 2 ^ k
  let r := m % 2 ^ k
  if 2 * r < 2 ^ k then f else if 2 ^ k < 2 * r then f + 1 else if f % 2 = 0 then f else f + 1

/-- The integer that stands for `m` 2^e at the exponent `q`: exact downward, rounded upward (R189). -/
def scaled (m e q : Int) : Int := if e ≤ q then rneShift m (q - e).toNat else m * 2 ^ (e - q).toNat

/-- A finite value of an element at the tile's exponent: the old one and the step sum together. -/
def sumAt (t : Tile) (i : Nat) (st : List StepVal) : Int :=
  let y := lget st i ⟨.fin, ⟨0, 0⟩, false⟩
  lget t.m i 0 + y.s.m * 2 ^ (y.s.e - t.e).toNat

/-! ## Class 0xC (R202 to R223) -/

/-- What a selector of HQ names (R221): the words of the handle entry (Table 10.1), and the fields of a bound sync word. -/
def handleValue (h : Handle) (sel : Nat) : BitVec 32 :=
  let state : BitVec 32 := match h.state with
    | .free => 0#32
    | .filling => 1#32
    | .full => 2#32
    | .draining => 3#32
  let bound := fun (n : Nat) => if h.bound then BitVec.ofNat 32 n else 0#32
  match sel with
  | 0 => state ||| flagBit h.psn 2 ||| flagBit h.bound 3 ||| flagBit h.heldIn 4 ||| flagBit (0 < h.nout) 5
  | 1 => h.buf
  | 2 => h.sync
  | 3 => bound h.target
  | 4 => bound h.count
  | 5 => bound h.gen
  | _ => bound h.flags

/-- A checked handle word finds its handle in the group. -/
def hqRow (s : State) : Instr → Option Row
  | .hq d h im => some ({ cls := 12, rsv := decide (7 ≤ im.toNat) || !s.handleIn s.cur.grp h.toNat, out := some (d, 1) }, fun v =>
      one 2#5 (handleValue (s.handle v.k.grp h.toNat) im.toNat))
  | _ => none

/-- What a submission waits for (R197, R200, R201): room in its flag, no flagged wait at a barrier, the earlier accesses of its strand
at its scope, an engine that works and has room, and an entry of `cq` for its token. -/
def submitReady (w : Who) (fb : Bool) (scope : Nat) (tok : Bool) (it : Item) (s : State) : Prop :=
  FlagRoom w.x fb ∧ s.barWaiting w.k = false ∧ s.released w.k s.nextId scope false = true ∧
    (∀ u, s.unitOf it = some u → s.isFenced u.1 3 u.2 = false) ∧
    s.engineRoom w.k.grp it.kind = true ∧ (tok = true → ∃ t, s.thread w.k.thread = some t ∧ t.cqIn.room 1 = true)

/-- The token's entry of `cq`, if the word asks for one (R201). -/
def tokened (k : StrandKey) (tok : Bool) (s : State) : Option Nat × State :=
  match tok, s.thread k.thread with
  | true, some t => (t.cqIn.reserve.1, s.modQ k.thread .cqIn fun _ => t.cqIn.reserve.2)
  | _, _ => (none, s)

/-- The state after a submission (R199 to R201): the token's entry, the commit, the item last in the order of acceptance, and the next
SEQ of the strand's copies or of its fabric submissions. -/
def submitted (w : Who) (fb : Bool) (len : Nat) (tok fab : Bool) (it : Item) (s : State) : State :=
  let r := tokened w.k tok s
  let s1 := commitWord w.k len r.2
  let sq := if fab then w.x.seqFab else w.x.seqCopy
  let s2 := acceptItem { it with tok := r.1, sq := sq, cpc := w.x.cpc } { s1 with nextId := s.nextId + 1 }
  give w fb len false true [] {} (s2.modStrand w.k fun x =>
    if fab then { x with seqFab := (x.seqFab + 1) % 65536 } else { x with seqCopy := (x.seqCopy + 1) % 65536 })

def litOf (l : BitVec 32) : Nat × Bool × Bool × Nat × Nat × Nat :=
  ((l.extractLsb' 0 7).toNat, l.getLsbD 8, l.getLsbD 9, (l.extractLsb' 10 2).toNat, (l.extractLsb' 12 2).toNat, (l.extractLsb' 16 3).toNat)

/-- What a copy of a box has to satisfy (R213, R214). -/
def cptOk (w : Who) (h : Handle) (img : BitVec 512) (off : Nat) (out : Bool) (s : State) : Prop :=
  let r := layRec img
  img ≠ 0#512 ∧ s.usable w.g.die w.d w.l.rc r.seg r.epmod = true ∧ ¬(out = true ∧ r.seg = .repl) ∧
    (if out then r.pw else r.pr) = true ∧ s.descIn w.g w.l.rc w.d.yard h.buf off r.bytes = true ∧
    (r.gather = true → r.goff + 4 * lget r.box 1 1 ≤ w.l.rc.scratch) ∧ off % 2 ^ r.esz = 0

/-- Its item: the footprint, the buffer first, and the one transfer that the box becomes when it starts. -/
def cptItem (w : Who) (hn : Nat) (h : Handle) (img : BitVec 512) (c : List Int) (off : Nat) (out : Bool) (s : State) : Item :=
  let r := layRec img
  let buf := descEnd w.k.grp w.g h.buf off
  let mem := match r.extentOf c (r.edge == 1 && !out) with
    | some e => memRegions w r.seg e.1 e.2 r.epmod r.epdie out
    | none => []
  let list := if r.gather then [⟨.core w.k.grp, r.goff, r.goff + 4 * lget r.box 1 1, false⟩] else []
  { Item.blank s.nextId w.g.die w.l.ctx w.k .cpt with
    regions := bufRegion w h off r.bytes (!out) :: (mem ++ list), box := some (img, c, r.goff), handle := some hn, inbound := !out,
    counts := !out, total := r.bytes,
    moves := [if out then ⟨0, buf, .pat [], r.bytes, none, false⟩ else ⟨0, .pat [0#8], buf, r.bytes, none, false⟩] }

/-- The item of a copy of a span (R215). -/
def cpsItem (w : Who) (hn : Nat) (h : Handle) (r : BufRec) (i n off : Nat) (out : Bool) (s : State) : Item :=
  let va := r.form i 0
  let mem := memEnd w r.seg va r.epmod r.epdie r.ostrm
  let buf := descEnd w.k.grp w.g h.buf off
  { Item.blank s.nextId w.g.die w.l.ctx w.k .cps with
    regions := bufRegion w h off n (!out) :: memRegions w r.seg va n r.epmod r.epdie out, handle := some hn, inbound := !out,
    counts := !out, total := n, moves := if out then s.cutMoves 0 buf mem n n else s.cutMoves 0 mem buf n n }

/-- What a tile move has to satisfy (R216): `so` and `bo` are where source and destination start. -/
def tmovOk (w : Who) (h : Handle) (src : BitVec 32) (off rows rowb : Nat) (col : Bool) (csz : Nat) (s : State) : Prop :=
  let n := rows * rowb
  let so := descOff src
  let bo := descOff h.buf + off
  let dsts : List (Nat × Nat) := if col then (List.range 16).map fun j => (j * 2 ^ 19 + bo, n / 16) else [(bo, n)]
  descOk src = true ∧ 1 ≤ rows ∧
    (if col then descSeg h.buf = 2 ∧ rowb = 8 * 2 ^ csz ∧ (csz ≠ 0 ∨ rows % 2 = 0) else rowb % 16 = 0 ∧ 16 ≤ rowb) ∧
    (descSpace w.k.grp w.g src = descSpace w.k.grp w.g h.buf → ∀ e ∈ dsts, min (so + n) (e.1 + e.2) ≤ max so e.1) ∧
    s.usable w.g.die w.d w.l.rc (descSegment src) 0 = true ∧ s.descIn w.g w.l.rc w.d.yard src 0 n = true ∧
    (if col then bo + n / 16 ≤ 524288 ∧ ∀ e ∈ dsts, s.linOk w.g.die w.g.core w.d.yard e.1 e.2 = true
      else s.descIn w.g w.l.rc w.d.yard h.buf off n = true) ∧
    (if col then bo % 64 = 0 else so % 16 = 0 ∧ bo % 16 = 0)

def tmovItem (w : Who) (hn : Nat) (h : Handle) (src : BitVec 32) (off rows rowb : Nat) (col : Bool) (csz : Nat) (s : State) : Item :=
  let n := rows * rowb
  let so := descOff src
  let bo := descOff h.buf + off
  { Item.blank s.nextId w.g.die w.l.ctx w.k .tmov with
    regions := [⟨descSpace w.k.grp w.g src, so, so + n, false⟩,
      if col then ⟨.loft w.g.die w.g.core, bo, 15 * 2 ^ 19 + bo + n / 16, true⟩ else bufRegion w h off n true]
    handle := some hn, inbound := true, counts := true, total := n
    moves := [⟨0, descEnd w.k.grp w.g src 0, descEnd w.k.grp w.g h.buf off, n, none, false⟩]
    split := if col then some csz else none, colsLeft := if col then List.range 16 else [] }

/-- The item of a job (R222, R223), its card `c` of 16 words. -/
def jobItem (w : Who) (k : StrandKey) (c : List TVal) (s : State) : Item :=
  let w0 := w32 c
  let len := (w32 (c.drop 1)).toNat
  let kind := (w0.extractLsb' 0 4).toNat
  let e := fun (r : JobReg) => memEnd w r.seg r.va 0 0 0
  { Item.blank s.nextId w.g.die w.l.ctx k (.job kind) with
    regions := (((List.range 4).map (jobReg c)).filter (·.valid)).flatMap fun r => memRegions w r.seg r.va r.len 0 0 r.wr
    whole := true, handle := if w0.getLsbD 5 then some (w0.extractLsb' 6 7).toNat else none, inbound := true
    counts := w0.getLsbD 5, total := len
    moves := match kind with
      | 0 => s.cutMoves 0 (e (jobReg c 0)) (e (jobReg c 1)) len len
      | 1 => s.cutMoves 0 (.pat (toBytes 4 (w32 (c.drop 2)).toNat)) (e (jobReg c 0)) len len
      | _ => [] }

end Sys2Proof.Claims

/-- The class 0xB words (R178 to R180, R186, R188): each arrives at the instance of its circle once its checks have passed and its room is
there, and is held until every participant has arrived. -/
def Obligations.MatrixWords : Prop :=
  ∀ (i : Instr) (fb : Option Bool) (sp : WordForm) (ok : Vals → Prop) (room : Nat) (s s2 : State) (v : Vals) (w iw : BitVec 32) (ql : Bool)
    (l : Launch) (g : Group) (th : Thread),
    Claims.mmRow s i = some (fb, sp, ok, room) → s.launch s.cur.grp.launch = some l → Claims.mmReads s l.rc.fmt i sp v w ql s2 → ok v →
    (∀ b, fb = some b → Claims.FlagRoom v.x b) → s2.barWaiting v.k = false → Claims.resultRoom s2 v.k sp →
    s.thread v.k.thread = some th → th.mqIn.room room = true → v.x.word = some iw → s.group v.k.grp = some g →
    let ci := tgetD g.circ (v.k.tid / 32, .matrix) ⟨s.cycle, []⟩
    let a := Claims.mmArrival sp v iw w ql
    let u := Claims.mmHeld v ci a s
    (∀ y ∈ ci.arr, y.word = iw ∧ y.lit = w ∧ y.a.bits = a.a.bits ∧ y.b.bits = a.b.bits ∧ y.pa = ql) →
    exec i s = .next (settleMatrix v.k.grp (v.k.tid / 32) u) ∧
    (u.instFull v.k.grp g.size (v.k.tid / 32) .matrix (ci.arr ++ [a]) = false → exec i s = .next u)

/-- An instance of class 0xB whose participants have all arrived (R178 to R183, R341): one command enters the array's order, and every
participant commits, pops, and holds its flag until the array has applied the command. A check that fails traps every participant, and one
whose B region meets a fenced structure ends its launch. That the scale registers are read as the instance issues is the model's choice (log
59). -/
def Obligations.MatrixIssue : Prop :=
  ∀ (s : State) (g : GroupKey) (c : Nat) (x : Group) (l : Launch) (ci : Machine.Circle) (a : Arrival) (rest : List Arrival) (i : Instr)
    (tile : Nat) (op : ArrOp) (y : Strand),
    s.group g = some x → s.launch g.launch = some l → tget x.circ (c, .matrix) = some ci → s.instFull g x.size c .matrix ci.arr = true →
    inTidOrder ci.arr c = a :: rest → decode a.word (some a.lit) = .ok i →
    Claims.mmCommand i a (s.scales g c 0 8 a.lit) (s.scales g c 8 16 a.lit) = some (tile, op) →
    let s0 := clearCircle g (c, .matrix) s
    s0.strand ⟨g, a.tid, .x⟩ = some y →
    (op.fault x l.rc.scratch (s.yardOf l.ctx) s0 = none → op.fencedB x s0 = none →
      let s1 := (a :: rest).foldl (fun s a => arrIssue i (s0.nextId) ⟨g, a.tid, .x⟩ a s) { s0 with nextId := s0.nextId + 1 }
      settleMatrix g c s = tryArray s0.nextId (s1.accept { Item.blank s0.nextId x.die l.ctx ⟨g, a.tid, .x⟩ .array with
        regions := op.regions g x, arr := some ⟨c, tile, op, (a :: rest).map (·.tid), y.cpc⟩ })) ∧
    (∀ f, op.fault x l.rc.scratch (s.yardOf l.ctx) s0 = none → op.fencedB x s0 = some f →
      settleMatrix g c s = blastUse g.launch x.die f.1 f.2 s0) ∧
    ∀ ca va, op.fault x l.rc.scratch (s.yardOf l.ctx) s0 = some (ca, va) →
      settleMatrix g c s = takeTraps ((a :: rest).map fun a => ⟨g, a.tid, .x⟩) { cause := ca, va := va } s0

/-- What the array does to a tile (R176, R177, R185, R188 to R190). MMINIT clears it at a new exponent. A step with finite sums adds them
exactly while they stay below 2^47 at the tile's exponent; where one does not, every sum is rounded once, at the least greater exponent at
which all are below 2^46, and at 32,767 if that is greater, where an element that is still too great becomes an infinity. MMNORM takes the
least exponent that leaves its headroom. A drain, of f32 or of bf16, and the three queries change nothing and deliver their values. -/
def Obligations.TileArithmetic : Prop :=
  ∀ (g : GroupKey) (x : Group) (fmt : List (BitVec 32)) (t : Tile) (s : State),
    (∀ e, applyArr g x fmt (.init e) t s = ({ m := List.replicate 128 0, sp := List.replicate 128 .fin, e := e, rcnt := 0, esat := false }, {})) ∧
    (∀ sel, (applyArr g x fmt (.query sel) t s).1 = t) ∧ (∀ bf, (applyArr g x fmt (.drain bf) t s).1 = t) ∧
    (∀ p, p < 32 → (ArrOp.drain false).gives t p =
      [0, 1, 2, 3].map fun q => (⟨BitVec.ofNat 32 (t.drain f32 (32 * q + p)).1, 3#5⟩ : TVal)) ∧
    (∀ p, p < 32 → (ArrOp.drain true).gives t p = [0, 1].map fun q =>
      (⟨BitVec.ofNat 32 ((t.drain bf16 (64 * q + 2 * p)).1 + 2 ^ 16 * (t.drain bf16 (64 * q + 2 * p + 1)).1), 5#5⟩ : TVal)) ∧
    (∀ p, (ArrOp.query 0).gives t p = [⟨BitVec.ofInt 32 t.e, 1#5⟩] ∧
      (ArrOp.query 1).gives t p = [⟨(BitVec.ofNat 32 t.rcnt <<< 16) ||| Claims.flagBit t.esat 3 ||| Claims.flagBit (t.rcnt ≠ 0) 2 |||
        Claims.flagBit (t.sp.any fun y => y == .pinf || y == .ninf) 1 ||| Claims.flagBit (t.sp.any (· == .nan)) 0, 2#5⟩] ∧
      ∃ n, (ArrOp.query 2).gives t p = [⟨BitVec.ofNat 32 n, 2#5⟩] ∧ (∀ m ∈ t.m, m.natAbs < 2 ^ n) ∧
        (n = 0 ∨ ∃ m ∈ t.m, 2 ^ (n - 1) ≤ m.natAbs)) ∧
    (∀ h, ((∀ m ∈ t.m, m = 0) → applyArr g x fmt (.norm h) t s = (t, {})) ∧
      (1 ≤ h → h ≤ 46 → t.e ≤ 32767 → (∃ m ∈ t.m, m ≠ 0) →
        let at_ := fun (q : Int) => ({ t with
          m := t.m.map fun m => Claims.scaled m t.e q, e := q, rcnt := if t.e < q then min (t.rcnt + 1) 0xFFFF else t.rcnt } : Tile)
        (∀ q, -32768 ≤ q → q ≤ 32767 → (∀ m ∈ t.m, (Claims.scaled m t.e q).natAbs < 2 ^ (47 - h)) →
          (q = -32768 ∨ ∃ m ∈ t.m, 2 ^ (47 - h) ≤ (Claims.scaled m t.e (q - 1)).natAbs) →
          applyArr g x fmt (.norm h) t s = (at_ q, {})) ∧
        ((∃ m ∈ t.m, 2 ^ (47 - h) ≤ (Claims.scaled m t.e 32767).natAbs) →
          applyArr g x fmt (.norm h) t s = ({ at_ 32767 with esat := true }, {})))) ∧
    ∀ st : List StepVal, st.length = t.m.length → t.sp.length = t.m.length → (∀ y ∈ t.sp, y = .fin) →
      (∀ y ∈ st, y.sp = .fin ∧ y.invl = false ∧ (y.s.m = 0 ∨ t.e ≤ y.s.e)) → t.e ≤ 32767 →
      let sums := (List.range t.m.length).map fun i => Claims.sumAt t i st
      ((∀ v ∈ sums, v.natAbs < 2 ^ 47) → t.step st = ({ t with m := sums }, {})) ∧
      ∀ k : Nat, (∃ v ∈ sums, 2 ^ 47 ≤ v.natAbs) → 1 ≤ k → (∀ v ∈ sums, (Claims.rneShift v k).natAbs < 2 ^ 46) →
        (k = 1 ∨ ∃ v ∈ sums, 2 ^ 46 ≤ (Claims.rneShift v (k - 1)).natAbs) →
        (t.e + k ≤ 32767 → t.step st =
          ({ t with m := sums.map fun v => Claims.rneShift v k, e := t.e + k, rcnt := min (t.rcnt + 1) 0xFFFF }, {})) ∧
        (32767 < t.e + k →
          let l := sums.map fun v => Claims.rneShift v (32767 - t.e).toNat
          let big := fun (v : Int) => decide (2 ^ 47 ≤ v.natAbs)
          t.step st = ({ m := l.map fun v => if big v then 0 else v, e := 32767, rcnt := min (t.rcnt + 1) 0xFFFF, esat := true
                         sp := l.map fun v => if big v then (if 0 < v then .pinf else .ninf) else .fin }, { ovfl := l.any big }))

/-- The handle words (R202 to R207, R217 to R221): HSET binds a free handle to its buffer and sync word; HWAIT gives the generation once
the state is reached, traps at a poisoned generation and waits otherwise; HREL releases the generation it names and no other; HQ reads. -/
def Obligations.HandleWords : Prop :=
  Claims.Gives Claims.hqRow ∧
  (∀ (hn : BitVec 7) (a b : RegNo) (s s1 : State) (v : Vals) (x : Group) (l : Launch),
    readWord { cls := 12, a := some { n := a, acc := .int }, b := some { n := b, acc := .int } } s = .ok (v, s1) →
    s1.group v.k.grp = some x → s1.launch v.k.grp.launch = some l →
    let buf := Claims.w32 v.a
    let syn := Claims.w32 v.b
    let e := s1.handle v.k.grp hn.toNat
    let m := s1.syncAt v.k.grp x syn
    let e' := { e with bound := true, buf := buf, sync := syn, target := fieldAt m 0 4, count := 0, gen := fieldAt m 8 4, psn := false,
                       ovr := false, fcause := 0 }
    (hsetFault buf syn hn.toNat v.k.grp x l.rc (s1.yardOf l.ctx) s1 = none →
      (e.state = .free → fieldAt m 0 4 ≠ 0 → exec (.hset hn a b) s = .next (State.modStrand
        (handleEvent v.k.grp hn.toNat id (syncWrite v.k.grp e' (setHandle v.k.grp hn.toNat e' s1))) v.k (·.advance 1))) ∧
      (e.state ≠ .free → e.buf = buf → e.sync = syn → exec (.hset hn a b) s = .next (s1.modStrand v.k (·.advance 1)))) ∧
    ∀ ca, hsetFault buf syn hn.toNat v.k.grp x l.rc (s1.yardOf l.ctx) s1 = some ca →
      exec (.hset hn a b) s = .next (takeTrap s.cur .word { cause := ca } { s with tlb := s1.tlb, free := s1.free, dies := s1.dies })) ∧
  (∀ (fb : Bool) (d : RegNo) (hn : BitVec 7) (m : BitVec 1) (s s1 : State) (v : Vals),
    readWord { cls := 12, rsv := !s.handleOk s.cur.grp hn.toNat, out := some (d, 1) } s = .ok (v, s1) → Claims.FlagRoom v.x fb →
    let e := s1.handle v.k.grp hn.toNat
    let r : List TVal := [⟨BitVec.ofNat 32 e.gen, 2#5⟩]
    let want := if m = 1#1 then HState.free else HState.full
    (e.state = want → m = 1#1 ∨ e.psn = false →
      (∀ s2, v.x.selFlag fb = none → writeVals v.k v.x d r s1 = .ok ((), s2) →
        exec (.hwait fb d hn m) s = .next (s2.modStrand v.k (·.advance 1))) ∧
      ∀ f pl s2, v.x.selFlag fb = some f → places v.k v.x d 1 s1 = .ok (pl, s2) →
        exec (.hwait fb d hn m) s = .next (Claims.leave (Claims.pendOf s2 v.k v.x f 1 (destsOf pl r) {} false) f s2)) ∧
    (e.state = .full → m = 0#1 → e.psn = true → exec (.hwait fb d hn m) s =
      .next (takeTrap s.cur .word { cause := .hpsn, va := descOff e.sync } { s with tlb := s1.tlb, free := s1.free, dies := s1.dies })) ∧
    (e.state ≠ want → exec (.hwait fb d hn m) s = .next (s.modStrand s.cur (Claims.stays .handle s.cycle)))) ∧
  ∀ (hn : BitVec 7) (b : RegNo) (s s1 : State) (v : Vals),
    readWord { cls := 12, rsv := !s.handleOk s.cur.grp hn.toNat, b := some { n := b, acc := .int } } s = .ok (v, s1) →
    let e := s1.handle v.k.grp hn.toNat
    let t := s1.modStrand v.k (·.advance 1)
    (e.state = .full → e.gen = (Claims.w32 v.b).toNat →
      exec (.hrel hn b) s = .next (handleEvent v.k.grp hn.toNat (fun h =>
        if h.nout = 0 then h.reachFree else { h with state := .draining }) t)) ∧
    (e.state ≠ .full ∨ e.gen ≠ (Claims.w32 v.b).toNat → exec (.hrel hn b) s = .next t)

/-- The copies, tile moves and jobs (R197 to R201, R208 to R216, R222, R223): a word whose checks have passed and for which the engine has
room submits its item. That the cluster's side of a copy and of a job is not held against the window is the model's choice (log 48), and so
is its reading that in column split mode a tile move's source may overlap none of the 16 columns (log 49). -/
def Obligations.CopyWords : Prop :=
  (∀ (fb : Bool) (ls : BitVec 3) (a b : RegNo) (lit : BitVec 32) (s s1 : State) (q : Sub) (img : BitVec 512),
    subWord { cls := 12, len := 2, a := some { n := a, w := 4, acc := .int }, b := some { n := b, acc := .int } } lit (copyLitOk false)
      (some ls.toNat) false s = .ok (q, s1) → layoutRec q.v.k ls.toNat s1 = .ok (img, s1) →
    let (hn, out, tok, _, _, scope) := Claims.litOf q.lit
    let h := s1.handle q.w.k.grp hn
    let c := q.v.a.map fun v => v.bits.toInt
    let off := (Claims.w32 q.v.b).toNat
    let it := Claims.cptItem q.w hn h img c off out s1
    s1.handleOk q.w.k.grp hn = true → Claims.cptOk q.w h img off out s1 → Claims.submitReady q.w fb scope tok it s1 →
    exec (.cpt fb ls a b lit) s = .next (Claims.submitted q.w fb 2 tok false it s1)) ∧
  (∀ (fb : Bool) (sl : BitVec 5) (a b : RegNo) (lit : BitVec 32) (s s1 : State) (q : Sub) (img : BitVec 256),
    subWord { cls := 12, len := 2, a := some { n := a, w := 2, acc := .int }, b := some { n := b, acc := .int } } lit (copyLitOk false)
      (some sl.toNat) true s = .ok (q, s1) → slotRec q.v.k sl.toNat s1 = .ok (img, s1) →
    let (hn, out, tok, _, _, scope) := Claims.litOf q.lit
    let h := s1.handle q.w.k.grp hn
    let r := bufRec img
    let i := (Claims.w32 q.v.a).toNat
    let n := (Claims.w32 (q.v.a.drop 1)).toNat
    let off := (Claims.w32 q.v.b).toNat
    let it := Claims.cpsItem q.w hn h r i n off out s1
    s1.handleOk q.w.k.grp hn = true → 1 ≤ n → n ≤ 2 ^ 23 → img ≠ 0#256 → r.seg ≠ .priv →
    s1.usable q.w.g.die q.w.d q.w.l.rc r.seg r.epmod = true → ¬(out = true ∧ r.seg = .repl) →
    spanFault q.w r i n (if out then r.pw else r.pr) (s1.descIn q.w.g q.w.l.rc q.w.d.yard h.buf off n) (off % 2 ^ r.esz == 0) = none →
    Claims.submitReady q.w fb scope tok it s1 → exec (.cps fb sl a b lit) s = .next (Claims.submitted q.w fb 2 tok false it s1)) ∧
  (∀ (fb : Bool) (d a b : RegNo) (lit : BitVec 32) (s s1 : State) (q : Sub),
    subWord { cls := 12, len := 2, a := some { n := a, acc := .int }, b := some { n := b, acc := .int }, d := some { n := d, acc := .int } }
      lit (copyLitOk true) none false s = .ok (q, s1) →
    let (hn, _, tok, mode, csz, scope) := Claims.litOf q.lit
    let h := s1.handle q.w.k.grp hn
    let src := Claims.w32 q.v.d
    let off := (Claims.w32 q.v.a).toNat
    let rows := ((Claims.w32 q.v.b).extractLsb' 0 16).toNat
    let rowb := ((Claims.w32 q.v.b).extractLsb' 16 16).toNat
    let it := Claims.tmovItem q.w hn h src off rows rowb (mode == 1) csz s1
    s1.handleOk q.w.k.grp hn = true → Claims.tmovOk q.w h src off rows rowb (mode == 1) csz s1 → Claims.submitReady q.w fb scope tok it s1 →
    exec (.tmov fb d a b lit) s = .next (Claims.submitted q.w fb 2 tok false it s1)) ∧
  ∀ (fb : Bool) (s s1 : State) (x : Strand) (c : List TVal) (w : Who),
    s.strand s.cur = some x → ({ cls := 12 } : WordForm).encFault s.cur.kind x = none → popVals s.cur .cqOut 16 s = .ok (c, s1) →
    who s.cur x s1 = .ok (w, s1) → jobOk c (s1.handleOk s.cur.grp ((Claims.w32 c).extractLsb' 6 7).toNat) = true →
    (∀ r ∈ ((List.range 4).map (jobReg c)).filter (·.valid), s1.usable w.g.die w.d w.l.rc r.seg 0 = true) →
    let it := Claims.jobItem w s.cur c s1
    Claims.submitReady w fb ((Claims.w32 c).extractLsb' 16 3).toNat ((Claims.w32 c).getLsbD 4) it s1 →
    exec (.jobs fb) s = .next (Claims.submitted w fb 1 ((Claims.w32 c).getLsbD 4) false it s1)

namespace Sys2Proof.Claims

open Sys2Proof Sys2Proof.Machine

/-! ## Class 0xD (R314 to R320, R332 to R337, R358 to R380) -/

def strongRow : Instr → Option (StrongKind × Bool × RegNo × BitVec 5 × RegNo)
  | .sst fb d sl b => some (.sst, fb, d, sl, b)
  | .satmAdd fb d sl b => some (.add, fb, d, sl, b)
  | .satmXchg fb d sl b => some (.xchg, fb, d, sl, b)
  | .satmCas fb d sl b => some (.cas, fb, d, sl, b)
  | _ => none

/-- Its form, for a record of element size `esz` (R318, R319). -/
def strongForm (op : StrongKind) (esz : Nat) (d b : RegNo) : WordForm :=
  let w := if esz == 3 then 2 else 1
  { cls := 13, b := some { n := b, acc := .int }, d := some { n := d, w := if op == .cas then 2 * w else w }
    out := if op == .sst then none else some (d, w) }

def strongNeed (op : StrongKind) (esz : Nat) : RecNeed :=
  { ak := if op == .sst then .write else .rmw, esz := if op == .sst then [0, 1, 2, 3] else [2, 3],
    etag := fun t => op != .add || (if esz == 3 then t == 13#5 else t == 1#5 || t == 2#5), seg := (· == .repl),
    bits := if op == .sst then (·.pw) else fun r => r.pr && r.pw && r.pa }

/-- What a strong operation waits for (R310, R316, R322). -/
def strongGoes (w : Who) (fb : Bool) (s : State) : Prop :=
  FlagRoom w.x fb ∧ s.barWaiting w.k = false ∧ s.released w.k s.nextId 4 true = true ∧ s.strongHeld w.g.die = false

/-- Value and second value of a strong operation from its data registers. -/
def strongVals (esz : Nat) (l : List TVal) : Nat × Nat :=
  if esz = 3 then ((w64 l).toNat, (w64 (l.drop 2)).toNat) else ((w32 l).toNat % 2 ^ (8 * 2 ^ esz), (w32 (l.drop 1)).toNat)

/-- A strong operation leaves (R314, R315): it takes the die's next SEQ, asks for a slot, and waits for it; its strand goes on under a
flag, or is held in the word, as on a page marked SC (R165). -/
def StrongLeft (w : Who) (fb sc : Bool) (op : StrongKind) (off n val val2 : Nat) (pl : List Place) (tags : List Tag) (s t : State) : Prop :=
  let die := w.g.die
  let sq := (s.repl die).issued + 1
  (die < s.dies.length → (t.repl die).issued = sq ∧ (t.repl die).upds = (s.repl die).upds ++
    [Upd.mk sq (some op) w.k w.l.ctx off n val val2 none s.nextId w.x.pc s.cycle] ∧ (t.repl die).applied = (s.repl die).applied) ∧
  t.slotReqs = s.slotReqs ++ [SlotReq.mk die sq (s.repl die).clock] ∧ t.mem = s.mem ∧
  t.pend = s.pend ++ [{ pendOf s w.k w.x 0 1 [] {} true with
    flag := if sc then none else w.x.selFlag fb, kind := .strong die sq, places := pl, tags := tags, sc := sc }] ∧
  ∀ y, s.strand w.k = some y → t.strand w.k = some (match if sc then none else w.x.selFlag fb with
    | some f => { y with replOut := some (die, sq), flags := lmod y.flags f (· + 1) }.advance 1
    | none => { y with replOut := some (die, sq), phase := .sync s.nextId, blk := .none })

/-- The gate words: flag, form, the check of their operands, what they ask, and their destination (R333, R336). -/
abbrev GateRow := Bool × WordForm × (Vals → Prop) × (Vals → GateAsk) × RegNo × Nat

def pair (n : RegNo) : Opnd := { n := n, w := 2, acc := .i64 }

def gateRow : Instr → Option GateRow
  | .gsig fb a b => some (fb, { cls := 13, a := some (pair a), b := some { n := b, acc := .int } }, fun v => w32 v.b ≠ 0#32,
      fun v => .sig (w32 v.b).toNat, 126#7, 0)
  | .gwait fb d a b => some (fb, { cls := 13, a := some (pair a), b := some (pair b), out := some (d, 2) }, fun _ => True,
      fun v => .wait (w64 v.b).toNat, d, 2)
  | .grd fb d a => some (fb, { cls := 13, a := some (pair a), out := some (d, 2) }, fun _ => True, fun _ => .rd, d, 2)
  | _ => none

/-- A word that commits and releases: no flagged wait at a barrier, and the earlier accesses of its strand performed at yard scope. -/
def releases (v : Vals) (s : State) : Prop := s.barWaiting v.k = false ∧ s.released v.k s.nextId 6 false = true

/-- A gate operation on its way (R265, R333): a GATE event of the die that is its home, or of the asking die where the home module holds no
such gate; and a message where the home is another module. The lock that orders the events of one gate is the model's (log 25). -/
def gateSent (die : Nat) (o : GateOp) (s : State) : State :=
  let t := { s with nextId := s.nextId + 1, gateOps := s.gateOps ++ [o] }
  let home := match tget s.gates o.gid with
    | some g => if g.home < 8 then some g.home else none
    | none => if bitsOf o.gid 35 16 = s.modId then some die else none
  match home with
  | some d => raiseShed d ⟨.gate, o.ctx, o.gid % 256, o.id, 0, false⟩ t
  | none => { t with out := t.out ++ [.gateAsk die o.gid o.id o.tenant o.ctx o.ask] }

/-- The item of a multicast (R359, R360). -/
def mcstItem (w : Who) (op n i : Nat) (r : BufRec) (l : List Byte) (s : State) : Item :=
  let es := (List.range (fieldAt l 0 4)).map (mcstEnt l)
  let va := r.form i 0
  let src := memEnd w r.seg va r.epmod r.epdie r.ostrm
  { Item.blank s.nextId w.g.die w.l.ctx w.k (.mcst op) with
    regions := memRegions w r.seg va n r.epmod r.epdie false ++ es.map fun e => ⟨.glob e.m e.d, e.va, e.va + n, true⟩
    total := n
    moves := ((List.range es.length).zip es).flatMap fun e => mcstMoves src n op s e.1 e.2 }

/-- A collective takes the next place in its communicator's order (R365, R380), and fails at once where another rank of it has failed. -/
def ordered (ctx die comm : Nat) (y : Coll) (s : State) : State :=
  let n := tgetD (s.die die).collSeq comm 0
  joinColl ctx { y with id := s.nextId, order := n }
    ({ s with nextId := s.nextId + 1 }.modDie die fun d => { d with collSeq := tset d.collSeq comm (n + 1) })

/-- The events of error responses that the read of a record met (R168, R379). -/
def logged (w : Who) (l : RecRead) (s : State) : State := l.evs.foldl (fun s e => logEvent w.l.ctx e s) s

/-- What a COLL of a card brings (R364, R366). -/
def collOf (w : Who) (c : CollCard) (s : State) : Coll :=
  { id := 0, die := w.g.die, comm := c.comm, order := 0, op := c.op, dt := c.dt, count := c.count, root := c.root, src := c.src,
    dst := c.dst, clog := c.clog, prio := c.prio, scope := c.scope, tile := none, launch := w.l.id, map := none, dmem := true,
    pos := 0, sent := [], got := 0, need := 0, since := s.cycle, item := 0 }

def collItem (w : Who) (k : StrandKey) (c : CollCard) (ns nd : Nat) (s : State) : Item :=
  { Item.blank s.nextId w.g.die w.l.ctx k .coll with
    regions := (if ns = 0 then [] else [⟨.mem .chip, c.src, c.src + ns, false⟩]) ++
      (if nd = 0 then [] else [⟨.mem .chip, c.dst, c.dst + nd, true⟩])
    handle := if c.hnd then some c.handle else none, inbound := true, counts := c.hnd, total := nd }

/-! ## Class 0xE (R291 to R299) -/

def n32 (n : Nat) : List TVal := [⟨BitVec.ofNat 32 n, 2#5⟩]

/-- Table 13.19: the version; dies, cores and clusters; and the limits. -/
def capTable : List Nat := [0x356, 0x80C08, 2048, 256, 512, 256, 512, 8192, 8192, 384, 1250, 4096, 512, 32]

/-- A LAUNCH command (Table 13.3): operation 1 and the record's address. -/
def launchEntry (addr : Nat) : List Byte := toBytes 8 1 ++ toBytes 8 addr ++ List.replicate 16 0#8

end Sys2Proof.Claims

/-- The strong operations (R314 to R316, R318, R319): SST and SATM commit and leave with the die's next SEQ, and RSYNC as well; RSTAMP reads
the stamp of its line in the order of the strand's accesses (R162). -/
def Obligations.StrongWords : Prop :=
  (∀ (i : Instr) (op : StrongKind) (fb : Bool) (d : RegNo) (sl : BitVec 5) (b : RegNo) (s s1 s2 : State) (img : BitVec 256) (a : Acc)
    (pl : List Place) (die off : Nat),
    Claims.strongRow i = some (op, fb, d, sl, b) → slotRec s.cur sl.toNat s = .ok (img, s) →
    let esz := (bufRec img).esz
    accessWord (Claims.strongForm op esz d b) sl (Claims.strongNeed op esz) (strongAcc op esz) s = .ok (a, s1) →
    s1.inTurn (.plain s1.nextId a.w.k a.t.loc (.write (List.replicate (2 ^ esz) 0#8))) = true → Claims.strongGoes a.w fb s1 →
    (if op = .sst then pl = [] ∧ s2 = s1 else places a.w.k a.w.x d (if esz = 3 then 2 else 1) s1 = .ok (pl, s2)) →
    a.t.loc = .repl die off →
    let p := Claims.strongVals esz a.data
    ∃ t, exec i s = .next t ∧ Claims.StrongLeft a.w fb a.t.sc op off (2 ^ esz) p.1 p.2 pl
      (if op = .sst then [] else (List.range pl.length).map (bufRec img).tagAt) (commitWord a.w.k 1 s2) t) ∧
  (∀ (fb : Bool) (d : RegNo) (s s1 s2 : State) (v : Vals) (w : Who) (pl : List Place),
    readWord { cls := 13, out := some (d, 1) } s = .ok (v, s1) → who v.k v.x s1 = .ok (w, s1) →
    (s1.isMember w.g.die = false → exec (.rsync fb d) s =
      .next (takeTrap s.cur .word { cause := .rplx } { s with tlb := s1.tlb, free := s1.free, dies := s1.dies })) ∧
    (s1.isMember w.g.die = true → s1.isFenced w.g.die 7 0 = false → Claims.strongGoes w fb s1 → places w.k w.x d 1 s1 = .ok (pl, s2) →
      ∃ t, exec (.rsync fb d) s = .next t ∧ Claims.StrongLeft w fb false .rsync 0 0 0 0 pl [2#5] (commitWord w.k 1 s2) t)) ∧
  ∀ (fb : Bool) (d : RegNo) (sl : BitVec 5) (b : RegNo) (s s1 s2 : State) (a : Acc) (pl : List Place) (die off : Nat),
    accessWord { cls := 13, b := some { n := b, acc := .int }, out := some (d, 2) } sl
      { ak := .read, esz := [0, 1, 2, 3, 4], seg := (· == .repl), bits := (·.pr) } (fun _ => .any) s = .ok (a, s1) →
    Claims.FlagRoom a.w.x fb → s1.barWaiting a.w.k = false → places a.w.k a.w.x d 2 s1 = .ok (pl, s2) → a.t.loc = .repl die off →
    let t := s2.stampOf die (off / 32 * 32)
    let line := Loc.repl die (off / 32 * 32)
    let turn := s1.inTurn (.plain s1.nextId a.w.k line (.read 32))
    (turn = true → exec (.rstamp fb d sl b) s = .next (Claims.give a.w fb 1 a.t.sc true
      (destsOf pl [⟨BitVec.ofNat 32 t.wseq, 2#5⟩, ⟨BitVec.ofNat 32 (t.rank % 8) ||| (BitVec.ofNat 32 (t.sep % 256) <<< 8), 2#5⟩]) {}
      (commitWord a.w.k 1 s2))) ∧
    (turn = false → exec (.rstamp fb d sl b) s = .next (s.modStrand s.cur (Claims.stays .room s.cycle)))

/-- The gate words (R265, R333, R336, R337): a word sends its request, as an event of its home's shed or as a message to another module,
and is held; once its gate has answered, GSIG and GRD commit and wait for the answer's arrival, and a GWAIT takes the value. -/
def Obligations.GateWords : Prop :=
  ∀ (i : Instr) (fb : Bool) (sp : WordForm) (ok : Vals → Prop) (ask : Vals → GateAsk) (d : RegNo) (n : Nat) (s s1 : State) (v : Vals) (w : Who),
    Claims.gateRow i = some (fb, sp, ok, ask, d, n) → readWord sp s = .ok (v, s1) → ok v → (Claims.w64 v.a).toNat < 2 ^ 36 →
    who v.k v.x s1 = .ok (w, s1) → Claims.FlagRoom v.x fb → Claims.releases v s1 →
    (s.gateOps.find? (·.owner == v.k) = none → Claims.resultRoom s1 v.k sp →
      exec i s = .next ((Claims.gateSent w.g.die (GateOp.mk s.nextId v.k w.l.ctx w.d.tenant (Claims.w64 v.a).toNat (ask v) .sent none false)
        s).modStrand v.k fun x => { x with blk := .gate, blkAt := s.cycle })) ∧
    ∀ (o : GateOp) (val : Nat) (s2 : State) (pl : List Place),
      s.gateOps.find? (·.owner == v.k) = some o → o.st = .answered val → o.ask = ask v →
      (if n = 0 then pl = [] ∧ s2 = s1 else places v.k v.x d n s1 = .ok (pl, s2)) →
      let s3 := commitWord v.k 1 s2
      let r := destsOf pl (Claims.two 13#5 14#5 (BitVec.ofNat 64 val)).1
      ((∃ thr, o.ask = .wait thr) →
        exec i s = .next (match v.x.selFlag fb with
          | some f => Claims.leave (Claims.pendOf s3 v.k v.x f 1 r {} true) f { s3 with gateOps := s3.gateOps.filter (·.id != o.id) }
          | none => pendWhole { Claims.pendOf s3 v.k v.x 0 1 r {} true with flag := none }
              ({ s3 with nextId := s3.nextId + 1, gateOps := s3.gateOps.filter (·.id != o.id),
                         pend := s3.pend ++ [{ Claims.pendOf s3 v.k v.x 0 1 r {} true with flag := none }] }.modStrand v.k fun x =>
                { x with phase := .sync s3.nextId, blk := .none }))) ∧
      ((∀ thr, o.ask ≠ .wait thr) →
        exec i s = .next ({ s3 with
          nextId := s3.nextId + 1
          pend := s3.pend ++ [{ Claims.pendOf s3 v.k v.x 0 1 r {} true with flag := v.x.selFlag fb, kind := .gate o.id }] }.modStrand v.k
            fun x => { x with phase := .sync s3.nextId, blk := .none }))

/-- The multicast, the collective and the exchange (R358 to R366, R377, R378): a word whose checks have passed submits its item, and a
collective takes its place in the order of its communicator. The place in a communicator's order is the model's counter (log 32). -/
def Obligations.CollectiveWords : Prop :=
  (∀ (fb : Bool) (d : RegNo) (sl : BitVec 5) (o : BitVec 2) (s s1 s2 : State) (v : Vals) (img : BitVec 256) (w : Who) (rd : RecRead),
    readWord { cls := 13, rsv := o == 3#2, d := some { n := d, w := 4 } } s = .ok (v, s1) → slotRec v.k sl.toNat s1 = .ok (img, s1) →
    who v.k v.x s1 = .ok (w, s1) →
    let r := bufRec img
    let i := (Claims.w32 v.d).toNat
    let n := (Claims.w32 (v.d.drop 1)).toNat
    let tg := fun j => Claims.tagOf (v.d.drop j)
    (d = 126#7 ∨ (tg 0 ∈ [1#5, 2#5] ∧ tg 1 ∈ [1#5, 2#5] ∧ tg 2 = 13#5 ∧ tg 3 = 14#5)) → img ≠ 0#256 → mcstTagOk o.toNat r.etag = true →
    1 ≤ n → n ≤ 4096 → (o = 0#2 ∨ n % 4 = 0) → r.seg ∈ [Seg.core, .clus, .loft, .chip] →
    s1.usable w.g.die w.d w.l.rc r.seg r.epmod = true → spanFault w r i n r.pr true true = none →
    readList w (((Claims.w64 (v.d.drop 2)).setWidth 57).toNat) s1 = .ok (rd, s2) → mcstListOk rd.bytes n = true →
    let s3 := Claims.logged w rd s2
    let it := Claims.mcstItem w o.toNat n i r rd.bytes s3
    Claims.submitReady w fb 6 true it s3 → exec (.mcst fb d sl o) s = .next (Claims.submitted w fb 1 true true it s3)) ∧
  (∀ (fb : Bool) (s s1 s2 s3 : State) (x : Strand) (l : List TVal) (w : Who),
    s.strand s.cur = some x → ({ cls := 13 } : WordForm).encFault s.cur.kind x = none → popVals s.cur .cqOut 8 s = .ok (l, s1) →
    who s.cur x s1 = .ok (w, s1) →
    let c := collCard l
    let cm := s1.comm w.g.die c.comm
    let y := Claims.collOf w c s1
    let ns := y.srcBytes cm.nranks cm.myrank
    let nd := y.dstBytes cm.nranks
    s1.commOk w c.comm = true → c.ok cm.nranks (s1.handleOk s.cur.grp c.handle) = true → c.src % dtBytes c.dt = 0 →
    c.dst % dtBytes c.dt = 0 → chipRange w c.src ns false s1 = .ok ((), s2) → chipRange w c.dst nd true s2 = .ok ((), s3) →
    let it := Claims.collItem w s.cur c ns nd s3
    Claims.submitReady w fb c.scope c.tok it s3 →
    exec (.coll fb) s = .next (Claims.ordered w.l.ctx w.g.die c.comm
      { y with need := if c.op = 4 then 1 else nd, item := s3.nextId } (Claims.submitted w fb 1 c.tok true it s3))) ∧
  ∀ (fb : Bool) (d a b : RegNo) (lit : BitVec 32) (s s1 s2 s4 s5 : State) (q : Sub) (rd : RecRead),
    subWord { cls := 13, len := 2, a := some (Claims.pair a), b := some (Claims.pair b), d := some (Claims.pair d) } lit a2atLitOk none false
      s = .ok (q, s1) →
    let hn := (q.lit.extractLsb' 0 7).toNat
    let cn := (q.lit.extractLsb' 20 8).toNat
    let dmem := q.lit.getLsbD 7
    let tok := q.lit.getLsbD 9
    let scope := (q.lit.extractLsb' 16 3).toNat
    let ma := Claims.addr57 q.v.a
    let src := Claims.addr57 q.v.d
    let dst := Claims.addr57 q.v.b
    let h := s1.handle q.w.k.grp hn
    (dmem = true ∨ b = 126#7) → s1.handleOk q.w.k.grp hn = true → s1.commOk q.w cn = true →
    readRuns q.w ma 2 s1 = .ok (rd, s2) →
    let img := BitVec.ofNat 1024 (ofBytes rd.bytes)
    let m := lmap img
    let ns := m.local_ m.sax * 2 ^ m.esz
    let nd := m.local_ m.dax * 2 ^ m.esz
    mapOk img (s1.comm q.w.g.die cn).nranks = true → src % 2 ^ m.esz = 0 → (dmem = true → dst % 2 ^ m.esz = 0) →
    chipRange q.w src ns false (Claims.logged q.w rd s2) = .ok ((), s4) →
    (if dmem then chipRange q.w dst nd true s4 = .ok ((), s5)
      else s5 = s4 ∧ s1.descIn q.w.g q.w.l.rc q.w.d.yard h.buf 0 nd = true) →
    let it : Item := { Item.blank s5.nextId q.w.g.die q.w.l.ctx q.w.k .coll with
      regions := [⟨.mem .chip, src, src + ns, false⟩, if dmem then ⟨.mem .chip, dst, dst + nd, true⟩ else bufRegion q.w h 0 nd true]
      handle := some hn, inbound := true, counts := true, total := nd }
    Claims.submitReady q.w fb scope tok it s5 →
    exec (.a2at fb d a b lit) s = .next (Claims.ordered q.w.l.ctx q.w.g.die cn
      { id := 0, die := q.w.g.die, comm := cn, order := 0, op := 5, dt := 2, count := 0, root := 0, src := src,
        dst := if dmem then dst else h.buf.toNat, clog := 0, prio := 0, scope := scope, tile := none, launch := q.w.l.id,
        map := some img, dmem := dmem, pos := 0, sent := [], got := 0, need := nd, since := s1.cycle, item := s5.nextId }
      (Claims.submitted q.w fb 2 tok true it s5))

/-- The words of class 0xE (R291 to R299): LAUNCH appends a command to a queue of its context and rings it, or says why not; TRIG triggers a
graph of its die or logs that there is none; CAPQ and CLK read; ELOG and ULOG append an entry. Which die makes their accesses, ULOG's status
where the ring's control block cannot be read, and the use of a queue descriptor with any SIZE and RING are the model's choices (logs 15,
61, 63). -/
def Obligations.SystemWords : Prop :=
  (∀ (d a b : RegNo) (s s1 : State) (v : Vals) (w : Who),
    readWord { cls := 14, a := some (Claims.pair a), b := some { n := b, acc := .int }, out := some (d, 1) } s = .ok (v, s1) →
    let q := (Claims.w32 v.b).toNat
    let addr := (Claims.w64 v.a).toNat
    q ≤ 63 → addr % 64 = 0 → Claims.releases v s1 → who v.k v.x s1 = .ok (w, s1) →
    s1.isFenced ((yardDies (s1.yard w.d.yard)).headD 0) 6 0 = false →
    let s2 := commitWord v.k 1 s1
    (∀ s3, writeVals v.k v.x d (Claims.n32 (appendLaunch w.l.ctx q addr s2).1) (appendLaunch w.l.ctx q addr s2).2 = .ok ((), s3) →
      exec (.launch d a b) s = .next (s3.modStrand v.k (·.advance 1))) ∧
    ∀ (x : Ctx) (e : QDesc) (s3 : State), s2.liveCtx w.l.ctx = some x → readQDesc x (s2.homeDie x) q s2 = (some e, s3) →
      let r := x.queue q
      (e.size = 0 ∨ e.dev = false → (appendLaunch w.l.ctx q addr s2).1 = 2) ∧
      (e.size ≠ 0 → e.dev = true → e.size ≤ (r.tail + 2 ^ 32 - r.head) % 2 ^ 32 → (appendLaunch w.l.ctx q addr s2).1 = 1) ∧
      ∀ s4, e.size ≠ 0 → e.dev = true → (r.tail + 2 ^ 32 - r.head) % 2 ^ 32 < e.size →
        devWrite x.d (s2.homeDie x) (e.ring + 32 * (r.tail % e.size)) (Claims.launchEntry addr) s3 = (true, s4) →
        appendLaunch w.l.ctx q addr s2 = (0, doorbellEvent (s2.homeDie x) w.l.ctx q
          (s4.modQueue w.l.ctx q fun r => { r with tail := (r.tail + 1) % 2 ^ 32 }))) ∧
  (∀ (a : RegNo) (s s1 : State) (v : Vals) (w : Who),
    readWord { cls := 14, a := some { n := a, acc := .int } } s = .ok (v, s1) → (Claims.w32 v.a).toNat ≤ 255 → Claims.releases v s1 →
    let s2 := commitWord v.k 1 s1
    let g := (Claims.w32 v.a).toNat
    who v.k v.x s2 = .ok (w, s2) → s2.isFenced w.g.die 6 1 = false →
    (∀ y, tget (s2.die w.g.die).graphs g = some y → y.ctx = w.l.ctx →
      exec (.trig a) s = .next ((raiseShed w.g.die ⟨.trigger, w.l.ctx, 0, g, 0, false⟩ s2).modStrand v.k (·.advance 1))) ∧
    ((∀ y, tget (s2.die w.g.die).graphs g = some y → y.ctx ≠ w.l.ctx) →
      exec (.trig a) s = .next ((logPlain w.l.ctx 0x0B g w.l.id 0 0xFFFF s2).modStrand v.k (·.advance 1)))) ∧
  (∀ (d a : RegNo) (s s1 s2 : State) (v : Vals),
    readWord { cls := 14, a := some { n := a, acc := .int }, out := some (d, 1) } s = .ok (v, s1) →
    ∀ n, Claims.capTable[(Claims.w32 v.a).toNat]? = some n → writeVals v.k v.x d (Claims.n32 n) s1 = .ok ((), s2) →
      exec (.capq d a) s = .next (s2.modStrand v.k (·.advance 1))) ∧
  (∀ (d a : RegNo) (s s1 s2 : State) (v : Vals),
    readWord { cls := 14, a := some { n := a, acc := .int }, out := some (d, 2) } s = .ok (v, s1) →
    ∀ n, (Claims.w32 v.a = 0#32 ∧ n = s1.cycle * 4 / 5) ∨ (Claims.w32 v.a = 1#32 ∧ n = s1.cycle) →
      writeVals v.k v.x d (Claims.two 13#5 14#5 (BitVec.ofNat 64 n)).1 s1 = .ok ((), s2) →
      exec (.clk d a) s = .next (s2.modStrand v.k (·.advance 1))) ∧
  (∀ (a b : RegNo) (s s1 : State) (v : Vals) (w : Who),
    readWord { cls := 14, a := some { n := a }, b := some { n := b } } s = .ok (v, s1) → who v.k v.x s1 = .ok (w, s1) →
    exec (.elog a b) s = .next ((logPlain w.l.ctx 0x40 0 w.l.id (Claims.w32 v.a).toNat (Claims.w32 v.b).toNat s1).modStrand v.k
      (·.advance 1))) ∧
  ∀ (d a b : RegNo) (s s1 s3 : State) (v : Vals) (w : Who),
    readWord { cls := 14, a := some { n := a, w := 2 }, b := some { n := b, acc := .int }, out := some (d, 1) } s = .ok (v, s1) →
    (Claims.w32 v.b).toNat ≤ 7 → Claims.releases v s1 →
    let s2 := commitWord v.k 1 s1
    who v.k v.x s2 = .ok (w, s2) →
    let r := appendURing w.l.ctx w.l.id w.g.die (Claims.w32 v.b).toNat (Claims.w64 v.a).toNat v.k.tid (v.k.kind == .x) s2
    writeVals v.k v.x d (Claims.n32 r.1) r.2 = .ok ((), s3) → exec (.ulog d a b) s = .next (s3.modStrand v.k (·.advance 1))

namespace Sys2Proof.Claims

open Sys2Proof Sys2Proof.Machine

/-! ## Encodings and steps -/

/-- The words of the opcode table that a reader can check by hand: class in [31:28], minor in [27:21], d in [20:14], a in [13:7], b or
imm7 in [6:0] (R32, R33). -/
def wordAt (cls : BitVec 4) (minor d a b : BitVec 7) : BitVec 32 := cls ++ minor ++ d ++ a ++ b

/-- A strand that stands at a body word, of a group that may issue, with nothing of the schedule before it and no other agent's turn. -/
def standsAt (s : State) (x : Strand) (w : BitVec 32) : Prop :=
  s.agenda = [] ∧ s.ran < 64 ∧ s.strand s.cur = some x ∧ s.groupIssues s.cur.grp = true ∧ x.phase = .body ∧ (x.blk = .none ∨ x.blk = .again) ∧
    x.body[(x.pc - x.cpc).toNat / 4 - 1]? = some w

/-- Another strand of the core of strand `k`. -/
abbrev coreMate (s : State) (k : StrandKey) (e : StrandKey × Strand) : Prop :=
  e.1 ≠ k ∧ (s.group e.1.grp).map (fun g => (g.die, g.core)) = (s.group k.grp).map fun g => (g.die, g.core)

/-- The current strand's word has issued: the strand waits for nothing, nor for the others of its circle. -/
def wordIssued (t : State) (k : StrandKey) : Bool :=
  match t.strand k with
  | none => true
  | some x => (x.blk == .none || x.blk == .yield) && (match x.phase with | .arrived _ => false | _ => true)

/-- A step with a word of the current strand, tried in the state `s` (R119): once it has issued, the strands of its core that have yielded
are no longer the last choice. -/
def Tries (s : State) (i : Instr) (r : Host.Outcome State Fault Refusal) : Prop :=
  (∀ t, exec i s = .next t → r = .next { t with
    strands := t.strands.map fun e => if wordIssued t s.cur = true ∧ coreMate s s.cur e ∧ e.2.blk = .yield then (e.1, { e.2 with blk := .none }) else e }) ∧
  (∀ f, exec i s = .fault f → r = .fault f) ∧ ∀ f, exec i s = .refused f → r = .refused f

/-- The word after it in the body. -/
def nextWord (x : Strand) : Option (BitVec 32) := x.body[(x.pc - x.cpc).toNat / 4]?

/-! ## Events of strands and threads -/

/-- A header that is none: FLAGA or FLAGB 12 to 14, or PRED without GEN (R18, step 2). -/
def headerFault (h : BitVec 32) : Option Cause :=
  let bad := fun (f : BitVec 4) => f == 12#4 || f == 13#4 || f == 14#4
  if bad (h.extractLsb' 16 4) || bad (h.extractLsb' 12 4) then some .icls
  else if h.getLsbD 7 == false && h.extractLsb' 0 7 != 0#7 then some .irsv
  else none

/-- Every flag that a header waits for is clear (R18, step 3). -/
def waitsClear (x : Strand) (h : BitVec 32) : Prop := ∀ n, n < 12 → h.getLsbD (20 + n) = true → lget x.flags n 0 = 0

/-- The guard of a header lets the clause run (R18, step 4). -/
def guardOpen (x : Strand) (h : BitVec 32) : Prop := h.getLsbD 7 = false ∨ x.preds.getLsbD (h.extractLsb' 0 7).toNat = true

/-- The clause whose fetch has ended, entered: waiting, passed over, or at its first word, or at the word where a strand goes on. -/
def Entered (k : StrandKey) (x : Strand) (h : BitVec 32) (body : List (BitVec 32)) (now : Nat) (s t : State) : Prop :=
  (¬waitsClear x h → t = s.modStrand k fun y =>
    { y with hdr := h, body := body, phase := .flags, blk := .flag, blkAt := if y.blk == .flag then y.blkAt else now }) ∧
  (waitsClear x h → x.inside = false → guardOpen x h → t = s.modStrand k fun y =>
    { y with hdr := h, body := body, pc := y.cpc + 4#57, phase := .body, blk := .none }) ∧
  (waitsClear x h → x.inside = false → ¬guardOpen x h → t = s.modStrand k fun y =>
    atHeader (y.cpc + (4#57 * ((h.extractLsb' 8 4).setWidth 57 + 2#57))) { y with hdr := h, body := body }) ∧
  (waitsClear x h → x.inside = true → (x.pc - x.cpc).toNat / 4 - 1 < body.length → t = s.modStrand k fun y =>
    { y with hdr := h, body := body, phase := .body, blk := .none })

/-- One of several results of an operation (R44): into a register of an operation that has not committed it is written with a note of what
the register held, the latest first. -/
def partDone (p : Pend) (d : Dest) (s : State) : State :=
  match d, p.committed with
  | .reg n v, false => s.modStrand p.owner fun x =>
      { x with regs := lset x.regs n v, prov := { reg := n, op := p.id, old := lget x.regs n ⟨0#32, 0#5⟩ } :: x.prov }
  | _, _ => deliver p.owner d s

/-- The notes that stay when operation `op` is complete: those of other operations, but for registers that `op` has written since. -/
def notesAfter (op : Nat) (l : List Prov) : List Prov :=
  (List.range l.length).filterMap fun i => l[i]?.bind fun e =>
    if e.op = op ∨ (l.take i).any (fun f => f.op == op && f.reg == e.reg) then none else some e

/-- What a discard puts back into register `n`: what the oldest note of it says (R44). -/
def putBack (x : Strand) (n : Nat) : Option TVal := ((x.prov.reverse.find? (·.reg == n)).map fun e => e.old).or x.regs[n]?

/-- The cause of a word that is no instruction (R34, R35). -/
def badWordCause (k : StrandKind) (x : Strand) (w : BitVec 32) : DecodeError → Cause
  | .unassigned => .ilop
  | .noLiteral => if classOk (w.extractLsb' 28 4).toNat k then .icls else .istr
  | .reservedField =>
    if classOk (w.extractLsb' 28 4).toNat k = false then .istr
    else if (isTransfer w = true ∧ x.isLast 1 = false) ∨ (isXForm w = true ∧ x.isLast 1 = true) then .icls else .irsv

end Sys2Proof.Claims

/-- Every instruction that has words decodes from them, with every operand (R32, R33). -/
def Obligations.DecodeEncode : Prop :=
  ∀ (i : Instr) (w : BitVec 32) (r : List (BitVec 32)), encode i = w :: r → decode w r.head? = .ok i

/-- A word that decodes is the encoding of what it decodes to: no two words of one instruction, no bit unread (R32, R33). -/
def Obligations.EncodeDecode : Prop :=
  ∀ (w : BitVec 32) (lit : Option (BitVec 32)) (i : Instr), decode w lit = .ok i →
    encode i = w :: (if isXForm w then lit.toList else [])

/-- Words written out from the opcode table (R32, R33, R108, R109): their fields stand where the table has them, and minors and classes
that the table leaves out are refused by name. -/
def Obligations.DecodesTableWords : Prop :=
  (∀ d a b : BitVec 7,
    decode (Claims.wordAt 0x0#4 0x00#7 d a b) none = .ok (.iadd d a b) ∧ decode (Claims.wordAt 0x1#4 0x02#7 d a b) none = .ok (.or d a b) ∧
    decode (Claims.wordAt 0x2#4 0x00#7 d a b) none = .ok (.icmpEq d a b) ∧ decode (Claims.wordAt 0x5#4 0x00#7 d a b) none = .ok (.fadd .rn d a b) ∧
    decode (Claims.wordAt 0x5#4 0x01#7 d a b) none = .ok (.fadd .rz d a b)) ∧
  decode 0x41200000#32 none = .ok (.tret 0#1) ∧ decode 0x41200001#32 none = .ok (.tret 1#1) ∧
  decode 0x41400000#32 none = .ok (.tkill 0#1) ∧ decode 0x41400001#32 none = .ok (.tkill 1#1) ∧
  (∀ (w : BitVec 32) (lit : Option (BitVec 32)), w.extractLsb' 28 4 = 0xF#4 → decode w lit = .error .unassigned)

/-- A step at a body word runs the instruction that the word decodes to, and a word that is no instruction takes its encoding fault (R14,
R18, R34); once a word has issued, no strand of its core that has yielded is the last choice any longer (R119). The model's schedule (log 1)
lets the current strand issue while it can, for 64 words, and counts them in `ran`. -/
def Obligations.StepRunsWord : Prop :=
  ∀ (s : State) (x : Strand) (w : BitVec 32), Claims.standsAt s x w →
    (∀ i, decode w (Claims.nextWord x) = .ok i → Claims.Tries { s with ran := s.ran + 1 } i (step s)) ∧
    ∀ e, decode w (Claims.nextWord x) = .error e →
      step s = .next (takeTrap s.cur .word { cause := Claims.badWordCause s.cur.kind x w e }
        { s with ran := s.ran + 1, arg := .words w ((Claims.nextWord x).getD 0#32) })

/-- A step takes the inputs of the agenda in order (the model's schedule, log 1): an event is run with its argument, and a strand that is
named issues, unless it has yielded and another of its core is ready (R119). -/
def Obligations.StepTakesInputs : Prop :=
  ∀ (s : State) (rest : List Input),
    (∀ e a, s.agenda = .ev e a :: rest → step s = exec e { s with agenda := rest, arg := a }) ∧
    (∀ k x w i, s.agenda = .run k :: rest → s.strand k = some x → s.groupIssues k.grp = true → x.phase = .body → x.word = some w →
      decode w x.litWord = .ok i →
      (x.blk ≠ .yield ∨ (∀ e ∈ s.strands, Claims.coreMate s k e → s.strandReady e.1 e.2 = false) →
        Claims.Tries { s with agenda := rest, cur := k } i (step s)) ∧
      (x.blk = .yield → (∃ e ∈ s.strands, Claims.coreMate s k e ∧ s.strandReady e.1 e.2 = true) → step s = .next { s with agenda := rest })) ∧
    ∀ n, s.agenda = .elapse n :: rest → ∃ t, step s = .next t ∧ t.cycle = s.cycle + n ∧ t.agenda = rest ∧ t.strands = s.strands ∧
      t.mem = s.mem

/-- After a module reset (R306, R307, R382, R384): the module is booting, MEMB names every die and EPOCH is 0, every counter of every die
is 0, there is no context, yard, launch, group, frame or key, and every memory stands in the canonical form that each step keeps. That no
byte is listed is the model's choice (log 4). -/
def Obligations.ResetState : Prop :=
  let s := State.reset
  s.memsWf ∧ s.boot.state = 0 ∧ s.memb = 0xFF ∧ s.epoch = 0 ∧ s.quies = false ∧ s.ctxs = [] ∧ s.yards = [] ∧ s.launches = [] ∧ s.groups = [] ∧
    s.gates = [] ∧ s.pend = [] ∧ s.items = [] ∧ s.tlb = [] ∧ s.capo.holder = 0 ∧ s.capo.next = 0 ∧ s.dies.length = 8 ∧
    ∀ d, d < 8 → (s.repl d).issued = 0 ∧ (s.repl d).applied = List.replicate 8 0 ∧ (s.repl d).clock = 0 ∧ (s.repl d).gseq = 0 ∧
      (s.repl d).sep = 0 ∧ (s.die d).binds = [] ∧ (s.die d).comms = [] ∧ (∀ f, s.frame d f = 0#32) ∧
      ∀ k ∈ (s.die d).keySlots, k.state = .free

/-- Clauses and completions (R14, R18, R19, R25, R26, R34, R35): a fetched clause is entered, a header that is none traps, a wait ends
when its flags are clear, and an operation delivers its results, one at a time, and with the last one lets its flag go; what the earlier
ones overwrite is kept for a discard until the operation has completed or committed (R44). An access that was put off is performed once its
turn has come and not before (R162, R163), and the operation of a store ends when its registers have been read (R26, R161). Where a clause
may stand is the model's reading (log 16). -/
def Obligations.ClauseEvents : Prop :=
  (∀ (s s1 : State) (k : StrandKey) (x : Strand) (g : Group) (l : Launch) (c : Ctx) (h : BitVec 32) (body : List (BitVec 32)),
    s.arg = .strand k → s.strand k = some x → s.group k.grp = some g → s.launch k.grp.launch = some l → s.ctx l.ctx = some c →
    x.phase = .header → g.life.issues = true → fetchClause ⟨k, x, g, l, c.d⟩ s = ((h :: body, none), s1) → s1.strand k = some x →
    (∀ f, Claims.headerFault h = some f → exec .clauseEntry s =
      .next (takeTrap k .header { cause := f } (s1.modStrand k fun y => { y with hdr := h, body := body }))) ∧
    (Claims.headerFault h = none → ∃ t, exec .clauseEntry s = .next t ∧ Claims.Entered k x h body s1.cycle s1 t)) ∧
  (∀ (s s1 : State) (k : StrandKey) (x : Strand) (g : Group) (l : Launch) (c : Ctx) (ws : List (BitVec 32)) (a : Nat) (f : Cause)
    (e : List (Bool × Nat)),
    s.arg = .strand k → s.strand k = some x → s.group k.grp = some g → s.launch k.grp.launch = some l → s.ctx l.ctx = some c →
    x.phase = .header → g.life.issues = true → fetchClause ⟨k, x, g, l, c.d⟩ s = ((ws, some (a, .fault f e)), s1) →
    exec .clauseEntry s = .next (takeTrap k .fetch { cause := f, va := a, errs := e } s1)) ∧
  (∀ (s : State) (k : StrandKey) (x : Strand),
    s.arg = .strand k → s.strand k = some x → x.phase = .flags → s.groupIssues k.grp = true →
    ∃ t, exec .clauseWaitEnd s = .next t ∧ Claims.Entered k x x.hdr x.body s.cycle s t) ∧
  (∀ (s : State) (x : Strand) (w lit : BitVec 32) (e : DecodeError),
    s.arg = .words w lit → s.strand s.cur = some x → x.phase = .body → x.body[(x.pc - x.cpc).toNat / 4 - 1]? = some w →
    decode w (if x.body.length ≤ (x.pc - x.cpc).toNat / 4 - 1 + 1 then none else some lit) = .error e →
    exec .encodingFault s = .next (takeTrap s.cur .word { cause := Claims.badWordCause s.cur.kind x w e } s)) ∧
  (∀ (s : State) (id part : Nat) (p : Pend) (d : Dest),
    s.arg = .n2 id part → s.pend.find? (·.id == id) = some p → p.kind = .ready →
    (p.dests = [d] → part = 0 → p.invl = false → p.divz = false → p.ovfl = false → p.unfl = false → ∀ f, p.flag = some f →
      exec .longLatencyComplete s = .next ({ deliver p.owner d s with pend := s.pend.filter (·.id != id) }.modStrand p.owner fun x =>
        { x with flags := lmod x.flags f (· - 1), prov := Claims.notesAfter id x.prov })) ∧
    (2 ≤ p.dests.length → p.dests[part]? = some d →
      exec .longLatencyComplete s = .next { Claims.partDone p d s with pend := s.pend.map fun q =>
        if q.id == id then { p with dests := p.dests.eraseIdx part } else q })) ∧
  (∀ (s : State) (id part : Nat) (h : Held), s.arg = .n2 id part → s.pend.find? (·.id == id) = none → s.held.find? (·.id == id) = some h →
    (s.inTurn h = false → exec .longLatencyComplete s = .next s) ∧
    (s.inTurn h = true → h.regs = [] → h.done = [] → waitAccess h s = .ok ((), s) → reachOf h s = .here → h.halves = false →
      let y := chargeHbm h.ctx h.loc h.ask.size (sendAccess h s)
      let ends := fun (f : Pend → Pend) (u : State) =>
        { u with held := u.held.filter (·.id != id), pend := u.pend.map fun q => if h.pend = some q.id then f q else q }
      (∀ n, h.ask = .read n → exec .longLatencyComplete s = .next (ends (fun q => { q with
        kind := .ready, dests := destsOf q.places (loadedVals h.etag h.esz (ofBytes (readLoc h.owner h.loc n y)))
        invl := false, divz := false, ovfl := false, unfl := false }) y)) ∧
      ∀ l, h.ask = .write l → (∀ d o, h.loc ≠ .repl d o) → exec .longLatencyComplete s =
        .next (ends (fun q => { q with kind := .ready }) (writeLoc h.owner h.ctx h.loc l y)))) ∧
  ∀ (s : State) (id part f : Nat) (p : Pend) (h : Held) (x : Strand) (b : List Byte),
    s.arg = .n2 id part → s.pend.find? (·.id == id) = some p → p.kind = .data h.id → s.held.find? (·.id == h.id) = some h →
    s.strand h.owner = some x → h.ask = .write b → h.regs ≠ [] → (∀ r ∈ h.regs, lget x.regs r.1 r.2 = r.2) →
    p.invl = false → p.divz = false → p.ovfl = false → p.unfl = false → p.flag = some f →
    exec .longLatencyComplete s = .next ({ s with
      pend := s.pend.filter (·.id != id)
      held := s.held.map fun (y : Held) => if y.id == h.id then
        { h with ask := .write (Claims.dataOf (h.regs.map fun (r : Nat × TVal) => r.2) b.length), regs := [], pend := none } else y }.modStrand p.owner fun y =>
      { y with flags := lmod y.flags f (· - 1), prov := Claims.notesAfter id y.prov })

/-- Waits and time limits of strands (R122, R124, R126, R197): a word that waited for a queue or for an engine is tried again; after 2^20
cycles an instance takes RVTO in every thread that has arrived, and a thread whose strands wait for each other takes QDLK in both, whether
or not their words are tried again meanwhile. -/
def Obligations.StallEvents : Prop :=
  (∀ (s : State) (k : StrandKey) (x : Strand), s.arg = .strand k → s.strand k = some x → x.phase = .body → s.groupIssues k.grp = true →
    (x.blk = .queue → exec .queueUnblock s = .next { s.modStrand k fun y => { y with blk := .again } with cur := k, ran := 0 }) ∧
    (x.blk = .room → exec .submissionAccept s = .next { s.modStrand k fun y => { y with blk := .none } with cur := k, ran := 0 })) ∧
  (∀ (s : State) (g : GroupKey) (c : Nat) (sq : RvSeq) (x : Group) (ci : Machine.Circle),
    s.arg = .circle g c sq → s.group g = some x → tget x.circ (c, sq) = some ci → s.groupIssues g = true →
    (ci.first + 2 ^ 20 ≤ s.cycle → exec .rvtoTimeout s = .next (takeTraps
      ((((List.range 32).map (32 * c + ·)).filter fun t => ci.arr.any (·.tid == t)).map (seqStrand g sq)) { cause := .rvto }
      (clearCircle g (c, sq) s))) ∧
    (s.cycle < ci.first + 2 ^ 20 → exec .rvtoTimeout s = .next s)) ∧
  ∀ (s : State) (g : GroupKey) (t : Nat) (y : Thread) (a x : Strand),
    s.arg = .thread g t → s.thread ⟨g, t⟩ = some y → s.strand ⟨g, t, .a⟩ = some a → s.strand ⟨g, t, .x⟩ = some x →
    a.phase = .body → x.phase = .body → (a.blk = .queue ∨ a.blk = .again) → (x.blk = .queue ∨ x.blk = .again) → s.groupIssues g = true →
    max y.act (max a.blkAt x.blkAt) + 2 ^ 20 ≤ s.cycle →
    exec .qdlkTimeout s = .next (takeTraps [⟨g, t, .a⟩, ⟨g, t, .x⟩] { cause := .qdlk } s)

/-- The engines (R199, R204 to R206): a transfer is read where it lies and then written where it goes, each when nothing stands before its
item; what has been written arrives at the handle, a NOTIFY's count as one arrival; a finished item completes, and a failed one poisons
its handle. That an event moves one transfer is the model's choice (log 34). -/
def Obligations.EngineEvents : Prop :=
  (∀ (s s1 : State) (id n : Nat) (w : Item) (m : Move) (loc : Loc),
    s.arg = .n2 id n → s.items.find? (·.id == id) = some w → w.held = false → w.paused = none → w.fail = none → s.itemFree w = true →
    (∀ e ∈ (s.die w.die).waiting, e.kind ≠ .copyflt) →
    w.arr = none → w.box = none → w.moves[n]? = some m → m.done = false → w.mayGo n m = true → (∀ a d p, loc ≠ .glob a d p) →
    (m.data = none → meetEnd w m.src m.n false s = (.at_ loc, s1) → s1.hbmOk w.ctx loc m.n = true →
      exec .engineItemAccess s = .next ((chargeHbm w.ctx loc m.n s1).modItem w.id fun y => { y with
        moves := lmod y.moves n fun z => { z with data := some (readEnd w m.src loc m.n s1) } })) ∧
    (∀ b, m.data = some b → w.whole = false → w.split = none → meetEnd w m.dst m.n true s = (.at_ loc, s1) → s1.hbmOk w.ctx loc m.n = true →
      exec .engineItemAccess s = .next ((writeEnd w m.dst loc b (chargeHbm w.ctx loc m.n s1)).modItem w.id fun w => { w with
        landed := w.landed + (if w.counts then m.n else 0), moves := lmod w.moves n fun y => { y with done := true } }))) ∧
  (∀ (s : State) (id n h : Nat) (w : Item),
    s.arg = .n2 id n → s.items.find? (·.id == id) = some w → w.handle = some h → 1 ≤ n → n ≤ w.landed - w.arrived →
    (w.kind = .job 2 → n = w.total) → exec .handleArrival s = .next (handleEvent w.owner.grp h (·.arrive n) (s.modItem id fun w => { w with arrived := w.arrived + n }))) ∧
  (∀ (s : State) (id : Nat) (w : Item), s.arg = .n1 id → s.items.find? (·.id == id) = some w →
    (s.itemDone w = true → exec .itemComplete s = .next (closeItem w s)) ∧
    (s.itemDone w = false → exec .itemComplete s = .next s)) ∧
  ∀ (s : State) (id h : Nat) (w : Item) (c : Cause), s.arg = .itemFail id c → s.items.find? (·.id == id) = some w → w.fail = some c →
    w.moves = [] → w.handle = some h → w.landed = w.arrived → (w.kind = .cpt ∨ w.kind = .cps ∨ w.kind = .tmov) →
    exec .itemFail s = .next (closeItem w (handleEvent w.owner.grp h (fun y =>
      if w.counts = true ∧ w.landed < w.total then (y.poison c).arrive (w.total - w.landed) else y.poison c)
        (logPlain w.ctx 0x08 c.code w.owner.grp.launch h w.sq s)))

namespace Sys2Proof.Claims

open Sys2Proof.Machine

/-- A handle that reaches free: PSN and FLAGS cleared, then the carried-count row of Table 10.3. -/
def carriedOn (h : Handle) : Handle :=
  if h.count = 0 then { h with state := .free, psn := false, ovr := false, fcause := 0 }
  else if h.count < h.target then { h with state := .filling, psn := false, ovr := false, fcause := 0 }
  else { h with state := .full, gen := (h.gen + 1) % 2 ^ 32, count := h.count - h.target, psn := decide (h.target < h.count),
                ovr := decide (h.target < h.count), fcause := 0 }

end Sys2Proof.Claims

/-- The states of a handle (Table 10.3, R202 to R205): n bytes arriving at a filling handle count toward its target; at the target it is
full with its generation one on, beyond it the excess is carried and poisons it; a release drains or frees it. A release with bytes carried
begins the next generation with them, an outbound item counts while it is accepted and not complete, and the last one's end frees a draining
handle. That an arrival at a free handle, which no row of the table names, only counts is the model's reading (R223, log 34). -/
def Obligations.HandleStates : Prop :=
  ∀ (h : Handle) (n : Nat),
    (h.state = .filling → h.count + n < h.target → h.arrive n = { h with count := h.count + n }) ∧
    (h.state = .filling → h.count + n = h.target → h.arrive n = { h with state := .full, gen := (h.gen + 1) % 2 ^ 32, count := 0 }) ∧
    (h.state = .filling → h.target < h.count + n → h.arrive n =
      { h with state := .full, gen := (h.gen + 1) % 2 ^ 32, count := h.count + n - h.target, psn := true, ovr := true }) ∧
    (h.state = .full ∨ h.state = .draining → h.arrive n = { h with count := (h.count + n) % 2 ^ 32, ovr := true }) ∧
    (h.state = .free → h.arrive n = { h with count := (h.count + n) % 2 ^ 32 }) ∧
    (h.nout ≠ 0 → h.release = { h with state := .draining }) ∧
    (h.nout = 0 → h.release = Claims.carriedOn h) ∧
    (h.state = .draining → h.nout = 1 → h.itemDone false = Claims.carriedOn { h with nout := 0 }) ∧
    (h.state ≠ .draining ∨ 1 < h.nout → h.itemDone false = { h with nout := h.nout - 1 }) ∧ h.itemDone true = { h with nin := h.nin - 1 } ∧
    (h.state = .free → h.takeOut = (false, { h with nout := h.nout + 1, state := .draining })) ∧
    (h.state = .full ∨ h.state = .draining → h.takeOut = (false, { h with nout := h.nout + 1 })) ∧
    (h.state = .filling → h.takeOut = (true, { h with nout := h.nout + 1 })) ∧
    ((h.state = .free ∨ h.state = .filling) → h.heldIn = true → h.unhold = { h with state := .filling, heldIn := false }) ∧
    (h.state = .free ∨ h.state = .filling → h.takeIn = (false, { h with nin := h.nin + 1, state := .filling })) ∧
    (h.state = .full ∨ h.state = .draining → h.takeIn = (true, { h with nin := h.nin + 1, heldIn := true })) ∧
    (∀ c, (h.poison c).psn = true ∧ (h.fcause = 0 → (h.poison c).fcause = c.code) ∧ (h.fcause ≠ 0 → (h.poison c).fcause = h.fcause))

namespace Sys2Proof.Claims

open Sys2Proof Sys2Proof.Machine

/-! ## Events of the machine -/

/-- The event `i` with the argument `a`, in the state `s`, has the effect that leads to `t`. -/
def Does (i : Instr) (a : EvArg) (s t : State) : Prop := s.arg = a → exec i s = .next t

/-! ## Commands (R262 to R264, R269, R270, R278; Tables 13.3, 13.4) -/

/-- The fields of a command, as they stand in its 32 bytes. -/
def cmdOp (m : Cmd) : BitVec 4 := m.words.extractLsb' 0 4
def cmdAddr (m : Cmd) : Nat := (m.words.extractLsb' 64 57).toNat
def cmdValue (m : Cmd) : Nat := (m.words.extractLsb' 128 64).toNat
def cmdCaddr (m : Cmd) : Nat := (m.words.extractLsb' 192 57).toNat

/-- Its reserved bits are 0 and its address is aligned. -/
def cmdFits (m : Cmd) : Prop :=
  m.words.extractLsb' 4 60 = 0#60 ∧ (cmdOp m = 0#4 → m.words.extractLsb' 64 64 = 0#64) ∧
    ((cmdOp m = 0#4 ∨ cmdOp m = 1#4) → cmdValue m = 0) ∧ (cmdOp m = 1#4 → cmdAddr m % 64 = 0) ∧
    ((cmdOp m = 3#4 ∨ cmdOp m = 4#4) → cmdAddr m % 8 = 0)

/-- The command of a queue whose CMDREAD event the shed has handled, with every command before it complete. -/
def atCommand (s : State) (c q : Nat) (x : Ctx) (m : Cmd) (op : BitVec 4) : Prop :=
  let d := s.die (s.homeDie x)
  s.liveCtx c = some x ∧ (x.queue q).cmd = some m ∧ (∀ e ∈ d.events ++ d.waiting, ¬(e.kind = .cmdread ∧ e.ctx = c ∧ e.a0 = q)) ∧ cmdOp m = op ∧ (x.queue q).open_ = [] ∧ cmdFits m

/-- The completion word of a command: DFC in bytes 0 to 3, STATUS in byte 4, REASON from byte 5 on; a CADDR of 0 asks for none. -/
def completed (c caddr dfc status reason : Nat) (s : State) : State :=
  if caddr = 0 then s
  else writeForCtx c (caddr / 8 * 8) (toBytes 4 dfc ++ toBytes 1 status ++ toBytes 3 reason) s

/-- A command ends. -/
def cmdEnds (c q : Nat) (m : Cmd) (status reason : Nat) (s : State) : State :=
  completed c (cmdCaddr m) 0 status reason (s.modQueue c q fun r => { r with cmd := none })

/-- A queue stops, with its QERR event. -/
def queueStops (c q detail arg0 : Nat) (x : Ctx) (s : State) : State :=
  logEvent c ⟨0x09, detail, q, 0, arg0, (x.queue q).head⟩ (s.modQueue c q fun r => { r with stopped := true })

/-- How far TAIL stands before HEAD. -/
def ahead (tail head : Nat) : Nat := (tail + 2 ^ 32 - head) % 2 ^ 32

/-! ## The shed (R265) -/

/-- The oldest event of a kind, behind no other of its lock, is taken off a die's queue, which then takes events that waited for room. -/
def Taken (s : State) (die : Nat) (k : ShedKind) (e : ShedEvent) (t : State) : Prop :=
  ∃ pre post, (s.die die).events = pre ++ e :: post ∧ e.kind = k ∧ e.again = false ∧ (∀ p ∈ pre, p.kind ≠ k ∧ p.lock ≠ e.lock) ∧
    let room := 4096 - (pre ++ post).length
    t = s.modDie die fun d => { d with events := pre ++ post ++ d.waiting.take room, waiting := d.waiting.drop room }

/-- What an answer does to an item that waits for a page. -/
def afterPage (res : Option Cause) (w : Item) : Item := { w with paused := none, fail := res.or w.fail }

/-- The pull that firmware has posted for a page of a context (R339). -/
def pullOf (c va : Nat) (s : State) : Option Pull :=
  s.pulls.find? fun (p : Pull) => p.ctx == c && decide (p.va ≤ va) && decide (va < p.va + p.n)

/-- A posted pull, done: its bytes stand at their place, and the stage-2 entry that makes the page resident is written. -/
def pulled (p : Pull) (s : State) : State :=
  let b := match p.src with
    | .inl a => s.readSpa a p.n
    | .inr l => l
  (({ s with pulls := s.pulls.erase p }.writeSpa p.dst b).repair p.dst p.n).writeSpa p.ent (toBytes 8 p.val.toNat)

/-- A page request ends: it is no longer outstanding, and every item that waited for it goes on or has failed. -/
def RequestEnds (c num : Nat) (res : Option Cause) (s t : State) : Prop :=
  t.request c num = none ∧ t.mem = s.mem ∧
    ∀ id w, s.item id = some w → t.item id = some (if w.ctx = c ∧ w.paused = some (num + 1) then afterPage res w else w)

/-! ## Graphs (Tables 13.13 to 13.15) -/

/-- Fields of a node's 64 bytes: `n` bits from byte `o` of the payload, which starts at byte 24. -/
def payOf (y : GNode) (o n : Nat) : BitVec n := y.img.extractLsb' (8 * (24 + o)) n
def kindOf (y : GNode) : BitVec 4 := y.img.extractLsb' 0 4
def nextsOf (y : GNode) : List Nat := (List.range 4).map fun i => (y.img.extractLsb' (32 + 16 * i) 16).toNat
def altsOf (y : GNode) : List Nat := (List.range 4).map fun i => (y.img.extractLsb' (96 + 16 * i) 16).toNat
def payAddr (y : GNode) (o : Nat) : Nat := (payOf y o 57).toNat

/-- What follows a node that has completed: its arrivals, its own next firing, and the end of its run. -/
def nodeDone (die g n : Nat) (l : List Nat) (s : State) : State :=
  settleRun die g 2 (settleNode die g n (l.foldl (arriveNode die g) (modNode die g n (fun y => { y with busy := false, res := none }) s)))

/-- What follows a node that has failed: nothing more fires, and its run ends when no node executes. -/
def nodeFails (die g n : Nat) (x : Graph) (s : State) : State :=
  settleRun die g 2 ((modNode die g n (fun y => { y with busy := false, res := none }) s).modGraph die g fun y =>
    { y with failed := some (x.failed.getD n) })

def compares (cmp : BitVec 8) (v w : Nat) : Bool :=
  if cmp = 0#8 then v == w else if cmp = 1#8 then v != w else if cmp = 2#8 then decide (w ≤ v) else decide (v < w)

/-! ## Groups at their start (Tables 3.1, 3.2) -/

/-- A strand at its entry header: registers, tags, window base, predicates and flags all 0. -/
def AtEntry (x : Strand) (entry alloc : Nat) : Prop :=
  x.cpc = BitVec.ofNat 57 (entry / 4 * 4) ∧ x.phase = .header ∧ x.inside = false ∧ x.regs = List.replicate alloc ⟨0#32, 0#5⟩ ∧ x.wb = 0 ∧
    x.preds = 0#128 ∧ x.flags = List.replicate 12 0 ∧ x.inHandler = false ∧ x.replOut = none ∧ x.blk = .none

end Sys2Proof.Claims

/-- The commands of a queue (R262 to R264, R269, R278): doorbells, the reading of entries, and what each command does when its turn has
come; a refused one completes with its reason. While the front end holds an event that found no room in the shed's queue it reads no command
(log 11). The die that serves a queue and the conventions of its commands are the model's (logs 15, 21, 36), and so is the use of a
descriptor with any SIZE and RING (log 61). -/
def Obligations.CommandEvents : Prop :=
  (∀ (s s1 : State) (fn page q c : Nat) (val : BitVec 32) (x : Ctx) (e : QDesc),
    s.pageCtx fn page = some (c, x) → readQDesc x (s.homeDie x) q s = (some e, s1) → e.size ≠ 0 → e.dev = false → q < 64 →
    (Claims.ahead val.toNat (x.queue q).head ≤ e.size → Claims.Does .doorbellWrite (.doorbell fn page q val) s
      (doorbellEvent (s.homeDie x) c q (s1.modQueue c q fun r => { r with tail := val.toNat }))) ∧
    (e.size < Claims.ahead val.toNat (x.queue q).head → s1.ctx c = some x →
      Claims.Does .doorbellWrite (.doorbell fn page q val) s (Claims.queueStops c q 0 val.toNat x s1))) ∧
  (∀ (s : State) (fn page q : Nat) (val : BitVec 32), s.pageCtx fn page = none →
    Claims.Does .doorbellWrite (.doorbell fn page q val) s { s with pfDrops := s.pfDrops + 1 }) ∧
  (∀ (s s1 s2 : State) (c q : Nat) (x : Ctx) (e : QDesc) (l : List Byte),
    let r := x.queue q
    let a := va57 (e.ring + 32 * (r.head % e.size))
    let h := (r.head + 1) % 2 ^ 32
    let held := ∃ e ∈ (s.die (s.homeDie x)).waiting, e.kind = .doorbell ∨ e.kind = .cmdread
    s.liveCtx c = some x → r.stopped = false → r.cmd = none → r.head ≠ r.tail →
    (held → Claims.Does .commandRead (.n2 c q) s s) ∧
    (¬held → readQDesc x (s.homeDie x) q s = (some e, s1) → e.size ≠ 0 → (devRead x.d (s.homeDie x) a 32 s1 = (some l, s2) → Claims.Does .commandRead (.n2 c q) s
      (raiseShed (s.homeDie x) ⟨.cmdread, c, queueLock c q, q, 0, false⟩ (writeForCtx c (e.headAddr / 8 * 8) (toBytes 4 h)
        (s2.modQueue c q fun r => { r with head := h, cmd := some ⟨BitVec.ofNat 256 (ofBytes l), a, false⟩ })))) ∧
    (devRead x.d (s.homeDie x) a 32 s1 = (none, s2) → s2.ctx c = some x →
      Claims.Does .commandRead (.n2 c q) s (Claims.queueStops c q 1 a x s2)))) ∧
  (∀ (s : State) (c q : Nat) (x : Ctx) (m : Cmd),
    (Claims.atCommand s c q x m 0#4 → Claims.Does .cmdNop (.n2 c q) s (Claims.cmdEnds c q m 1 0 s)) ∧
    (Claims.atCommand s c q x m 1#4 → ∀ rc t, (checkRecord x (Claims.cmdAddr m) s = (.ok rc, t) →
        Claims.Does .cmdLaunch (.n2 c q) s
          (let r := acceptLaunch x rc (Claims.cmdAddr m) (.queue q (Claims.cmdCaddr m)) t
           r.2.modQueue c q fun y => { y with cmd := none, open_ := y.open_ ++ [r.1] })) ∧
      ∀ why, checkRecord x (Claims.cmdAddr m) s = (.error why, t) → Claims.Does .cmdLaunch (.n2 c q) s
        (Claims.cmdEnds c q m 3 why (logEvent c ⟨0x02, why, q, 0, Claims.cmdAddr m, 0⟩ t))) ∧
    (Claims.atCommand s c q x m 2#4 → ∀ why t, loadGraph x (s.homeDie x) (Claims.cmdAddr m) (Claims.cmdValue m % 256) s = (why, t) →
      Claims.Does .cmdGraphld (.n2 c q) s (Claims.cmdEnds c q m (if why = 0 then 1 else 3) why t)) ∧
    (Claims.atCommand s c q x m 3#4 → ∀ t,
      (∀ v, devWord x.d (s.homeDie x) (Claims.cmdAddr m) s = (some v, t) →
        (m.started = false → Claims.Does .cmdWait (.n2 c q) s (t.modQueue c q fun r => { r with cmd := some { m with started := true } })) ∧
        (m.started = true → Claims.cmdValue m ≤ v → Claims.Does .cmdWaitSatisfied (.n2 c q) s (Claims.cmdEnds c q m 1 0 t)) ∧
        (m.started = true → v < Claims.cmdValue m → Claims.Does .cmdWaitSatisfied (.n2 c q) s t)) ∧
      (devWord x.d (s.homeDie x) (Claims.cmdAddr m) s = (none, t) → m.started = false →
        Claims.Does .cmdWait (.n2 c q) s (Claims.cmdEnds c q m 3 11 t))) ∧
    (Claims.atCommand s c q x m 4#4 → ∀ ok t, signalStore c x.d (Claims.cmdAddr m) (toBytes 8 (Claims.cmdValue m)) s = (ok, t) →
      Claims.Does .cmdSignal (.n2 c q) s (if ok then Claims.cmdEnds c q m 1 0 t else Claims.cmdEnds c q m 3 11 t)))

/-- Launches from their acceptance to their end (R264, R270, R282): an accepted launch has the context's next identifier and its record,
with nothing placed; at its end its completion word and its LAUNCHEND event are written, and a node of a graph learns of it. Which launches
log and complete, and that the entry is written before the word, is the model's reading (log 23). -/
def Obligations.LaunchEvents : Prop :=
  (∀ (x : Ctx) (rc : LaunchRec) (addr : Nat) (o : Origin) (s : State),
    let r := acceptLaunch x rc addr o s
    r.1 = x.d.ctxid * 2 ^ 48 + x.count ∧
      ∃ l, r.2.launch r.1 = some l ∧ l.rc = rc ∧ l.recAddr = addr ∧ l.origin = o ∧ l.ctx = x.d.ctxid ∧ l.total = rc.local_ ∧ l.placed = 0 ∧
        l.ended = 0 ∧ l.dfc = 0 ∧ l.killed = false) ∧
  ∀ (s : State) (id : Nat) (l : Launch), s.launch id = some l →
    (s.launchOver l = false → Claims.Does .launchEnd (.n1 id) s s) ∧
    (s.launchOver l = true → l.silent = false →
      let st := if l.killed then 2 else 1
      let s1 := dropLaunch l.id (withdrawTiles l s)
      (∀ q ca, l.origin = .queue q ca → Claims.Does .launchEnd (.n1 id) s (Claims.completed l.ctx ca l.dfc st 0
        (logEvent l.ctx ⟨0x01, st, q, l.id, l.dfc, s.cycle * 4 / 5⟩ (s1.modQueue l.ctx q fun r =>
          { r with open_ := r.open_.filter (· != l.id) })))) ∧
      ∀ die g n, l.origin = .node die g n → Claims.Does .launchEnd (.n1 id) s
        (logEvent l.ctx ⟨0x01, st, 0xFFFF, l.id, l.dfc, s.cycle * 4 / 5⟩
          (modNode die g n (fun y => { y with res := some (!l.killed) }) s1)))

/-- The shed, page requests, and what a driver or a timer does to queues, rings and fences (R265, R266, R288, R298, R339). That each kind
is handled in one step is the model's choice (log 25), and so is the order in which events that waited for room enter the queue (log 11). -/
def Obligations.ShedEvents : Prop :=
  (∀ (s t : State) (die : Nat) (e : ShedEvent),
    (Claims.Taken s die .doorbell e t → Claims.Does .shedEventDoorbell (.n1 die) s t) ∧
    (Claims.Taken s die .error e t → Claims.Does .shedEventError (.n1 die) s t) ∧
    (Claims.Taken s die .binddone e t → Claims.Does .shedEventBinddone (.n1 die) s (bindAll t)) ∧
    (Claims.Taken s die .cmdread e t → ∀ x m, t.liveCtx e.ctx = some x → (x.queue e.a0).cmd = some m →
      ((Claims.cmdOp m).toNat ≤ 4 ∨ (x.queue e.a0).open_ ≠ [] → Claims.Does .shedEventCmdread (.n1 die) s t) ∧
      (5 ≤ (Claims.cmdOp m).toNat → (x.queue e.a0).open_ = [] → Claims.Does .shedEventCmdread (.n1 die) s (Claims.cmdEnds e.ctx e.a0 m 3 1 t))) ∧
    (Claims.Taken s die .copyflt e t → ∀ w x, t.item e.a0 = some w → t.ctx e.ctx = some x → w.paused = some 0 →
      let page := e.a1 / 65536 * 65536
      let wait := fun (n : Nat) (s : State) => s.modItem w.id fun w => { w with paused := some (n + 1) }
      (∀ r, x.reqs.find? (·.va == page) = some r → Claims.Does .shedEventCopyflt (.n1 die) s (wait r.num t)) ∧
      (x.reqs.find? (·.va == page) = none → Claims.Does .shedEventCopyflt (.n1 die) s (wait x.nextReq
        { t.modCtx e.ctx (fun y => { y with reqs := y.reqs ++ [⟨x.nextReq, page, e.a1 % 2 == 1, t.cycle⟩], nextReq := y.nextReq + 1 }) with
          out := t.out ++ [.pageRequest x.d.hostfn e.ctx x.nextReq page (e.a1 % 2 == 1)] }))) ∧
    (Claims.Taken s die .trigger e t → ∀ x, tget (t.die die).graphs e.a0 = some x → x.ctx = e.ctx →
      (x.running = true → Claims.Does .shedEventTrigger (.n1 die) s (t.modGraph die e.a0 fun y => { y with pending := true })) ∧
      (x.running = false → Claims.Does .shedEventTrigger (.n1 die) s (settleRun die e.a0 2 (startRun die e.a0 t))))) ∧
  (∀ (s : State) (c num : Nat) (r : PageReq), s.request c num = some r →
    (s.cycle < r.since + 12500000 → ∃ t, Claims.Does .pageRequestAnswer (.ok c num true) s t ∧ Claims.RequestEnds c num none s t) ∧
    (r.since + 12500000 ≤ s.cycle → ∃ t, Claims.Does .pageRequestAnswer (.ok c num true) s t ∧ Claims.RequestEnds c num (some .anrs) s t) ∧
    (∃ t, Claims.Does .pageRequestAnswer (.ok c num false) s t ∧ Claims.RequestEnds c num (some .anrs) s t) ∧
    (r.since + 12500000 ≤ s.cycle → ∃ t, Claims.Does .pageRequestTimeout (.n2 c num) s t ∧ Claims.RequestEnds c num (some .anrs) s t) ∧
    (s.cycle < r.since + 12500000 → Claims.Does .pageRequestTimeout (.n2 c num) s s) ∧
    (Claims.pullOf c r.va s = none → ∃ t, Claims.Does .pagePullComplete (.ok c num true) s t ∧ Claims.RequestEnds c num none s t) ∧
    (∀ p, Claims.pullOf c r.va s = some p →
      ∃ t, Claims.Does .pagePullComplete (.ok c num true) s t ∧ Claims.RequestEnds c num none (Claims.pulled p s) t) ∧
    ∃ t, Claims.Does .pagePullComplete (.ok c num false) s t ∧ Claims.pullOf c r.va t = none ∧
      Claims.RequestEnds c num (some .rplx) (logEvent c ⟨0x39, Cause.rplx.code, 0xFFFF, 0, r.va, 0⟩ { s with
        pulls := s.pulls.filter fun (p : Pull) => !(p.ctx == c && decide (p.va ≤ r.va) && decide (r.va < p.va + p.n)) }) t) ∧
  (∀ (s : State) (c r : Nat) (x : Ctx), s.liveCtx c = some x →
    let u := lget x.d.urings r ⟨0, 0, 0, 0⟩
    ∀ rt, tget x.rings r = some rt → rt.unsent ≠ 0 → u.coalt ≠ 0 → rt.since + 1250 * u.coalt ≤ s.cycle →
      Claims.Does .coaltTimerExpiry (.n2 c r) s { s.modCtx c (fun y => { y with rings := tset y.rings r ⟨0, 0⟩ }) with
        out := s.out ++ [.interrupt x.d.hostfn (x.d.vecbase + r)] }) ∧
  (∀ (s : State) (c q : Nat), Claims.Does .adminQueueReenable (.n2 c q) s (s.modQueue c q fun r => { r with stopped := false })) ∧
  ∀ (s : State) (die y : Nat), Claims.Does .adminFenceRelease (.n2 die y) s
    (s.modDie die fun d => { d with yfence := d.yfence.filter (· != y) })

/-- The nodes of a graph (R281, R282): each kind's completion, and which successors it arrives at; a failure ends the run. How arrivals
count while a node executes is the model's reading (log 24), and so is the word that a misaligned address of a wait or conditional node
names (log 56). -/
def Obligations.GraphEvents : Prop :=
  (∀ (s : State) (die g n : Nat) (x : Graph) (y : GNode) (c : Ctx),
    s.graph die g = some x → x.nodes[n]? = some y → s.liveCtx x.ctx = some c → x.running = true → y.busy = true →
    (Claims.kindOf y = 1#4 → y.res = none → Claims.Does .graphNodeComplete (.n3 die g n) s s) ∧
    (Claims.kindOf y = 1#4 → y.res = some true →
      Claims.Does .graphNodeComplete (.n3 die g n) s (Claims.nodeDone die g n (Claims.nextsOf y) s)) ∧
    (Claims.kindOf y = 1#4 → y.res = some false → Claims.Does .graphNodeComplete (.n3 die g n) s (Claims.nodeFails die g n x s)) ∧
    (Claims.kindOf y = 2#4 → ∀ w : Item, s.items.find? (fun (w : Item) => w.die == die && w.kind == .node g n) = some w → w.fail = none →
      s.itemRuns w = true → (∀ m ∈ w.moves, m.done = true) →
      Claims.Does .graphNodeComplete (.n3 die g n) s (Claims.nodeDone die g n (Claims.nextsOf y) (closeItem w s))) ∧
    (Claims.kindOf y = 3#4 → ∀ v t, devWord c.d die (Claims.payAddr y 0) s = (some v, t) →
      ((Claims.payOf y 8 64).toNat ≤ v →
        Claims.Does .graphNodeComplete (.n3 die g n) s (Claims.nodeDone die g n (Claims.nextsOf y) t)) ∧
      (v < (Claims.payOf y 8 64).toNat → Claims.Does .graphNodeComplete (.n3 die g n) s t)) ∧
    (Claims.kindOf y = 5#4 → ∀ v t, devWord c.d die (Claims.payAddr y 0) s = (some v, t) →
      Claims.Does .graphNodeComplete (.n3 die g n) s (Claims.nodeDone die g n
        (if Claims.compares (Claims.payOf y 16 8) v (Claims.payOf y 8 64).toNat then Claims.nextsOf y else Claims.altsOf y) t)) ∧
    (Claims.kindOf y = 6#4 → Claims.Does .graphNodeComplete (.n3 die g n) s
      (if y.iter + 1 ≤ (Claims.payOf y 0 32).toNat then
        Claims.nodeDone die g n (Claims.nextsOf y) (modNode die g n (fun y => { y with iter := y.iter + 1 }) s)
      else Claims.nodeDone die g n (Claims.altsOf y) (modNode die g n (fun y => { y with iter := 0 }) s)))) ∧
  (∀ (s : State) (die g n : Nat) (x : Graph) (y : GNode), s.graph die g = some x → x.nodes[n]? = some y → n ≠ 0xFFFF →
    (y.arr + 1 < (y.img.extractLsb' 16 16).toNat ∨ y.busy = true ∨ x.failed.isSome = true →
      arriveNode die g s n = modNode die g n (fun y => { y with arr := y.arr + 1 }) s)) ∧
  ∀ (s : State) (die g : Nat) (x : Graph), s.graph die g = some x → x.running = true → (∀ y ∈ x.nodes, y.busy = false) → x.pending = false →
    (x.failed = none → settleRun die g 2 s = (logEvent x.ctx ⟨0x0A, g, 0xFFFF, 0, (x.runs + 1) % 2 ^ 32, 0⟩ s).modGraph die g fun y =>
      { y with running := false, runs := (y.runs + 1) % 2 ^ 32 }) ∧
    ∀ n, x.failed = some n → settleRun die g 2 s = (logEvent x.ctx ⟨0x0B, g, 0xFFFF, 0, x.runs, n⟩ s).modGraph die g fun y =>
      { y with running := false }

namespace Sys2Proof.Claims

open Sys2Proof Sys2Proof.Machine

/-! ## Budgets (Table 13.11, R285) -/

/-- Another cycle of a group that holds its core costs its account one CORE for each thread, and as much DEBT while it overruns. -/
def charged (x : Group) (n : Nat) (a : Acct) : Acct :=
  { a with core := a.core - x.size * n, debt := a.debt + if x.life == .overrunning || x.life == .discarding then x.size * n else 0 }

/-! ## Invalidations (Table 12.6, R245) -/

/-- The fields of a command. -/
def invField (c : BitVec 256) (o n : Nat) : Nat := (c.extractLsb' (8 * o) (8 * n)).toNat

/-- The cached entries that an operation names, among those of the list (R245, R246): OP 3 also names a stage-1 entry whose walk read it
in the range, or through a stage-2 entry that it names. -/
def covers (op vmid asid lo hi : Nat) (l : List TlbEnt) (t : TlbEnt) : Prop :=
  let second := fun (u : TlbEnt) => u.stage2 = true ∧ u.vmid = vmid ∧ max lo u.lo < min hi u.hi
  (op = 1 ∧ t.stage2 = false ∧ t.vmid = vmid ∧ t.asid = asid ∧ max lo t.lo < min hi t.hi) ∨
  (op = 2 ∧ t.stage2 = false ∧ t.vmid = vmid ∧ t.asid = asid) ∨ (op = 3 ∧ second t) ∨
  (op = 3 ∧ t.stage2 = false ∧ t.vmid = vmid ∧ ((lo ≤ t.gpa ∧ t.gpa < hi) ∨ ∃ u ∈ l, second u ∧ u.lo ≤ t.gpa ∧ t.gpa < u.hi)) ∨
  (op = 4 ∧ t.vmid = vmid) ∨ op = 5

/-- A command that obeys Table 12.6 and that its function may issue; function 0 is shed firmware. -/
def invalFits (fn : Nat) (c : BitVec 256) : Prop :=
  let op := (c.extractLsb' 0 4).toNat
  1 ≤ op ∧ op ≤ 5 ∧ c.extractLsb' 4 12 = 0#12 ∧ invField c 6 2 = 0 ∧ invField c 20 4 = 0 ∧ invField c 24 8 % 8 = 0 ∧
    ((op = 1 ∨ op = 3) → invField c 8 8 % 65536 = 0 ∧ invField c 16 4 ≠ 0) ∧ (fn = 0 ∨ fn = 65 ∨ op ≤ 2)

/-- The event that takes a command of an operation; one of a reserved OP is taken as one of OP 5, and refused. -/
def invalOp : Nat → Instr
  | 1 => .invalStage1Va
  | 2 => .invalStage1Asid
  | 3 => .invalStage2Gpa
  | 4 => .invalStage2Vmid
  | _ => .invalAll

/-! ## Frames (Table 12.2, R232 to R236) -/

def fValid (w : BitVec 32) : Bool := w.getLsbD 0
def fQuar (w : BitVec 32) : Bool := w.getLsbD 24
def fYard (w : BitVec 32) : Nat := (w.extractLsb' 1 5).toNat
def fSlot (w : BitVec 32) : Nat := (w.extractLsb' 6 5).toNat

/-- QUAR is set in every frame of a die that satisfies a condition. -/
def quarantined (die : Nat) (p : Nat → BitVec 32 → Prop) (s t : State) : Prop :=
  ∀ f w, tget (s.die die).frames f = some w → fValid w = true → p f w → tget (t.die die).frames f = some (w ||| 0x01000000#32)

/-- A context's shares at every port: none. -/
def noShares (key : Nat) (d : Die) : Die :=
  { d with
    keys := tdel d.keys key
    ports := d.ports.map fun (p : Port) => { p with allow := tdel p.allow (.share key), shares := tdel p.shares key } }

/-- The fields of a gate's record fit Table 15.11. -/
def gateFits (r : GateRec) : Prop :=
  r.gid < 2 ^ 36 ∧ r.rate < 2 ^ 32 ∧ r.burst < 2 ^ 32 ∧ (r.rate = 0 ∨ 1 ≤ r.burst) ∧ r.acl.length ≤ 16 ∧ (∀ e ∈ r.acl, e.tenant < 2 ^ 16) ∧
    r.wins.length ≤ 4 ∧ ∀ w ∈ r.wins, w.1 % 65536 = 0 ∧ w.1 < 2 ^ 52 ∧ w.2 % 65536 = 0 ∧ w.2 < 2 ^ 32

/-- A context holds its pen where no other does, and no other pen (R331). -/
def joined (d : CtxDesc) (s : State) : State :=
  { s with pens := s.pens.map fun e =>
      if e.1 = (d.yard, d.pen) then (e.1, { e.2 with holder := some (e.2.holder.getD d.ctxid) })
      else if e.2.holder = some d.ctxid then (e.1, { e.2 with holder := none }) else e }

/-- A yard's descriptor written, its pens within its clusters (R329); and whether the tables of all dies then have room (R259). -/
def yarded (y : YardDesc) (s : State) : State :=
  { s with
    yards := tset s.yards y.yard y
    pens := s.pens.map fun e => if e.1.1 = y.yard then
      (e.1, { e.2 with cmask := e.2.cmask.zipWith (· &&& ·) ((List.range 8).map fun d => lget y.cmask d 0) }) else e }
def roomy (y : YardDesc) (s : State) : Prop :=
  ∀ d, d < 8 → (s.ctxs.filter fun c => decide (lget ((yarded y s).yard c.2.d.yard).cmask d 0 ≠ 0)).length ≤ 256

/-- A gate as firmware makes it (R332, R334): VALUE 0, TOKENS BURST. -/
def newGate (die : Nat) (r : GateRec) (now : Nat) : Gate :=
  { gid := r.gid, home := die, value := 0, valid := r.valid, rate := r.rate, burst := r.burst, tokens := r.burst, delayedCount := 0,
    acl := r.acl, wins := r.wins, credit := 0, at_ := now, delayed := [], logged := [], mig := .active, newHome := 0, newMod := 0, held := [] }

end Sys2Proof.Claims

/-- Placement (R271, R273 to R275, R43, R195): a decision restores the record's saved group that fits, or starts its next one, with its
strands at their entries; a pass for a gang commits whole or counts an abort of that gang. Which core of a cluster a decision tries comes
with the event (log 7). -/
def Obligations.PlacementEvents : Prop :=
  (∀ (s : State) (die cl core slot : Nat) (b : Bind) (l : Launch),
    s.pickBind die cl = some (slot, b) → s.launch b.launch = some l → l.id = b.launch → b.gang = false → core / 8 = cl → die < s.dies.length →
    (s.die die).stalls .binddone = false →
    tget (s.die die).binds slot = some b →
    let g : GroupKey := ⟨l.id, b.gfirst + b.next⟩
    (s.firstSaved die cl b l.rc = none → s.nextFits die cl b l.rc = true → s.coreFits die core l.rc = true → s.isFenced die 0 core = false →
      l.rc.gang = false → (∀ t k, s.strand ⟨g, t, k⟩ = none) →
      ∃ t, Claims.Does .dispatcherPlace (.n3 die cl core) s t ∧ tget (t.die die).binds slot = some { b with next := b.next + 1 } ∧
        t.mem = s.mem ∧ (∀ x, t.launch l.id = some x → x.placed = l.placed + 1) ∧
        (∃ x, t.group g = some x ∧ x.life = .running ∧ x.die = die ∧ x.core = core ∧ x.size = l.rc.gsize ∧ x.win = [] ∧
          x.bars = List.replicate 16 Bar.zero ∧ x.tiles = List.replicate l.rc.accs Tile.zero) ∧
        ∀ n, n < l.rc.gsize → ∃ a x, t.strand ⟨g, n, .a⟩ = some a ∧ t.strand ⟨g, n, .x⟩ = some x ∧
          Claims.AtEntry a l.rc.aEntry l.rc.aAlloc ∧ Claims.AtEntry x l.rc.xEntry l.rc.xAlloc) ∧
    (∀ h x, s.firstSaved die cl b l.rc = some h → s.group h = some x → s.restoreFits die core l.rc x = true →
      ∃ t, Claims.Does .dispatcherPlace (.n3 die cl core) s t ∧ t.strands = s.strands ∧ t.mem = s.mem ∧ t.launches = s.launches ∧
        t.group h = some { x with life := .running, die := die, core := core, since := s.cycle } ∧ tget (t.die die).binds slot = some b)) ∧
  ∀ (s : State) (die cl slot : Nat) (cores : List Nat) (b : Bind) (l : Launch),
    s.pickBind die cl = some (slot, b) → s.launch b.launch = some l → b.gang = true → s.savedOf die b = [] →
    (s.die die).stalls .binddone = false →
    let f := b.gfirst + b.next
    let gs := (List.range l.rc.gangSize).map (f + ·)
    (s.winFits die cl l.rc = true → ∀ t, gangPlace die cl f l gs 0 cores s = some t →
      Claims.Does .gangReservationPass (.list die cl cores) s (bumpBind die slot l.rc.gangSize t)) ∧
    (s.winFits die cl l.rc = false ∨ gangPlace die cl f l gs 0 cores s = none →
      Claims.Does .gangReservationPass (.list die cl cores) s (s.modDie die fun d =>
        let a := tgetD d.aborts slot (f, 0)
        { d with aborts := tset d.aborts slot (f, if a.1 == f then a.2 + 1 else 1), rr := slot + 1 }))

/-- Slices, drains, discards, saves, the watchdog and the budget period (R44, R111, R137, R138, R265, R277, R285 to R288): a slice ends when
its event is the oldest of its lock, and its account places nothing until the next refill; a discard puts back what squashed operations have
overwritten. The entry of a fence in the physical function's log is the model's reading (log 47). The refills are firmware's settings, free
constants, and the order of repayment is the model's (log 14); when a drain of limit 0 ends, and who lends, is its reading (log 35). -/
def Obligations.LifecycleEvents : Prop :=
  (∀ (s : State) (die a : Nat), s.acctBusy die a = true → (∀ b, s.borrowMax die a b = 0) →
    let d := s.die die
    let ends := fun (u : State) => ∃ t, Claims.Does .sliceEnd (.n2 die a) s t ∧ t.mem = s.mem ∧ t.strands = s.strands ∧
      (t.die die).events = (u.die die).events ∧ (die < s.dies.length → a < d.accts.length → (t.acct die a).ended = true) ∧
      t.groups = s.groups.map fun e => if e.2.die == die && e.2.life == .running && s.groupAcct e.1 == a then
        (e.1, { e.2 with life := .draining, since := s.cycle }) else e
    ((∀ e ∈ d.events ++ d.waiting, e.kind = .slice → e.a0 ≠ a) →
      ((s.acct die a).core ≤ 0 → ends s) ∧ (0 < (s.acct die a).core → Claims.Does .sliceEnd (.n2 die a) s s)) ∧
    (∀ e t, e.a0 = a → Claims.Taken s die .slice e t →
      ((e.a1 = 1 ∨ (s.acct die a).core ≤ 0) → ends t) ∧ (e.a1 ≠ 1 → 0 < (s.acct die a).core → Claims.Does .sliceEnd (.n2 die a) s t)) ∧
    ∀ f rest, d.events = f :: rest → f.kind ≠ .slice → (∀ e ∈ rest ++ d.waiting, e.kind = .slice → e.lock = f.lock) →
      (∃ e ∈ rest ++ d.waiting, e.kind = .slice ∧ e.a0 = a) → Claims.Does .sliceEnd (.n2 die a) s s) ∧
  (∀ (s : State) (g : GroupKey) (x : Group) (l : Launch), s.group g = some x → s.launch g.launch = some l → x.life = .draining →
    (x.since + 1250 * l.rc.drainLimit ≤ s.cycle → l.rc.discardOk = false → ∃ t, Claims.Does .drainLimitExpiry (.group g) s t ∧
      t.group g = some { x with life := .overrunning, since := s.cycle } ∧ t.pend = s.pend ∧ t.strands = s.strands ∧ t.mem = s.mem) ∧
    (x.since + 1250 * l.rc.drainLimit ≤ s.cycle → l.rc.discardOk = true → ∃ t, Claims.Does .drainLimitExpiry (.group g) s t ∧
      t.group g = some { x with life := .discarding, since := s.cycle, circ := [] } ∧
      t.pend = s.pend.filter (fun p => p.owner.grp != g || p.committed) ∧
      t.held = s.held.filter (fun h => h.owner.grp != g || h.committed) ∧ t.mem = s.mem ∧
      (∀ k, k.grp ≠ g → t.strand k = s.strand k) ∧
      ∀ k y, k.grp = g → s.strand k = some y → ∃ z, t.strand k = some z ∧ { z with regs := y.regs, prov := y.prov } = y ∧ z.prov = [] ∧
        z.regs.length = y.regs.length ∧ ∀ n, n < y.regs.length → z.regs[n]? = Claims.putBack y n) ∧
    (s.cycle < x.since + 1250 * l.rc.drainLimit → Claims.Does .drainLimitExpiry (.group g) s s)) ∧
  (∀ (s : State) (g : GroupKey) (x : Group), s.group g = some x → x.gang = false → x.life = .discarding → s.quiet g = true →
    ∃ t, Claims.Does .groupSave (.group g) s t ∧ t.group g = some { x with life := .saved, since := s.cycle } ∧
      ∀ k y, k.grp = g → s.strand k = some y → ∃ z, t.strand k = some z ∧
        (y.phase = .ended → z = y) ∧
        (y.phase ≠ .ended → z.cpc = y.rgn.cpc ∧ z.wb = y.rgn.wb ∧ z.inHandler = false ∧ z.flags = List.replicate 12 0 ∧ z.redo = true ∧
          z.regs = y.regs ∧ z.preds = y.preds)) ∧
  (∀ (s : State) (g : GroupKey) (x : Group) (l : Launch), s.group g = some x → s.launch g.launch = some l → l.id = g.launch →
    let y := s.yardOf l.ctx
    let past := s.cycle - x.since
    let fenced := (raiseShed x.die ⟨.wdog, 0, 0, y, l.id, false⟩ (s.modDie x.die fun d =>
      { d with yfence := if d.yfence.contains y then d.yfence else y :: d.yfence })).pfEvent ⟨0x0D, y, 0xFFFF, l.id, past * 4 / 5, 0⟩
    (x.life = .overrunning ∨ x.life = .discarding → (1250 * (s.yard y).allow) < past →
      Claims.Does .watchdogExpiry (.dieGroup x.die g) s
        (killLaunch l.id (logEvent l.ctx ⟨0x0D, y, 0xFFFF, l.id, past * 4 / 5, 0⟩ fenced))) ∧
    (past ≤ 1250 * (s.yard y).allow → Claims.Does .watchdogExpiry (.dieGroup x.die g) s s)) ∧
  (∀ (s : State) (die a : Nat), (s.die die).periodAt + (s.die die).period ≤ s.cycle → (∀ e ∈ (s.die die).waiting, e.kind ≠ .period ∧ e.kind ≠ .slice) →
    die < s.dies.length → a < 64 → (s.die die).accts.length = 64 →
    (∀ i, i < 64 → s.acctBusy die i = false) → (∀ i, i < 64 → s.acctYard die i = none) → (s.acct die a).debt = 0 →
    ∃ t, Claims.Does .periodBoundary (.n1 die) s t ∧ t.mem = s.mem ∧ t.strands = s.strands ∧
      let n := Config.refill die ((s.die die).periods + 1) a
      (t.acct die a).core = min ((s.acct die a).core + n 0) (2 * n 0) ∧ (t.acct die a).hbm = min ((s.acct die a).hbm + n 1) (2 * n 1) ∧
        (t.acct die a).fab = min ((s.acct die a).fab + n 2) (2 * n 2) ∧ (t.acct die a).debt = 0 ∧ (t.acct die a).ended = false) ∧
  ∀ (s : State) (n : Nat) (g : GroupKey) (x : Group), s.groups = [(g, x)] → x.life ≠ .saved → x.life ≠ .ended →
    let a := s.groupAcct g
    let t := { s with cycle := s.cycle + n }.modAcct x.die a (Claims.charged x n)
    ((s.acct x.die a).core ≤ 0 ∨ (x.size * n : Int) < (s.acct x.die a).core → tick n s = t) ∧
    (0 < (s.acct x.die a).core → (s.acct x.die a).core ≤ (x.size * n : Int) → tick n s = raiseShed x.die ⟨.slice, 0, 0, a, 0, false⟩ t)

/-- Invalidations (Table 12.6, R244 to R246): a booted module takes the 32-byte commands of a function's ring in order, as they stand in its
memory, and an entry that cannot be read stops the ring (R262); at a command's completion the cached entries that it names are gone, and no
others, and its place is written. Where the ring and that place lie is the model's choice (log 17), and so is the VMID of a function with
several contexts (log 46). -/
def Obligations.InvalidationEvents : Prop :=
  (∀ (s : State) (fn : Nat) (r : InvalRing), s.boot.state = 1 → tget s.invals fn = some r → r.stopped = false → r.next % 2 ^ 32 ≠ r.tail →
    let a := r.base + 32 * (r.next % r.size)
    let c := BitVec.ofNat 256 (ofBytes (s.readSpa a 32))
    ((s.badAt a 32 true).isSome = true ∨ s.hostBad a 32 = true → Claims.Does (Claims.invalOp (c.extractLsb' 0 4).toNat) (.n1 fn) s
      ({ s with invals := tset s.invals fn { r with stopped := true } }.pfEvent ⟨0x09, 1, 0xFFFF, fn, a, r.next % 2 ^ 32⟩)) ∧
    ((s.badAt a 32 true).isSome = false → s.hostBad a 32 = false → ∃ q : InvalCmd, Claims.Does (Claims.invalOp (c.extractLsb' 0 4).toNat) (.n1 fn) s
        { s with invals := tset s.invals fn { r with next := r.next + 1, cmds := r.cmds ++ [q] } } ∧
      q.n = r.next ∧ q.op = (c.extractLsb' 0 4).toNat ∧ q.vmid = s.fnVmid fn (Claims.invField c 2 2) ∧ q.asid = Claims.invField c 4 2 ∧
      q.lo = (c.extractLsb' 64 57).toNat ∧ q.hi = q.lo + 65536 * Claims.invField c 16 4 ∧ q.caddr = (c.extractLsb' 192 57).toNat ∧
      (q.refused = false ↔ Claims.invalFits fn c))) ∧
  (∀ (s : State) (fn n : Nat), s.boot.state ≠ 1 ∨ (∀ r, tget s.invals fn = some r → r.stopped = true ∨ r.next % 2 ^ 32 = r.tail) →
    Claims.Does (Claims.invalOp n) (.n1 fn) s s) ∧
  ∀ (s : State) (fn : Nat) (r : InvalRing) (c : InvalCmd) (rest : List InvalCmd), tget s.invals fn = some r → r.cmds = c :: rest →
    1 ≤ c.op → c.op ≤ 5 →
    (c.refused = false → s.inFlight c = true → Claims.Does .invalComplete (.n1 fn) s s) ∧
    (c.refused = false → s.inFlight c = false → ∃ t, Claims.Does .invalComplete (.n1 fn) s t ∧
      t.invals = tset s.invals fn { r with cmds := rest } ∧
      (∀ e, e ∈ t.tlb ↔ e ∈ s.tlb ∧ ¬Claims.covers c.op c.vmid c.asid c.lo c.hi s.tlb e) ∧
      t.mem = (s.writeSpa (invalSpa fn c.caddr) (toBytes 8 c.n)).mem) ∧
    (c.refused = true → ∃ t, Claims.Does .invalComplete (.n1 fn) s t ∧ t.invals = tset s.invals fn { r with cmds := rest } ∧
      t.tlb = s.tlb ∧ t.mem = (s.writeSpa (invalSpa fn c.caddr) (toBytes 8 (2 ^ 63 + c.n))).mem)

/-- What firmware does at a driver's request in a booted module (R232 to R236, R259, R260, R328, R331, R332, R353, R357, R362, R392). What
firmware refuses is the model's reading (log 37). -/
def Obligations.AdminEvents : Prop :=
  ∀ (s : State), s.boot.state = 1 →
  (∀ d : CtxDesc, ctxDescOk d = true → tget s.quar d.keyid = none → s.ctxFull d = false →
    (∀ e ∈ s.ctxs, e.1 ≠ d.ctxid → e.2.valid = true → d.hostfn ≠ 0 → e.2.d.hostfn = d.hostfn → e.2.d.dbidx ≠ d.dbidx) →
    (d.pen = 0xFF ∨ ∃ p, tget s.pens (d.yard, d.pen) = some p ∧ p.acct = d.bclass) →
    (s.ctx d.ctxid = none → Claims.Does .adminContextWrite (.ctxDesc d) s
      (Claims.joined d { s with ctxs := tset s.ctxs d.ctxid ⟨d, true, false, 0, [], [], [], 0⟩ })) ∧
    ∀ x, s.ctx d.ctxid = some x → x.valid = true → x.dying = false →
      ((x.d.yard = d.yard ∧ x.d.pen = d.pen) ∨ (∀ e ∈ s.launches, e.2.ctx ≠ d.ctxid) →
        Claims.Does .adminContextWrite (.ctxDesc d) s (Claims.joined d (s.modCtx d.ctxid fun x => { x with d := d }))) ∧
      (¬(x.d.yard = d.yard ∧ x.d.pen = d.pen) → (∃ e ∈ s.launches, e.2.ctx = d.ctxid) →
        Claims.Does .adminContextWrite (.ctxDesc d) s s)) ∧
  (∀ c x, s.liveCtx c = some x → (s.launches.filter fun e => e.2.ctx == c) = [] → Claims.Does .contextTeardown (.n1 c) s
    { revokeBinds (·.ctx == c) (s.modCtx c fun x => { x with valid := false, dying := true, queues := [] }) with
      launches := s.launches }) ∧
  (∀ c x, s.ctx c = some x → x.dying = true → (∀ w ∈ s.items, (w : Item).ctx ≠ c) → (∀ e ∈ s.launches, e.2.ctx ≠ c) →
    (∃ e ∈ tdel s.ctxs c, e.2.valid = true ∧ e.2.d.yard = x.d.yard) → (∀ e ∈ tdel s.ctxs c, e.2.valid = true → e.2.d.keyid ≠ x.d.keyid) →
    ∃ t, Claims.Does .contextTeardownFinish (.n1 c) s t ∧ t.ctxs = tdel s.ctxs c ∧ t.revoked = tset s.revoked x.d.keyid s.cycle ∧
      t.quar = tset s.quar x.d.keyid s.cycle ∧ t.globs = s.globs.filter (·.keyid != x.d.keyid) ∧ t.mem = s.mem ∧
      t.pens = s.pens.map (fun e => if e.2.holder = some c then (e.1, { e.2 with holder := none }) else e) ∧
      ∀ d, (t.die d).graphs = (s.die d).graphs.filter fun g => g.2.ctx != c) ∧
  (∀ die y, s.tearing die y = true → s.usesGone die y = false →
    let gone := fun (w : BitVec 32) => Claims.fValid w = true ∧ Claims.fQuar w = true ∧ Claims.fYard w = y
    let alone := fun (k : Nat) => (∃ e ∈ (s.die die).frames, gone e.2 ∧ Claims.fSlot e.2 = k) ∧
      ∀ e ∈ (s.die die).frames, Claims.fValid e.2 = true → Claims.fSlot e.2 = k → gone e.2
    let slot := fun (u : State) (k : Nat) => (lget (u.die die).keySlots k KeySlot.zero).state
    ((∀ k, alone k → slot s k ≠ .live) → ∃ t, Claims.Does .loftTeardownFinish (.n2 die y) s t ∧
      (∀ k, alone k → slot t k = .free) ∧ ∀ f w, tget (s.die die).frames f = some w →
        (gone w → tget (t.die die).frames f = some (w &&& 0xFFFFFFFE#32)) ∧ (¬gone w → tget (t.die die).frames f = some w)) ∧
    ((∃ k, alone k ∧ slot s k = .live) → ∃ t, Claims.Does .loftTeardownFinish (.n2 die y) s t ∧ (t.die die).frames = (s.die die).frames ∧
      ∀ k, alone k → slot s k = .live → slot t k = .discarding)) ∧
  (∀ key a, tget s.revoked key = some a →
    (a + 25000 ≤ s.cycle → Claims.Does .replyReservationRelease (.n1 key) s
      { s with revoked := tdel s.revoked key, dies := s.dies.map (Claims.noShares key) }) ∧
    (s.cycle < a + 25000 → Claims.Does .replyReservationRelease (.n1 key) s s)) ∧
  (∀ key a, tget s.quar key = some a → tget s.revoked key = none →
    (a + 125000 ≤ s.cycle → Claims.Does .keyidQuarantineEnd (.n1 key) s { s with quar := tdel s.quar key }) ∧
    (s.cycle < a + 125000 → Claims.Does .keyidQuarantineEnd (.n1 key) s s)) ∧
  (∀ y : YardDesc, yardDescOk y = true → y.valid = false → Claims.roomy y s → ∃ t, Claims.Does .adminYardWrite (.yardDesc y) s t ∧
    t.yards = tset s.yards y.yard y ∧ t.pens = (Claims.yarded y s).pens ∧ t.mem = s.mem ∧
    ((s.yard y.yard).valid = true → ∀ d, d < 8 → Claims.quarantined d (fun _ w => Claims.fYard w = y.yard) s t)) ∧
  (∀ y : YardDesc, yardDescOk y = true → ¬Claims.roomy y s → Claims.Does .adminYardWrite (.yardDesc y) s s) ∧
  (∀ y : YardDesc, yardDescOk y = true → y.valid = true → Claims.roomy y s →
    let has := fun (z : YardDesc) d c => z.valid && (lget z.cmask d 0).testBit c
    (∀ d c e, d < 8 → c < 12 → has y d c = true → e ∈ s.yards → e.1 ≠ y.yard → has e.2 d c = false) →
    (∀ d c n, d < 8 → c < 12 → has y d c = true → has (s.yard y.yard) d c = false → n < 32 → n ≠ y.yard → s.clusterHeld d c n = false) →
    ((∀ d c, d < 8 → c < 12 → has (s.yard y.yard) d c = true → has y d c = false → s.clusterHeld d c y.yard = false) →
      Claims.Does .adminYardWrite (.yardDesc y) s (Claims.yarded y s)) ∧
    ((∃ d c, d < 8 ∧ c < 12 ∧ has (s.yard y.yard) d c = true ∧ has y d c = false ∧ s.clusterHeld d c y.yard = true) →
      Claims.Does .adminYardWrite (.yardDesc y) s s)) ∧
  (∀ die key, key < 2 ^ 16 → (s.die die).keys.length < 256 →
    Claims.Does .adminKeyInstall (.ok die key true) s (s.modDie die fun d => { d with keys := tset d.keys key ⟨true, 0⟩ })) ∧
  (∀ die key, key < 2 ^ 16 → Claims.Does .adminKeyInstall (.ok die key false) s (s.modDie die fun d => { d with keys := tdel d.keys key })) ∧
  (∀ die key l, Claims.Does .adminReachList (.list die key l) s (s.modDie die fun d => { d with reach := tset d.reach key l })) ∧
  (∀ die (r : GateRec), 8 ≤ die ∨ ¬Claims.gateFits r → Claims.Does .adminGateWrite (.gate die r) s s) ∧
  (∀ die (r : GateRec), die < 8 → Claims.gateFits r →
    (tget s.gates r.gid = none → s.isFenced die 8 0 = false →
      Claims.Does .adminGateWrite (.gate die r) s { s with gates := tset s.gates r.gid (Claims.newGate die r s.cycle) }) ∧
    (∀ g, tget s.gates r.gid = some g → g.home = die → g.mig = .active → r.valid = true → g.valid = true → r.rate = g.rate → r.burst = g.burst →
      Claims.Does .adminGateWrite (.gate die r) s { s with gates := tset s.gates r.gid { g with acl := r.acl, wins := r.wins } })) ∧
  (∀ die n (c : CommDesc), n < 256 → 2 ≤ c.vc → c.vc ≤ 15 → 1 ≤ c.nranks → c.nranks ≤ 2 ^ 20 → c.myrank < c.nranks →
    c.ctxid < 2 ^ 16 → c.keyid < 2 ^ 16 → c.share < 2 ^ 16 → c.ranks < 2 ^ 57 →
    (∀ e ∈ (s.die die).comms, e.1 ≠ n → e.2.valid = true → e.2.vc ≠ c.vc) →
    Claims.Does .adminCommunicatorWrite (.comm die n c) s (s.modDie die fun d =>
      { d with comms := tset d.comms n c, collSeq := tdel d.collSeq n })) ∧
  (∀ die n on, Claims.Does .adminEnrol (.ok die n on) s (s.modDie die fun d =>
    { d with comms := tmod d.comms n fun c => { c with enrol := on } })) ∧
  (∀ die f (e : BitVec 32), (∀ w, tget (s.die die).frames f = some w → Claims.fValid w = false) → f < 12288 →
    s.isFenced die 2 (f / 8) = false → Claims.fValid e = true → (s.yard (Claims.fYard e)).valid = true → die < s.dies.length →
    (s.die die).keySlots.length = 32 → s.isFenced die 9 (Claims.fSlot e) = false →
    let key := (s.yard (Claims.fYard e)).keyid
    (lget (s.die die).keySlots (Claims.fSlot e) KeySlot.zero).state = .free →
    (∀ i, i < 32 → i ≠ Claims.fSlot e → (lget (s.die die).keySlots i KeySlot.zero).state = .live →
      (lget (s.die die).keySlots i KeySlot.zero).keyid ≠ key) →
    ∃ t k, Claims.Does .frameOwnershipWrite (.frame die f e) s t ∧ tget (t.die die).frames f = some (e &&& 0x00FF07FF#32) ∧
      (t.die die).keySlots[Claims.fSlot e]? = some k ∧ k.state = .live ∧ k.keyid = key ∧
      ∀ n, n ≠ f → tget (t.die die).frames n = tget (s.die die).frames n) ∧
  ∀ die f (w e : BitVec 32), tget (s.die die).frames f = some w → f < 12288 → s.isFenced die 2 (f / 8) = false →
    Claims.fValid w = true → Claims.fQuar w = false →
    ((Claims.fValid e = false ∨ Claims.fYard e ≠ Claims.fYard w ∨ Claims.fSlot e ≠ Claims.fSlot w) →
      ∃ t, Claims.Does .frameOwnershipWrite (.frame die f e) s t ∧ Claims.quarantined die (fun n _ => n = f) s t ∧
        ∀ n, n ≠ f → tget (t.die die).frames n = tget (s.die die).frames n) ∧
    (Claims.fValid e = true → Claims.fYard e = Claims.fYard w → Claims.fSlot e = Claims.fSlot w →
      let k := lget (s.die die).keySlots (Claims.fSlot w) KeySlot.zero
      k.state = .live → k.keyid = (s.yard (Claims.fYard w)).keyid → s.isFenced die 9 (Claims.fSlot w) = false →
      (s.yard (Claims.fYard w)).valid = true →
      (∀ i, i < 32 → i ≠ Claims.fSlot w → (lget (s.die die).keySlots i KeySlot.zero).state = .live →
        (lget (s.die die).keySlots i KeySlot.zero).keyid ≠ (s.yard (Claims.fYard w)).keyid) →
      Claims.Does .frameOwnershipWrite (.frame die f e) s (s.modDie die fun d => { d with frames := tset d.frames f (e &&& 0x00FF07FF#32) }))

namespace Sys2Proof.Claims

open Sys2Proof Sys2Proof.Machine

/-! ## Replication (R306 to R327) -/

/-- An update wins over a line's stamp where the stamp is of an older SEP, or by the greater pair of WSEQ and rank (R312). -/
def wins (old : Stamp) (sep : Nat) (p : Packet) : Prop :=
  old.sep ≠ sep ∨ old.wseq < p.wseq ∨ (old.wseq = p.wseq ∧ old.rank < p.src)

/-- A packet of the present epochs that is due at a die: the next of its source, with everything it depends on applied (R311). -/
def due (s : State) (d : Nat) (p : Packet) : Prop :=
  p.epoch = s.epoch ∧ p.sep = (s.repl d).sep ∧ p.sq = lget (s.repl d).applied p.src 0 + 1 ∧
    ∀ k, k < 8 → k ≠ p.src → lget p.dep k 0 ≤ lget (s.repl d).applied k 0

/-- A replication event of every context with REPL set (R327). -/
def toldRepl (kind detail a b : Nat) (s : State) : State := logAll (fun x => x.d.repl) ⟨kind, detail, 0xFFFF, 0, a, b⟩ s.ctxs s

/-- No member has an update under way, and every slot that was asked for has been applied (R324). -/
def quietRepl (s : State) : Prop :=
  s.slotReqs = [] ∧ s.grants = [] ∧ s.air = [] ∧
    ∀ d, d < 8 → s.isMember d = true → (s.repl d).upds = [] ∧ (s.repl d).paddock = [] ∧ (∀ l ∈ (s.repl d).outLog, l = []) ∧
      (s.repl d).mstate ≠ .evicted

/-! ## Gates (R332 to R338) -/

/-- Whether a gate's access list grants what an operation asks. -/
def allows (g : Gate) (o : GateOp) : Prop :=
  g.valid = true ∧ ∃ a ∈ g.acl, a.tenant = o.tenant ∧
    ((∃ n, o.ask = .sig n ∧ a.sig = true) ∨ (∃ n, o.ask = .wait n ∧ a.wait = true) ∨ (o.ask = .rd ∧ a.read = true))

/-- The gate with a new value, and the waits of threshold up to it answered. -/
def settled (g : Gate) (s : State) : State :=
  { s with gates := tset s.gates g.gid g, gateOps := s.gateOps.map fun (o : GateOp) =>
      match o.ask, o.st with
      | .wait thr, .waiting => if o.gid == g.gid && decide (thr ≤ g.value) then { o with st := .answered g.value } else o
      | _, _ => o }

/-! ## Requests and responses of the fabric (R346 to R348) -/

/-- A request that awaits its response no longer. -/
def dropped (id : Nat) (s : State) : State := { s with globs := s.globs.filter fun (r : GlobReq) => r.id != id }

/-- The flits of a packet in the input buffer of its port, and the state once they have left it, their allowances given back (R355, R356).
-/
def flits (p : FabPacket) (s : State) : List Flit :=
  ((lget (s.die p.die).ports p.port Port.zero).buf.filter fun f => f.keyid == p.keyid && f.vc == p.vc).take (1 + p.len)
def unbuffered (p : FabPacket) (s : State) : State :=
  { s.modDie p.die (fun d => { d with ports := lmod d.ports p.port fun q => { q with buf := q.buf.filter fun f => !(flits p s).contains f } })
    with out := s.out ++ (flits p s).map fun f => .allowance p.die p.port (if f.share then .share f.keyid else .pool f.vc) 1 }

/-- The response of a home: it leaves by the port of the request, on virtual channel 1, or waits for its allowances behind those that wait
(R346, R355). -/
def answers (p : FabPacket) (tag : Nat) (data : List Byte) (err : Bool) (s : State) : State :=
  let way : Way := ⟨0, p.die, p.keyid, p.die, p.port, p.srcMod, p.srcDie, 1, p.strm⟩
  let n := 1 + (data.length + 31) / 32
  if (s.replies.all fun q => q.way.die != p.die || q.way.port != p.port) && s.wayFree way n then putPacket way n (.response tag data err) s
  else { s with replies := s.replies ++ [⟨way, tag, data, err⟩] }

/-- An uncorrectable error of a structure in which no launch holds state (R341). -/
def errorIn (die cls num : Nat) (s : State) : State :=
  (raiseShed die ⟨.error, 0, 0, cls, num, false⟩ (s.modDie die fun d =>
    { d with sfence := (cls, num) :: d.sfence, telem := { d.telem with uecc := min (2 ^ 64 - 1) (d.telem.uecc + 1) } })).pfEvent ⟨0x38, cls, 0xFFFF, 0, num, 0⟩

/-- What a reset leaves: the inputs to come, the flash, and memory. -/
def keeps (s t : State) : Prop := t.agenda = s.agenda ∧ t.cycle = 0 ∧ t.flash = s.flash ∧ t.mem = s.mem ∧ t.loftKey = s.loftKey

/-- Slots withheld by governors, and the hottest junction (R388, R389). -/
def throttled (die n temp : Nat) (s : State) : State :=
  s.modDie die fun d => { d with telem := { d.telem with throttle := min (2 ^ 64 - 1) (d.telem.throttle + n), tempMax := temp } }

end Sys2Proof.Claims

/-- Update packets and slots (R307, R310 to R315): a packet leaves when its destination has room, is discarded when it is of another epoch
or already applied, and otherwise wins or loses against the stamp of its line; its 192 bytes stand as in Table 15.3 (R309); the capo's slots
are consecutive. That an acknowledgement means an applied update, and that a die's own update waits for the repair of a failed line, is the
model's reading (log 27), and so is what a capo may grant before its handoff and during an architected event (log 28). -/
def Obligations.ReplicationEvents : Prop :=
  (∀ (s : State) (src dst : Nat) (p : Packet),
    let n := lget (s.repl src).sent dst 0
    let onWay := ((s.repl dst).paddock.filter (·.src == src)).length + (s.air.filter fun a => a.1 == src && a.2.1 == dst).length
    src ≠ dst → s.isMember src = true → s.isMember dst = true → s.linkDead src dst = false → (lget (s.repl src).outLog dst [])[n]? = some p →
    (onWay < 1024 → Claims.Does .packetSend (.n2 src dst) s
      { s.modRepl src (fun r => { r with sent := lset r.sent dst (n + 1) }) with air := s.air ++ [(src, dst, p)] }) ∧
    (1024 ≤ onWay → Claims.Does .packetSend (.n2 src dst) s s)) ∧
  (∀ (s : State) (src dst : Nat) (p : Packet) (rest : List (Nat × Nat × Packet)), s.air = (src, dst, p) :: rest →
    ((p.epoch ≠ s.epoch ∨ p.sep ≠ (s.repl dst).sep ∨ p.sq ≤ lget (s.repl dst).applied src 0) →
      Claims.Does .packetReceive (.n3 src dst 0) s { s with air := rest }) ∧
    (∀ line b, Claims.due s dst p → p.src = src → p.null = false → p.strong = false → p.lines = [(line, b)] → line % 32 = 0 →
      (s.repl dst).paddock = [] → (s.repl dst).upds = [] → (s.repl dst).mstate = .member → dst < s.dies.length →
      ∃ t, Claims.Does .packetReceive (.n3 src dst 0) s t ∧ t.air = rest ∧ (t.repl dst).applied = lset (s.repl dst).applied src p.sq ∧
        (t.repl dst).clock = max (s.repl dst).clock p.wseq ∧
        (Claims.wins (s.stampOf dst line) (s.repl dst).sep p →
          t.mem = memWrite s.mem (s.replSpa dst line) b ∧ t.stampOf dst line = ⟨p.wseq, src, (s.repl dst).sep⟩) ∧
        (¬Claims.wins (s.stampOf dst line) (s.repl dst).sep p → t.mem = s.mem ∧ t.stampOf dst line = s.stampOf dst line))) ∧
  (∀ (s : State) (src dst : Nat) (p : Packet) (rest : List Packet), src < s.dies.length → dst < (s.repl src).outLog.length →
    lget (s.repl src).outLog dst [] = p :: rest → s.linkDead src dst = false →
    (lget (s.repl dst).applied src 0 < p.sq → Claims.Does .updateAcknowledgement (.n3 src dst p.sq) s s) ∧
    (p.sq ≤ lget (s.repl dst).applied src 0 → (s.repl dst).mstate = .member →
      ∃ t, Claims.Does .updateAcknowledgement (.n3 src dst p.sq) s t ∧ (t.repl src).outLog = lset (s.repl src).outLog dst rest ∧
        (t.repl src).applied = (s.repl src).applied ∧ t.mem = s.mem ∧ t.strands = s.strands)) ∧
  (∀ (s : State) (q : SlotReq) (rest : List SlotReq), s.slotReqs = q :: rest →
    let w := max q.clock s.capo.last + 1
    (s.arch ≠ none ∨ (s.capo.grants < 4096 ∧ s.cycle < s.capo.since + 125000) → Claims.Does .capoGrant .none s { s with
      slotReqs := rest, capo := { s.capo with next := s.capo.next + 1, last := w, grants := s.capo.grants + 1 },
      grants := s.grants ++ [Grant.mk q.die q.sq s.capo.next w] }) ∧
    (s.arch = none → (4096 ≤ s.capo.grants ∨ s.capo.since + 125000 ≤ s.cycle) → Claims.Does .capoGrant .none s s)) ∧
  (∀ (s : State) (g : Grant) (rest : List Grant) (u : Upd), s.grants = g :: rest → g.die < s.dies.length → (s.repl g.die).upds = [u] →
    s.replBad g.die u.off u.n = false → u.sq = g.sq → u.strong = some .sst → (s.repl g.die).paddock = [] → (s.repl g.die).gseq = g.gs →
    ∃ t, Claims.Does .strongGrantReceive (.n1 g.die) s t ∧ t.grants = rest ∧ (t.repl g.die).upds = [] ∧ (t.repl g.die).gseq = g.gs + 1 ∧
      (t.repl g.die).applied = lset (s.repl g.die).applied g.die u.sq ∧ (t.repl g.die).clock = max (s.repl g.die).clock g.wseq ∧
      t.mem = memWrite s.mem (s.replSpa g.die u.off) (toBytes u.n u.val) ∧
      t.stampOf g.die (u.off / 32 * 32) = ⟨g.wseq, g.die, (s.repl g.die).sep⟩) ∧
  (∀ p : Packet, let x := BitVec.ofNat 1536 (ofBytes p.bytes)
    p.bytes.length = 192 ∧ x.extractLsb' 0 3 = BitVec.ofNat 3 p.src ∧ x.getLsbD 3 = p.strong ∧ x.getLsbD 4 = p.null ∧ x.extractLsb' 5 3 = 0#3 ∧
      x.extractLsb' 8 8 = BitVec.ofNat 8 p.sep ∧ x.extractLsb' 16 16 = BitVec.ofNat 16 p.epoch ∧ x.extractLsb' 32 32 = BitVec.ofNat 32 p.sq ∧
      x.extractLsb' 64 32 = BitVec.ofNat 32 p.wseq ∧ x.extractLsb' 96 32 = BitVec.ofNat 32 p.gs ∧
      (∀ k, k < 8 → x.extractLsb' (128 + 32 * k) 32 = BitVec.ofNat 32 (lget p.dep k 0)) ∧
      ∀ line b, p.lines = [(line, b)] → line % 32 = 0 → line < 2 ^ 46 → b.length = 32 →
        x.extractLsb' 384 64 = BitVec.ofNat 64 (line / 128 * 128) ∧ x.extractLsb' 448 8 = 1#8 <<< (line / 32 % 4) ∧
        x.extractLsb' 456 56 = 0#56 ∧ x.extractLsb' 512 256 = BitVec.ofNat 256 (ofBytes b)) ∧
  ∀ s : State,
    (s.arch = none → (4096 ≤ s.capo.grants ∨ s.capo.since + 125000 ≤ s.cycle) → Claims.Does .capoHandoff .none s
      { s with capo := { s.capo with holder := s.nextMember s.capo.holder, grants := 0, since := s.cycle } }) ∧
    (s.capo.grants < 4096 → s.cycle < s.capo.since + 125000 → Claims.Does .capoHandoff .none s s)

/-- Membership (R306, R321 to R326, R342): lag, the decision to evict, the eviction, a counter wrap, a rejoin, and the repair of a line,
from a member that has applied what the die has (log 27). That the decision and the eviction are two events, and the events' arguments, are
the model's reading (logs 26 to 28). -/
def Obligations.MembershipEvents : Prop :=
  (∀ (s : State) (d : Nat), s.arch = none → s.isMember d = true → (s.repl d).mstate = .member →
    (s.lagging d 0 = true → Claims.Does .lagDetect (.n1 d) s (Claims.toldRepl 0x30 d (s.backlog d) (s.oldestWait d * 4 / 5)
      (s.modRepl d fun r => { r with
        mstate := .lagging, lagSince := s.cycle, lagBack := (List.range 8).map fun k => (lget (s.repl k).outLog d []).length }))) ∧
    (s.lagging d 0 = false → Claims.Does .lagDetect (.n1 d) s s)) ∧
  (∀ (s : State) (d : Nat), s.isMember d = true → s.others d ≠ [] →
    let gone := { s.modRepl d (fun r => { r with mstate := .evicted }) with quies := true }
    ((s.repl d).mstate = .lagging → s.lagging d 1 = true → (s.repl d).lagSince + 12500000 ≤ s.cycle →
      Claims.Does .lagEvictTimeout (.n1 d) s gone) ∧
    ((s.repl d).mstate ≠ .evicted → (∀ k ∈ s.others d, s.linkDead d k = true) → Claims.Does .linksLost (.n1 d) s gone) ∧
    ((s.repl d).mstate ≠ .evicted → (∃ k ∈ s.others d, s.linkDead d k = false) → Claims.Does .linksLost (.n1 d) s s)) ∧
  (∀ (s : State) (e : Nat), s.isMember e = true → (s.repl e).mstate = .evicted → e < 8 → ∃ t, Claims.Does .eviction (.n1 e) s t ∧
    t.memb = s.memb - 2 ^ e ∧ t.epoch = (s.epoch + 1) % 2 ^ 16 ∧ t.air = [] ∧ (∀ q ∈ t.slotReqs, q.die ≠ e) ∧
      (∀ g ∈ t.grants, g.die ≠ e) ∧ ∀ d ∈ s.others e, (t.repl d).paddock = []) ∧
  (∀ s : State, s.archFree = true →
    (s.wrapDue = true → Claims.Does .counterWrap .none s { s with arch := some (.wrap s.cycle), quies := true }) ∧
    (s.wrapDue = false → Claims.Does .counterWrap .none s s)) ∧
  (∀ (s : State) (c : Nat), s.arch = some (.wrap c) → s.dies.length = 8 → (∀ d, d < 8 → s.isMember d = true → (s.repl d).mstate ≠ .evicted) →
    (Claims.quietRepl s → ∃ t, Claims.Does .wrapRebase .none s t ∧ t.arch = none ∧ t.quies = false ∧ t.capo.next = 0 ∧ t.capo.last = 0 ∧
      ∀ d, d < 8 → s.isMember d = true → (t.repl d).issued = 0 ∧ (t.repl d).applied = List.replicate 8 0 ∧ (t.repl d).clock = 0 ∧
        (t.repl d).gseq = 0 ∧ (t.repl d).sep = ((s.repl d).sep + 1) % 256) ∧
    (¬Claims.quietRepl s → Claims.Does .wrapRebase .none s s)) ∧
  (∀ (s : State) (die line : Nat) (rest : List (Nat × Nat)) (st : Stamp), s.rewrite = (die, line) :: rest → line ≠ s.replSize →
    die < s.dies.length → tget (s.repl die).stamps line = some st → ∃ t, Claims.Does .stampRewrite (.n2 die line) s t ∧ t.rewrite = rest ∧
      t.mem = s.mem ∧ tget (t.repl die).stamps line = some (if st.sep = (s.repl die).sep then st else ⟨0, 0, (s.repl die).sep⟩)) ∧
  (∀ (s : State) (d : Nat), s.archFree = true → s.isMember d = false → (s.repl d).mstate = .evicted → d < 8 →
    Claims.Does .rejoinRequest (.n1 d) s
      { s.modRepl d (fun r => { r with mstate := .rejoining }) with arch := some (.rejoin d s.cycle), quies := true }) ∧
  (∀ (s : State) (d src c : Nat), s.arch = some (.rejoin d c) → s.drained = true → d < 8 → s.dies.length = 8 → s.isMember d = false →
    (List.range 8).find? s.isMember = some src →
    (s.linkDead src d = false → ∃ t, Claims.Does .rejoinCopyComplete (.ok1 d true) s t ∧ t.memb = s.memb + 2 ^ d ∧
      t.epoch = (s.epoch + 1) % 2 ^ 16 ∧ t.arch = none ∧ t.quies = false ∧ (t.repl d).mstate = .member ∧ (t.repl d).applied = List.replicate 8 0) ∧
    (∃ t, Claims.Does .rejoinCopyComplete (.ok1 d false) s t ∧ t.memb = s.memb ∧ t.epoch = s.epoch ∧ t.arch = none ∧
      (t.repl d).mstate = .evicted)) ∧
  ∀ (s : State) (d k line : Nat), s.isMember d = true → line % 32 = 0 → line < s.replSize → s.bad.contains (s.replSpa d line / 32) = true →
    (s.others d).find? (fun k => !s.bad.contains (s.replSpa k line / 32)) = some k →
    ((∀ j, j < 8 → lget (s.repl d).applied j 0 ≤ lget (s.repl k).applied j 0) →
      Claims.Does .replfix (.n2 d line) s (settleDie d (Claims.toldRepl 0x35 d (s.replSpa d line) 0
        (writeStamped d line (s.replBytes k line 32) (s.stampOf k line) s)))) ∧
    ((∃ j, j < 8 ∧ lget (s.repl k).applied j 0 < lget (s.repl d).applied j 0) → Claims.Does .replfix (.n2 d line) s s)

/-- Gates (R332 to R338): at an active home on this module an operation that the access list does not grant is denied, a wait is answered or
waits, a signal of an unlimited gate is added and wakes the waits that it meets; answers reach their strands; and a gate moves in the order
of Table 15.13, of which the contexts of its access list are told. That an operation is served whole when it reaches its home is the model's
choice (log 31), and so are the lock of the events of one gate and that a request is served as the oldest of its lock (log 25). -/
def Obligations.GateEvents : Prop :=
  (∀ (s : State) (o : GateOp) (g : Gate), s.gateOps.find? (·.id == o.id) = some o → tget s.gates o.gid = some g → g.gid = o.gid →
    o.st = .sent → o.away = none → s.gateEvent o.id = none → g.home < 8 → g.held = [] → s.isFenced g.home 8 0 = false →
    let put := fun (st : GateSt) (s : State) =>
      { s with gateOps := s.gateOps.map fun (p : GateOp) => if p.id == o.id then { p with st := st } else p }
    let now := { g with at_ := s.cycle }
    (g.mig = .active ∨ g.mig = .forwarding ∨ (g.mig = .arriving ∧ o.fwd = true) →
      (¬Claims.allows g o → Claims.Does .gateRequest (.n1 o.id) s (put .denied s)) ∧
      (Claims.allows g o → g.rate = 0 → g.delayed = [] →
        (∀ n, o.ask = .sig n → Claims.Does .gateRequest (.n1 o.id) s
          (retryGate o.owner (put (.answered 0) (Claims.settled { now with value := min (g.value + n) (2 ^ 64 - 1) } s)))) ∧
        (∀ thr, o.ask = .wait thr → Claims.Does .gateRequest (.n1 o.id) s
          (put (if thr ≤ g.value then .answered g.value else .waiting) (Claims.settled now s))) ∧
        (o.ask = .rd → Claims.Does .gateRequest (.n1 o.id) s (retryGate o.owner (put (.answered g.value) (Claims.settled now s)))))) ∧
    (g.mig = .freezing ∨ g.mig = .copying ∨ (g.mig = .arriving ∧ o.fwd = false) → Claims.Does .gateRequest (.n1 o.id) s
      { s with gates := tset s.gates o.gid { g with held := [o.id] } })) ∧
  (∀ (s : State) (o : GateOp) (d : Nat) (e : ShedEvent), s.gateOps.find? (·.id == o.id) = some o → s.gateEvent o.id = some (d, e) →
    (s.die d).oldest e = false → Claims.Does .gateRequest (.n1 o.id) s s) ∧
  (∀ (s : State) (o : GateOp) (m d tag : Nat), s.gateOps.find? (·.id == o.id) = some o → o.away = some (m, d, tag) →
    let s1 := { s with gateOps := s.gateOps.filter fun (p : GateOp) => p.id != o.id }
    (o.st = .denied → Claims.Does .gateAnswer (.n1 o.id) s { s1 with out := s.out ++ [.gateAnswer m d tag none] }) ∧
    ∀ v, o.st = .answered v → Claims.Does .gateAnswer (.n1 o.id) s { s1 with out := s.out ++ [.gateAnswer m d tag (some v)] }) ∧
  (∀ (s : State) (o : GateOp), s.gateOps.find? (·.id == o.id) = some o → o.away = none →
    let s1 := { s with gateOps := s.gateOps.filter fun (p : GateOp) => p.id != o.id }
    (o.st = .denied → Claims.Does .gateAnswer (.n1 o.id) s (takeTrap o.owner .word { cause := .gden } s1)) ∧
    (∀ v thr, o.st = .answered v → o.ask = .wait thr → Claims.Does .gateAnswer (.n1 o.id) s (retryGate o.owner s)) ∧
    (∀ v p, o.st = .answered v → (∀ thr, o.ask ≠ .wait thr) → s.pend.find? (·.kind == .gate o.id) = some p →
      (p.flag = none → Claims.Does .gateAnswer (.n1 o.id) s (pendWhole p s1)) ∧
      ∀ f, p.flag = some f → Claims.Does .gateAnswer (.n1 o.id) s
        ((s1.modPend p.id fun q => { q with kind := .ready }).modStrand p.owner fun x =>
          { x with phase := .body, flags := lmod x.flags f (· + 1) }.advance p.len))) ∧
  (∀ (s : State) (g : Gate), tget s.gates g.gid = some g → g.mig ≠ .copying → g.home < 8 →
    (g.rate ≠ 0 → g.delayed = [] →
      let c := g.credit + g.rate * (s.cycle - g.at_) * 4
      Claims.Does .gateTokenAccrue (.n1 g.gid) s (Claims.settled { g with
        tokens := min g.burst (g.tokens + c / 5000000), credit := c % 5000000, at_ := s.cycle } s)) ∧
    (g.rate ≠ 0 → ∀ who n rest, g.delayed = (who, n) :: rest → g.tokens = 0 →
      let c := g.credit + g.rate * (s.cycle - g.at_) * 4
      c / 5000000 = 1 → Claims.Does .gateTokenAccrue (.n1 g.gid) s (Claims.settled { g with
        value := min (g.value + n) (2 ^ 64 - 1), tokens := min g.burst 0, delayed := rest, credit := c % 5000000, at_ := s.cycle } s))) ∧
  ∀ (s : State) (g : Gate), tget s.gates g.gid = some g →
    let put := fun (g' : Gate) => { s with gates := tset s.gates g.gid g' }
    (∀ m d, g.home < 8 → g.mig = .active → d < 8 → m < 2 ^ 20 → (m = s.modId → d ≠ g.home ∧ s.isFenced d 8 0 = false) →
      Claims.Does .gateMigrate (.n3 g.gid m d) s (raiseShed g.home ⟨.migr, 0, g.gid % 256, g.gid, m * 8 + d, false⟩
        (put { g with mig := .freezing, newMod := m, newHome := d }))) ∧
    (g.home < 8 → g.mig = .freezing → g.rate = 0 → g.delayed = [] →
      Claims.Does .gateMigrateCopy (.n1 g.gid) s (put { g with mig := .copying, at_ := s.cycle })) ∧
    (g.home < 8 → g.mig = .copying → g.newMod = s.modId → g.held = [] → Claims.Does .gateMigrateAck (.n1 g.gid) s
      (Claims.settled { g with mig := .forwarding, home := g.newHome } s)) ∧
    (g.home < 8 → g.mig = .copying → g.newMod ≠ s.modId → g.held = [] → ∃ t l, Claims.Does .gateMigrateAck (.n1 g.gid) s t ∧
      tget t.gates g.gid = some { g with mig := .forwarding, home := 8 } ∧ t.out = s.out ++ [.gateMove g.gid g.newMod g.newHome g l] ∧
      tget t.gateSeen g.gid = some g.value ∧ t.strands = s.strands) ∧
    (g.mig = .forwarding → ∃ t, Claims.Does .gateRetire (.n1 g.gid) s t ∧ tget t.gates g.gid = some { g with mig := .active } ∧
      Out.gateMoved g.gid g.newMod g.newHome g.acl ∈ t.out ∧ t.gateOps = s.gateOps ∧ t.strands = s.strands)

/-- The fabric and the collective engines (R168, R206, R242, R346 to R357, R364 to R373): what a home answers, how a request ends, the
links' own counts, a barrier's step, and the end of a collective. That the sender of a discarded packet learns of it as of an error
response, that a chunk is one step, which requests a failed link within the package ends, and the DETAIL of FABERR for a lost path and for
no answer are the model's reading (logs 29, 30, 32, 50). -/
def Obligations.FabricEvents : Prop :=
  (∀ (s : State) (p : FabPacket), p.die < 8 → p.port < 16 → s.isFenced p.die 5 p.port = false → packetFits p s.modId = true →
    (Claims.flits p s).length = 1 + p.len →
    let u := Claims.unbuffered p s
    (p.tagOk = true → u.keyLive p.die p.keyid = true →
      (∀ tag spa n, p.body = .read tag spa n →
        (admitsPacket u p spa n true = true → Claims.Does .fabricPacketReceive (.packet p) s
          (Claims.answers p tag (u.readSpa (mkSpa 0 p.die (spaOff spa)) n) false u)) ∧
        (admitsPacket u p spa n true = false → Claims.Does .fabricPacketReceive (.packet p) s (Claims.answers p tag [] true u))) ∧
      ∀ tag spa l, p.body = .write tag spa l →
        (admitsPacket u p spa l.length false = true → Claims.Does .fabricPacketReceive (.packet p) s
          (Claims.answers p tag [] false (storeHome p.die spa l u))) ∧
        (admitsPacket u p spa l.length false = false → Claims.Does .fabricPacketReceive (.packet p) s (Claims.answers p tag [] true u))) ∧
    (p.tagOk = false ∨ u.keyLive p.die p.keyid = false → ∀ tag spa n, p.body = .read tag spa n →
      let v := discardAt p.die p.port { u with pfDrops := u.pfDrops + if (tget s.revoked p.keyid).isSome then 1 else 0 }
      Claims.Does .fabricPacketReceive (.packet p) s { v with out := v.out ++ [.discarded p.die p.port p.srcMod p.srcDie tag] })) ∧
  (∀ (s : State) (p : FabPacket), packetFits p s.modId = false ∨ (Claims.flits p s).length ≠ 1 + p.len ∨ s.isFenced p.die 5 p.port = true →
    Claims.Does .fabricPacketReceive (.packet p) s s) ∧
  (∀ (s : State) (r : GlobReq), s.globs.find? (fun (x : GlobReq) => x.id == r.id) = some r →
    (∀ o n v, r.op = some o → r.ask = .read n → Claims.Does .globResponse (.globRsp r.id (some v)) s
      ((Claims.dropped r.id s).modPend o fun p =>
        { p with kind := .ready, dests := destsOf p.places (loadedVals r.etag r.esz (v % 2 ^ (8 * n))) })) ∧
    (∀ o l v, r.op = some o → r.ask = .write l → Claims.Does .globResponse (.globRsp r.id (some v)) s
      ((Claims.dropped r.id s).modPend o fun p => { p with kind := .ready })) ∧
    (∀ o k, r.op = some o → r.owner = some k →
      let lost := fun why => (logEvent r.ctx ⟨0x50, why, 0xFFFF, k.grp.launch, r.tmod * 8 + r.tdie, r.va⟩ (Claims.dropped r.id s)).modPend o
        fun p => { p with kind := .ready, dests := destsOf p.places ((loadedVals r.etag r.esz 0).map fun v => { v with bits := 0xFFFFFFFF#32 }) }
      Claims.Does .globResponse (.globRsp r.id none) s (lost 0) ∧
      (r.since + 1250000 ≤ s.cycle → Claims.Does .responseTimeout (.n1 r.id) s (lost 2)) ∧
      (s.globs = [r] → r.ask.isAtomic = false → Claims.Does .pathFailure (.n4 r.die r.tmod r.tdie r.strm) s
        (let k := (r.die, r.tmod, r.tdie, r.strm)
         { lost 1 with repins := tset s.repins k (tgetD s.repins k 0 + 1) })) ∧
      (s.globs = [r] → s.air = [] → s.items = [] → s.dies.length = 8 → r.die < 8 → r.tdie < 8 → r.die ≠ r.tdie →
        s.linkDead r.die r.tdie = false → ∃ t, Claims.Does .inPackageLinkFailure (.n2 r.die r.tdie) s t ∧ t.globs = [] ∧
          t.deadLinks = (r.die, r.tdie) :: s.deadLinks ∧ t.pend = (lost 1).pend)) ∧
    (s.cycle < r.since + 1250000 → Claims.Does .responseTimeout (.n1 r.id) s s)) ∧
  (∀ (s : State) (die port : Nat),
    let at_ := fun (f : Port → Port) => s.modDie die fun d => { d with ports := lmod d.ports port f }
    (∀ fl, Claims.Does .linkFlitReceive (.flit die port fl false) s (at_ fun p => { p with replay := true })) ∧
    (∀ fl, (lget (s.die die).ports port Port.zero).expect = fl.num → (lget (s.die die).ports port Port.zero).buf.length < 16384 →
      Claims.Does .linkFlitReceive (.flit die port fl true) s
        (at_ fun p => { p with expect := p.expect + 1, replay := false, buf := p.buf ++ [{ fl with ctx := 0 }] })) ∧
    (∀ fl, (lget (s.die die).ports port Port.zero).expect ≠ fl.num ∨ 16384 ≤ (lget (s.die die).ports port Port.zero).buf.length →
      Claims.Does .linkFlitReceive (.flit die port fl true) s s) ∧
    (∀ n, Claims.Does .flitAck (.n3 die port n) s (at_ fun p => { p with sent := p.sent.filter fun f => decide (n < f.num) })) ∧
    ∀ k, Claims.Does .allowanceReturn (.allow die port k) s (at_ fun p => { p with allow := tset p.allow k (tgetD p.allow k 0 + 1) })) ∧
  (∀ (s : State) (c : Coll) (w : Item), s.colls.find? (fun (x : Coll) => x.die == c.die && x.id == c.id) = some c → s.item c.item = some w →
    (c.map = none → c.op = 4 → s.localRanks c = [(c.die, (s.comm c.die c.comm).myrank)] → (s.comm c.die c.comm).nranks = 1 →
      (s.comm c.die c.comm).myrank = 0 → s.matchOn c c.die = some c → s.itemRuns w = true → s.outranked c = false → c.tile = none →
      c.got = 0 → Claims.Does .collChunkStep (.parts c.die c.id []) s
        { s.modDie c.die (fun d => { d with turns := tset d.turns 16 c.comm }) with colls := s.colls.map fun (x : Coll) =>
          if x.id == c.id then { x with got := 1, since := s.cycle } else x }) ∧
    (w.fail = none → w.landed = w.arrived → c.map = none → c.op = 4 → c.got = c.need → Claims.Does .collComplete (.n2 c.die c.id) s
      (closeItem w { s with colls := s.colls.filter fun (x : Coll) => x.id != c.id })) ∧
    (c.got ≠ c.need → Claims.Does .collComplete (.n2 c.die c.id) s s) ∧
    (s.cycle < c.since + 12500000 → Claims.Does .collTimeout (.n2 c.die c.id) s s) ∧
    (c.since + 12500000 ≤ s.cycle → s.peers c = [(0, c)] → w.fail = none → ∃ t, Claims.Does .collTimeout (.n2 c.die c.id) s t ∧
      t.item c.item = some { w with fail := some .rplx } ∧ t.mem = s.mem))

/-- The module (R306, R341, R382 to R389): reset, the stages of boot, attestation, host registers, errors and temperature. That a reset
keeps HBM is the model's choice (log 18); how much a governor withholds is a free value (log 2). The layout of an image and the public key
in ROM are free, the key derivation's labels and what a die reads of its SRAM as well, and the signature of the boot measurement (log 19).
The entry of an error in the physical function's log is the model's reading (log 47), and a counter at its greatest value stays there (log
66). -/
def Obligations.ModuleEvents : Prop :=
  (∀ s : State, ∃ t, (∀ a, Claims.Does .moduleReset a s t) ∧ Claims.keeps s t ∧ t.boot.state = 0 ∧ t.memb = 0xFF ∧ t.epoch = 0 ∧
    t.ctxs = [] ∧ t.launches = [] ∧ t.groups = [] ∧ t.strands = [] ∧ t.items = [] ∧ t.pend = [] ∧ t.gates = [] ∧ t.yards = [] ∧ t.tlb = [] ∧
    t.dies = State.reset.dies) ∧
  (∀ s : State, s.boot.state = 0 → (∀ b ∈ s.boot.dies, b.stage = 6) →
    let code := fun d => (lget s.boot.dies d DieBoot.zero).code
    let failed := fun (d c : Nat) => { s with boot := { s.boot with state := 2, failDie := 2 ^ d, failCode := c, series := 0 } }
    ((∀ d, d < 8 → code d = 0) →
      Claims.Does .bootAllDiesReady (.fails []) s { s with boot := { s.boot with state := 1, failDie := 0, failCode := 0, series := 3 } } ∧
      ∀ d, d < 8 → Claims.Does .bootAllDiesReady (.fails [(d, 6)]) s (failed d 6)) ∧
    ∀ d, d < 8 → 1 ≤ code d → code d ≤ 5 → (∀ e, e < 8 → e ≠ d → code e = 0) →
      Claims.Does .bootAllDiesReady (.fails []) s (failed d (code d))) ∧
  (∀ (s : State) (l : List (Nat × Nat)), s.boot.state ≠ 0 ∨ (∃ b ∈ s.boot.dies, b.stage ≠ 6) → Claims.Does .bootAllDiesReady (.fails l) s s) ∧
  (∀ (s : State) (d : Nat), d = 0 ∨ d = 4 →
    (s.boot.state = 1 → Claims.Does .configRequest (.n1 d) s { s with out := s.out ++ [.configAnswer d] }) ∧
    (s.boot.state ≠ 1 → Claims.Does .configRequest (.n1 d) s { s with out := s.out ++ [.configRetry d] })) ∧
  (∀ (s : State) (fn : Nat), s.boot.state = 1 →
    (fn = 0 ∨ 65 ≤ fn ∨ tget s.vfs fn = none ∨ (∀ e ∈ s.ctxs, e.2.d.hostfn ≠ fn) → Claims.Does .functionLevelReset (.n1 fn) s s) ∧
    (∀ e end_, 1 ≤ fn → fn ≤ 64 → tget s.vfs fn = some end_ → s.ctxs.filter (fun e => e.2.d.hostfn == fn) = [e] →
      Claims.Does .functionLevelReset (.n1 fn) s (teardown e.1 s))) ∧
  (∀ (s : State) (die nonce : Nat),
    let b := lget s.boot.dies die DieBoot.zero
    let m := b.record ++ toBytes 32 nonce ++ List.replicate 16 0#8
    let key := shake256 (b.seed ++ Config.kdfLabel 2)
    (s.boot.state = 1 → die < 8 → Claims.Does .attestationRequest (.n2 die nonce) s { s with
      free := s.free + 1
      out := s.out ++ [.attestation die m (toBytes 3309 (Config.mldsaSign key (Config.freeNat s.free) m))] }) ∧
    (s.boot.state ≠ 1 ∨ 8 ≤ die → Claims.Does .attestationRequest (.n2 die nonce) s { s with out := s.out ++ [.attestationRefused die] })) ∧
  (∀ (s : State) (fn off : Nat) (val : BitVec 64), off < 0x1000 ∨ 0x3000 ≤ off ∨ off % 8 ≠ 0 →
    Claims.Does .registerWrite (.regWrite fn off val) s s) ∧
  (∀ (s : State) (fn page q : Nat) (val : BitVec 64), page < 16 → q < 64 →
    Claims.Does .registerWrite (.regWrite fn (0x1000 + 0x200 * page + 8 * q) val) s (hostDoorbell fn page q (val.extractLsb' 0 32) s)) ∧
  (∀ (s : State) (die cls num : Nat), s.blastSet die cls num = [] → s.isFenced die cls num = false → cls ≠ 3 →
    Claims.Does .uncorrectableError (.n3 die cls num) s (Claims.errorIn die cls num s) ∧
    ∃ temp, 1150 ≤ temp ∧ temp < 2 ^ 16 ∧ Claims.Does .thermalFence (.n3 die cls num) s (Claims.errorIn die cls num
      (Claims.throttled die 0 temp { s with free := s.free + 1 }))) ∧
  (∀ (s : State) (die cls num : Nat), ∃ n temp, 1050 ≤ temp ∧ temp < 1150 ∧ Claims.Does .thermalThrottle (.n3 die cls num) s
    (Claims.throttled die n temp { s with free := s.free + 2 })) ∧
  ∀ (s : State) (die : Nat), die < 8 → s.boot.dies.length = 8 → s.boot.state = 0 →
    let b := lget s.boot.dies die DieBoot.zero
    let at_ := fun (f : DieBoot → DieBoot) => { s with boot := { s.boot with dies := lmod s.boot.dies die f } }
    let fails := bootStage die true s = at_ fun b => { b with stage := 6, code := b.stage }
    let h := Config.headerBytes s.flash.header.series s.flash.header.serial s.flash.header.stepping s.flash.header.digests
    (b.stage < 6 → bootStage die false s = at_ fun b => { b with stage := 6, code := b.stage }) ∧
    (b.stage = 1 →
      (Config.fuzzy (Config.sram die s.free) (lget s.flash.helper die []) = none → fails) ∧
      ∀ seed, Config.fuzzy (Config.sram die s.free) (lget s.flash.helper die []) = some seed →
        bootStage die true s = { at_ (fun b => { b with stage := 2, seed := seed }) with free := s.free + 1 }) ∧
    (b.stage = 2 →
      (s.flash.header.series ≠ 3 ∨ xmssVerify Config.romRoot Config.romSeed h s.flash.sig = false → fails) ∧
      (s.flash.header.series = 3 → xmssVerify Config.romRoot Config.romSeed h s.flash.sig = true →
        bootStage die true s = at_ fun b => { b with stage := 3 })) ∧
    (b.stage = 3 →
      let serial := ofBytes ((shake256 (b.seed ++ Config.kdfLabel 0)).take 8)
      (s.flash.header.serial ≠ serial ∨ s.flash.header.stepping ≠ 0xB0 → fails) ∧
      (s.flash.header.serial = serial → s.flash.header.stepping = 0xB0 → bootStage die true s = at_ fun b => { b with stage := 4 })) ∧
    (b.stage = 4 →
      let l := s.flash.sections.map shake256
      (l ≠ s.flash.header.digests → fails) ∧
      (l = s.flash.header.digests → bootStage die true s = at_ fun b => { b with stage := 5, digests := l })) ∧
    (b.stage = 5 → ∃ t, bootStage die true s = t ∧ t.repl die = Repl.zero ∧
      t.mem = (s.mem.filter fun c => !(spaSpace c.1 == 1 && spaDie c.1 == die)) ∧
      lget t.boot.dies die DieBoot.zero = { b with
        stage := 6, loaded := s.flash.sections
        record := toBytes 8 (ofBytes ((shake256 (b.seed ++ Config.kdfLabel 0)).take 8)) ++ toBytes 1 die ++ toBytes 1 b.digests.length ++
          [0#8, 0#8] ++ toBytes 4 0x3B0 ++ shake256 (h ++ s.flash.sig) ++ shake256 b.digests.flatten })

/-- The memory keeps its canonical form: whatever a step does, from any state in that form, it leaves system memory, the core windows and
the cluster windows with rising addresses and no listed byte that reads as an unlisted one. What an unlisted byte reads as is the model's
choice (log 4). -/
def Obligations.StepKeepsMemory : Prop := ∀ s t : State, s.memsWf → step s = .next t → t.memsWf
end

