-- ==== Sys2Proof/WellFormed.lean ====
section
/-! DEFINITION. Which instructions are well formed: the limits on fields and literals that no state decides (R21, R30, R34). -/

namespace Sys2Proof

/-- A data operand: register 127 is reserved (Table 2.3). -/
def regOk (n : RegNo) : Bool := n != 127#7

/-- A pair starts at an even register, a quad at a multiple of 4 (R30). -/
def pairOk (n : RegNo) : Bool := n != 127#7 && (decide (120 ≤ n.toNat) || n.toNat % 2 == 0)
def quadOk (n : RegNo) : Bool := n != 127#7 && (decide (120 ≤ n.toNat) || n.toNat % 4 == 0)

/-- Well-formedness of an instruction; an event has no fields. -/
def Instr.wf : Instr → Bool
  | .iadd d a b => regOk d && regOk a && regOk b
  | .iaddi d a _ => regOk d && regOk a
  | .isub d a b => regOk d && regOk a && regOk b
  | .imul d a b => regOk d && regOk a && regOk b
  | .imulhI d a b => regOk d && regOk a && regOk b
  | .imulhN d a b => regOk d && regOk a && regOk b
  | .imad d a b => regOk d && regOk a && regOk b
  | .imulwI d a b => pairOk d && regOk a && regOk b
  | .imulwN d a b => pairOk d && regOk a && regOk b
  | .idivI d a b => regOk d && regOk a && regOk b
  | .idivN d a b => regOk d && regOk a && regOk b
  | .iremI d a b => regOk d && regOk a && regOk b
  | .iremN d a b => regOk d && regOk a && regOk b
  | .iminI d a b => regOk d && regOk a && regOk b
  | .iminN d a b => regOk d && regOk a && regOk b
  | .imaxI d a b => regOk d && regOk a && regOk b
  | .imaxN d a b => regOk d && regOk a && regOk b
  | .iabs d a => regOk d && regOk a
  | .ineg d a => regOk d && regOk a
  | .iaddsI d a b => regOk d && regOk a && regOk b
  | .iaddsN d a b => regOk d && regOk a && regOk b
  | .isubsI d a b => regOk d && regOk a && regOk b
  | .isubsN d a b => regOk d && regOk a && regOk b
  | .iadd64 d a b => pairOk d && pairOk a && pairOk b
  | .isub64 d a b => pairOk d && pairOk a && pairOk b
  | .ixadd2 d a b => regOk d && regOk a && regOk b
  | .ixadd4 d a b => regOk d && regOk a && regOk b
  | .ixadd8 d a b => regOk d && regOk a && regOk b
  | .ixadd16 d a b => regOk d && regOk a && regOk b
  | .ldi d _ => regOk d
  | .ldw d _ => regOk d
  | .and d a b => regOk d && regOk a && regOk b
  | .andi d a _ => regOk d && regOk a
  | .or d a b => regOk d && regOk a && regOk b
  | .ori d a _ => regOk d && regOk a
  | .xor d a b => regOk d && regOk a && regOk b
  | .xori d a _ => regOk d && regOk a
  | .andn d a b => regOk d && regOk a && regOk b
  | .not d a => regOk d && regOk a
  | .shl d a b => regOk d && regOk a && regOk b
  | .shli d a _ => regOk d && regOk a
  | .shr d a b => regOk d && regOk a && regOk b
  | .shri d a _ => regOk d && regOk a
  | .sar d a b => regOk d && regOk a && regOk b
  | .sari d a _ => regOk d && regOk a
  | .rol d a b => regOk d && regOk a && regOk b
  | .roli d a _ => regOk d && regOk a
  | .bfxI d a b => regOk d && regOk a && regOk b
  | .bfxN d a b => regOk d && regOk a && regOk b
  | .bfi d a b => regOk d && regOk a && regOk b
  | .popc d a => regOk d && regOk a
  | .clz d a => regOk d && regOk a
  | .ctz d a => regOk d && regOk a
  | .brev d a => regOk d && regOk a
  | .permb d a b => regOk d && regOk a && regOk b
  | .icmpEq _ a b => regOk a && regOk b
  | .icmpNe _ a b => regOk a && regOk b
  | .icmpLtI _ a b => regOk a && regOk b
  | .icmpLeI _ a b => regOk a && regOk b
  | .icmpGtI _ a b => regOk a && regOk b
  | .icmpGeI _ a b => regOk a && regOk b
  | .icmpLtN _ a b => regOk a && regOk b
  | .icmpLeN _ a b => regOk a && regOk b
  | .icmpGtN _ a b => regOk a && regOk b
  | .icmpGeN _ a b => regOk a && regOk b
  | .fcmpEq _ a b => regOk a && regOk b
  | .fcmpNe _ a b => regOk a && regOk b
  | .fcmpLt _ a b => regOk a && regOk b
  | .fcmpLe _ a b => regOk a && regOk b
  | .fcmpGt _ a b => regOk a && regOk b
  | .fcmpGe _ a b => regOk a && regOk b
  | .fcmpUn _ a b => regOk a && regOk b
  | .dcmpEq _ a b => pairOk a && pairOk b
  | .dcmpLt _ a b => pairOk a && pairOk b
  | .dcmpLe _ a b => pairOk a && pairOk b
  | .dcmpUn _ a b => pairOk a && pairOk b
  | .pand .. => true
  | .por .. => true
  | .pxor .. => true
  | .pandn .. => true
  | .pnot .. => true
  | .pmov .. => true
  | .pset .. => true
  | .ptod d _ => regOk d
  | .dtop _ a => regOk a
  | .mov d a => regOk d && regOk a
  | .cmov d a _ => regOk d && regOk a
  | .tag d a t => regOk d && regOk a && t != 15#5
  | .tagq d a => regOk d && regOk a
  | .win .. => true
  | .winq d => regOk d
  | .movs d sel => regOk d && selectorOk sel
  | .sext8 d a => regOk d && regOk a
  | .sext16 d a => regOk d && regOk a
  | .zext8 d a => regOk d && regOk a
  | .zext16 d a => regOk d && regOk a
  | .mov64 d a => pairOk d && pairOk a
  | .bra .. => true
  | .brp .. => true
  | .brn .. => true
  | .jmp a => pairOk a
  | .call d _ => pairOk d
  | .callr d a => pairOk d && pairOk a
  | .ret a => pairOk a
  | .rgn => true
  | .trap .. => true
  | .tret .. => true
  | .tkill .. => true
  | .exit => true
  | .nop => true
  | .waitf .. => true
  | .yield => true
  | .fadd _ d a b => regOk d && regOk a && regOk b
  | .fsub _ d a b => regOk d && regOk a && regOk b
  | .fmul _ d a b => regOk d && regOk a && regOk b
  | .ffma _ d a b => regOk d && regOk a && regOk b
  | .fmin d a b => regOk d && regOk a && regOk b
  | .fmax d a b => regOk d && regOk a && regOk b
  | .fabs d a => regOk d && regOk a
  | .fneg d a => regOk d && regOk a
  | .frnd _ d a => regOk d && regOk a
  | .fcvtI32F32 d a => regOk d && regOk a
  | .fcvtN32F32 d a => regOk d && regOk a
  | .fcvtF32I32 d a => regOk d && regOk a
  | .fcvtF32N32 d a => regOk d && regOk a
  | .fcvtF16F32 d a => regOk d && regOk a
  | .fcvtF32F16 d a => regOk d && regOk a
  | .fcvtBf16F32 d a => regOk d && regOk a
  | .fcvtF32Bf16 d a => regOk d && regOk a
  | .fcvtF64F32 d a => pairOk d && regOk a
  | .fcvtF32F64 d a => regOk d && pairOk a
  | .dadd d a b => pairOk d && pairOk a && pairOk b
  | .dsub d a b => pairOk d && pairOk a && pairOk b
  | .dmul d a b => pairOk d && pairOk a && pairOk b
  | .dfma d a b => pairOk d && pairOk a && pairOk b
  | .dmin d a b => pairOk d && pairOk a && pairOk b
  | .dmax d a b => pairOk d && pairOk a && pairOk b
  | .hadd2F16 d a b => regOk d && regOk a && regOk b
  | .hadd2Bf16 d a b => regOk d && regOk a && regOk b
  | .hmul2F16 d a b => regOk d && regOk a && regOk b
  | .hmul2Bf16 d a b => regOk d && regOk a && regOk b
  | .hfma2F16 d a b => regOk d && regOk a && regOk b
  | .hfma2Bf16 d a b => regOk d && regOk a && regOk b
  | .pkhF16 d a b => regOk d && regOk a && regOk b
  | .pkhBf16 d a b => regOk d && regOk a && regOk b
  | .unpkhF16Lo d a => regOk d && regOk a
  | .unpkhF16Hi d a => regOk d && regOk a
  | .unpkhBf16Lo d a => regOk d && regOk a
  | .unpkhBf16Hi d a => regOk d && regOk a
  | .idp4I8 d a b => regOk d && regOk a && regOk b
  | .idp4N8 d a b => regOk d && regOk a && regOk b
  | .idp2I16 d a b => regOk d && regOk a && regOk b
  | .ncvtRn d a _ sl => regOk d && regOk a && decide (sl.toNat < 8)
  | .ncvtRz d a _ sl => regOk d && regOk a && decide (sl.toNat < 8)
  | .nunp d a _ sl => regOk d && regOk a && decide (sl.toNat < 8)
  | .nscl d a b => regOk d && regOk a && regOk b
  | .scx d a _ => regOk d && regOk a
  | .lncv _ d a => regOk d && regOk a
  | .lnbk _ d a => regOk d && regOk a
  | .lexp _ d a => regOk d && regOk a
  | .llog _ d a => regOk d && regOk a
  | .lmul _ d a b => regOk d && regOk a && regOk b
  | .ldiv _ d a b => regOk d && regOk a && regOk b
  | .lsqr _ d a => regOk d && regOk a
  | .lpow _ d a b => regOk d && regOk a && regOk b
  | .ladd _ d a b => regOk d && regOk a && regOk b
  | .lsub _ d a b => regOk d && regOk a && regOk b
  | .fdiv _ d a b => regOk d && regOk a && regOk b
  | .fsqrt _ d a => regOk d && regOk a
  | .ddiv _ d a b => pairOk d && pairOk a && pairOk b
  | .dsqrt _ d a => pairOk d && pairOk a
  | .xshf _ d a b => regOk d && regOk a && regOk b
  | .xbfly _ d a _ => regOk d && regOk a
  | .xbcst _ d a _ => regOk d && regOk a
  | .xvoteAny .. => true
  | .xvoteAll .. => true
  | .xballot _ d _ => regOk d
  | .xredAddI32 _ d a => regOk d && regOk a
  | .xredAddF32 _ d a => regOk d && regOk a
  | .xredMinI _ d a => regOk d && regOk a
  | .xredMaxI _ d a => regOk d && regOk a
  | .xscanAddI32 _ d a => regOk d && regOk a
  | .xscanAddF32 _ d a => regOk d && regOk a
  | .xmatch _ d a => regOk d && regOk a
  | .bwait _ a im => regOk a && decide (im.toNat < 16)
  | .barv a im => regOk a && decide (im.toNat < 16)
  | .bqryBarrier d im => regOk d && decide (im.toNat < 16)
  | .gbar _ a im => regOk a && decide (im.toNat < 8)
  | .gbarv a im => regOk a && decide (im.toNat < 8)
  | .ld _ d _ b => regOk d && regOk b
  | .ld2 _ d _ b => pairOk d && regOk b
  | .ld4 _ d _ b => quadOk d && regOk b
  | .st _ d _ b => regOk d && regOk b
  | .st2 _ d _ b => pairOk d && regOk b
  | .st4 _ d _ b => quadOk d && regOk b
  | .lda _ d _ b lit => regOk d && regOk b && memLitOk lit
  | .stl _ d _ b lit => regOk d && regOk b && memLitOk lit
  | .bload _ _ a => pairOk a
  | .bqrySlot d _ im => regOk d && decide (im.toNat < 9)
  | .lload _ _ a => pairOk a
  | .aaddI32 _ d _ b => regOk d && regOk b
  | .aaddF32 _ d _ b => regOk d && regOk b
  | .aminI _ d _ b => regOk d && regOk b
  | .aminN _ d _ b => regOk d && regOk b
  | .amaxI _ d _ b => regOk d && regOk b
  | .amaxN _ d _ b => regOk d && regOk b
  | .aand _ d _ b => regOk d && regOk b
  | .aor _ d _ b => regOk d && regOk b
  | .axor _ d _ b => regOk d && regOk b
  | .axchg _ d _ b => regOk d && regOk b
  | .acas _ d _ b => pairOk d && regOk b
  | .ainc _ d _ b => pairOk d && regOk b
  | .aadd64 _ d _ b => pairOk d && regOk b
  | .acas64 _ d _ b => quadOk d && regOk b
  | .fence .. => true
  | .mminit _ _ a => regOk a
  | .mmloop _ _ a b lit => regOk a && regOk b && mmLitOk lit
  | .mmnorm _ _ a => regOk a
  | .mmdrain .. => true
  | .mmq d _ im => regOk d && decide (im.toNat < 3)
  | .cpt _ _ a b lit => quadOk a && regOk b && copyLitOk false lit
  | .cps _ _ a b lit => pairOk a && regOk b && copyLitOk false lit
  | .tmov _ d a b lit => regOk d && regOk a && regOk b && copyLitOk true lit
  | .hset _ a b => regOk a && regOk b
  | .hwait _ d _ _ => regOk d
  | .hrel _ b => regOk b
  | .hq d _ im => regOk d && decide (im.toNat < 7)
  | .jobs .. => true
  | .sst _ d _ b => regOk d && regOk b
  | .satmAdd _ d _ b => regOk d && regOk b
  | .satmXchg _ d _ b => regOk d && regOk b
  | .satmCas _ d _ b => regOk d && regOk b
  | .rsync _ d => regOk d
  | .rstamp _ d _ b => pairOk d && regOk b
  | .gsig _ a b => pairOk a && regOk b
  | .gwait _ d a b => pairOk d && pairOk a && pairOk b
  | .grd _ d a => pairOk d && pairOk a
  | .coll .. => true
  | .a2at _ d a b lit => pairOk d && pairOk a && pairOk b && a2atLitOk lit
  | .mcst _ d _ o => quadOk d && o != 3#2
  | .launch d a b => regOk d && pairOk a && regOk b
  | .trig a => regOk a
  | .capq d a => regOk d && regOk a
  | .clk d a => pairOk d && regOk a
  | .elog a b => regOk a && regOk b
  | .ulog d a b => regOk d && pairOk a && regOk b
  | .clauseEntry => true
  | .clauseWaitEnd => true
  | .longLatencyComplete => true
  | .queueUnblock => true
  | .rvtoTimeout => true
  | .qdlkTimeout => true
  | .submissionAccept => true
  | .engineItemAccess => true
  | .handleArrival => true
  | .itemComplete => true
  | .itemFail => true
  | .dispatcherPlace => true
  | .gangReservationPass => true
  | .sliceEnd => true
  | .drainLimitExpiry => true
  | .groupSave => true
  | .watchdogExpiry => true
  | .periodBoundary => true
  | .doorbellWrite => true
  | .commandRead => true
  | .cmdNop => true
  | .cmdLaunch => true
  | .cmdGraphld => true
  | .cmdWait => true
  | .cmdWaitSatisfied => true
  | .cmdSignal => true
  | .launchEnd => true
  | .shedEventDoorbell => true
  | .shedEventCmdread => true
  | .shedEventBinddone => true
  | .shedEventCopyflt => true
  | .shedEventError => true
  | .shedEventTrigger => true
  | .pageRequestAnswer => true
  | .pageRequestTimeout => true
  | .graphNodeComplete => true
  | .coaltTimerExpiry => true
  | .invalStage1Va => true
  | .invalStage1Asid => true
  | .invalStage2Gpa => true
  | .invalStage2Vmid => true
  | .invalAll => true
  | .invalComplete => true
  | .adminContextWrite => true
  | .contextTeardown => true
  | .contextTeardownFinish => true
  | .loftTeardownFinish => true
  | .replyReservationRelease => true
  | .keyidQuarantineEnd => true
  | .adminYardWrite => true
  | .adminKeyInstall => true
  | .adminReachList => true
  | .adminQueueReenable => true
  | .adminFenceRelease => true
  | .adminGateWrite => true
  | .adminCommunicatorWrite => true
  | .adminEnrol => true
  | .attestationRequest => true
  | .packetSend => true
  | .packetReceive => true
  | .capoGrant => true
  | .strongGrantReceive => true
  | .capoHandoff => true
  | .lagDetect => true
  | .lagEvictTimeout => true
  | .linksLost => true
  | .eviction => true
  | .counterWrap => true
  | .wrapRebase => true
  | .stampRewrite => true
  | .rejoinRequest => true
  | .rejoinCopyComplete => true
  | .replfix => true
  | .uncorrectableError => true
  | .gateRequest => true
  | .gateAnswer => true
  | .gateTokenAccrue => true
  | .gateMigrate => true
  | .gateMigrateCopy => true
  | .gateMigrateAck => true
  | .gateRetire => true
  | .pagePullComplete => true
  | .fabricPacketReceive => true
  | .globResponse => true
  | .pathFailure => true
  | .responseTimeout => true
  | .linkFlitReceive => true
  | .flitAck => true
  | .allowanceReturn => true
  | .collChunkStep => true
  | .collComplete => true
  | .collTimeout => true
  | .moduleReset => true
  | .bootAllDiesReady => true
  | .configRequest => true
  | .functionLevelReset => true
  | .thermalThrottle => true
  | .thermalFence => true
  | .registerWrite => true
  | .encodingFault => true
  | .updateAcknowledgement => true
  | .frameOwnershipWrite => true
  | .inPackageLinkFailure => true

end Sys2Proof
end

