-- ==== Sys2Proof/Laws/Decode.lean ====
section
/-! SUPPORT. The fields of the words that the encoder makes, as the decoder takes them out (Table 2.2). -/

namespace Sys2Proof

/-- Appending is place value. -/
theorem toNat_app {n k : Nat} (x : BitVec n) (y : BitVec k) : (x ++ y).toNat = x.toNat * 2 ^ k + y.toNat := by
  rw [BitVec.toNat_append, ← Nat.shiftLeft_add_eq_or_of_lt y.isLt, Nat.shiftLeft_eq]

/-- A field as a quotient and a remainder. -/
theorem toNat_field {n : Nat} (x : BitVec n) (lo k : Nat) : (x.extractLsb' lo k).toNat = x.toNat / 2 ^ lo % 2 ^ k := by
  rw [BitVec.extractLsb'_toNat, Nat.shiftRight_eq_div_pow]

/-! ## R and I words -/

theorem packR_toNat (c : BitVec 4) (m d a b : BitVec 7) :
    (packR c m d a b).toNat = (((c.toNat * 2 ^ 7 + m.toNat) * 2 ^ 7 + d.toNat) * 2 ^ 7 + a.toNat) * 2 ^ 7 + b.toNat := by
  simp only [packR, toNat_app]

@[simp] theorem packR_class (c : BitVec 4) (m d a b : BitVec 7) : (packR c m d a b).extractLsb' 28 4 = c := by
  apply BitVec.eq_of_toNat_eq; rw [toNat_field, packR_toNat]; omega
@[simp] theorem packR_minor (c : BitVec 4) (m d a b : BitVec 7) : (packR c m d a b).extractLsb' 21 7 = m := by
  apply BitVec.eq_of_toNat_eq; rw [toNat_field, packR_toNat]; omega
@[simp] theorem packR_d (c : BitVec 4) (m d a b : BitVec 7) : (packR c m d a b).extractLsb' 14 7 = d := by
  apply BitVec.eq_of_toNat_eq; rw [toNat_field, packR_toNat]; omega
@[simp] theorem packR_a (c : BitVec 4) (m d a b : BitVec 7) : (packR c m d a b).extractLsb' 7 7 = a := by
  apply BitVec.eq_of_toNat_eq; rw [toNat_field, packR_toNat]; omega
@[simp] theorem packR_b (c : BitVec 4) (m d a b : BitVec 7) : (packR c m d a b).extractLsb' 0 7 = b := by
  apply BitVec.eq_of_toNat_eq; rw [toNat_field, packR_toNat]; omega
@[simp] theorem packR_l (c : BitVec 4) (m d a b : BitVec 7) : (packR c m d a b).extractLsb' 0 14 = a ++ b := by
  apply BitVec.eq_of_toNat_eq; rw [toNat_field, packR_toNat, toNat_app]; omega

/-! ## Words with flag selection -/

theorem packF_toNat (c : BitVec 4) (m : BitVec 6) (fb : Bool) (d a b : BitVec 7) :
    (packF c m fb d a b).toNat =
      ((((c.toNat * 2 ^ 6 + m.toNat) * 2 ^ 1 + (BitVec.ofBool fb).toNat) * 2 ^ 7 + d.toNat) * 2 ^ 7 + a.toNat) * 2 ^ 7 + b.toNat := by
  simp only [packF, toNat_app]

@[simp] theorem packF_class (c : BitVec 4) (m : BitVec 6) (fb : Bool) (d a b : BitVec 7) :
    (packF c m fb d a b).extractLsb' 28 4 = c := by
  apply BitVec.eq_of_toNat_eq; rw [toNat_field, packF_toNat]; omega
@[simp] theorem packF_minor (c : BitVec 4) (m : BitVec 6) (fb : Bool) (d a b : BitVec 7) :
    (packF c m fb d a b).extractLsb' 22 6 = m := by
  apply BitVec.eq_of_toNat_eq; rw [toNat_field, packF_toNat]; omega
@[simp] theorem packF_minor7 (c : BitVec 4) (m : BitVec 6) (fb : Bool) (d a b : BitVec 7) :
    (packF c m fb d a b).extractLsb' 21 7 = m ++ BitVec.ofBool fb := by
  apply BitVec.eq_of_toNat_eq; rw [toNat_field, packF_toNat, toNat_app]; omega
@[simp] theorem packF_flag (c : BitVec 4) (m : BitVec 6) (fb : Bool) (d a b : BitVec 7) :
    (packF c m fb d a b).extractLsb' 21 1 = BitVec.ofBool fb := by
  apply BitVec.eq_of_toNat_eq; rw [toNat_field, packF_toNat]; omega
@[simp] theorem packF_d (c : BitVec 4) (m : BitVec 6) (fb : Bool) (d a b : BitVec 7) : (packF c m fb d a b).extractLsb' 14 7 = d := by
  apply BitVec.eq_of_toNat_eq; rw [toNat_field, packF_toNat]; omega
@[simp] theorem packF_a (c : BitVec 4) (m : BitVec 6) (fb : Bool) (d a b : BitVec 7) : (packF c m fb d a b).extractLsb' 7 7 = a := by
  apply BitVec.eq_of_toNat_eq; rw [toNat_field, packF_toNat]; omega
@[simp] theorem packF_b (c : BitVec 4) (m : BitVec 6) (fb : Bool) (d a b : BitVec 7) : (packF c m fb d a b).extractLsb' 0 7 = b := by
  apply BitVec.eq_of_toNat_eq; rw [toNat_field, packF_toNat]; omega
@[simp] theorem packF_l (c : BitVec 4) (m : BitVec 6) (fb : Bool) (d a b : BitVec 7) :
    (packF c m fb d a b).extractLsb' 0 14 = a ++ b := by
  apply BitVec.eq_of_toNat_eq; rw [toNat_field, packF_toNat, toNat_app]; omega

/-! ## L words -/

theorem packL_toNat (c : BitVec 4) (m d : BitVec 7) (l : BitVec 14) :
    (packL c m d l).toNat = ((c.toNat * 2 ^ 7 + m.toNat) * 2 ^ 7 + d.toNat) * 2 ^ 14 + l.toNat := by
  simp only [packL, toNat_app]

@[simp] theorem packL_class (c : BitVec 4) (m d : BitVec 7) (l : BitVec 14) : (packL c m d l).extractLsb' 28 4 = c := by
  apply BitVec.eq_of_toNat_eq; rw [toNat_field, packL_toNat]; omega
@[simp] theorem packL_minor (c : BitVec 4) (m d : BitVec 7) (l : BitVec 14) : (packL c m d l).extractLsb' 21 7 = m := by
  apply BitVec.eq_of_toNat_eq; rw [toNat_field, packL_toNat]; omega
@[simp] theorem packL_d (c : BitVec 4) (m d : BitVec 7) (l : BitVec 14) : (packL c m d l).extractLsb' 14 7 = d := by
  apply BitVec.eq_of_toNat_eq; rw [toNat_field, packL_toNat]; omega
@[simp] theorem packL_l (c : BitVec 4) (m d : BitVec 7) (l : BitVec 14) : (packL c m d l).extractLsb' 0 14 = l := by
  apply BitVec.eq_of_toNat_eq; rw [toNat_field, packL_toNat]; omega

/-! ## Parts of a field -/

@[simp] theorem app_low {n k : Nat} (x : BitVec n) (y : BitVec k) : (x ++ y).extractLsb' 0 k = y := by
  apply BitVec.eq_of_toNat_eq
  rw [toNat_field, toNat_app, Nat.pow_zero, Nat.div_one, Nat.mul_comm, Nat.mul_add_mod, Nat.mod_eq_of_lt y.isLt]

@[simp] theorem app_high {n k : Nat} (x : BitVec n) (y : BitVec k) : (x ++ y).extractLsb' k n = x := by
  apply BitVec.eq_of_toNat_eq
  rw [toNat_field, toNat_app, Nat.mul_comm, Nat.mul_add_div (Nat.two_pow_pos k), Nat.div_eq_of_lt y.isLt, Nat.add_zero,
    Nat.mod_eq_of_lt x.isLt]

/-- A zero field below which another stands. -/
theorem app_zero_toNat {n k : Nat} (y : BitVec k) : ((0#n) ++ y).toNat = y.toNat := by
  rw [toNat_app]; simp

end Sys2Proof
end

