-- ==== Sys2Proof/Laws/State.lean ====
section
/-! SUPPORT. What each update of a part of the state leaves as it was, field by field. -/

namespace Sys2Proof.Machine

/-! ## `setStrand` -/

@[simp] theorem State.setStrand_agenda (s : State) (k : StrandKey) (x : Strand) : (s.setStrand k x).agenda = s.agenda := rfl
@[simp] theorem State.setStrand_cur (s : State) (k : StrandKey) (x : Strand) : (s.setStrand k x).cur = s.cur := rfl
@[simp] theorem State.setStrand_arg (s : State) (k : StrandKey) (x : Strand) : (s.setStrand k x).arg = s.arg := rfl
@[simp] theorem State.setStrand_turn (s : State) (k : StrandKey) (x : Strand) : (s.setStrand k x).turn = s.turn := rfl
@[simp] theorem State.setStrand_ran (s : State) (k : StrandKey) (x : Strand) : (s.setStrand k x).ran = s.ran := rfl
@[simp] theorem State.setStrand_late (s : State) (k : StrandKey) (x : Strand) : (s.setStrand k x).late = s.late := rfl
@[simp] theorem State.setStrand_free (s : State) (k : StrandKey) (x : Strand) : (s.setStrand k x).free = s.free := rfl
@[simp] theorem State.setStrand_cycle (s : State) (k : StrandKey) (x : Strand) : (s.setStrand k x).cycle = s.cycle := rfl
@[simp] theorem State.setStrand_mem (s : State) (k : StrandKey) (x : Strand) : (s.setStrand k x).mem = s.mem := rfl
@[simp] theorem State.setStrand_loftKey (s : State) (k : StrandKey) (x : Strand) : (s.setStrand k x).loftKey = s.loftKey := rfl
@[simp] theorem State.setStrand_bad (s : State) (k : StrandKey) (x : Strand) : (s.setStrand k x).bad = s.bad := rfl
@[simp] theorem State.setStrand_tlb (s : State) (k : StrandKey) (x : Strand) : (s.setStrand k x).tlb = s.tlb := rfl
@[simp] theorem State.setStrand_ctxs (s : State) (k : StrandKey) (x : Strand) : (s.setStrand k x).ctxs = s.ctxs := rfl
@[simp] theorem State.setStrand_launches (s : State) (k : StrandKey) (x : Strand) : (s.setStrand k x).launches = s.launches := rfl
@[simp] theorem State.setStrand_groups (s : State) (k : StrandKey) (x : Strand) : (s.setStrand k x).groups = s.groups := rfl
@[simp] theorem State.setStrand_gangs (s : State) (k : StrandKey) (x : Strand) : (s.setStrand k x).gangs = s.gangs := rfl
@[simp] theorem State.setStrand_cwins (s : State) (k : StrandKey) (x : Strand) : (s.setStrand k x).cwins = s.cwins := rfl
@[simp] theorem State.setStrand_threads (s : State) (k : StrandKey) (x : Strand) : (s.setStrand k x).threads = s.threads := rfl
@[simp] theorem State.setStrand_pend (s : State) (k : StrandKey) (x : Strand) : (s.setStrand k x).pend = s.pend := rfl
@[simp] theorem State.setStrand_held (s : State) (k : StrandKey) (x : Strand) : (s.setStrand k x).held = s.held := rfl
@[simp] theorem State.setStrand_items (s : State) (k : StrandKey) (x : Strand) : (s.setStrand k x).items = s.items := rfl
@[simp] theorem State.setStrand_globs (s : State) (k : StrandKey) (x : Strand) : (s.setStrand k x).globs = s.globs := rfl
@[simp] theorem State.setStrand_colls (s : State) (k : StrandKey) (x : Strand) : (s.setStrand k x).colls = s.colls := rfl
@[simp] theorem State.setStrand_losts (s : State) (k : StrandKey) (x : Strand) : (s.setStrand k x).losts = s.losts := rfl
@[simp] theorem State.setStrand_replies (s : State) (k : StrandKey) (x : Strand) : (s.setStrand k x).replies = s.replies := rfl
@[simp] theorem State.setStrand_gateOps (s : State) (k : StrandKey) (x : Strand) : (s.setStrand k x).gateOps = s.gateOps := rfl
@[simp] theorem State.setStrand_gates (s : State) (k : StrandKey) (x : Strand) : (s.setStrand k x).gates = s.gates := rfl
@[simp] theorem State.setStrand_gateSeen (s : State) (k : StrandKey) (x : Strand) : (s.setStrand k x).gateSeen = s.gateSeen := rfl
@[simp] theorem State.setStrand_nextId (s : State) (k : StrandKey) (x : Strand) : (s.setStrand k x).nextId = s.nextId := rfl
@[simp] theorem State.setStrand_dies (s : State) (k : StrandKey) (x : Strand) : (s.setStrand k x).dies = s.dies := rfl
@[simp] theorem State.setStrand_memb (s : State) (k : StrandKey) (x : Strand) : (s.setStrand k x).memb = s.memb := rfl
@[simp] theorem State.setStrand_epoch (s : State) (k : StrandKey) (x : Strand) : (s.setStrand k x).epoch = s.epoch := rfl
@[simp] theorem State.setStrand_quies (s : State) (k : StrandKey) (x : Strand) : (s.setStrand k x).quies = s.quies := rfl
@[simp] theorem State.setStrand_arch (s : State) (k : StrandKey) (x : Strand) : (s.setStrand k x).arch = s.arch := rfl
@[simp] theorem State.setStrand_capo (s : State) (k : StrandKey) (x : Strand) : (s.setStrand k x).capo = s.capo := rfl
@[simp] theorem State.setStrand_slotReqs (s : State) (k : StrandKey) (x : Strand) : (s.setStrand k x).slotReqs = s.slotReqs := rfl
@[simp] theorem State.setStrand_grants (s : State) (k : StrandKey) (x : Strand) : (s.setStrand k x).grants = s.grants := rfl
@[simp] theorem State.setStrand_air (s : State) (k : StrandKey) (x : Strand) : (s.setStrand k x).air = s.air := rfl
@[simp] theorem State.setStrand_replBase (s : State) (k : StrandKey) (x : Strand) : (s.setStrand k x).replBase = s.replBase := rfl
@[simp] theorem State.setStrand_replSize (s : State) (k : StrandKey) (x : Strand) : (s.setStrand k x).replSize = s.replSize := rfl
@[simp] theorem State.setStrand_rewrite (s : State) (k : StrandKey) (x : Strand) : (s.setStrand k x).rewrite = s.rewrite := rfl
@[simp] theorem State.setStrand_deadLinks (s : State) (k : StrandKey) (x : Strand) : (s.setStrand k x).deadLinks = s.deadLinks := rfl
@[simp] theorem State.setStrand_repins (s : State) (k : StrandKey) (x : Strand) : (s.setStrand k x).repins = s.repins := rfl
@[simp] theorem State.setStrand_yards (s : State) (k : StrandKey) (x : Strand) : (s.setStrand k x).yards = s.yards := rfl
@[simp] theorem State.setStrand_pens (s : State) (k : StrandKey) (x : Strand) : (s.setStrand k x).pens = s.pens := rfl
@[simp] theorem State.setStrand_areas (s : State) (k : StrandKey) (x : Strand) : (s.setStrand k x).areas = s.areas := rfl
@[simp] theorem State.setStrand_pulls (s : State) (k : StrandKey) (x : Strand) : (s.setStrand k x).pulls = s.pulls := rfl
@[simp] theorem State.setStrand_invals (s : State) (k : StrandKey) (x : Strand) : (s.setStrand k x).invals = s.invals := rfl
@[simp] theorem State.setStrand_vfs (s : State) (k : StrandKey) (x : Strand) : (s.setStrand k x).vfs = s.vfs := rfl
@[simp] theorem State.setStrand_quar (s : State) (k : StrandKey) (x : Strand) : (s.setStrand k x).quar = s.quar := rfl
@[simp] theorem State.setStrand_revoked (s : State) (k : StrandKey) (x : Strand) : (s.setStrand k x).revoked = s.revoked := rfl
@[simp] theorem State.setStrand_boot (s : State) (k : StrandKey) (x : Strand) : (s.setStrand k x).boot = s.boot := rfl
@[simp] theorem State.setStrand_flash (s : State) (k : StrandKey) (x : Strand) : (s.setStrand k x).flash = s.flash := rfl
@[simp] theorem State.setStrand_modId (s : State) (k : StrandKey) (x : Strand) : (s.setStrand k x).modId = s.modId := rfl
@[simp] theorem State.setStrand_pfLog (s : State) (k : StrandKey) (x : Strand) : (s.setStrand k x).pfLog = s.pfLog := rfl
@[simp] theorem State.setStrand_pfDrops (s : State) (k : StrandKey) (x : Strand) : (s.setStrand k x).pfDrops = s.pfDrops := rfl
@[simp] theorem State.setStrand_out (s : State) (k : StrandKey) (x : Strand) : (s.setStrand k x).out = s.out := rfl

/-! ## `modStrand` -/

@[simp] theorem State.modStrand_agenda (s : State) (k : StrandKey) (f : Strand → Strand) : (s.modStrand k f).agenda = s.agenda := rfl
@[simp] theorem State.modStrand_cur (s : State) (k : StrandKey) (f : Strand → Strand) : (s.modStrand k f).cur = s.cur := rfl
@[simp] theorem State.modStrand_arg (s : State) (k : StrandKey) (f : Strand → Strand) : (s.modStrand k f).arg = s.arg := rfl
@[simp] theorem State.modStrand_turn (s : State) (k : StrandKey) (f : Strand → Strand) : (s.modStrand k f).turn = s.turn := rfl
@[simp] theorem State.modStrand_ran (s : State) (k : StrandKey) (f : Strand → Strand) : (s.modStrand k f).ran = s.ran := rfl
@[simp] theorem State.modStrand_late (s : State) (k : StrandKey) (f : Strand → Strand) : (s.modStrand k f).late = s.late := rfl
@[simp] theorem State.modStrand_free (s : State) (k : StrandKey) (f : Strand → Strand) : (s.modStrand k f).free = s.free := rfl
@[simp] theorem State.modStrand_cycle (s : State) (k : StrandKey) (f : Strand → Strand) : (s.modStrand k f).cycle = s.cycle := rfl
@[simp] theorem State.modStrand_mem (s : State) (k : StrandKey) (f : Strand → Strand) : (s.modStrand k f).mem = s.mem := rfl
@[simp] theorem State.modStrand_loftKey (s : State) (k : StrandKey) (f : Strand → Strand) : (s.modStrand k f).loftKey = s.loftKey := rfl
@[simp] theorem State.modStrand_bad (s : State) (k : StrandKey) (f : Strand → Strand) : (s.modStrand k f).bad = s.bad := rfl
@[simp] theorem State.modStrand_tlb (s : State) (k : StrandKey) (f : Strand → Strand) : (s.modStrand k f).tlb = s.tlb := rfl
@[simp] theorem State.modStrand_ctxs (s : State) (k : StrandKey) (f : Strand → Strand) : (s.modStrand k f).ctxs = s.ctxs := rfl
@[simp] theorem State.modStrand_launches (s : State) (k : StrandKey) (f : Strand → Strand) : (s.modStrand k f).launches = s.launches := rfl
@[simp] theorem State.modStrand_groups (s : State) (k : StrandKey) (f : Strand → Strand) : (s.modStrand k f).groups = s.groups := rfl
@[simp] theorem State.modStrand_gangs (s : State) (k : StrandKey) (f : Strand → Strand) : (s.modStrand k f).gangs = s.gangs := rfl
@[simp] theorem State.modStrand_cwins (s : State) (k : StrandKey) (f : Strand → Strand) : (s.modStrand k f).cwins = s.cwins := rfl
@[simp] theorem State.modStrand_threads (s : State) (k : StrandKey) (f : Strand → Strand) : (s.modStrand k f).threads = s.threads := rfl
@[simp] theorem State.modStrand_pend (s : State) (k : StrandKey) (f : Strand → Strand) : (s.modStrand k f).pend = s.pend := rfl
@[simp] theorem State.modStrand_held (s : State) (k : StrandKey) (f : Strand → Strand) : (s.modStrand k f).held = s.held := rfl
@[simp] theorem State.modStrand_items (s : State) (k : StrandKey) (f : Strand → Strand) : (s.modStrand k f).items = s.items := rfl
@[simp] theorem State.modStrand_globs (s : State) (k : StrandKey) (f : Strand → Strand) : (s.modStrand k f).globs = s.globs := rfl
@[simp] theorem State.modStrand_colls (s : State) (k : StrandKey) (f : Strand → Strand) : (s.modStrand k f).colls = s.colls := rfl
@[simp] theorem State.modStrand_losts (s : State) (k : StrandKey) (f : Strand → Strand) : (s.modStrand k f).losts = s.losts := rfl
@[simp] theorem State.modStrand_replies (s : State) (k : StrandKey) (f : Strand → Strand) : (s.modStrand k f).replies = s.replies := rfl
@[simp] theorem State.modStrand_gateOps (s : State) (k : StrandKey) (f : Strand → Strand) : (s.modStrand k f).gateOps = s.gateOps := rfl
@[simp] theorem State.modStrand_gates (s : State) (k : StrandKey) (f : Strand → Strand) : (s.modStrand k f).gates = s.gates := rfl
@[simp] theorem State.modStrand_gateSeen (s : State) (k : StrandKey) (f : Strand → Strand) : (s.modStrand k f).gateSeen = s.gateSeen := rfl
@[simp] theorem State.modStrand_nextId (s : State) (k : StrandKey) (f : Strand → Strand) : (s.modStrand k f).nextId = s.nextId := rfl
@[simp] theorem State.modStrand_dies (s : State) (k : StrandKey) (f : Strand → Strand) : (s.modStrand k f).dies = s.dies := rfl
@[simp] theorem State.modStrand_memb (s : State) (k : StrandKey) (f : Strand → Strand) : (s.modStrand k f).memb = s.memb := rfl
@[simp] theorem State.modStrand_epoch (s : State) (k : StrandKey) (f : Strand → Strand) : (s.modStrand k f).epoch = s.epoch := rfl
@[simp] theorem State.modStrand_quies (s : State) (k : StrandKey) (f : Strand → Strand) : (s.modStrand k f).quies = s.quies := rfl
@[simp] theorem State.modStrand_arch (s : State) (k : StrandKey) (f : Strand → Strand) : (s.modStrand k f).arch = s.arch := rfl
@[simp] theorem State.modStrand_capo (s : State) (k : StrandKey) (f : Strand → Strand) : (s.modStrand k f).capo = s.capo := rfl
@[simp] theorem State.modStrand_slotReqs (s : State) (k : StrandKey) (f : Strand → Strand) : (s.modStrand k f).slotReqs = s.slotReqs := rfl
@[simp] theorem State.modStrand_grants (s : State) (k : StrandKey) (f : Strand → Strand) : (s.modStrand k f).grants = s.grants := rfl
@[simp] theorem State.modStrand_air (s : State) (k : StrandKey) (f : Strand → Strand) : (s.modStrand k f).air = s.air := rfl
@[simp] theorem State.modStrand_replBase (s : State) (k : StrandKey) (f : Strand → Strand) : (s.modStrand k f).replBase = s.replBase := rfl
@[simp] theorem State.modStrand_replSize (s : State) (k : StrandKey) (f : Strand → Strand) : (s.modStrand k f).replSize = s.replSize := rfl
@[simp] theorem State.modStrand_rewrite (s : State) (k : StrandKey) (f : Strand → Strand) : (s.modStrand k f).rewrite = s.rewrite := rfl
@[simp] theorem State.modStrand_deadLinks (s : State) (k : StrandKey) (f : Strand → Strand) : (s.modStrand k f).deadLinks = s.deadLinks := rfl
@[simp] theorem State.modStrand_repins (s : State) (k : StrandKey) (f : Strand → Strand) : (s.modStrand k f).repins = s.repins := rfl
@[simp] theorem State.modStrand_yards (s : State) (k : StrandKey) (f : Strand → Strand) : (s.modStrand k f).yards = s.yards := rfl
@[simp] theorem State.modStrand_pens (s : State) (k : StrandKey) (f : Strand → Strand) : (s.modStrand k f).pens = s.pens := rfl
@[simp] theorem State.modStrand_areas (s : State) (k : StrandKey) (f : Strand → Strand) : (s.modStrand k f).areas = s.areas := rfl
@[simp] theorem State.modStrand_pulls (s : State) (k : StrandKey) (f : Strand → Strand) : (s.modStrand k f).pulls = s.pulls := rfl
@[simp] theorem State.modStrand_invals (s : State) (k : StrandKey) (f : Strand → Strand) : (s.modStrand k f).invals = s.invals := rfl
@[simp] theorem State.modStrand_vfs (s : State) (k : StrandKey) (f : Strand → Strand) : (s.modStrand k f).vfs = s.vfs := rfl
@[simp] theorem State.modStrand_quar (s : State) (k : StrandKey) (f : Strand → Strand) : (s.modStrand k f).quar = s.quar := rfl
@[simp] theorem State.modStrand_revoked (s : State) (k : StrandKey) (f : Strand → Strand) : (s.modStrand k f).revoked = s.revoked := rfl
@[simp] theorem State.modStrand_boot (s : State) (k : StrandKey) (f : Strand → Strand) : (s.modStrand k f).boot = s.boot := rfl
@[simp] theorem State.modStrand_flash (s : State) (k : StrandKey) (f : Strand → Strand) : (s.modStrand k f).flash = s.flash := rfl
@[simp] theorem State.modStrand_modId (s : State) (k : StrandKey) (f : Strand → Strand) : (s.modStrand k f).modId = s.modId := rfl
@[simp] theorem State.modStrand_pfLog (s : State) (k : StrandKey) (f : Strand → Strand) : (s.modStrand k f).pfLog = s.pfLog := rfl
@[simp] theorem State.modStrand_pfDrops (s : State) (k : StrandKey) (f : Strand → Strand) : (s.modStrand k f).pfDrops = s.pfDrops := rfl
@[simp] theorem State.modStrand_out (s : State) (k : StrandKey) (f : Strand → Strand) : (s.modStrand k f).out = s.out := rfl

/-! ## `setThread` -/

@[simp] theorem State.setThread_agenda (s : State) (k : ThreadKey) (x : Thread) : (s.setThread k x).agenda = s.agenda := rfl
@[simp] theorem State.setThread_cur (s : State) (k : ThreadKey) (x : Thread) : (s.setThread k x).cur = s.cur := rfl
@[simp] theorem State.setThread_arg (s : State) (k : ThreadKey) (x : Thread) : (s.setThread k x).arg = s.arg := rfl
@[simp] theorem State.setThread_turn (s : State) (k : ThreadKey) (x : Thread) : (s.setThread k x).turn = s.turn := rfl
@[simp] theorem State.setThread_ran (s : State) (k : ThreadKey) (x : Thread) : (s.setThread k x).ran = s.ran := rfl
@[simp] theorem State.setThread_late (s : State) (k : ThreadKey) (x : Thread) : (s.setThread k x).late = s.late := rfl
@[simp] theorem State.setThread_free (s : State) (k : ThreadKey) (x : Thread) : (s.setThread k x).free = s.free := rfl
@[simp] theorem State.setThread_cycle (s : State) (k : ThreadKey) (x : Thread) : (s.setThread k x).cycle = s.cycle := rfl
@[simp] theorem State.setThread_mem (s : State) (k : ThreadKey) (x : Thread) : (s.setThread k x).mem = s.mem := rfl
@[simp] theorem State.setThread_loftKey (s : State) (k : ThreadKey) (x : Thread) : (s.setThread k x).loftKey = s.loftKey := rfl
@[simp] theorem State.setThread_bad (s : State) (k : ThreadKey) (x : Thread) : (s.setThread k x).bad = s.bad := rfl
@[simp] theorem State.setThread_tlb (s : State) (k : ThreadKey) (x : Thread) : (s.setThread k x).tlb = s.tlb := rfl
@[simp] theorem State.setThread_ctxs (s : State) (k : ThreadKey) (x : Thread) : (s.setThread k x).ctxs = s.ctxs := rfl
@[simp] theorem State.setThread_launches (s : State) (k : ThreadKey) (x : Thread) : (s.setThread k x).launches = s.launches := rfl
@[simp] theorem State.setThread_groups (s : State) (k : ThreadKey) (x : Thread) : (s.setThread k x).groups = s.groups := rfl
@[simp] theorem State.setThread_gangs (s : State) (k : ThreadKey) (x : Thread) : (s.setThread k x).gangs = s.gangs := rfl
@[simp] theorem State.setThread_cwins (s : State) (k : ThreadKey) (x : Thread) : (s.setThread k x).cwins = s.cwins := rfl
@[simp] theorem State.setThread_strands (s : State) (k : ThreadKey) (x : Thread) : (s.setThread k x).strands = s.strands := rfl
@[simp] theorem State.setThread_pend (s : State) (k : ThreadKey) (x : Thread) : (s.setThread k x).pend = s.pend := rfl
@[simp] theorem State.setThread_held (s : State) (k : ThreadKey) (x : Thread) : (s.setThread k x).held = s.held := rfl
@[simp] theorem State.setThread_items (s : State) (k : ThreadKey) (x : Thread) : (s.setThread k x).items = s.items := rfl
@[simp] theorem State.setThread_globs (s : State) (k : ThreadKey) (x : Thread) : (s.setThread k x).globs = s.globs := rfl
@[simp] theorem State.setThread_colls (s : State) (k : ThreadKey) (x : Thread) : (s.setThread k x).colls = s.colls := rfl
@[simp] theorem State.setThread_losts (s : State) (k : ThreadKey) (x : Thread) : (s.setThread k x).losts = s.losts := rfl
@[simp] theorem State.setThread_replies (s : State) (k : ThreadKey) (x : Thread) : (s.setThread k x).replies = s.replies := rfl
@[simp] theorem State.setThread_gateOps (s : State) (k : ThreadKey) (x : Thread) : (s.setThread k x).gateOps = s.gateOps := rfl
@[simp] theorem State.setThread_gates (s : State) (k : ThreadKey) (x : Thread) : (s.setThread k x).gates = s.gates := rfl
@[simp] theorem State.setThread_gateSeen (s : State) (k : ThreadKey) (x : Thread) : (s.setThread k x).gateSeen = s.gateSeen := rfl
@[simp] theorem State.setThread_nextId (s : State) (k : ThreadKey) (x : Thread) : (s.setThread k x).nextId = s.nextId := rfl
@[simp] theorem State.setThread_dies (s : State) (k : ThreadKey) (x : Thread) : (s.setThread k x).dies = s.dies := rfl
@[simp] theorem State.setThread_memb (s : State) (k : ThreadKey) (x : Thread) : (s.setThread k x).memb = s.memb := rfl
@[simp] theorem State.setThread_epoch (s : State) (k : ThreadKey) (x : Thread) : (s.setThread k x).epoch = s.epoch := rfl
@[simp] theorem State.setThread_quies (s : State) (k : ThreadKey) (x : Thread) : (s.setThread k x).quies = s.quies := rfl
@[simp] theorem State.setThread_arch (s : State) (k : ThreadKey) (x : Thread) : (s.setThread k x).arch = s.arch := rfl
@[simp] theorem State.setThread_capo (s : State) (k : ThreadKey) (x : Thread) : (s.setThread k x).capo = s.capo := rfl
@[simp] theorem State.setThread_slotReqs (s : State) (k : ThreadKey) (x : Thread) : (s.setThread k x).slotReqs = s.slotReqs := rfl
@[simp] theorem State.setThread_grants (s : State) (k : ThreadKey) (x : Thread) : (s.setThread k x).grants = s.grants := rfl
@[simp] theorem State.setThread_air (s : State) (k : ThreadKey) (x : Thread) : (s.setThread k x).air = s.air := rfl
@[simp] theorem State.setThread_replBase (s : State) (k : ThreadKey) (x : Thread) : (s.setThread k x).replBase = s.replBase := rfl
@[simp] theorem State.setThread_replSize (s : State) (k : ThreadKey) (x : Thread) : (s.setThread k x).replSize = s.replSize := rfl
@[simp] theorem State.setThread_rewrite (s : State) (k : ThreadKey) (x : Thread) : (s.setThread k x).rewrite = s.rewrite := rfl
@[simp] theorem State.setThread_deadLinks (s : State) (k : ThreadKey) (x : Thread) : (s.setThread k x).deadLinks = s.deadLinks := rfl
@[simp] theorem State.setThread_repins (s : State) (k : ThreadKey) (x : Thread) : (s.setThread k x).repins = s.repins := rfl
@[simp] theorem State.setThread_yards (s : State) (k : ThreadKey) (x : Thread) : (s.setThread k x).yards = s.yards := rfl
@[simp] theorem State.setThread_pens (s : State) (k : ThreadKey) (x : Thread) : (s.setThread k x).pens = s.pens := rfl
@[simp] theorem State.setThread_areas (s : State) (k : ThreadKey) (x : Thread) : (s.setThread k x).areas = s.areas := rfl
@[simp] theorem State.setThread_pulls (s : State) (k : ThreadKey) (x : Thread) : (s.setThread k x).pulls = s.pulls := rfl
@[simp] theorem State.setThread_invals (s : State) (k : ThreadKey) (x : Thread) : (s.setThread k x).invals = s.invals := rfl
@[simp] theorem State.setThread_vfs (s : State) (k : ThreadKey) (x : Thread) : (s.setThread k x).vfs = s.vfs := rfl
@[simp] theorem State.setThread_quar (s : State) (k : ThreadKey) (x : Thread) : (s.setThread k x).quar = s.quar := rfl
@[simp] theorem State.setThread_revoked (s : State) (k : ThreadKey) (x : Thread) : (s.setThread k x).revoked = s.revoked := rfl
@[simp] theorem State.setThread_boot (s : State) (k : ThreadKey) (x : Thread) : (s.setThread k x).boot = s.boot := rfl
@[simp] theorem State.setThread_flash (s : State) (k : ThreadKey) (x : Thread) : (s.setThread k x).flash = s.flash := rfl
@[simp] theorem State.setThread_modId (s : State) (k : ThreadKey) (x : Thread) : (s.setThread k x).modId = s.modId := rfl
@[simp] theorem State.setThread_pfLog (s : State) (k : ThreadKey) (x : Thread) : (s.setThread k x).pfLog = s.pfLog := rfl
@[simp] theorem State.setThread_pfDrops (s : State) (k : ThreadKey) (x : Thread) : (s.setThread k x).pfDrops = s.pfDrops := rfl
@[simp] theorem State.setThread_out (s : State) (k : ThreadKey) (x : Thread) : (s.setThread k x).out = s.out := rfl

/-! ## `modThread` -/

@[simp] theorem State.modThread_agenda (s : State) (k : ThreadKey) (f : Thread → Thread) : (s.modThread k f).agenda = s.agenda := rfl
@[simp] theorem State.modThread_cur (s : State) (k : ThreadKey) (f : Thread → Thread) : (s.modThread k f).cur = s.cur := rfl
@[simp] theorem State.modThread_arg (s : State) (k : ThreadKey) (f : Thread → Thread) : (s.modThread k f).arg = s.arg := rfl
@[simp] theorem State.modThread_turn (s : State) (k : ThreadKey) (f : Thread → Thread) : (s.modThread k f).turn = s.turn := rfl
@[simp] theorem State.modThread_ran (s : State) (k : ThreadKey) (f : Thread → Thread) : (s.modThread k f).ran = s.ran := rfl
@[simp] theorem State.modThread_late (s : State) (k : ThreadKey) (f : Thread → Thread) : (s.modThread k f).late = s.late := rfl
@[simp] theorem State.modThread_free (s : State) (k : ThreadKey) (f : Thread → Thread) : (s.modThread k f).free = s.free := rfl
@[simp] theorem State.modThread_cycle (s : State) (k : ThreadKey) (f : Thread → Thread) : (s.modThread k f).cycle = s.cycle := rfl
@[simp] theorem State.modThread_mem (s : State) (k : ThreadKey) (f : Thread → Thread) : (s.modThread k f).mem = s.mem := rfl
@[simp] theorem State.modThread_loftKey (s : State) (k : ThreadKey) (f : Thread → Thread) : (s.modThread k f).loftKey = s.loftKey := rfl
@[simp] theorem State.modThread_bad (s : State) (k : ThreadKey) (f : Thread → Thread) : (s.modThread k f).bad = s.bad := rfl
@[simp] theorem State.modThread_tlb (s : State) (k : ThreadKey) (f : Thread → Thread) : (s.modThread k f).tlb = s.tlb := rfl
@[simp] theorem State.modThread_ctxs (s : State) (k : ThreadKey) (f : Thread → Thread) : (s.modThread k f).ctxs = s.ctxs := rfl
@[simp] theorem State.modThread_launches (s : State) (k : ThreadKey) (f : Thread → Thread) : (s.modThread k f).launches = s.launches := rfl
@[simp] theorem State.modThread_groups (s : State) (k : ThreadKey) (f : Thread → Thread) : (s.modThread k f).groups = s.groups := rfl
@[simp] theorem State.modThread_gangs (s : State) (k : ThreadKey) (f : Thread → Thread) : (s.modThread k f).gangs = s.gangs := rfl
@[simp] theorem State.modThread_cwins (s : State) (k : ThreadKey) (f : Thread → Thread) : (s.modThread k f).cwins = s.cwins := rfl
@[simp] theorem State.modThread_strands (s : State) (k : ThreadKey) (f : Thread → Thread) : (s.modThread k f).strands = s.strands := rfl
@[simp] theorem State.modThread_pend (s : State) (k : ThreadKey) (f : Thread → Thread) : (s.modThread k f).pend = s.pend := rfl
@[simp] theorem State.modThread_held (s : State) (k : ThreadKey) (f : Thread → Thread) : (s.modThread k f).held = s.held := rfl
@[simp] theorem State.modThread_items (s : State) (k : ThreadKey) (f : Thread → Thread) : (s.modThread k f).items = s.items := rfl
@[simp] theorem State.modThread_globs (s : State) (k : ThreadKey) (f : Thread → Thread) : (s.modThread k f).globs = s.globs := rfl
@[simp] theorem State.modThread_colls (s : State) (k : ThreadKey) (f : Thread → Thread) : (s.modThread k f).colls = s.colls := rfl
@[simp] theorem State.modThread_losts (s : State) (k : ThreadKey) (f : Thread → Thread) : (s.modThread k f).losts = s.losts := rfl
@[simp] theorem State.modThread_replies (s : State) (k : ThreadKey) (f : Thread → Thread) : (s.modThread k f).replies = s.replies := rfl
@[simp] theorem State.modThread_gateOps (s : State) (k : ThreadKey) (f : Thread → Thread) : (s.modThread k f).gateOps = s.gateOps := rfl
@[simp] theorem State.modThread_gates (s : State) (k : ThreadKey) (f : Thread → Thread) : (s.modThread k f).gates = s.gates := rfl
@[simp] theorem State.modThread_gateSeen (s : State) (k : ThreadKey) (f : Thread → Thread) : (s.modThread k f).gateSeen = s.gateSeen := rfl
@[simp] theorem State.modThread_nextId (s : State) (k : ThreadKey) (f : Thread → Thread) : (s.modThread k f).nextId = s.nextId := rfl
@[simp] theorem State.modThread_dies (s : State) (k : ThreadKey) (f : Thread → Thread) : (s.modThread k f).dies = s.dies := rfl
@[simp] theorem State.modThread_memb (s : State) (k : ThreadKey) (f : Thread → Thread) : (s.modThread k f).memb = s.memb := rfl
@[simp] theorem State.modThread_epoch (s : State) (k : ThreadKey) (f : Thread → Thread) : (s.modThread k f).epoch = s.epoch := rfl
@[simp] theorem State.modThread_quies (s : State) (k : ThreadKey) (f : Thread → Thread) : (s.modThread k f).quies = s.quies := rfl
@[simp] theorem State.modThread_arch (s : State) (k : ThreadKey) (f : Thread → Thread) : (s.modThread k f).arch = s.arch := rfl
@[simp] theorem State.modThread_capo (s : State) (k : ThreadKey) (f : Thread → Thread) : (s.modThread k f).capo = s.capo := rfl
@[simp] theorem State.modThread_slotReqs (s : State) (k : ThreadKey) (f : Thread → Thread) : (s.modThread k f).slotReqs = s.slotReqs := rfl
@[simp] theorem State.modThread_grants (s : State) (k : ThreadKey) (f : Thread → Thread) : (s.modThread k f).grants = s.grants := rfl
@[simp] theorem State.modThread_air (s : State) (k : ThreadKey) (f : Thread → Thread) : (s.modThread k f).air = s.air := rfl
@[simp] theorem State.modThread_replBase (s : State) (k : ThreadKey) (f : Thread → Thread) : (s.modThread k f).replBase = s.replBase := rfl
@[simp] theorem State.modThread_replSize (s : State) (k : ThreadKey) (f : Thread → Thread) : (s.modThread k f).replSize = s.replSize := rfl
@[simp] theorem State.modThread_rewrite (s : State) (k : ThreadKey) (f : Thread → Thread) : (s.modThread k f).rewrite = s.rewrite := rfl
@[simp] theorem State.modThread_deadLinks (s : State) (k : ThreadKey) (f : Thread → Thread) : (s.modThread k f).deadLinks = s.deadLinks := rfl
@[simp] theorem State.modThread_repins (s : State) (k : ThreadKey) (f : Thread → Thread) : (s.modThread k f).repins = s.repins := rfl
@[simp] theorem State.modThread_yards (s : State) (k : ThreadKey) (f : Thread → Thread) : (s.modThread k f).yards = s.yards := rfl
@[simp] theorem State.modThread_pens (s : State) (k : ThreadKey) (f : Thread → Thread) : (s.modThread k f).pens = s.pens := rfl
@[simp] theorem State.modThread_areas (s : State) (k : ThreadKey) (f : Thread → Thread) : (s.modThread k f).areas = s.areas := rfl
@[simp] theorem State.modThread_pulls (s : State) (k : ThreadKey) (f : Thread → Thread) : (s.modThread k f).pulls = s.pulls := rfl
@[simp] theorem State.modThread_invals (s : State) (k : ThreadKey) (f : Thread → Thread) : (s.modThread k f).invals = s.invals := rfl
@[simp] theorem State.modThread_vfs (s : State) (k : ThreadKey) (f : Thread → Thread) : (s.modThread k f).vfs = s.vfs := rfl
@[simp] theorem State.modThread_quar (s : State) (k : ThreadKey) (f : Thread → Thread) : (s.modThread k f).quar = s.quar := rfl
@[simp] theorem State.modThread_revoked (s : State) (k : ThreadKey) (f : Thread → Thread) : (s.modThread k f).revoked = s.revoked := rfl
@[simp] theorem State.modThread_boot (s : State) (k : ThreadKey) (f : Thread → Thread) : (s.modThread k f).boot = s.boot := rfl
@[simp] theorem State.modThread_flash (s : State) (k : ThreadKey) (f : Thread → Thread) : (s.modThread k f).flash = s.flash := rfl
@[simp] theorem State.modThread_modId (s : State) (k : ThreadKey) (f : Thread → Thread) : (s.modThread k f).modId = s.modId := rfl
@[simp] theorem State.modThread_pfLog (s : State) (k : ThreadKey) (f : Thread → Thread) : (s.modThread k f).pfLog = s.pfLog := rfl
@[simp] theorem State.modThread_pfDrops (s : State) (k : ThreadKey) (f : Thread → Thread) : (s.modThread k f).pfDrops = s.pfDrops := rfl
@[simp] theorem State.modThread_out (s : State) (k : ThreadKey) (f : Thread → Thread) : (s.modThread k f).out = s.out := rfl

/-! ## `modGroup` -/

@[simp] theorem State.modGroup_agenda (s : State) (k : GroupKey) (f : Group → Group) : (s.modGroup k f).agenda = s.agenda := rfl
@[simp] theorem State.modGroup_cur (s : State) (k : GroupKey) (f : Group → Group) : (s.modGroup k f).cur = s.cur := rfl
@[simp] theorem State.modGroup_arg (s : State) (k : GroupKey) (f : Group → Group) : (s.modGroup k f).arg = s.arg := rfl
@[simp] theorem State.modGroup_turn (s : State) (k : GroupKey) (f : Group → Group) : (s.modGroup k f).turn = s.turn := rfl
@[simp] theorem State.modGroup_ran (s : State) (k : GroupKey) (f : Group → Group) : (s.modGroup k f).ran = s.ran := rfl
@[simp] theorem State.modGroup_late (s : State) (k : GroupKey) (f : Group → Group) : (s.modGroup k f).late = s.late := rfl
@[simp] theorem State.modGroup_free (s : State) (k : GroupKey) (f : Group → Group) : (s.modGroup k f).free = s.free := rfl
@[simp] theorem State.modGroup_cycle (s : State) (k : GroupKey) (f : Group → Group) : (s.modGroup k f).cycle = s.cycle := rfl
@[simp] theorem State.modGroup_mem (s : State) (k : GroupKey) (f : Group → Group) : (s.modGroup k f).mem = s.mem := rfl
@[simp] theorem State.modGroup_loftKey (s : State) (k : GroupKey) (f : Group → Group) : (s.modGroup k f).loftKey = s.loftKey := rfl
@[simp] theorem State.modGroup_bad (s : State) (k : GroupKey) (f : Group → Group) : (s.modGroup k f).bad = s.bad := rfl
@[simp] theorem State.modGroup_tlb (s : State) (k : GroupKey) (f : Group → Group) : (s.modGroup k f).tlb = s.tlb := rfl
@[simp] theorem State.modGroup_ctxs (s : State) (k : GroupKey) (f : Group → Group) : (s.modGroup k f).ctxs = s.ctxs := rfl
@[simp] theorem State.modGroup_launches (s : State) (k : GroupKey) (f : Group → Group) : (s.modGroup k f).launches = s.launches := rfl
@[simp] theorem State.modGroup_gangs (s : State) (k : GroupKey) (f : Group → Group) : (s.modGroup k f).gangs = s.gangs := rfl
@[simp] theorem State.modGroup_cwins (s : State) (k : GroupKey) (f : Group → Group) : (s.modGroup k f).cwins = s.cwins := rfl
@[simp] theorem State.modGroup_threads (s : State) (k : GroupKey) (f : Group → Group) : (s.modGroup k f).threads = s.threads := rfl
@[simp] theorem State.modGroup_strands (s : State) (k : GroupKey) (f : Group → Group) : (s.modGroup k f).strands = s.strands := rfl
@[simp] theorem State.modGroup_pend (s : State) (k : GroupKey) (f : Group → Group) : (s.modGroup k f).pend = s.pend := rfl
@[simp] theorem State.modGroup_held (s : State) (k : GroupKey) (f : Group → Group) : (s.modGroup k f).held = s.held := rfl
@[simp] theorem State.modGroup_items (s : State) (k : GroupKey) (f : Group → Group) : (s.modGroup k f).items = s.items := rfl
@[simp] theorem State.modGroup_globs (s : State) (k : GroupKey) (f : Group → Group) : (s.modGroup k f).globs = s.globs := rfl
@[simp] theorem State.modGroup_colls (s : State) (k : GroupKey) (f : Group → Group) : (s.modGroup k f).colls = s.colls := rfl
@[simp] theorem State.modGroup_losts (s : State) (k : GroupKey) (f : Group → Group) : (s.modGroup k f).losts = s.losts := rfl
@[simp] theorem State.modGroup_replies (s : State) (k : GroupKey) (f : Group → Group) : (s.modGroup k f).replies = s.replies := rfl
@[simp] theorem State.modGroup_gateOps (s : State) (k : GroupKey) (f : Group → Group) : (s.modGroup k f).gateOps = s.gateOps := rfl
@[simp] theorem State.modGroup_gates (s : State) (k : GroupKey) (f : Group → Group) : (s.modGroup k f).gates = s.gates := rfl
@[simp] theorem State.modGroup_gateSeen (s : State) (k : GroupKey) (f : Group → Group) : (s.modGroup k f).gateSeen = s.gateSeen := rfl
@[simp] theorem State.modGroup_nextId (s : State) (k : GroupKey) (f : Group → Group) : (s.modGroup k f).nextId = s.nextId := rfl
@[simp] theorem State.modGroup_dies (s : State) (k : GroupKey) (f : Group → Group) : (s.modGroup k f).dies = s.dies := rfl
@[simp] theorem State.modGroup_memb (s : State) (k : GroupKey) (f : Group → Group) : (s.modGroup k f).memb = s.memb := rfl
@[simp] theorem State.modGroup_epoch (s : State) (k : GroupKey) (f : Group → Group) : (s.modGroup k f).epoch = s.epoch := rfl
@[simp] theorem State.modGroup_quies (s : State) (k : GroupKey) (f : Group → Group) : (s.modGroup k f).quies = s.quies := rfl
@[simp] theorem State.modGroup_arch (s : State) (k : GroupKey) (f : Group → Group) : (s.modGroup k f).arch = s.arch := rfl
@[simp] theorem State.modGroup_capo (s : State) (k : GroupKey) (f : Group → Group) : (s.modGroup k f).capo = s.capo := rfl
@[simp] theorem State.modGroup_slotReqs (s : State) (k : GroupKey) (f : Group → Group) : (s.modGroup k f).slotReqs = s.slotReqs := rfl
@[simp] theorem State.modGroup_grants (s : State) (k : GroupKey) (f : Group → Group) : (s.modGroup k f).grants = s.grants := rfl
@[simp] theorem State.modGroup_air (s : State) (k : GroupKey) (f : Group → Group) : (s.modGroup k f).air = s.air := rfl
@[simp] theorem State.modGroup_replBase (s : State) (k : GroupKey) (f : Group → Group) : (s.modGroup k f).replBase = s.replBase := rfl
@[simp] theorem State.modGroup_replSize (s : State) (k : GroupKey) (f : Group → Group) : (s.modGroup k f).replSize = s.replSize := rfl
@[simp] theorem State.modGroup_rewrite (s : State) (k : GroupKey) (f : Group → Group) : (s.modGroup k f).rewrite = s.rewrite := rfl
@[simp] theorem State.modGroup_deadLinks (s : State) (k : GroupKey) (f : Group → Group) : (s.modGroup k f).deadLinks = s.deadLinks := rfl
@[simp] theorem State.modGroup_repins (s : State) (k : GroupKey) (f : Group → Group) : (s.modGroup k f).repins = s.repins := rfl
@[simp] theorem State.modGroup_yards (s : State) (k : GroupKey) (f : Group → Group) : (s.modGroup k f).yards = s.yards := rfl
@[simp] theorem State.modGroup_pens (s : State) (k : GroupKey) (f : Group → Group) : (s.modGroup k f).pens = s.pens := rfl
@[simp] theorem State.modGroup_areas (s : State) (k : GroupKey) (f : Group → Group) : (s.modGroup k f).areas = s.areas := rfl
@[simp] theorem State.modGroup_pulls (s : State) (k : GroupKey) (f : Group → Group) : (s.modGroup k f).pulls = s.pulls := rfl
@[simp] theorem State.modGroup_invals (s : State) (k : GroupKey) (f : Group → Group) : (s.modGroup k f).invals = s.invals := rfl
@[simp] theorem State.modGroup_vfs (s : State) (k : GroupKey) (f : Group → Group) : (s.modGroup k f).vfs = s.vfs := rfl
@[simp] theorem State.modGroup_quar (s : State) (k : GroupKey) (f : Group → Group) : (s.modGroup k f).quar = s.quar := rfl
@[simp] theorem State.modGroup_revoked (s : State) (k : GroupKey) (f : Group → Group) : (s.modGroup k f).revoked = s.revoked := rfl
@[simp] theorem State.modGroup_boot (s : State) (k : GroupKey) (f : Group → Group) : (s.modGroup k f).boot = s.boot := rfl
@[simp] theorem State.modGroup_flash (s : State) (k : GroupKey) (f : Group → Group) : (s.modGroup k f).flash = s.flash := rfl
@[simp] theorem State.modGroup_modId (s : State) (k : GroupKey) (f : Group → Group) : (s.modGroup k f).modId = s.modId := rfl
@[simp] theorem State.modGroup_pfLog (s : State) (k : GroupKey) (f : Group → Group) : (s.modGroup k f).pfLog = s.pfLog := rfl
@[simp] theorem State.modGroup_pfDrops (s : State) (k : GroupKey) (f : Group → Group) : (s.modGroup k f).pfDrops = s.pfDrops := rfl
@[simp] theorem State.modGroup_out (s : State) (k : GroupKey) (f : Group → Group) : (s.modGroup k f).out = s.out := rfl

/-! ## `modLaunch` -/

@[simp] theorem State.modLaunch_agenda (s : State) (n : Nat) (f : Launch → Launch) : (s.modLaunch n f).agenda = s.agenda := rfl
@[simp] theorem State.modLaunch_cur (s : State) (n : Nat) (f : Launch → Launch) : (s.modLaunch n f).cur = s.cur := rfl
@[simp] theorem State.modLaunch_arg (s : State) (n : Nat) (f : Launch → Launch) : (s.modLaunch n f).arg = s.arg := rfl
@[simp] theorem State.modLaunch_turn (s : State) (n : Nat) (f : Launch → Launch) : (s.modLaunch n f).turn = s.turn := rfl
@[simp] theorem State.modLaunch_ran (s : State) (n : Nat) (f : Launch → Launch) : (s.modLaunch n f).ran = s.ran := rfl
@[simp] theorem State.modLaunch_late (s : State) (n : Nat) (f : Launch → Launch) : (s.modLaunch n f).late = s.late := rfl
@[simp] theorem State.modLaunch_free (s : State) (n : Nat) (f : Launch → Launch) : (s.modLaunch n f).free = s.free := rfl
@[simp] theorem State.modLaunch_cycle (s : State) (n : Nat) (f : Launch → Launch) : (s.modLaunch n f).cycle = s.cycle := rfl
@[simp] theorem State.modLaunch_mem (s : State) (n : Nat) (f : Launch → Launch) : (s.modLaunch n f).mem = s.mem := rfl
@[simp] theorem State.modLaunch_loftKey (s : State) (n : Nat) (f : Launch → Launch) : (s.modLaunch n f).loftKey = s.loftKey := rfl
@[simp] theorem State.modLaunch_bad (s : State) (n : Nat) (f : Launch → Launch) : (s.modLaunch n f).bad = s.bad := rfl
@[simp] theorem State.modLaunch_tlb (s : State) (n : Nat) (f : Launch → Launch) : (s.modLaunch n f).tlb = s.tlb := rfl
@[simp] theorem State.modLaunch_ctxs (s : State) (n : Nat) (f : Launch → Launch) : (s.modLaunch n f).ctxs = s.ctxs := rfl
@[simp] theorem State.modLaunch_groups (s : State) (n : Nat) (f : Launch → Launch) : (s.modLaunch n f).groups = s.groups := rfl
@[simp] theorem State.modLaunch_gangs (s : State) (n : Nat) (f : Launch → Launch) : (s.modLaunch n f).gangs = s.gangs := rfl
@[simp] theorem State.modLaunch_cwins (s : State) (n : Nat) (f : Launch → Launch) : (s.modLaunch n f).cwins = s.cwins := rfl
@[simp] theorem State.modLaunch_threads (s : State) (n : Nat) (f : Launch → Launch) : (s.modLaunch n f).threads = s.threads := rfl
@[simp] theorem State.modLaunch_strands (s : State) (n : Nat) (f : Launch → Launch) : (s.modLaunch n f).strands = s.strands := rfl
@[simp] theorem State.modLaunch_pend (s : State) (n : Nat) (f : Launch → Launch) : (s.modLaunch n f).pend = s.pend := rfl
@[simp] theorem State.modLaunch_held (s : State) (n : Nat) (f : Launch → Launch) : (s.modLaunch n f).held = s.held := rfl
@[simp] theorem State.modLaunch_items (s : State) (n : Nat) (f : Launch → Launch) : (s.modLaunch n f).items = s.items := rfl
@[simp] theorem State.modLaunch_globs (s : State) (n : Nat) (f : Launch → Launch) : (s.modLaunch n f).globs = s.globs := rfl
@[simp] theorem State.modLaunch_colls (s : State) (n : Nat) (f : Launch → Launch) : (s.modLaunch n f).colls = s.colls := rfl
@[simp] theorem State.modLaunch_losts (s : State) (n : Nat) (f : Launch → Launch) : (s.modLaunch n f).losts = s.losts := rfl
@[simp] theorem State.modLaunch_replies (s : State) (n : Nat) (f : Launch → Launch) : (s.modLaunch n f).replies = s.replies := rfl
@[simp] theorem State.modLaunch_gateOps (s : State) (n : Nat) (f : Launch → Launch) : (s.modLaunch n f).gateOps = s.gateOps := rfl
@[simp] theorem State.modLaunch_gates (s : State) (n : Nat) (f : Launch → Launch) : (s.modLaunch n f).gates = s.gates := rfl
@[simp] theorem State.modLaunch_gateSeen (s : State) (n : Nat) (f : Launch → Launch) : (s.modLaunch n f).gateSeen = s.gateSeen := rfl
@[simp] theorem State.modLaunch_nextId (s : State) (n : Nat) (f : Launch → Launch) : (s.modLaunch n f).nextId = s.nextId := rfl
@[simp] theorem State.modLaunch_dies (s : State) (n : Nat) (f : Launch → Launch) : (s.modLaunch n f).dies = s.dies := rfl
@[simp] theorem State.modLaunch_memb (s : State) (n : Nat) (f : Launch → Launch) : (s.modLaunch n f).memb = s.memb := rfl
@[simp] theorem State.modLaunch_epoch (s : State) (n : Nat) (f : Launch → Launch) : (s.modLaunch n f).epoch = s.epoch := rfl
@[simp] theorem State.modLaunch_quies (s : State) (n : Nat) (f : Launch → Launch) : (s.modLaunch n f).quies = s.quies := rfl
@[simp] theorem State.modLaunch_arch (s : State) (n : Nat) (f : Launch → Launch) : (s.modLaunch n f).arch = s.arch := rfl
@[simp] theorem State.modLaunch_capo (s : State) (n : Nat) (f : Launch → Launch) : (s.modLaunch n f).capo = s.capo := rfl
@[simp] theorem State.modLaunch_slotReqs (s : State) (n : Nat) (f : Launch → Launch) : (s.modLaunch n f).slotReqs = s.slotReqs := rfl
@[simp] theorem State.modLaunch_grants (s : State) (n : Nat) (f : Launch → Launch) : (s.modLaunch n f).grants = s.grants := rfl
@[simp] theorem State.modLaunch_air (s : State) (n : Nat) (f : Launch → Launch) : (s.modLaunch n f).air = s.air := rfl
@[simp] theorem State.modLaunch_replBase (s : State) (n : Nat) (f : Launch → Launch) : (s.modLaunch n f).replBase = s.replBase := rfl
@[simp] theorem State.modLaunch_replSize (s : State) (n : Nat) (f : Launch → Launch) : (s.modLaunch n f).replSize = s.replSize := rfl
@[simp] theorem State.modLaunch_rewrite (s : State) (n : Nat) (f : Launch → Launch) : (s.modLaunch n f).rewrite = s.rewrite := rfl
@[simp] theorem State.modLaunch_deadLinks (s : State) (n : Nat) (f : Launch → Launch) : (s.modLaunch n f).deadLinks = s.deadLinks := rfl
@[simp] theorem State.modLaunch_repins (s : State) (n : Nat) (f : Launch → Launch) : (s.modLaunch n f).repins = s.repins := rfl
@[simp] theorem State.modLaunch_yards (s : State) (n : Nat) (f : Launch → Launch) : (s.modLaunch n f).yards = s.yards := rfl
@[simp] theorem State.modLaunch_pens (s : State) (n : Nat) (f : Launch → Launch) : (s.modLaunch n f).pens = s.pens := rfl
@[simp] theorem State.modLaunch_areas (s : State) (n : Nat) (f : Launch → Launch) : (s.modLaunch n f).areas = s.areas := rfl
@[simp] theorem State.modLaunch_pulls (s : State) (n : Nat) (f : Launch → Launch) : (s.modLaunch n f).pulls = s.pulls := rfl
@[simp] theorem State.modLaunch_invals (s : State) (n : Nat) (f : Launch → Launch) : (s.modLaunch n f).invals = s.invals := rfl
@[simp] theorem State.modLaunch_vfs (s : State) (n : Nat) (f : Launch → Launch) : (s.modLaunch n f).vfs = s.vfs := rfl
@[simp] theorem State.modLaunch_quar (s : State) (n : Nat) (f : Launch → Launch) : (s.modLaunch n f).quar = s.quar := rfl
@[simp] theorem State.modLaunch_revoked (s : State) (n : Nat) (f : Launch → Launch) : (s.modLaunch n f).revoked = s.revoked := rfl
@[simp] theorem State.modLaunch_boot (s : State) (n : Nat) (f : Launch → Launch) : (s.modLaunch n f).boot = s.boot := rfl
@[simp] theorem State.modLaunch_flash (s : State) (n : Nat) (f : Launch → Launch) : (s.modLaunch n f).flash = s.flash := rfl
@[simp] theorem State.modLaunch_modId (s : State) (n : Nat) (f : Launch → Launch) : (s.modLaunch n f).modId = s.modId := rfl
@[simp] theorem State.modLaunch_pfLog (s : State) (n : Nat) (f : Launch → Launch) : (s.modLaunch n f).pfLog = s.pfLog := rfl
@[simp] theorem State.modLaunch_pfDrops (s : State) (n : Nat) (f : Launch → Launch) : (s.modLaunch n f).pfDrops = s.pfDrops := rfl
@[simp] theorem State.modLaunch_out (s : State) (n : Nat) (f : Launch → Launch) : (s.modLaunch n f).out = s.out := rfl

/-! ## `modCtx` -/

@[simp] theorem State.modCtx_agenda (s : State) (n : Nat) (f : Ctx → Ctx) : (s.modCtx n f).agenda = s.agenda := rfl
@[simp] theorem State.modCtx_cur (s : State) (n : Nat) (f : Ctx → Ctx) : (s.modCtx n f).cur = s.cur := rfl
@[simp] theorem State.modCtx_arg (s : State) (n : Nat) (f : Ctx → Ctx) : (s.modCtx n f).arg = s.arg := rfl
@[simp] theorem State.modCtx_turn (s : State) (n : Nat) (f : Ctx → Ctx) : (s.modCtx n f).turn = s.turn := rfl
@[simp] theorem State.modCtx_ran (s : State) (n : Nat) (f : Ctx → Ctx) : (s.modCtx n f).ran = s.ran := rfl
@[simp] theorem State.modCtx_late (s : State) (n : Nat) (f : Ctx → Ctx) : (s.modCtx n f).late = s.late := rfl
@[simp] theorem State.modCtx_free (s : State) (n : Nat) (f : Ctx → Ctx) : (s.modCtx n f).free = s.free := rfl
@[simp] theorem State.modCtx_cycle (s : State) (n : Nat) (f : Ctx → Ctx) : (s.modCtx n f).cycle = s.cycle := rfl
@[simp] theorem State.modCtx_mem (s : State) (n : Nat) (f : Ctx → Ctx) : (s.modCtx n f).mem = s.mem := rfl
@[simp] theorem State.modCtx_loftKey (s : State) (n : Nat) (f : Ctx → Ctx) : (s.modCtx n f).loftKey = s.loftKey := rfl
@[simp] theorem State.modCtx_bad (s : State) (n : Nat) (f : Ctx → Ctx) : (s.modCtx n f).bad = s.bad := rfl
@[simp] theorem State.modCtx_tlb (s : State) (n : Nat) (f : Ctx → Ctx) : (s.modCtx n f).tlb = s.tlb := rfl
@[simp] theorem State.modCtx_launches (s : State) (n : Nat) (f : Ctx → Ctx) : (s.modCtx n f).launches = s.launches := rfl
@[simp] theorem State.modCtx_groups (s : State) (n : Nat) (f : Ctx → Ctx) : (s.modCtx n f).groups = s.groups := rfl
@[simp] theorem State.modCtx_gangs (s : State) (n : Nat) (f : Ctx → Ctx) : (s.modCtx n f).gangs = s.gangs := rfl
@[simp] theorem State.modCtx_cwins (s : State) (n : Nat) (f : Ctx → Ctx) : (s.modCtx n f).cwins = s.cwins := rfl
@[simp] theorem State.modCtx_threads (s : State) (n : Nat) (f : Ctx → Ctx) : (s.modCtx n f).threads = s.threads := rfl
@[simp] theorem State.modCtx_strands (s : State) (n : Nat) (f : Ctx → Ctx) : (s.modCtx n f).strands = s.strands := rfl
@[simp] theorem State.modCtx_pend (s : State) (n : Nat) (f : Ctx → Ctx) : (s.modCtx n f).pend = s.pend := rfl
@[simp] theorem State.modCtx_held (s : State) (n : Nat) (f : Ctx → Ctx) : (s.modCtx n f).held = s.held := rfl
@[simp] theorem State.modCtx_items (s : State) (n : Nat) (f : Ctx → Ctx) : (s.modCtx n f).items = s.items := rfl
@[simp] theorem State.modCtx_globs (s : State) (n : Nat) (f : Ctx → Ctx) : (s.modCtx n f).globs = s.globs := rfl
@[simp] theorem State.modCtx_colls (s : State) (n : Nat) (f : Ctx → Ctx) : (s.modCtx n f).colls = s.colls := rfl
@[simp] theorem State.modCtx_losts (s : State) (n : Nat) (f : Ctx → Ctx) : (s.modCtx n f).losts = s.losts := rfl
@[simp] theorem State.modCtx_replies (s : State) (n : Nat) (f : Ctx → Ctx) : (s.modCtx n f).replies = s.replies := rfl
@[simp] theorem State.modCtx_gateOps (s : State) (n : Nat) (f : Ctx → Ctx) : (s.modCtx n f).gateOps = s.gateOps := rfl
@[simp] theorem State.modCtx_gates (s : State) (n : Nat) (f : Ctx → Ctx) : (s.modCtx n f).gates = s.gates := rfl
@[simp] theorem State.modCtx_gateSeen (s : State) (n : Nat) (f : Ctx → Ctx) : (s.modCtx n f).gateSeen = s.gateSeen := rfl
@[simp] theorem State.modCtx_nextId (s : State) (n : Nat) (f : Ctx → Ctx) : (s.modCtx n f).nextId = s.nextId := rfl
@[simp] theorem State.modCtx_dies (s : State) (n : Nat) (f : Ctx → Ctx) : (s.modCtx n f).dies = s.dies := rfl
@[simp] theorem State.modCtx_memb (s : State) (n : Nat) (f : Ctx → Ctx) : (s.modCtx n f).memb = s.memb := rfl
@[simp] theorem State.modCtx_epoch (s : State) (n : Nat) (f : Ctx → Ctx) : (s.modCtx n f).epoch = s.epoch := rfl
@[simp] theorem State.modCtx_quies (s : State) (n : Nat) (f : Ctx → Ctx) : (s.modCtx n f).quies = s.quies := rfl
@[simp] theorem State.modCtx_arch (s : State) (n : Nat) (f : Ctx → Ctx) : (s.modCtx n f).arch = s.arch := rfl
@[simp] theorem State.modCtx_capo (s : State) (n : Nat) (f : Ctx → Ctx) : (s.modCtx n f).capo = s.capo := rfl
@[simp] theorem State.modCtx_slotReqs (s : State) (n : Nat) (f : Ctx → Ctx) : (s.modCtx n f).slotReqs = s.slotReqs := rfl
@[simp] theorem State.modCtx_grants (s : State) (n : Nat) (f : Ctx → Ctx) : (s.modCtx n f).grants = s.grants := rfl
@[simp] theorem State.modCtx_air (s : State) (n : Nat) (f : Ctx → Ctx) : (s.modCtx n f).air = s.air := rfl
@[simp] theorem State.modCtx_replBase (s : State) (n : Nat) (f : Ctx → Ctx) : (s.modCtx n f).replBase = s.replBase := rfl
@[simp] theorem State.modCtx_replSize (s : State) (n : Nat) (f : Ctx → Ctx) : (s.modCtx n f).replSize = s.replSize := rfl
@[simp] theorem State.modCtx_rewrite (s : State) (n : Nat) (f : Ctx → Ctx) : (s.modCtx n f).rewrite = s.rewrite := rfl
@[simp] theorem State.modCtx_deadLinks (s : State) (n : Nat) (f : Ctx → Ctx) : (s.modCtx n f).deadLinks = s.deadLinks := rfl
@[simp] theorem State.modCtx_repins (s : State) (n : Nat) (f : Ctx → Ctx) : (s.modCtx n f).repins = s.repins := rfl
@[simp] theorem State.modCtx_yards (s : State) (n : Nat) (f : Ctx → Ctx) : (s.modCtx n f).yards = s.yards := rfl
@[simp] theorem State.modCtx_pens (s : State) (n : Nat) (f : Ctx → Ctx) : (s.modCtx n f).pens = s.pens := rfl
@[simp] theorem State.modCtx_areas (s : State) (n : Nat) (f : Ctx → Ctx) : (s.modCtx n f).areas = s.areas := rfl
@[simp] theorem State.modCtx_pulls (s : State) (n : Nat) (f : Ctx → Ctx) : (s.modCtx n f).pulls = s.pulls := rfl
@[simp] theorem State.modCtx_invals (s : State) (n : Nat) (f : Ctx → Ctx) : (s.modCtx n f).invals = s.invals := rfl
@[simp] theorem State.modCtx_vfs (s : State) (n : Nat) (f : Ctx → Ctx) : (s.modCtx n f).vfs = s.vfs := rfl
@[simp] theorem State.modCtx_quar (s : State) (n : Nat) (f : Ctx → Ctx) : (s.modCtx n f).quar = s.quar := rfl
@[simp] theorem State.modCtx_revoked (s : State) (n : Nat) (f : Ctx → Ctx) : (s.modCtx n f).revoked = s.revoked := rfl
@[simp] theorem State.modCtx_boot (s : State) (n : Nat) (f : Ctx → Ctx) : (s.modCtx n f).boot = s.boot := rfl
@[simp] theorem State.modCtx_flash (s : State) (n : Nat) (f : Ctx → Ctx) : (s.modCtx n f).flash = s.flash := rfl
@[simp] theorem State.modCtx_modId (s : State) (n : Nat) (f : Ctx → Ctx) : (s.modCtx n f).modId = s.modId := rfl
@[simp] theorem State.modCtx_pfLog (s : State) (n : Nat) (f : Ctx → Ctx) : (s.modCtx n f).pfLog = s.pfLog := rfl
@[simp] theorem State.modCtx_pfDrops (s : State) (n : Nat) (f : Ctx → Ctx) : (s.modCtx n f).pfDrops = s.pfDrops := rfl
@[simp] theorem State.modCtx_out (s : State) (n : Nat) (f : Ctx → Ctx) : (s.modCtx n f).out = s.out := rfl

/-! ## `modDie` -/

@[simp] theorem State.modDie_agenda (s : State) (n : Nat) (f : Die → Die) : (s.modDie n f).agenda = s.agenda := rfl
@[simp] theorem State.modDie_cur (s : State) (n : Nat) (f : Die → Die) : (s.modDie n f).cur = s.cur := rfl
@[simp] theorem State.modDie_arg (s : State) (n : Nat) (f : Die → Die) : (s.modDie n f).arg = s.arg := rfl
@[simp] theorem State.modDie_turn (s : State) (n : Nat) (f : Die → Die) : (s.modDie n f).turn = s.turn := rfl
@[simp] theorem State.modDie_ran (s : State) (n : Nat) (f : Die → Die) : (s.modDie n f).ran = s.ran := rfl
@[simp] theorem State.modDie_late (s : State) (n : Nat) (f : Die → Die) : (s.modDie n f).late = s.late := rfl
@[simp] theorem State.modDie_free (s : State) (n : Nat) (f : Die → Die) : (s.modDie n f).free = s.free := rfl
@[simp] theorem State.modDie_cycle (s : State) (n : Nat) (f : Die → Die) : (s.modDie n f).cycle = s.cycle := rfl
@[simp] theorem State.modDie_mem (s : State) (n : Nat) (f : Die → Die) : (s.modDie n f).mem = s.mem := rfl
@[simp] theorem State.modDie_loftKey (s : State) (n : Nat) (f : Die → Die) : (s.modDie n f).loftKey = s.loftKey := rfl
@[simp] theorem State.modDie_bad (s : State) (n : Nat) (f : Die → Die) : (s.modDie n f).bad = s.bad := rfl
@[simp] theorem State.modDie_tlb (s : State) (n : Nat) (f : Die → Die) : (s.modDie n f).tlb = s.tlb := rfl
@[simp] theorem State.modDie_ctxs (s : State) (n : Nat) (f : Die → Die) : (s.modDie n f).ctxs = s.ctxs := rfl
@[simp] theorem State.modDie_launches (s : State) (n : Nat) (f : Die → Die) : (s.modDie n f).launches = s.launches := rfl
@[simp] theorem State.modDie_groups (s : State) (n : Nat) (f : Die → Die) : (s.modDie n f).groups = s.groups := rfl
@[simp] theorem State.modDie_gangs (s : State) (n : Nat) (f : Die → Die) : (s.modDie n f).gangs = s.gangs := rfl
@[simp] theorem State.modDie_cwins (s : State) (n : Nat) (f : Die → Die) : (s.modDie n f).cwins = s.cwins := rfl
@[simp] theorem State.modDie_threads (s : State) (n : Nat) (f : Die → Die) : (s.modDie n f).threads = s.threads := rfl
@[simp] theorem State.modDie_strands (s : State) (n : Nat) (f : Die → Die) : (s.modDie n f).strands = s.strands := rfl
@[simp] theorem State.modDie_pend (s : State) (n : Nat) (f : Die → Die) : (s.modDie n f).pend = s.pend := rfl
@[simp] theorem State.modDie_held (s : State) (n : Nat) (f : Die → Die) : (s.modDie n f).held = s.held := rfl
@[simp] theorem State.modDie_items (s : State) (n : Nat) (f : Die → Die) : (s.modDie n f).items = s.items := rfl
@[simp] theorem State.modDie_globs (s : State) (n : Nat) (f : Die → Die) : (s.modDie n f).globs = s.globs := rfl
@[simp] theorem State.modDie_colls (s : State) (n : Nat) (f : Die → Die) : (s.modDie n f).colls = s.colls := rfl
@[simp] theorem State.modDie_losts (s : State) (n : Nat) (f : Die → Die) : (s.modDie n f).losts = s.losts := rfl
@[simp] theorem State.modDie_replies (s : State) (n : Nat) (f : Die → Die) : (s.modDie n f).replies = s.replies := rfl
@[simp] theorem State.modDie_gateOps (s : State) (n : Nat) (f : Die → Die) : (s.modDie n f).gateOps = s.gateOps := rfl
@[simp] theorem State.modDie_gates (s : State) (n : Nat) (f : Die → Die) : (s.modDie n f).gates = s.gates := rfl
@[simp] theorem State.modDie_gateSeen (s : State) (n : Nat) (f : Die → Die) : (s.modDie n f).gateSeen = s.gateSeen := rfl
@[simp] theorem State.modDie_nextId (s : State) (n : Nat) (f : Die → Die) : (s.modDie n f).nextId = s.nextId := rfl
@[simp] theorem State.modDie_memb (s : State) (n : Nat) (f : Die → Die) : (s.modDie n f).memb = s.memb := rfl
@[simp] theorem State.modDie_epoch (s : State) (n : Nat) (f : Die → Die) : (s.modDie n f).epoch = s.epoch := rfl
@[simp] theorem State.modDie_quies (s : State) (n : Nat) (f : Die → Die) : (s.modDie n f).quies = s.quies := rfl
@[simp] theorem State.modDie_arch (s : State) (n : Nat) (f : Die → Die) : (s.modDie n f).arch = s.arch := rfl
@[simp] theorem State.modDie_capo (s : State) (n : Nat) (f : Die → Die) : (s.modDie n f).capo = s.capo := rfl
@[simp] theorem State.modDie_slotReqs (s : State) (n : Nat) (f : Die → Die) : (s.modDie n f).slotReqs = s.slotReqs := rfl
@[simp] theorem State.modDie_grants (s : State) (n : Nat) (f : Die → Die) : (s.modDie n f).grants = s.grants := rfl
@[simp] theorem State.modDie_air (s : State) (n : Nat) (f : Die → Die) : (s.modDie n f).air = s.air := rfl
@[simp] theorem State.modDie_replBase (s : State) (n : Nat) (f : Die → Die) : (s.modDie n f).replBase = s.replBase := rfl
@[simp] theorem State.modDie_replSize (s : State) (n : Nat) (f : Die → Die) : (s.modDie n f).replSize = s.replSize := rfl
@[simp] theorem State.modDie_rewrite (s : State) (n : Nat) (f : Die → Die) : (s.modDie n f).rewrite = s.rewrite := rfl
@[simp] theorem State.modDie_deadLinks (s : State) (n : Nat) (f : Die → Die) : (s.modDie n f).deadLinks = s.deadLinks := rfl
@[simp] theorem State.modDie_repins (s : State) (n : Nat) (f : Die → Die) : (s.modDie n f).repins = s.repins := rfl
@[simp] theorem State.modDie_yards (s : State) (n : Nat) (f : Die → Die) : (s.modDie n f).yards = s.yards := rfl
@[simp] theorem State.modDie_pens (s : State) (n : Nat) (f : Die → Die) : (s.modDie n f).pens = s.pens := rfl
@[simp] theorem State.modDie_areas (s : State) (n : Nat) (f : Die → Die) : (s.modDie n f).areas = s.areas := rfl
@[simp] theorem State.modDie_pulls (s : State) (n : Nat) (f : Die → Die) : (s.modDie n f).pulls = s.pulls := rfl
@[simp] theorem State.modDie_invals (s : State) (n : Nat) (f : Die → Die) : (s.modDie n f).invals = s.invals := rfl
@[simp] theorem State.modDie_vfs (s : State) (n : Nat) (f : Die → Die) : (s.modDie n f).vfs = s.vfs := rfl
@[simp] theorem State.modDie_quar (s : State) (n : Nat) (f : Die → Die) : (s.modDie n f).quar = s.quar := rfl
@[simp] theorem State.modDie_revoked (s : State) (n : Nat) (f : Die → Die) : (s.modDie n f).revoked = s.revoked := rfl
@[simp] theorem State.modDie_boot (s : State) (n : Nat) (f : Die → Die) : (s.modDie n f).boot = s.boot := rfl
@[simp] theorem State.modDie_flash (s : State) (n : Nat) (f : Die → Die) : (s.modDie n f).flash = s.flash := rfl
@[simp] theorem State.modDie_modId (s : State) (n : Nat) (f : Die → Die) : (s.modDie n f).modId = s.modId := rfl
@[simp] theorem State.modDie_pfLog (s : State) (n : Nat) (f : Die → Die) : (s.modDie n f).pfLog = s.pfLog := rfl
@[simp] theorem State.modDie_pfDrops (s : State) (n : Nat) (f : Die → Die) : (s.modDie n f).pfDrops = s.pfDrops := rfl
@[simp] theorem State.modDie_out (s : State) (n : Nat) (f : Die → Die) : (s.modDie n f).out = s.out := rfl

/-! ## `setFree` -/

@[simp] theorem State.setFree_agenda (s : State) (n : Nat) : (s.setFree n).agenda = s.agenda := rfl
@[simp] theorem State.setFree_cur (s : State) (n : Nat) : (s.setFree n).cur = s.cur := rfl
@[simp] theorem State.setFree_arg (s : State) (n : Nat) : (s.setFree n).arg = s.arg := rfl
@[simp] theorem State.setFree_turn (s : State) (n : Nat) : (s.setFree n).turn = s.turn := rfl
@[simp] theorem State.setFree_ran (s : State) (n : Nat) : (s.setFree n).ran = s.ran := rfl
@[simp] theorem State.setFree_late (s : State) (n : Nat) : (s.setFree n).late = s.late := rfl
@[simp] theorem State.setFree_cycle (s : State) (n : Nat) : (s.setFree n).cycle = s.cycle := rfl
@[simp] theorem State.setFree_mem (s : State) (n : Nat) : (s.setFree n).mem = s.mem := rfl
@[simp] theorem State.setFree_loftKey (s : State) (n : Nat) : (s.setFree n).loftKey = s.loftKey := rfl
@[simp] theorem State.setFree_bad (s : State) (n : Nat) : (s.setFree n).bad = s.bad := rfl
@[simp] theorem State.setFree_tlb (s : State) (n : Nat) : (s.setFree n).tlb = s.tlb := rfl
@[simp] theorem State.setFree_ctxs (s : State) (n : Nat) : (s.setFree n).ctxs = s.ctxs := rfl
@[simp] theorem State.setFree_launches (s : State) (n : Nat) : (s.setFree n).launches = s.launches := rfl
@[simp] theorem State.setFree_groups (s : State) (n : Nat) : (s.setFree n).groups = s.groups := rfl
@[simp] theorem State.setFree_gangs (s : State) (n : Nat) : (s.setFree n).gangs = s.gangs := rfl
@[simp] theorem State.setFree_cwins (s : State) (n : Nat) : (s.setFree n).cwins = s.cwins := rfl
@[simp] theorem State.setFree_threads (s : State) (n : Nat) : (s.setFree n).threads = s.threads := rfl
@[simp] theorem State.setFree_strands (s : State) (n : Nat) : (s.setFree n).strands = s.strands := rfl
@[simp] theorem State.setFree_pend (s : State) (n : Nat) : (s.setFree n).pend = s.pend := rfl
@[simp] theorem State.setFree_held (s : State) (n : Nat) : (s.setFree n).held = s.held := rfl
@[simp] theorem State.setFree_items (s : State) (n : Nat) : (s.setFree n).items = s.items := rfl
@[simp] theorem State.setFree_globs (s : State) (n : Nat) : (s.setFree n).globs = s.globs := rfl
@[simp] theorem State.setFree_colls (s : State) (n : Nat) : (s.setFree n).colls = s.colls := rfl
@[simp] theorem State.setFree_losts (s : State) (n : Nat) : (s.setFree n).losts = s.losts := rfl
@[simp] theorem State.setFree_replies (s : State) (n : Nat) : (s.setFree n).replies = s.replies := rfl
@[simp] theorem State.setFree_gateOps (s : State) (n : Nat) : (s.setFree n).gateOps = s.gateOps := rfl
@[simp] theorem State.setFree_gates (s : State) (n : Nat) : (s.setFree n).gates = s.gates := rfl
@[simp] theorem State.setFree_gateSeen (s : State) (n : Nat) : (s.setFree n).gateSeen = s.gateSeen := rfl
@[simp] theorem State.setFree_nextId (s : State) (n : Nat) : (s.setFree n).nextId = s.nextId := rfl
@[simp] theorem State.setFree_dies (s : State) (n : Nat) : (s.setFree n).dies = s.dies := rfl
@[simp] theorem State.setFree_memb (s : State) (n : Nat) : (s.setFree n).memb = s.memb := rfl
@[simp] theorem State.setFree_epoch (s : State) (n : Nat) : (s.setFree n).epoch = s.epoch := rfl
@[simp] theorem State.setFree_quies (s : State) (n : Nat) : (s.setFree n).quies = s.quies := rfl
@[simp] theorem State.setFree_arch (s : State) (n : Nat) : (s.setFree n).arch = s.arch := rfl
@[simp] theorem State.setFree_capo (s : State) (n : Nat) : (s.setFree n).capo = s.capo := rfl
@[simp] theorem State.setFree_slotReqs (s : State) (n : Nat) : (s.setFree n).slotReqs = s.slotReqs := rfl
@[simp] theorem State.setFree_grants (s : State) (n : Nat) : (s.setFree n).grants = s.grants := rfl
@[simp] theorem State.setFree_air (s : State) (n : Nat) : (s.setFree n).air = s.air := rfl
@[simp] theorem State.setFree_replBase (s : State) (n : Nat) : (s.setFree n).replBase = s.replBase := rfl
@[simp] theorem State.setFree_replSize (s : State) (n : Nat) : (s.setFree n).replSize = s.replSize := rfl
@[simp] theorem State.setFree_rewrite (s : State) (n : Nat) : (s.setFree n).rewrite = s.rewrite := rfl
@[simp] theorem State.setFree_deadLinks (s : State) (n : Nat) : (s.setFree n).deadLinks = s.deadLinks := rfl
@[simp] theorem State.setFree_repins (s : State) (n : Nat) : (s.setFree n).repins = s.repins := rfl
@[simp] theorem State.setFree_yards (s : State) (n : Nat) : (s.setFree n).yards = s.yards := rfl
@[simp] theorem State.setFree_pens (s : State) (n : Nat) : (s.setFree n).pens = s.pens := rfl
@[simp] theorem State.setFree_areas (s : State) (n : Nat) : (s.setFree n).areas = s.areas := rfl
@[simp] theorem State.setFree_pulls (s : State) (n : Nat) : (s.setFree n).pulls = s.pulls := rfl
@[simp] theorem State.setFree_invals (s : State) (n : Nat) : (s.setFree n).invals = s.invals := rfl
@[simp] theorem State.setFree_vfs (s : State) (n : Nat) : (s.setFree n).vfs = s.vfs := rfl
@[simp] theorem State.setFree_quar (s : State) (n : Nat) : (s.setFree n).quar = s.quar := rfl
@[simp] theorem State.setFree_revoked (s : State) (n : Nat) : (s.setFree n).revoked = s.revoked := rfl
@[simp] theorem State.setFree_boot (s : State) (n : Nat) : (s.setFree n).boot = s.boot := rfl
@[simp] theorem State.setFree_flash (s : State) (n : Nat) : (s.setFree n).flash = s.flash := rfl
@[simp] theorem State.setFree_modId (s : State) (n : Nat) : (s.setFree n).modId = s.modId := rfl
@[simp] theorem State.setFree_pfLog (s : State) (n : Nat) : (s.setFree n).pfLog = s.pfLog := rfl
@[simp] theorem State.setFree_pfDrops (s : State) (n : Nat) : (s.setFree n).pfDrops = s.pfDrops := rfl
@[simp] theorem State.setFree_out (s : State) (n : Nat) : (s.setFree n).out = s.out := rfl

/-! ## `modItem` -/

@[simp] theorem State.modItem_agenda (s : State) (n : Nat) (f : Item → Item) : (s.modItem n f).agenda = s.agenda := rfl
@[simp] theorem State.modItem_cur (s : State) (n : Nat) (f : Item → Item) : (s.modItem n f).cur = s.cur := rfl
@[simp] theorem State.modItem_arg (s : State) (n : Nat) (f : Item → Item) : (s.modItem n f).arg = s.arg := rfl
@[simp] theorem State.modItem_turn (s : State) (n : Nat) (f : Item → Item) : (s.modItem n f).turn = s.turn := rfl
@[simp] theorem State.modItem_ran (s : State) (n : Nat) (f : Item → Item) : (s.modItem n f).ran = s.ran := rfl
@[simp] theorem State.modItem_late (s : State) (n : Nat) (f : Item → Item) : (s.modItem n f).late = s.late := rfl
@[simp] theorem State.modItem_free (s : State) (n : Nat) (f : Item → Item) : (s.modItem n f).free = s.free := rfl
@[simp] theorem State.modItem_cycle (s : State) (n : Nat) (f : Item → Item) : (s.modItem n f).cycle = s.cycle := rfl
@[simp] theorem State.modItem_mem (s : State) (n : Nat) (f : Item → Item) : (s.modItem n f).mem = s.mem := rfl
@[simp] theorem State.modItem_loftKey (s : State) (n : Nat) (f : Item → Item) : (s.modItem n f).loftKey = s.loftKey := rfl
@[simp] theorem State.modItem_bad (s : State) (n : Nat) (f : Item → Item) : (s.modItem n f).bad = s.bad := rfl
@[simp] theorem State.modItem_tlb (s : State) (n : Nat) (f : Item → Item) : (s.modItem n f).tlb = s.tlb := rfl
@[simp] theorem State.modItem_ctxs (s : State) (n : Nat) (f : Item → Item) : (s.modItem n f).ctxs = s.ctxs := rfl
@[simp] theorem State.modItem_launches (s : State) (n : Nat) (f : Item → Item) : (s.modItem n f).launches = s.launches := rfl
@[simp] theorem State.modItem_groups (s : State) (n : Nat) (f : Item → Item) : (s.modItem n f).groups = s.groups := rfl
@[simp] theorem State.modItem_gangs (s : State) (n : Nat) (f : Item → Item) : (s.modItem n f).gangs = s.gangs := rfl
@[simp] theorem State.modItem_cwins (s : State) (n : Nat) (f : Item → Item) : (s.modItem n f).cwins = s.cwins := rfl
@[simp] theorem State.modItem_threads (s : State) (n : Nat) (f : Item → Item) : (s.modItem n f).threads = s.threads := rfl
@[simp] theorem State.modItem_strands (s : State) (n : Nat) (f : Item → Item) : (s.modItem n f).strands = s.strands := rfl
@[simp] theorem State.modItem_pend (s : State) (n : Nat) (f : Item → Item) : (s.modItem n f).pend = s.pend := rfl
@[simp] theorem State.modItem_held (s : State) (n : Nat) (f : Item → Item) : (s.modItem n f).held = s.held := rfl
@[simp] theorem State.modItem_globs (s : State) (n : Nat) (f : Item → Item) : (s.modItem n f).globs = s.globs := rfl
@[simp] theorem State.modItem_colls (s : State) (n : Nat) (f : Item → Item) : (s.modItem n f).colls = s.colls := rfl
@[simp] theorem State.modItem_losts (s : State) (n : Nat) (f : Item → Item) : (s.modItem n f).losts = s.losts := rfl
@[simp] theorem State.modItem_replies (s : State) (n : Nat) (f : Item → Item) : (s.modItem n f).replies = s.replies := rfl
@[simp] theorem State.modItem_gateOps (s : State) (n : Nat) (f : Item → Item) : (s.modItem n f).gateOps = s.gateOps := rfl
@[simp] theorem State.modItem_gates (s : State) (n : Nat) (f : Item → Item) : (s.modItem n f).gates = s.gates := rfl
@[simp] theorem State.modItem_gateSeen (s : State) (n : Nat) (f : Item → Item) : (s.modItem n f).gateSeen = s.gateSeen := rfl
@[simp] theorem State.modItem_nextId (s : State) (n : Nat) (f : Item → Item) : (s.modItem n f).nextId = s.nextId := rfl
@[simp] theorem State.modItem_dies (s : State) (n : Nat) (f : Item → Item) : (s.modItem n f).dies = s.dies := rfl
@[simp] theorem State.modItem_memb (s : State) (n : Nat) (f : Item → Item) : (s.modItem n f).memb = s.memb := rfl
@[simp] theorem State.modItem_epoch (s : State) (n : Nat) (f : Item → Item) : (s.modItem n f).epoch = s.epoch := rfl
@[simp] theorem State.modItem_quies (s : State) (n : Nat) (f : Item → Item) : (s.modItem n f).quies = s.quies := rfl
@[simp] theorem State.modItem_arch (s : State) (n : Nat) (f : Item → Item) : (s.modItem n f).arch = s.arch := rfl
@[simp] theorem State.modItem_capo (s : State) (n : Nat) (f : Item → Item) : (s.modItem n f).capo = s.capo := rfl
@[simp] theorem State.modItem_slotReqs (s : State) (n : Nat) (f : Item → Item) : (s.modItem n f).slotReqs = s.slotReqs := rfl
@[simp] theorem State.modItem_grants (s : State) (n : Nat) (f : Item → Item) : (s.modItem n f).grants = s.grants := rfl
@[simp] theorem State.modItem_air (s : State) (n : Nat) (f : Item → Item) : (s.modItem n f).air = s.air := rfl
@[simp] theorem State.modItem_replBase (s : State) (n : Nat) (f : Item → Item) : (s.modItem n f).replBase = s.replBase := rfl
@[simp] theorem State.modItem_replSize (s : State) (n : Nat) (f : Item → Item) : (s.modItem n f).replSize = s.replSize := rfl
@[simp] theorem State.modItem_rewrite (s : State) (n : Nat) (f : Item → Item) : (s.modItem n f).rewrite = s.rewrite := rfl
@[simp] theorem State.modItem_deadLinks (s : State) (n : Nat) (f : Item → Item) : (s.modItem n f).deadLinks = s.deadLinks := rfl
@[simp] theorem State.modItem_repins (s : State) (n : Nat) (f : Item → Item) : (s.modItem n f).repins = s.repins := rfl
@[simp] theorem State.modItem_yards (s : State) (n : Nat) (f : Item → Item) : (s.modItem n f).yards = s.yards := rfl
@[simp] theorem State.modItem_pens (s : State) (n : Nat) (f : Item → Item) : (s.modItem n f).pens = s.pens := rfl
@[simp] theorem State.modItem_areas (s : State) (n : Nat) (f : Item → Item) : (s.modItem n f).areas = s.areas := rfl
@[simp] theorem State.modItem_pulls (s : State) (n : Nat) (f : Item → Item) : (s.modItem n f).pulls = s.pulls := rfl
@[simp] theorem State.modItem_invals (s : State) (n : Nat) (f : Item → Item) : (s.modItem n f).invals = s.invals := rfl
@[simp] theorem State.modItem_vfs (s : State) (n : Nat) (f : Item → Item) : (s.modItem n f).vfs = s.vfs := rfl
@[simp] theorem State.modItem_quar (s : State) (n : Nat) (f : Item → Item) : (s.modItem n f).quar = s.quar := rfl
@[simp] theorem State.modItem_revoked (s : State) (n : Nat) (f : Item → Item) : (s.modItem n f).revoked = s.revoked := rfl
@[simp] theorem State.modItem_boot (s : State) (n : Nat) (f : Item → Item) : (s.modItem n f).boot = s.boot := rfl
@[simp] theorem State.modItem_flash (s : State) (n : Nat) (f : Item → Item) : (s.modItem n f).flash = s.flash := rfl
@[simp] theorem State.modItem_modId (s : State) (n : Nat) (f : Item → Item) : (s.modItem n f).modId = s.modId := rfl
@[simp] theorem State.modItem_pfLog (s : State) (n : Nat) (f : Item → Item) : (s.modItem n f).pfLog = s.pfLog := rfl
@[simp] theorem State.modItem_pfDrops (s : State) (n : Nat) (f : Item → Item) : (s.modItem n f).pfDrops = s.pfDrops := rfl
@[simp] theorem State.modItem_out (s : State) (n : Nat) (f : Item → Item) : (s.modItem n f).out = s.out := rfl

/-! ## `modPend` -/

@[simp] theorem State.modPend_agenda (s : State) (n : Nat) (f : Pend → Pend) : (s.modPend n f).agenda = s.agenda := rfl
@[simp] theorem State.modPend_cur (s : State) (n : Nat) (f : Pend → Pend) : (s.modPend n f).cur = s.cur := rfl
@[simp] theorem State.modPend_arg (s : State) (n : Nat) (f : Pend → Pend) : (s.modPend n f).arg = s.arg := rfl
@[simp] theorem State.modPend_turn (s : State) (n : Nat) (f : Pend → Pend) : (s.modPend n f).turn = s.turn := rfl
@[simp] theorem State.modPend_ran (s : State) (n : Nat) (f : Pend → Pend) : (s.modPend n f).ran = s.ran := rfl
@[simp] theorem State.modPend_late (s : State) (n : Nat) (f : Pend → Pend) : (s.modPend n f).late = s.late := rfl
@[simp] theorem State.modPend_free (s : State) (n : Nat) (f : Pend → Pend) : (s.modPend n f).free = s.free := rfl
@[simp] theorem State.modPend_cycle (s : State) (n : Nat) (f : Pend → Pend) : (s.modPend n f).cycle = s.cycle := rfl
@[simp] theorem State.modPend_mem (s : State) (n : Nat) (f : Pend → Pend) : (s.modPend n f).mem = s.mem := rfl
@[simp] theorem State.modPend_loftKey (s : State) (n : Nat) (f : Pend → Pend) : (s.modPend n f).loftKey = s.loftKey := rfl
@[simp] theorem State.modPend_bad (s : State) (n : Nat) (f : Pend → Pend) : (s.modPend n f).bad = s.bad := rfl
@[simp] theorem State.modPend_tlb (s : State) (n : Nat) (f : Pend → Pend) : (s.modPend n f).tlb = s.tlb := rfl
@[simp] theorem State.modPend_ctxs (s : State) (n : Nat) (f : Pend → Pend) : (s.modPend n f).ctxs = s.ctxs := rfl
@[simp] theorem State.modPend_launches (s : State) (n : Nat) (f : Pend → Pend) : (s.modPend n f).launches = s.launches := rfl
@[simp] theorem State.modPend_groups (s : State) (n : Nat) (f : Pend → Pend) : (s.modPend n f).groups = s.groups := rfl
@[simp] theorem State.modPend_gangs (s : State) (n : Nat) (f : Pend → Pend) : (s.modPend n f).gangs = s.gangs := rfl
@[simp] theorem State.modPend_cwins (s : State) (n : Nat) (f : Pend → Pend) : (s.modPend n f).cwins = s.cwins := rfl
@[simp] theorem State.modPend_threads (s : State) (n : Nat) (f : Pend → Pend) : (s.modPend n f).threads = s.threads := rfl
@[simp] theorem State.modPend_strands (s : State) (n : Nat) (f : Pend → Pend) : (s.modPend n f).strands = s.strands := rfl
@[simp] theorem State.modPend_items (s : State) (n : Nat) (f : Pend → Pend) : (s.modPend n f).items = s.items := rfl
@[simp] theorem State.modPend_globs (s : State) (n : Nat) (f : Pend → Pend) : (s.modPend n f).globs = s.globs := rfl
@[simp] theorem State.modPend_colls (s : State) (n : Nat) (f : Pend → Pend) : (s.modPend n f).colls = s.colls := rfl
@[simp] theorem State.modPend_losts (s : State) (n : Nat) (f : Pend → Pend) : (s.modPend n f).losts = s.losts := rfl
@[simp] theorem State.modPend_replies (s : State) (n : Nat) (f : Pend → Pend) : (s.modPend n f).replies = s.replies := rfl
@[simp] theorem State.modPend_gateOps (s : State) (n : Nat) (f : Pend → Pend) : (s.modPend n f).gateOps = s.gateOps := rfl
@[simp] theorem State.modPend_gates (s : State) (n : Nat) (f : Pend → Pend) : (s.modPend n f).gates = s.gates := rfl
@[simp] theorem State.modPend_gateSeen (s : State) (n : Nat) (f : Pend → Pend) : (s.modPend n f).gateSeen = s.gateSeen := rfl
@[simp] theorem State.modPend_nextId (s : State) (n : Nat) (f : Pend → Pend) : (s.modPend n f).nextId = s.nextId := rfl
@[simp] theorem State.modPend_dies (s : State) (n : Nat) (f : Pend → Pend) : (s.modPend n f).dies = s.dies := rfl
@[simp] theorem State.modPend_memb (s : State) (n : Nat) (f : Pend → Pend) : (s.modPend n f).memb = s.memb := rfl
@[simp] theorem State.modPend_epoch (s : State) (n : Nat) (f : Pend → Pend) : (s.modPend n f).epoch = s.epoch := rfl
@[simp] theorem State.modPend_quies (s : State) (n : Nat) (f : Pend → Pend) : (s.modPend n f).quies = s.quies := rfl
@[simp] theorem State.modPend_arch (s : State) (n : Nat) (f : Pend → Pend) : (s.modPend n f).arch = s.arch := rfl
@[simp] theorem State.modPend_capo (s : State) (n : Nat) (f : Pend → Pend) : (s.modPend n f).capo = s.capo := rfl
@[simp] theorem State.modPend_slotReqs (s : State) (n : Nat) (f : Pend → Pend) : (s.modPend n f).slotReqs = s.slotReqs := rfl
@[simp] theorem State.modPend_grants (s : State) (n : Nat) (f : Pend → Pend) : (s.modPend n f).grants = s.grants := rfl
@[simp] theorem State.modPend_air (s : State) (n : Nat) (f : Pend → Pend) : (s.modPend n f).air = s.air := rfl
@[simp] theorem State.modPend_replBase (s : State) (n : Nat) (f : Pend → Pend) : (s.modPend n f).replBase = s.replBase := rfl
@[simp] theorem State.modPend_replSize (s : State) (n : Nat) (f : Pend → Pend) : (s.modPend n f).replSize = s.replSize := rfl
@[simp] theorem State.modPend_rewrite (s : State) (n : Nat) (f : Pend → Pend) : (s.modPend n f).rewrite = s.rewrite := rfl
@[simp] theorem State.modPend_deadLinks (s : State) (n : Nat) (f : Pend → Pend) : (s.modPend n f).deadLinks = s.deadLinks := rfl
@[simp] theorem State.modPend_repins (s : State) (n : Nat) (f : Pend → Pend) : (s.modPend n f).repins = s.repins := rfl
@[simp] theorem State.modPend_yards (s : State) (n : Nat) (f : Pend → Pend) : (s.modPend n f).yards = s.yards := rfl
@[simp] theorem State.modPend_pens (s : State) (n : Nat) (f : Pend → Pend) : (s.modPend n f).pens = s.pens := rfl
@[simp] theorem State.modPend_areas (s : State) (n : Nat) (f : Pend → Pend) : (s.modPend n f).areas = s.areas := rfl
@[simp] theorem State.modPend_pulls (s : State) (n : Nat) (f : Pend → Pend) : (s.modPend n f).pulls = s.pulls := rfl
@[simp] theorem State.modPend_invals (s : State) (n : Nat) (f : Pend → Pend) : (s.modPend n f).invals = s.invals := rfl
@[simp] theorem State.modPend_vfs (s : State) (n : Nat) (f : Pend → Pend) : (s.modPend n f).vfs = s.vfs := rfl
@[simp] theorem State.modPend_quar (s : State) (n : Nat) (f : Pend → Pend) : (s.modPend n f).quar = s.quar := rfl
@[simp] theorem State.modPend_revoked (s : State) (n : Nat) (f : Pend → Pend) : (s.modPend n f).revoked = s.revoked := rfl
@[simp] theorem State.modPend_boot (s : State) (n : Nat) (f : Pend → Pend) : (s.modPend n f).boot = s.boot := rfl
@[simp] theorem State.modPend_flash (s : State) (n : Nat) (f : Pend → Pend) : (s.modPend n f).flash = s.flash := rfl
@[simp] theorem State.modPend_modId (s : State) (n : Nat) (f : Pend → Pend) : (s.modPend n f).modId = s.modId := rfl
@[simp] theorem State.modPend_pfLog (s : State) (n : Nat) (f : Pend → Pend) : (s.modPend n f).pfLog = s.pfLog := rfl
@[simp] theorem State.modPend_pfDrops (s : State) (n : Nat) (f : Pend → Pend) : (s.modPend n f).pfDrops = s.pfDrops := rfl
@[simp] theorem State.modPend_out (s : State) (n : Nat) (f : Pend → Pend) : (s.modPend n f).out = s.out := rfl

/-! ## `modQ` -/

@[simp] theorem State.modQ_agenda (s : State) (t : ThreadKey) (q : QName) (f : Queue → Queue) : (s.modQ t q f).agenda = s.agenda := rfl
@[simp] theorem State.modQ_cur (s : State) (t : ThreadKey) (q : QName) (f : Queue → Queue) : (s.modQ t q f).cur = s.cur := rfl
@[simp] theorem State.modQ_arg (s : State) (t : ThreadKey) (q : QName) (f : Queue → Queue) : (s.modQ t q f).arg = s.arg := rfl
@[simp] theorem State.modQ_turn (s : State) (t : ThreadKey) (q : QName) (f : Queue → Queue) : (s.modQ t q f).turn = s.turn := rfl
@[simp] theorem State.modQ_ran (s : State) (t : ThreadKey) (q : QName) (f : Queue → Queue) : (s.modQ t q f).ran = s.ran := rfl
@[simp] theorem State.modQ_late (s : State) (t : ThreadKey) (q : QName) (f : Queue → Queue) : (s.modQ t q f).late = s.late := rfl
@[simp] theorem State.modQ_free (s : State) (t : ThreadKey) (q : QName) (f : Queue → Queue) : (s.modQ t q f).free = s.free := rfl
@[simp] theorem State.modQ_cycle (s : State) (t : ThreadKey) (q : QName) (f : Queue → Queue) : (s.modQ t q f).cycle = s.cycle := rfl
@[simp] theorem State.modQ_mem (s : State) (t : ThreadKey) (q : QName) (f : Queue → Queue) : (s.modQ t q f).mem = s.mem := rfl
@[simp] theorem State.modQ_loftKey (s : State) (t : ThreadKey) (q : QName) (f : Queue → Queue) : (s.modQ t q f).loftKey = s.loftKey := rfl
@[simp] theorem State.modQ_bad (s : State) (t : ThreadKey) (q : QName) (f : Queue → Queue) : (s.modQ t q f).bad = s.bad := rfl
@[simp] theorem State.modQ_tlb (s : State) (t : ThreadKey) (q : QName) (f : Queue → Queue) : (s.modQ t q f).tlb = s.tlb := rfl
@[simp] theorem State.modQ_ctxs (s : State) (t : ThreadKey) (q : QName) (f : Queue → Queue) : (s.modQ t q f).ctxs = s.ctxs := rfl
@[simp] theorem State.modQ_launches (s : State) (t : ThreadKey) (q : QName) (f : Queue → Queue) : (s.modQ t q f).launches = s.launches := rfl
@[simp] theorem State.modQ_groups (s : State) (t : ThreadKey) (q : QName) (f : Queue → Queue) : (s.modQ t q f).groups = s.groups := rfl
@[simp] theorem State.modQ_gangs (s : State) (t : ThreadKey) (q : QName) (f : Queue → Queue) : (s.modQ t q f).gangs = s.gangs := rfl
@[simp] theorem State.modQ_cwins (s : State) (t : ThreadKey) (q : QName) (f : Queue → Queue) : (s.modQ t q f).cwins = s.cwins := rfl
@[simp] theorem State.modQ_strands (s : State) (t : ThreadKey) (q : QName) (f : Queue → Queue) : (s.modQ t q f).strands = s.strands := rfl
@[simp] theorem State.modQ_pend (s : State) (t : ThreadKey) (q : QName) (f : Queue → Queue) : (s.modQ t q f).pend = s.pend := rfl
@[simp] theorem State.modQ_held (s : State) (t : ThreadKey) (q : QName) (f : Queue → Queue) : (s.modQ t q f).held = s.held := rfl
@[simp] theorem State.modQ_items (s : State) (t : ThreadKey) (q : QName) (f : Queue → Queue) : (s.modQ t q f).items = s.items := rfl
@[simp] theorem State.modQ_globs (s : State) (t : ThreadKey) (q : QName) (f : Queue → Queue) : (s.modQ t q f).globs = s.globs := rfl
@[simp] theorem State.modQ_colls (s : State) (t : ThreadKey) (q : QName) (f : Queue → Queue) : (s.modQ t q f).colls = s.colls := rfl
@[simp] theorem State.modQ_losts (s : State) (t : ThreadKey) (q : QName) (f : Queue → Queue) : (s.modQ t q f).losts = s.losts := rfl
@[simp] theorem State.modQ_replies (s : State) (t : ThreadKey) (q : QName) (f : Queue → Queue) : (s.modQ t q f).replies = s.replies := rfl
@[simp] theorem State.modQ_gateOps (s : State) (t : ThreadKey) (q : QName) (f : Queue → Queue) : (s.modQ t q f).gateOps = s.gateOps := rfl
@[simp] theorem State.modQ_gates (s : State) (t : ThreadKey) (q : QName) (f : Queue → Queue) : (s.modQ t q f).gates = s.gates := rfl
@[simp] theorem State.modQ_gateSeen (s : State) (t : ThreadKey) (q : QName) (f : Queue → Queue) : (s.modQ t q f).gateSeen = s.gateSeen := rfl
@[simp] theorem State.modQ_nextId (s : State) (t : ThreadKey) (q : QName) (f : Queue → Queue) : (s.modQ t q f).nextId = s.nextId := rfl
@[simp] theorem State.modQ_dies (s : State) (t : ThreadKey) (q : QName) (f : Queue → Queue) : (s.modQ t q f).dies = s.dies := rfl
@[simp] theorem State.modQ_memb (s : State) (t : ThreadKey) (q : QName) (f : Queue → Queue) : (s.modQ t q f).memb = s.memb := rfl
@[simp] theorem State.modQ_epoch (s : State) (t : ThreadKey) (q : QName) (f : Queue → Queue) : (s.modQ t q f).epoch = s.epoch := rfl
@[simp] theorem State.modQ_quies (s : State) (t : ThreadKey) (q : QName) (f : Queue → Queue) : (s.modQ t q f).quies = s.quies := rfl
@[simp] theorem State.modQ_arch (s : State) (t : ThreadKey) (q : QName) (f : Queue → Queue) : (s.modQ t q f).arch = s.arch := rfl
@[simp] theorem State.modQ_capo (s : State) (t : ThreadKey) (q : QName) (f : Queue → Queue) : (s.modQ t q f).capo = s.capo := rfl
@[simp] theorem State.modQ_slotReqs (s : State) (t : ThreadKey) (q : QName) (f : Queue → Queue) : (s.modQ t q f).slotReqs = s.slotReqs := rfl
@[simp] theorem State.modQ_grants (s : State) (t : ThreadKey) (q : QName) (f : Queue → Queue) : (s.modQ t q f).grants = s.grants := rfl
@[simp] theorem State.modQ_air (s : State) (t : ThreadKey) (q : QName) (f : Queue → Queue) : (s.modQ t q f).air = s.air := rfl
@[simp] theorem State.modQ_replBase (s : State) (t : ThreadKey) (q : QName) (f : Queue → Queue) : (s.modQ t q f).replBase = s.replBase := rfl
@[simp] theorem State.modQ_replSize (s : State) (t : ThreadKey) (q : QName) (f : Queue → Queue) : (s.modQ t q f).replSize = s.replSize := rfl
@[simp] theorem State.modQ_rewrite (s : State) (t : ThreadKey) (q : QName) (f : Queue → Queue) : (s.modQ t q f).rewrite = s.rewrite := rfl
@[simp] theorem State.modQ_deadLinks (s : State) (t : ThreadKey) (q : QName) (f : Queue → Queue) : (s.modQ t q f).deadLinks = s.deadLinks := rfl
@[simp] theorem State.modQ_repins (s : State) (t : ThreadKey) (q : QName) (f : Queue → Queue) : (s.modQ t q f).repins = s.repins := rfl
@[simp] theorem State.modQ_yards (s : State) (t : ThreadKey) (q : QName) (f : Queue → Queue) : (s.modQ t q f).yards = s.yards := rfl
@[simp] theorem State.modQ_pens (s : State) (t : ThreadKey) (q : QName) (f : Queue → Queue) : (s.modQ t q f).pens = s.pens := rfl
@[simp] theorem State.modQ_areas (s : State) (t : ThreadKey) (q : QName) (f : Queue → Queue) : (s.modQ t q f).areas = s.areas := rfl
@[simp] theorem State.modQ_pulls (s : State) (t : ThreadKey) (q : QName) (f : Queue → Queue) : (s.modQ t q f).pulls = s.pulls := rfl
@[simp] theorem State.modQ_invals (s : State) (t : ThreadKey) (q : QName) (f : Queue → Queue) : (s.modQ t q f).invals = s.invals := rfl
@[simp] theorem State.modQ_vfs (s : State) (t : ThreadKey) (q : QName) (f : Queue → Queue) : (s.modQ t q f).vfs = s.vfs := rfl
@[simp] theorem State.modQ_quar (s : State) (t : ThreadKey) (q : QName) (f : Queue → Queue) : (s.modQ t q f).quar = s.quar := rfl
@[simp] theorem State.modQ_revoked (s : State) (t : ThreadKey) (q : QName) (f : Queue → Queue) : (s.modQ t q f).revoked = s.revoked := rfl
@[simp] theorem State.modQ_boot (s : State) (t : ThreadKey) (q : QName) (f : Queue → Queue) : (s.modQ t q f).boot = s.boot := rfl
@[simp] theorem State.modQ_flash (s : State) (t : ThreadKey) (q : QName) (f : Queue → Queue) : (s.modQ t q f).flash = s.flash := rfl
@[simp] theorem State.modQ_modId (s : State) (t : ThreadKey) (q : QName) (f : Queue → Queue) : (s.modQ t q f).modId = s.modId := rfl
@[simp] theorem State.modQ_pfLog (s : State) (t : ThreadKey) (q : QName) (f : Queue → Queue) : (s.modQ t q f).pfLog = s.pfLog := rfl
@[simp] theorem State.modQ_pfDrops (s : State) (t : ThreadKey) (q : QName) (f : Queue → Queue) : (s.modQ t q f).pfDrops = s.pfDrops := rfl
@[simp] theorem State.modQ_out (s : State) (t : ThreadKey) (q : QName) (f : Queue → Queue) : (s.modQ t q f).out = s.out := rfl

/-! ## `modRepl` -/

@[simp] theorem State.modRepl_agenda (s : State) (n : Nat) (f : Repl → Repl) : (s.modRepl n f).agenda = s.agenda := rfl
@[simp] theorem State.modRepl_cur (s : State) (n : Nat) (f : Repl → Repl) : (s.modRepl n f).cur = s.cur := rfl
@[simp] theorem State.modRepl_arg (s : State) (n : Nat) (f : Repl → Repl) : (s.modRepl n f).arg = s.arg := rfl
@[simp] theorem State.modRepl_turn (s : State) (n : Nat) (f : Repl → Repl) : (s.modRepl n f).turn = s.turn := rfl
@[simp] theorem State.modRepl_ran (s : State) (n : Nat) (f : Repl → Repl) : (s.modRepl n f).ran = s.ran := rfl
@[simp] theorem State.modRepl_late (s : State) (n : Nat) (f : Repl → Repl) : (s.modRepl n f).late = s.late := rfl
@[simp] theorem State.modRepl_free (s : State) (n : Nat) (f : Repl → Repl) : (s.modRepl n f).free = s.free := rfl
@[simp] theorem State.modRepl_cycle (s : State) (n : Nat) (f : Repl → Repl) : (s.modRepl n f).cycle = s.cycle := rfl
@[simp] theorem State.modRepl_mem (s : State) (n : Nat) (f : Repl → Repl) : (s.modRepl n f).mem = s.mem := rfl
@[simp] theorem State.modRepl_loftKey (s : State) (n : Nat) (f : Repl → Repl) : (s.modRepl n f).loftKey = s.loftKey := rfl
@[simp] theorem State.modRepl_bad (s : State) (n : Nat) (f : Repl → Repl) : (s.modRepl n f).bad = s.bad := rfl
@[simp] theorem State.modRepl_tlb (s : State) (n : Nat) (f : Repl → Repl) : (s.modRepl n f).tlb = s.tlb := rfl
@[simp] theorem State.modRepl_ctxs (s : State) (n : Nat) (f : Repl → Repl) : (s.modRepl n f).ctxs = s.ctxs := rfl
@[simp] theorem State.modRepl_launches (s : State) (n : Nat) (f : Repl → Repl) : (s.modRepl n f).launches = s.launches := rfl
@[simp] theorem State.modRepl_groups (s : State) (n : Nat) (f : Repl → Repl) : (s.modRepl n f).groups = s.groups := rfl
@[simp] theorem State.modRepl_gangs (s : State) (n : Nat) (f : Repl → Repl) : (s.modRepl n f).gangs = s.gangs := rfl
@[simp] theorem State.modRepl_cwins (s : State) (n : Nat) (f : Repl → Repl) : (s.modRepl n f).cwins = s.cwins := rfl
@[simp] theorem State.modRepl_threads (s : State) (n : Nat) (f : Repl → Repl) : (s.modRepl n f).threads = s.threads := rfl
@[simp] theorem State.modRepl_strands (s : State) (n : Nat) (f : Repl → Repl) : (s.modRepl n f).strands = s.strands := rfl
@[simp] theorem State.modRepl_pend (s : State) (n : Nat) (f : Repl → Repl) : (s.modRepl n f).pend = s.pend := rfl
@[simp] theorem State.modRepl_held (s : State) (n : Nat) (f : Repl → Repl) : (s.modRepl n f).held = s.held := rfl
@[simp] theorem State.modRepl_items (s : State) (n : Nat) (f : Repl → Repl) : (s.modRepl n f).items = s.items := rfl
@[simp] theorem State.modRepl_globs (s : State) (n : Nat) (f : Repl → Repl) : (s.modRepl n f).globs = s.globs := rfl
@[simp] theorem State.modRepl_colls (s : State) (n : Nat) (f : Repl → Repl) : (s.modRepl n f).colls = s.colls := rfl
@[simp] theorem State.modRepl_losts (s : State) (n : Nat) (f : Repl → Repl) : (s.modRepl n f).losts = s.losts := rfl
@[simp] theorem State.modRepl_replies (s : State) (n : Nat) (f : Repl → Repl) : (s.modRepl n f).replies = s.replies := rfl
@[simp] theorem State.modRepl_gateOps (s : State) (n : Nat) (f : Repl → Repl) : (s.modRepl n f).gateOps = s.gateOps := rfl
@[simp] theorem State.modRepl_gates (s : State) (n : Nat) (f : Repl → Repl) : (s.modRepl n f).gates = s.gates := rfl
@[simp] theorem State.modRepl_gateSeen (s : State) (n : Nat) (f : Repl → Repl) : (s.modRepl n f).gateSeen = s.gateSeen := rfl
@[simp] theorem State.modRepl_nextId (s : State) (n : Nat) (f : Repl → Repl) : (s.modRepl n f).nextId = s.nextId := rfl
@[simp] theorem State.modRepl_memb (s : State) (n : Nat) (f : Repl → Repl) : (s.modRepl n f).memb = s.memb := rfl
@[simp] theorem State.modRepl_epoch (s : State) (n : Nat) (f : Repl → Repl) : (s.modRepl n f).epoch = s.epoch := rfl
@[simp] theorem State.modRepl_quies (s : State) (n : Nat) (f : Repl → Repl) : (s.modRepl n f).quies = s.quies := rfl
@[simp] theorem State.modRepl_arch (s : State) (n : Nat) (f : Repl → Repl) : (s.modRepl n f).arch = s.arch := rfl
@[simp] theorem State.modRepl_capo (s : State) (n : Nat) (f : Repl → Repl) : (s.modRepl n f).capo = s.capo := rfl
@[simp] theorem State.modRepl_slotReqs (s : State) (n : Nat) (f : Repl → Repl) : (s.modRepl n f).slotReqs = s.slotReqs := rfl
@[simp] theorem State.modRepl_grants (s : State) (n : Nat) (f : Repl → Repl) : (s.modRepl n f).grants = s.grants := rfl
@[simp] theorem State.modRepl_air (s : State) (n : Nat) (f : Repl → Repl) : (s.modRepl n f).air = s.air := rfl
@[simp] theorem State.modRepl_replBase (s : State) (n : Nat) (f : Repl → Repl) : (s.modRepl n f).replBase = s.replBase := rfl
@[simp] theorem State.modRepl_replSize (s : State) (n : Nat) (f : Repl → Repl) : (s.modRepl n f).replSize = s.replSize := rfl
@[simp] theorem State.modRepl_rewrite (s : State) (n : Nat) (f : Repl → Repl) : (s.modRepl n f).rewrite = s.rewrite := rfl
@[simp] theorem State.modRepl_deadLinks (s : State) (n : Nat) (f : Repl → Repl) : (s.modRepl n f).deadLinks = s.deadLinks := rfl
@[simp] theorem State.modRepl_repins (s : State) (n : Nat) (f : Repl → Repl) : (s.modRepl n f).repins = s.repins := rfl
@[simp] theorem State.modRepl_yards (s : State) (n : Nat) (f : Repl → Repl) : (s.modRepl n f).yards = s.yards := rfl
@[simp] theorem State.modRepl_pens (s : State) (n : Nat) (f : Repl → Repl) : (s.modRepl n f).pens = s.pens := rfl
@[simp] theorem State.modRepl_areas (s : State) (n : Nat) (f : Repl → Repl) : (s.modRepl n f).areas = s.areas := rfl
@[simp] theorem State.modRepl_pulls (s : State) (n : Nat) (f : Repl → Repl) : (s.modRepl n f).pulls = s.pulls := rfl
@[simp] theorem State.modRepl_invals (s : State) (n : Nat) (f : Repl → Repl) : (s.modRepl n f).invals = s.invals := rfl
@[simp] theorem State.modRepl_vfs (s : State) (n : Nat) (f : Repl → Repl) : (s.modRepl n f).vfs = s.vfs := rfl
@[simp] theorem State.modRepl_quar (s : State) (n : Nat) (f : Repl → Repl) : (s.modRepl n f).quar = s.quar := rfl
@[simp] theorem State.modRepl_revoked (s : State) (n : Nat) (f : Repl → Repl) : (s.modRepl n f).revoked = s.revoked := rfl
@[simp] theorem State.modRepl_boot (s : State) (n : Nat) (f : Repl → Repl) : (s.modRepl n f).boot = s.boot := rfl
@[simp] theorem State.modRepl_flash (s : State) (n : Nat) (f : Repl → Repl) : (s.modRepl n f).flash = s.flash := rfl
@[simp] theorem State.modRepl_modId (s : State) (n : Nat) (f : Repl → Repl) : (s.modRepl n f).modId = s.modId := rfl
@[simp] theorem State.modRepl_pfLog (s : State) (n : Nat) (f : Repl → Repl) : (s.modRepl n f).pfLog = s.pfLog := rfl
@[simp] theorem State.modRepl_pfDrops (s : State) (n : Nat) (f : Repl → Repl) : (s.modRepl n f).pfDrops = s.pfDrops := rfl
@[simp] theorem State.modRepl_out (s : State) (n : Nat) (f : Repl → Repl) : (s.modRepl n f).out = s.out := rfl

end Sys2Proof.Machine
end

