-- ==== Sys2Proof/Laws/Tables.lean ====
section
/-! SUPPORT. Keyed tables and lists by index: what is read after a write. -/

namespace Sys2Proof.Machine

variable {α β : Type} [DecidableEq α]

theorem tget_tset_self (t : Table α β) (a : α) (b : β) : tget (tset t a b) a = some b := by
  induction t with
  | nil => simp [tset, tget]
  | cons e t ih =>
    obtain ⟨k, v⟩ := e
    by_cases h : k = a <;> simp [tset, tget, h, ih]

theorem tget_tset_ne (t : Table α β) (a c : α) (b : β) (h : a ≠ c) : tget (tset t a b) c = tget t c := by
  induction t with
  | nil => simp [tset, tget, h]
  | cons e t ih =>
    obtain ⟨k, v⟩ := e
    by_cases hk : k = a
    · subst hk; simp [tset, tget, h]
    · simp only [tset, if_neg hk, tget, ih]

theorem tget_tmod_self (t : Table α β) (a : α) (f : β → β) : tget (tmod t a f) a = (tget t a).map f := by
  induction t with
  | nil => simp [tmod, tget]
  | cons e t ih =>
    obtain ⟨k, v⟩ := e
    by_cases h : k = a <;> simp [tmod, tget, h, ih]

theorem tget_tmod_ne (t : Table α β) (a c : α) (f : β → β) (h : a ≠ c) : tget (tmod t a f) c = tget t c := by
  induction t with
  | nil => simp [tmod, tget]
  | cons e t ih =>
    obtain ⟨k, v⟩ := e
    by_cases hk : k = a
    · subst hk; simp [tmod, tget, h]
    · simp only [tmod, if_neg hk, tget, ih]

theorem lget_lset_self {γ : Type} (l : List γ) (n : Nat) (x d : γ) (h : n < l.length) : lget (lset l n x) n d = x := by
  induction l generalizing n with
  | nil => simp at h
  | cons y l ih => cases n with
    | zero => rfl
    | succ n => exact ih n (by simpa using h)

theorem lget_lset_ne {γ : Type} (l : List γ) (n m : Nat) (x d : γ) (h : n ≠ m) : lget (lset l n x) m d = lget l m d := by
  induction l generalizing n m with
  | nil => rfl
  | cons y l ih => cases n with
    | zero => cases m with
      | zero => exact absurd rfl h
      | succ m => rfl
    | succ n => cases m with
      | zero => rfl
      | succ m => exact ih n m (by omega)

@[simp] theorem lset_length {γ : Type} (l : List γ) (n : Nat) (x : γ) : (lset l n x).length = l.length := by
  induction l generalizing n with
  | nil => rfl
  | cons y l ih => cases n <;> simp [lset, ih]

@[simp] theorem lmod_length {γ : Type} (l : List γ) (n : Nat) (f : γ → γ) : (lmod l n f).length = l.length := by
  induction l generalizing n with
  | nil => rfl
  | cons y l ih => cases n <;> simp [lmod, ih]

end Sys2Proof.Machine
end

