-- ==== Sys2Proof/Laws/Memory.lean ====
section
/-! SUPPORT. Memory: what is read after a write, and that every memory operation keeps the canonical form. -/

namespace Sys2Proof.Machine

/-! ## One byte -/

theorem memGet_memSet_self (m : List Host.Cell) (a : Nat) (b : Byte) (h : memWf m = true) : memGet (memSet m a b) a = b := by
  induction m with
  | nil => by_cases hb : b = 0#8 <;> simp [memSet, memGet, hb]
  | cons e t ih =>
    obtain ⟨k, v⟩ := e
    simp only [memWf, Bool.and_eq_true] at h
    obtain ⟨⟨hv, hk⟩, ht⟩ := h
    have lt_get : ∀ x : Nat, x ≤ k → memGet t x = 0#8 := by
      intro x hx
      cases t with
      | nil => rfl
      | cons f t => simp only [memGet]; simp at hk; rw [if_neg (by omega), if_pos (by omega)]
    by_cases h1 : a < k
    · by_cases hb : b = 0#8
      · simp [memSet, memGet, h1, hb, Nat.ne_of_gt h1]
      · simp [memSet, memGet, h1, hb]
    · by_cases h2 : k = a
      · subst h2
        by_cases hb : b = 0#8
        · simp [memSet, hb, lt_get]
        · simp [memSet, memGet, hb]
      · simp [memSet, memGet, h1, h2, ih ht]

theorem memGet_memSet_ne (m : List Host.Cell) (a c : Nat) (b : Byte) (h : memWf m = true) (hc : a ≠ c) :
    memGet (memSet m a b) c = memGet m c := by
  induction m with
  | nil => by_cases hb : b = 0#8 <;> simp [memSet, memGet, hb, hc]
  | cons e t ih =>
    obtain ⟨k, v⟩ := e
    simp only [memWf, Bool.and_eq_true] at h
    obtain ⟨⟨hv, hk⟩, ht⟩ := h
    by_cases h1 : a < k
    · by_cases hb : b = 0#8
      · simp [memSet, h1, hb]
      · simp only [memSet, h1, hb, if_true, if_false, memGet, if_neg hc]
        by_cases h3 : c < a
        · simp [h3, show ¬ k = c by omega, show c < k by omega]
        · simp [h3]
    · by_cases h2 : k = a
      · subst h2
        by_cases hb : b = 0#8
        · subst hb
          simp only [memSet, Nat.lt_irrefl, if_false, if_true, memGet, if_neg hc]
          by_cases h3 : c < k
          · simp only [h3, if_true]
            cases t with
            | nil => rfl
            | cons f t => simp at hk; simp only [memGet]; rw [if_neg (by omega), if_pos (by omega)]
          · simp [h3]
        · simp [memSet, memGet, hb, hc]
      · simp only [memSet, h1, h2, if_false, memGet]
        by_cases h3 : k = c
        · simp [h3]
        · by_cases h4 : c < k
          · simp [h3, h4]
          · simp [h3, h4, ih ht]

/-! ## The canonical form -/

/-- A canonical memory whose first address is above `a`. -/
def memAbove (a : Nat) (m : List Host.Cell) : Prop :=
  match m with
  | [] => True
  | e :: _ => a < e.1

theorem memAbove_memSet (m : List Host.Cell) (a c : Nat) (b : Byte) (h : memAbove c m) (hc : c < a) (hw : memWf m = true) :
    memAbove c (memSet m a b) := by
  cases m with
  | nil => by_cases hb : b = 0#8 <;> simp [memSet, memAbove, hb, hc]
  | cons e t =>
    obtain ⟨k, v⟩ := e
    simp only [memAbove] at h
    by_cases h1 : a < k
    · by_cases hb : b = 0#8 <;> simp [memSet, memAbove, h1, hb, hc, h]
    · by_cases h2 : k = a
      · subst h2
        by_cases hb : b = 0#8
        · simp only [memSet, Nat.lt_irrefl, if_false, hb, if_true]
          cases t with
          | nil => trivial
          | cons f t =>
            simp [memWf] at hw
            simp only [memAbove]; omega
        · simp [memSet, memAbove, hb, h]
      · simp [memSet, memAbove, h1, h2, h]

theorem memWf_cons (k : Nat) (v : Byte) (t : List Host.Cell) :
    memWf ((k, v) :: t) = true ↔ v ≠ 0#8 ∧ memAbove k t ∧ memWf t = true := by
  cases t <;> simp [memWf, memAbove, and_assoc]

/-- Writing a byte keeps the canonical form. -/
theorem memWf_memSet (m : List Host.Cell) (a : Nat) (b : Byte) (h : memWf m = true) : memWf (memSet m a b) = true := by
  induction m with
  | nil => by_cases hb : b = 0#8 <;> simp [memSet, memWf, hb]
  | cons e t ih =>
    obtain ⟨k, v⟩ := e
    obtain ⟨hv, hk, ht⟩ := (memWf_cons k v t).1 h
    by_cases h1 : a < k
    · by_cases hb : b = 0#8
      · simpa [memSet, h1, hb] using h
      · simp only [memSet, h1, hb, if_true, if_false]
        exact (memWf_cons _ _ _).2 ⟨hb, h1, h⟩
    · by_cases h2 : k = a
      · subst h2
        by_cases hb : b = 0#8
        · simpa [memSet, hb] using ht
        · simp only [memSet, Nat.lt_irrefl, if_false, hb, if_true]
          exact (memWf_cons _ _ _).2 ⟨hb, hk, ht⟩
      · simp only [memSet, h1, h2, if_false]
        exact (memWf_cons _ _ _).2 ⟨hv, memAbove_memSet t a k b hk (by omega) ht, ih ht⟩

theorem memWf_memWrite (m : List Host.Cell) (a : Nat) (l : List Byte) (h : memWf m = true) : memWf (memWrite m a l) = true := by
  induction l generalizing m a with
  | nil => exact h
  | cons b l ih => exact ih _ _ (memWf_memSet m a b h)

/-- Selecting cells keeps the canonical form. -/
theorem memWf_filter (m : List Host.Cell) (p : Host.Cell → Bool) (h : memWf m = true) : memWf (m.filter p) = true := by
  induction m with
  | nil => rfl
  | cons e t ih =>
    obtain ⟨k, v⟩ := e
    obtain ⟨hv, hk, ht⟩ := (memWf_cons k v t).1 h
    have above : ∀ u : List Host.Cell, memAbove k u → memWf u = true → memAbove k (u.filter p) := by
      intro u
      induction u with
      | nil => intros; trivial
      | cons f u iu =>
        obtain ⟨j, w⟩ := f
        intro ha hw
        obtain ⟨_, hj, hu⟩ := (memWf_cons j w u).1 hw
        by_cases hp : p (j, w) = true
        · simp only [List.filter_cons, hp, if_true]; exact ha
        · simp only [List.filter_cons, hp]
          refine iu ?_ hu
          cases u with
          | nil => trivial
          | cons g u => simp only [memAbove] at ha hj ⊢; omega
    by_cases hp : p (k, v) = true
    · simp only [List.filter_cons, hp, if_true]
      exact (memWf_cons _ _ _).2 ⟨hv, above t hk ht, ih ht⟩
    · simpa [List.filter_cons, hp] using ih ht

/-! ## Runs of bytes -/

/-- Writing bytes leaves every other byte. -/
theorem memGet_memWrite_out (m : List Host.Cell) (a c : Nat) (l : List Byte) (h : memWf m = true)
    (hc : c < a ∨ a + l.length ≤ c) : memGet (memWrite m a l) c = memGet m c := by
  induction l generalizing m a with
  | nil => rfl
  | cons b l ih =>
    simp only [List.length_cons] at hc
    simp only [memWrite]
    rw [ih _ _ (memWf_memSet m a b h) (by omega), memGet_memSet_ne m a c b h (by omega)]

/-- Bytes read back as written. -/
theorem memRead_memWrite (m : List Host.Cell) (a : Nat) (l : List Byte) (h : memWf m = true) :
    memRead (memWrite m a l) a l.length = l := by
  induction l generalizing m a with
  | nil => rfl
  | cons b l ih =>
    simp only [memWrite, List.length_cons, memRead]
    rw [ih _ _ (memWf_memSet m a b h), memGet_memWrite_out _ _ _ _ (memWf_memSet m a b h) (by omega), memGet_memSet_self m a b h]

/-! ## The state's memory operations -/

theorem setLoftByte_wf (s : State) (a : Nat) (b : Byte) (h : memWf s.mem = true) : memWf (s.setLoftByte a b).mem = true := by
  unfold State.setLoftByte
  dsimp only
  split
  · show memWf (memSet s.mem a b) = true
    exact memWf_memSet _ _ _ h
  · apply memWf_memSet
    apply memWf_memWrite
    exact h

theorem writeSpa_wf (s : State) (a : Nat) (l : List Byte) (h : memWf s.mem = true) : memWf (s.writeSpa a l).mem = true := by
  induction l generalizing s a with
  | nil => exact h
  | cons b l ih =>
    simp only [State.writeSpa]
    refine ih _ _ ?_
    split
    · exact setLoftByte_wf s a b h
    · show memWf (memSet s.mem a b) = true
      exact memWf_memSet _ _ _ h

@[simp] theorem repair_mem (s : State) (a n : Nat) : (s.repair a n).mem = s.mem := by
  unfold State.repair; split <;> rfl

theorem raiseShed_mem (d : Nat) (e : ShedEvent) (s : State) : (raiseShed d e s).mem = s.mem := by
  unfold raiseShed; exact State.modDie_mem ..

theorem triggerGraph_mem (d c g : Nat) (s : State) : (triggerGraph d c g s).mem = s.mem := by
  unfold triggerGraph; split
  · split
    · exact raiseShed_mem ..
    · rfl
  · rfl

theorem triggers_mem (d c : Nat) (l : List Nat) (s : State) : (l.foldl (fun s g => triggerGraph d c g s) s).mem = s.mem := by
  induction l generalizing s with
  | nil => rfl
  | cons g l ih => rw [List.foldl_cons, ih, triggerGraph_mem]

theorem storeSpa_wf (c a : Nat) (l : List Byte) (s : State) (h : memWf s.mem = true) : memWf (storeSpa c a l s).mem = true := by
  unfold storeSpa
  simp only
  split
  · split
    · simpa using writeSpa_wf s a l h
    · rw [triggers_mem]; simpa using writeSpa_wf s a l h
  · simpa using writeSpa_wf s a l h

end Sys2Proof.Machine
end

