-- ==== Sys2Proof/Laws/PerInstr.lean ====
section
/-! SUPPORT. One lemma per instruction for the statements made of all instructions. -/

namespace Sys2Proof.Laws

/-- The words of an instruction: one, or an X form with its literal, as its first word tells (R20). An event has none. -/
def HeadWord.Statement (i : Instr) : Prop := ∀ w r, encode i = w :: r → r.length = if isXForm w then 1 else 0

theorem HeadWord.iadd (d a b) : HeadWord.Statement (.iadd d a b) := by
  intro w r h; injection h with h1 h2; subst h1; subst h2; simp [isXForm]
theorem HeadWord.iaddi (d a im) : HeadWord.Statement (.iaddi d a im) := by
  intro w r h; injection h with h1 h2; subst h1; subst h2; simp [isXForm]
theorem HeadWord.isub (d a b) : HeadWord.Statement (.isub d a b) := by
  intro w r h; injection h with h1 h2; subst h1; subst h2; simp [isXForm]
theorem HeadWord.imul (d a b) : HeadWord.Statement (.imul d a b) := by
  intro w r h; injection h with h1 h2; subst h1; subst h2; simp [isXForm]
theorem HeadWord.imulhI (d a b) : HeadWord.Statement (.imulhI d a b) := by
  intro w r h; injection h with h1 h2; subst h1; subst h2; simp [isXForm]
theorem HeadWord.imulhN (d a b) : HeadWord.Statement (.imulhN d a b) := by
  intro w r h; injection h with h1 h2; subst h1; subst h2; simp [isXForm]
theorem HeadWord.imad (d a b) : HeadWord.Statement (.imad d a b) := by
  intro w r h; injection h with h1 h2; subst h1; subst h2; simp [isXForm]
theorem HeadWord.imulwI (d a b) : HeadWord.Statement (.imulwI d a b) := by
  intro w r h; injection h with h1 h2; subst h1; subst h2; simp [isXForm]
theorem HeadWord.imulwN (d a b) : HeadWord.Statement (.imulwN d a b) := by
  intro w r h; injection h with h1 h2; subst h1; subst h2; simp [isXForm]
theorem HeadWord.idivI (d a b) : HeadWord.Statement (.idivI d a b) := by
  intro w r h; injection h with h1 h2; subst h1; subst h2; simp [isXForm]
theorem HeadWord.idivN (d a b) : HeadWord.Statement (.idivN d a b) := by
  intro w r h; injection h with h1 h2; subst h1; subst h2; simp [isXForm]
theorem HeadWord.iremI (d a b) : HeadWord.Statement (.iremI d a b) := by
  intro w r h; injection h with h1 h2; subst h1; subst h2; simp [isXForm]
theorem HeadWord.iremN (d a b) : HeadWord.Statement (.iremN d a b) := by
  intro w r h; injection h with h1 h2; subst h1; subst h2; simp [isXForm]
theorem HeadWord.iminI (d a b) : HeadWord.Statement (.iminI d a b) := by
  intro w r h; injection h with h1 h2; subst h1; subst h2; simp [isXForm]
theorem HeadWord.iminN (d a b) : HeadWord.Statement (.iminN d a b) := by
  intro w r h; injection h with h1 h2; subst h1; subst h2; simp [isXForm]
theorem HeadWord.imaxI (d a b) : HeadWord.Statement (.imaxI d a b) := by
  intro w r h; injection h with h1 h2; subst h1; subst h2; simp [isXForm]
theorem HeadWord.imaxN (d a b) : HeadWord.Statement (.imaxN d a b) := by
  intro w r h; injection h with h1 h2; subst h1; subst h2; simp [isXForm]
theorem HeadWord.iabs (d a) : HeadWord.Statement (.iabs d a) := by
  intro w r h; injection h with h1 h2; subst h1; subst h2; simp [isXForm]
theorem HeadWord.ineg (d a) : HeadWord.Statement (.ineg d a) := by
  intro w r h; injection h with h1 h2; subst h1; subst h2; simp [isXForm]
theorem HeadWord.iaddsI (d a b) : HeadWord.Statement (.iaddsI d a b) := by
  intro w r h; injection h with h1 h2; subst h1; subst h2; simp [isXForm]
theorem HeadWord.iaddsN (d a b) : HeadWord.Statement (.iaddsN d a b) := by
  intro w r h; injection h with h1 h2; subst h1; subst h2; simp [isXForm]
theorem HeadWord.isubsI (d a b) : HeadWord.Statement (.isubsI d a b) := by
  intro w r h; injection h with h1 h2; subst h1; subst h2; simp [isXForm]
theorem HeadWord.isubsN (d a b) : HeadWord.Statement (.isubsN d a b) := by
  intro w r h; injection h with h1 h2; subst h1; subst h2; simp [isXForm]
theorem HeadWord.iadd64 (d a b) : HeadWord.Statement (.iadd64 d a b) := by
  intro w r h; injection h with h1 h2; subst h1; subst h2; simp [isXForm]
theorem HeadWord.isub64 (d a b) : HeadWord.Statement (.isub64 d a b) := by
  intro w r h; injection h with h1 h2; subst h1; subst h2; simp [isXForm]
theorem HeadWord.ixadd2 (d a b) : HeadWord.Statement (.ixadd2 d a b) := by
  intro w r h; injection h with h1 h2; subst h1; subst h2; simp [isXForm]
theorem HeadWord.ixadd4 (d a b) : HeadWord.Statement (.ixadd4 d a b) := by
  intro w r h; injection h with h1 h2; subst h1; subst h2; simp [isXForm]
theorem HeadWord.ixadd8 (d a b) : HeadWord.Statement (.ixadd8 d a b) := by
  intro w r h; injection h with h1 h2; subst h1; subst h2; simp [isXForm]
theorem HeadWord.ixadd16 (d a b) : HeadWord.Statement (.ixadd16 d a b) := by
  intro w r h; injection h with h1 h2; subst h1; subst h2; simp [isXForm]
theorem HeadWord.ldi (d im) : HeadWord.Statement (.ldi d im) := by
  intro w r h; injection h with h1 h2; subst h1; subst h2; simp [isXForm]
theorem HeadWord.ldw (d lit) : HeadWord.Statement (.ldw d lit) := by
  intro w r h; injection h with h1 h2; subst h1; subst h2; simp [isXForm]
theorem HeadWord.and (d a b) : HeadWord.Statement (.and d a b) := by
  intro w r h; injection h with h1 h2; subst h1; subst h2; simp [isXForm]
theorem HeadWord.andi (d a im) : HeadWord.Statement (.andi d a im) := by
  intro w r h; injection h with h1 h2; subst h1; subst h2; simp [isXForm]
theorem HeadWord.or (d a b) : HeadWord.Statement (.or d a b) := by
  intro w r h; injection h with h1 h2; subst h1; subst h2; simp [isXForm]
theorem HeadWord.ori (d a im) : HeadWord.Statement (.ori d a im) := by
  intro w r h; injection h with h1 h2; subst h1; subst h2; simp [isXForm]
theorem HeadWord.xor (d a b) : HeadWord.Statement (.xor d a b) := by
  intro w r h; injection h with h1 h2; subst h1; subst h2; simp [isXForm]
theorem HeadWord.xori (d a im) : HeadWord.Statement (.xori d a im) := by
  intro w r h; injection h with h1 h2; subst h1; subst h2; simp [isXForm]
theorem HeadWord.andn (d a b) : HeadWord.Statement (.andn d a b) := by
  intro w r h; injection h with h1 h2; subst h1; subst h2; simp [isXForm]
theorem HeadWord.not (d a) : HeadWord.Statement (.not d a) := by
  intro w r h; injection h with h1 h2; subst h1; subst h2; simp [isXForm]
theorem HeadWord.shl (d a b) : HeadWord.Statement (.shl d a b) := by
  intro w r h; injection h with h1 h2; subst h1; subst h2; simp [isXForm]
theorem HeadWord.shli (d a n) : HeadWord.Statement (.shli d a n) := by
  intro w r h; injection h with h1 h2; subst h1; subst h2; simp [isXForm]
theorem HeadWord.shr (d a b) : HeadWord.Statement (.shr d a b) := by
  intro w r h; injection h with h1 h2; subst h1; subst h2; simp [isXForm]
theorem HeadWord.shri (d a n) : HeadWord.Statement (.shri d a n) := by
  intro w r h; injection h with h1 h2; subst h1; subst h2; simp [isXForm]
theorem HeadWord.sar (d a b) : HeadWord.Statement (.sar d a b) := by
  intro w r h; injection h with h1 h2; subst h1; subst h2; simp [isXForm]
theorem HeadWord.sari (d a n) : HeadWord.Statement (.sari d a n) := by
  intro w r h; injection h with h1 h2; subst h1; subst h2; simp [isXForm]
theorem HeadWord.rol (d a b) : HeadWord.Statement (.rol d a b) := by
  intro w r h; injection h with h1 h2; subst h1; subst h2; simp [isXForm]
theorem HeadWord.roli (d a n) : HeadWord.Statement (.roli d a n) := by
  intro w r h; injection h with h1 h2; subst h1; subst h2; simp [isXForm]
theorem HeadWord.bfxI (d a b) : HeadWord.Statement (.bfxI d a b) := by
  intro w r h; injection h with h1 h2; subst h1; subst h2; simp [isXForm]
theorem HeadWord.bfxN (d a b) : HeadWord.Statement (.bfxN d a b) := by
  intro w r h; injection h with h1 h2; subst h1; subst h2; simp [isXForm]
theorem HeadWord.bfi (d a b) : HeadWord.Statement (.bfi d a b) := by
  intro w r h; injection h with h1 h2; subst h1; subst h2; simp [isXForm]
theorem HeadWord.popc (d a) : HeadWord.Statement (.popc d a) := by
  intro w r h; injection h with h1 h2; subst h1; subst h2; simp [isXForm]
theorem HeadWord.clz (d a) : HeadWord.Statement (.clz d a) := by
  intro w r h; injection h with h1 h2; subst h1; subst h2; simp [isXForm]
theorem HeadWord.ctz (d a) : HeadWord.Statement (.ctz d a) := by
  intro w r h; injection h with h1 h2; subst h1; subst h2; simp [isXForm]
theorem HeadWord.brev (d a) : HeadWord.Statement (.brev d a) := by
  intro w r h; injection h with h1 h2; subst h1; subst h2; simp [isXForm]
theorem HeadWord.permb (d a b) : HeadWord.Statement (.permb d a b) := by
  intro w r h; injection h with h1 h2; subst h1; subst h2; simp [isXForm]
theorem HeadWord.icmpEq (d a b) : HeadWord.Statement (.icmpEq d a b) := by
  intro w r h; injection h with h1 h2; subst h1; subst h2; simp [isXForm]
theorem HeadWord.icmpNe (d a b) : HeadWord.Statement (.icmpNe d a b) := by
  intro w r h; injection h with h1 h2; subst h1; subst h2; simp [isXForm]
theorem HeadWord.icmpLtI (d a b) : HeadWord.Statement (.icmpLtI d a b) := by
  intro w r h; injection h with h1 h2; subst h1; subst h2; simp [isXForm]
theorem HeadWord.icmpLeI (d a b) : HeadWord.Statement (.icmpLeI d a b) := by
  intro w r h; injection h with h1 h2; subst h1; subst h2; simp [isXForm]
theorem HeadWord.icmpGtI (d a b) : HeadWord.Statement (.icmpGtI d a b) := by
  intro w r h; injection h with h1 h2; subst h1; subst h2; simp [isXForm]
theorem HeadWord.icmpGeI (d a b) : HeadWord.Statement (.icmpGeI d a b) := by
  intro w r h; injection h with h1 h2; subst h1; subst h2; simp [isXForm]
theorem HeadWord.icmpLtN (d a b) : HeadWord.Statement (.icmpLtN d a b) := by
  intro w r h; injection h with h1 h2; subst h1; subst h2; simp [isXForm]
theorem HeadWord.icmpLeN (d a b) : HeadWord.Statement (.icmpLeN d a b) := by
  intro w r h; injection h with h1 h2; subst h1; subst h2; simp [isXForm]
theorem HeadWord.icmpGtN (d a b) : HeadWord.Statement (.icmpGtN d a b) := by
  intro w r h; injection h with h1 h2; subst h1; subst h2; simp [isXForm]
theorem HeadWord.icmpGeN (d a b) : HeadWord.Statement (.icmpGeN d a b) := by
  intro w r h; injection h with h1 h2; subst h1; subst h2; simp [isXForm]
theorem HeadWord.fcmpEq (d a b) : HeadWord.Statement (.fcmpEq d a b) := by
  intro w r h; injection h with h1 h2; subst h1; subst h2; simp [isXForm]
theorem HeadWord.fcmpNe (d a b) : HeadWord.Statement (.fcmpNe d a b) := by
  intro w r h; injection h with h1 h2; subst h1; subst h2; simp [isXForm]
theorem HeadWord.fcmpLt (d a b) : HeadWord.Statement (.fcmpLt d a b) := by
  intro w r h; injection h with h1 h2; subst h1; subst h2; simp [isXForm]
theorem HeadWord.fcmpLe (d a b) : HeadWord.Statement (.fcmpLe d a b) := by
  intro w r h; injection h with h1 h2; subst h1; subst h2; simp [isXForm]
theorem HeadWord.fcmpGt (d a b) : HeadWord.Statement (.fcmpGt d a b) := by
  intro w r h; injection h with h1 h2; subst h1; subst h2; simp [isXForm]
theorem HeadWord.fcmpGe (d a b) : HeadWord.Statement (.fcmpGe d a b) := by
  intro w r h; injection h with h1 h2; subst h1; subst h2; simp [isXForm]
theorem HeadWord.fcmpUn (d a b) : HeadWord.Statement (.fcmpUn d a b) := by
  intro w r h; injection h with h1 h2; subst h1; subst h2; simp [isXForm]
theorem HeadWord.dcmpEq (d a b) : HeadWord.Statement (.dcmpEq d a b) := by
  intro w r h; injection h with h1 h2; subst h1; subst h2; simp [isXForm]
theorem HeadWord.dcmpLt (d a b) : HeadWord.Statement (.dcmpLt d a b) := by
  intro w r h; injection h with h1 h2; subst h1; subst h2; simp [isXForm]
theorem HeadWord.dcmpLe (d a b) : HeadWord.Statement (.dcmpLe d a b) := by
  intro w r h; injection h with h1 h2; subst h1; subst h2; simp [isXForm]
theorem HeadWord.dcmpUn (d a b) : HeadWord.Statement (.dcmpUn d a b) := by
  intro w r h; injection h with h1 h2; subst h1; subst h2; simp [isXForm]
theorem HeadWord.pand (d a b) : HeadWord.Statement (.pand d a b) := by
  intro w r h; injection h with h1 h2; subst h1; subst h2; simp [isXForm]
theorem HeadWord.por (d a b) : HeadWord.Statement (.por d a b) := by
  intro w r h; injection h with h1 h2; subst h1; subst h2; simp [isXForm]
theorem HeadWord.pxor (d a b) : HeadWord.Statement (.pxor d a b) := by
  intro w r h; injection h with h1 h2; subst h1; subst h2; simp [isXForm]
theorem HeadWord.pandn (d a b) : HeadWord.Statement (.pandn d a b) := by
  intro w r h; injection h with h1 h2; subst h1; subst h2; simp [isXForm]
theorem HeadWord.pnot (d a) : HeadWord.Statement (.pnot d a) := by
  intro w r h; injection h with h1 h2; subst h1; subst h2; simp [isXForm]
theorem HeadWord.pmov (d a) : HeadWord.Statement (.pmov d a) := by
  intro w r h; injection h with h1 h2; subst h1; subst h2; simp [isXForm]
theorem HeadWord.pset (d v) : HeadWord.Statement (.pset d v) := by
  intro w r h; injection h with h1 h2; subst h1; subst h2; simp [isXForm]
theorem HeadWord.ptod (d a) : HeadWord.Statement (.ptod d a) := by
  intro w r h; injection h with h1 h2; subst h1; subst h2; simp [isXForm]
theorem HeadWord.dtop (d a) : HeadWord.Statement (.dtop d a) := by
  intro w r h; injection h with h1 h2; subst h1; subst h2; simp [isXForm]
theorem HeadWord.mov (d a) : HeadWord.Statement (.mov d a) := by
  intro w r h; injection h with h1 h2; subst h1; subst h2; simp [isXForm]
theorem HeadWord.cmov (d a b) : HeadWord.Statement (.cmov d a b) := by
  intro w r h; injection h with h1 h2; subst h1; subst h2; simp [isXForm]
theorem HeadWord.tag (d a t) : HeadWord.Statement (.tag d a t) := by
  intro w r h; injection h with h1 h2; subst h1; subst h2; simp [isXForm]
theorem HeadWord.tagq (d a) : HeadWord.Statement (.tagq d a) := by
  intro w r h; injection h with h1 h2; subst h1; subst h2; simp [isXForm]
theorem HeadWord.win (im) : HeadWord.Statement (.win im) := by
  intro w r h; injection h with h1 h2; subst h1; subst h2; simp [isXForm]
theorem HeadWord.winq (d) : HeadWord.Statement (.winq d) := by
  intro w r h; injection h with h1 h2; subst h1; subst h2; simp [isXForm]
theorem HeadWord.movs (d sel) : HeadWord.Statement (.movs d sel) := by
  intro w r h; injection h with h1 h2; subst h1; subst h2; simp [isXForm]
theorem HeadWord.sext8 (d a) : HeadWord.Statement (.sext8 d a) := by
  intro w r h; injection h with h1 h2; subst h1; subst h2; simp [isXForm]
theorem HeadWord.sext16 (d a) : HeadWord.Statement (.sext16 d a) := by
  intro w r h; injection h with h1 h2; subst h1; subst h2; simp [isXForm]
theorem HeadWord.zext8 (d a) : HeadWord.Statement (.zext8 d a) := by
  intro w r h; injection h with h1 h2; subst h1; subst h2; simp [isXForm]
theorem HeadWord.zext16 (d a) : HeadWord.Statement (.zext16 d a) := by
  intro w r h; injection h with h1 h2; subst h1; subst h2; simp [isXForm]
theorem HeadWord.mov64 (d a) : HeadWord.Statement (.mov64 d a) := by
  intro w r h; injection h with h1 h2; subst h1; subst h2; simp [isXForm]
theorem HeadWord.bra (im) : HeadWord.Statement (.bra im) := by
  intro w r h; injection h with h1 h2; subst h1; subst h2; simp [isXForm]
theorem HeadWord.brp (d im) : HeadWord.Statement (.brp d im) := by
  intro w r h; injection h with h1 h2; subst h1; subst h2; simp [isXForm]
theorem HeadWord.brn (d im) : HeadWord.Statement (.brn d im) := by
  intro w r h; injection h with h1 h2; subst h1; subst h2; simp [isXForm]
theorem HeadWord.jmp (a) : HeadWord.Statement (.jmp a) := by
  intro w r h; injection h with h1 h2; subst h1; subst h2; simp [isXForm]
theorem HeadWord.call (d im) : HeadWord.Statement (.call d im) := by
  intro w r h; injection h with h1 h2; subst h1; subst h2; simp [isXForm]
theorem HeadWord.callr (d a) : HeadWord.Statement (.callr d a) := by
  intro w r h; injection h with h1 h2; subst h1; subst h2; simp [isXForm]
theorem HeadWord.ret (a) : HeadWord.Statement (.ret a) := by
  intro w r h; injection h with h1 h2; subst h1; subst h2; simp [isXForm]
theorem HeadWord.trap (im) : HeadWord.Statement (.trap im) := by
  intro w r h; injection h with h1 h2; subst h1; subst h2; simp [isXForm]
theorem HeadWord.tret (m) : HeadWord.Statement (.tret m) := by
  intro w r h; injection h with h1 h2; subst h1; subst h2; simp [isXForm]
theorem HeadWord.tkill (m) : HeadWord.Statement (.tkill m) := by
  intro w r h; injection h with h1 h2; subst h1; subst h2; simp [isXForm]
theorem HeadWord.waitf (im) : HeadWord.Statement (.waitf im) := by
  intro w r h; injection h with h1 h2; subst h1; subst h2; simp [isXForm]
theorem HeadWord.fadd (rm d a b) : HeadWord.Statement (.fadd rm d a b) := by
  intro w r h; injection h with h1 h2; subst h1; subst h2; cases rm <;> simp [isXForm, modeBits]
theorem HeadWord.fsub (rm d a b) : HeadWord.Statement (.fsub rm d a b) := by
  intro w r h; injection h with h1 h2; subst h1; subst h2; cases rm <;> simp [isXForm, modeBits]
theorem HeadWord.fmul (rm d a b) : HeadWord.Statement (.fmul rm d a b) := by
  intro w r h; injection h with h1 h2; subst h1; subst h2; cases rm <;> simp [isXForm, modeBits]
theorem HeadWord.ffma (rm d a b) : HeadWord.Statement (.ffma rm d a b) := by
  intro w r h; injection h with h1 h2; subst h1; subst h2; cases rm <;> simp [isXForm, modeBits]
theorem HeadWord.fmin (d a b) : HeadWord.Statement (.fmin d a b) := by
  intro w r h; injection h with h1 h2; subst h1; subst h2; simp [isXForm]
theorem HeadWord.fmax (d a b) : HeadWord.Statement (.fmax d a b) := by
  intro w r h; injection h with h1 h2; subst h1; subst h2; simp [isXForm]
theorem HeadWord.fabs (d a) : HeadWord.Statement (.fabs d a) := by
  intro w r h; injection h with h1 h2; subst h1; subst h2; simp [isXForm]
theorem HeadWord.fneg (d a) : HeadWord.Statement (.fneg d a) := by
  intro w r h; injection h with h1 h2; subst h1; subst h2; simp [isXForm]
theorem HeadWord.frnd (rm d a) : HeadWord.Statement (.frnd rm d a) := by
  intro w r h; injection h with h1 h2; subst h1; subst h2; cases rm <;> simp [isXForm, modeBits]
theorem HeadWord.fcvtI32F32 (d a) : HeadWord.Statement (.fcvtI32F32 d a) := by
  intro w r h; injection h with h1 h2; subst h1; subst h2; simp [isXForm]
theorem HeadWord.fcvtN32F32 (d a) : HeadWord.Statement (.fcvtN32F32 d a) := by
  intro w r h; injection h with h1 h2; subst h1; subst h2; simp [isXForm]
theorem HeadWord.fcvtF32I32 (d a) : HeadWord.Statement (.fcvtF32I32 d a) := by
  intro w r h; injection h with h1 h2; subst h1; subst h2; simp [isXForm]
theorem HeadWord.fcvtF32N32 (d a) : HeadWord.Statement (.fcvtF32N32 d a) := by
  intro w r h; injection h with h1 h2; subst h1; subst h2; simp [isXForm]
theorem HeadWord.fcvtF16F32 (d a) : HeadWord.Statement (.fcvtF16F32 d a) := by
  intro w r h; injection h with h1 h2; subst h1; subst h2; simp [isXForm]
theorem HeadWord.fcvtF32F16 (d a) : HeadWord.Statement (.fcvtF32F16 d a) := by
  intro w r h; injection h with h1 h2; subst h1; subst h2; simp [isXForm]
theorem HeadWord.fcvtBf16F32 (d a) : HeadWord.Statement (.fcvtBf16F32 d a) := by
  intro w r h; injection h with h1 h2; subst h1; subst h2; simp [isXForm]
theorem HeadWord.fcvtF32Bf16 (d a) : HeadWord.Statement (.fcvtF32Bf16 d a) := by
  intro w r h; injection h with h1 h2; subst h1; subst h2; simp [isXForm]
theorem HeadWord.fcvtF64F32 (d a) : HeadWord.Statement (.fcvtF64F32 d a) := by
  intro w r h; injection h with h1 h2; subst h1; subst h2; simp [isXForm]
theorem HeadWord.fcvtF32F64 (d a) : HeadWord.Statement (.fcvtF32F64 d a) := by
  intro w r h; injection h with h1 h2; subst h1; subst h2; simp [isXForm]
theorem HeadWord.dadd (d a b) : HeadWord.Statement (.dadd d a b) := by
  intro w r h; injection h with h1 h2; subst h1; subst h2; simp [isXForm]
theorem HeadWord.dsub (d a b) : HeadWord.Statement (.dsub d a b) := by
  intro w r h; injection h with h1 h2; subst h1; subst h2; simp [isXForm]
theorem HeadWord.dmul (d a b) : HeadWord.Statement (.dmul d a b) := by
  intro w r h; injection h with h1 h2; subst h1; subst h2; simp [isXForm]
theorem HeadWord.dfma (d a b) : HeadWord.Statement (.dfma d a b) := by
  intro w r h; injection h with h1 h2; subst h1; subst h2; simp [isXForm]
theorem HeadWord.dmin (d a b) : HeadWord.Statement (.dmin d a b) := by
  intro w r h; injection h with h1 h2; subst h1; subst h2; simp [isXForm]
theorem HeadWord.dmax (d a b) : HeadWord.Statement (.dmax d a b) := by
  intro w r h; injection h with h1 h2; subst h1; subst h2; simp [isXForm]
theorem HeadWord.hadd2F16 (d a b) : HeadWord.Statement (.hadd2F16 d a b) := by
  intro w r h; injection h with h1 h2; subst h1; subst h2; simp [isXForm]
theorem HeadWord.hadd2Bf16 (d a b) : HeadWord.Statement (.hadd2Bf16 d a b) := by
  intro w r h; injection h with h1 h2; subst h1; subst h2; simp [isXForm]
theorem HeadWord.hmul2F16 (d a b) : HeadWord.Statement (.hmul2F16 d a b) := by
  intro w r h; injection h with h1 h2; subst h1; subst h2; simp [isXForm]
theorem HeadWord.hmul2Bf16 (d a b) : HeadWord.Statement (.hmul2Bf16 d a b) := by
  intro w r h; injection h with h1 h2; subst h1; subst h2; simp [isXForm]
theorem HeadWord.hfma2F16 (d a b) : HeadWord.Statement (.hfma2F16 d a b) := by
  intro w r h; injection h with h1 h2; subst h1; subst h2; simp [isXForm]
theorem HeadWord.hfma2Bf16 (d a b) : HeadWord.Statement (.hfma2Bf16 d a b) := by
  intro w r h; injection h with h1 h2; subst h1; subst h2; simp [isXForm]
theorem HeadWord.pkhF16 (d a b) : HeadWord.Statement (.pkhF16 d a b) := by
  intro w r h; injection h with h1 h2; subst h1; subst h2; simp [isXForm]
theorem HeadWord.pkhBf16 (d a b) : HeadWord.Statement (.pkhBf16 d a b) := by
  intro w r h; injection h with h1 h2; subst h1; subst h2; simp [isXForm]
theorem HeadWord.unpkhF16Lo (d a) : HeadWord.Statement (.unpkhF16Lo d a) := by
  intro w r h; injection h with h1 h2; subst h1; subst h2; simp [isXForm]
theorem HeadWord.unpkhF16Hi (d a) : HeadWord.Statement (.unpkhF16Hi d a) := by
  intro w r h; injection h with h1 h2; subst h1; subst h2; simp [isXForm]
theorem HeadWord.unpkhBf16Lo (d a) : HeadWord.Statement (.unpkhBf16Lo d a) := by
  intro w r h; injection h with h1 h2; subst h1; subst h2; simp [isXForm]
theorem HeadWord.unpkhBf16Hi (d a) : HeadWord.Statement (.unpkhBf16Hi d a) := by
  intro w r h; injection h with h1 h2; subst h1; subst h2; simp [isXForm]
theorem HeadWord.idp4I8 (d a b) : HeadWord.Statement (.idp4I8 d a b) := by
  intro w r h; injection h with h1 h2; subst h1; subst h2; simp [isXForm]
theorem HeadWord.idp4N8 (d a b) : HeadWord.Statement (.idp4N8 d a b) := by
  intro w r h; injection h with h1 h2; subst h1; subst h2; simp [isXForm]
theorem HeadWord.idp2I16 (d a b) : HeadWord.Statement (.idp2I16 d a b) := by
  intro w r h; injection h with h1 h2; subst h1; subst h2; simp [isXForm]
theorem HeadWord.ncvtRn (d a k sl) : HeadWord.Statement (.ncvtRn d a k sl) := by
  intro w r h; injection h with h1 h2; subst h1; subst h2; simp [isXForm]
theorem HeadWord.ncvtRz (d a k sl) : HeadWord.Statement (.ncvtRz d a k sl) := by
  intro w r h; injection h with h1 h2; subst h1; subst h2; simp [isXForm]
theorem HeadWord.nunp (d a k sl) : HeadWord.Statement (.nunp d a k sl) := by
  intro w r h; injection h with h1 h2; subst h1; subst h2; simp [isXForm]
theorem HeadWord.nscl (d a b) : HeadWord.Statement (.nscl d a b) := by
  intro w r h; injection h with h1 h2; subst h1; subst h2; simp [isXForm]
theorem HeadWord.scx (d a im) : HeadWord.Statement (.scx d a im) := by
  intro w r h; injection h with h1 h2; subst h1; subst h2; simp [isXForm]
theorem HeadWord.lncv (fb d a) : HeadWord.Statement (.lncv fb d a) := by
  intro w r h; injection h with h1 h2; subst h1; subst h2; cases fb <;> simp [isXForm]
theorem HeadWord.lnbk (fb d a) : HeadWord.Statement (.lnbk fb d a) := by
  intro w r h; injection h with h1 h2; subst h1; subst h2; cases fb <;> simp [isXForm]
theorem HeadWord.lexp (fb d a) : HeadWord.Statement (.lexp fb d a) := by
  intro w r h; injection h with h1 h2; subst h1; subst h2; cases fb <;> simp [isXForm]
theorem HeadWord.llog (fb d a) : HeadWord.Statement (.llog fb d a) := by
  intro w r h; injection h with h1 h2; subst h1; subst h2; cases fb <;> simp [isXForm]
theorem HeadWord.lmul (fb d a b) : HeadWord.Statement (.lmul fb d a b) := by
  intro w r h; injection h with h1 h2; subst h1; subst h2; cases fb <;> simp [isXForm]
theorem HeadWord.ldiv (fb d a b) : HeadWord.Statement (.ldiv fb d a b) := by
  intro w r h; injection h with h1 h2; subst h1; subst h2; cases fb <;> simp [isXForm]
theorem HeadWord.lsqr (fb d a) : HeadWord.Statement (.lsqr fb d a) := by
  intro w r h; injection h with h1 h2; subst h1; subst h2; cases fb <;> simp [isXForm]
theorem HeadWord.lpow (fb d a b) : HeadWord.Statement (.lpow fb d a b) := by
  intro w r h; injection h with h1 h2; subst h1; subst h2; cases fb <;> simp [isXForm]
theorem HeadWord.ladd (fb d a b) : HeadWord.Statement (.ladd fb d a b) := by
  intro w r h; injection h with h1 h2; subst h1; subst h2; cases fb <;> simp [isXForm]
theorem HeadWord.lsub (fb d a b) : HeadWord.Statement (.lsub fb d a b) := by
  intro w r h; injection h with h1 h2; subst h1; subst h2; cases fb <;> simp [isXForm]
theorem HeadWord.fdiv (fb d a b) : HeadWord.Statement (.fdiv fb d a b) := by
  intro w r h; injection h with h1 h2; subst h1; subst h2; cases fb <;> simp [isXForm]
theorem HeadWord.fsqrt (fb d a) : HeadWord.Statement (.fsqrt fb d a) := by
  intro w r h; injection h with h1 h2; subst h1; subst h2; cases fb <;> simp [isXForm]
theorem HeadWord.ddiv (fb d a b) : HeadWord.Statement (.ddiv fb d a b) := by
  intro w r h; injection h with h1 h2; subst h1; subst h2; cases fb <;> simp [isXForm]
theorem HeadWord.dsqrt (fb d a) : HeadWord.Statement (.dsqrt fb d a) := by
  intro w r h; injection h with h1 h2; subst h1; subst h2; cases fb <;> simp [isXForm]
theorem HeadWord.xshf (fb d a b) : HeadWord.Statement (.xshf fb d a b) := by
  intro w r h; injection h with h1 h2; subst h1; subst h2; cases fb <;> simp [isXForm]
theorem HeadWord.xbfly (fb d a im) : HeadWord.Statement (.xbfly fb d a im) := by
  intro w r h; injection h with h1 h2; subst h1; subst h2; cases fb <;> simp [isXForm]
theorem HeadWord.xbcst (fb d a im) : HeadWord.Statement (.xbcst fb d a im) := by
  intro w r h; injection h with h1 h2; subst h1; subst h2; cases fb <;> simp [isXForm]
theorem HeadWord.xvoteAny (fb d a) : HeadWord.Statement (.xvoteAny fb d a) := by
  intro w r h; injection h with h1 h2; subst h1; subst h2; cases fb <;> simp [isXForm]
theorem HeadWord.xvoteAll (fb d a) : HeadWord.Statement (.xvoteAll fb d a) := by
  intro w r h; injection h with h1 h2; subst h1; subst h2; cases fb <;> simp [isXForm]
theorem HeadWord.xballot (fb d a) : HeadWord.Statement (.xballot fb d a) := by
  intro w r h; injection h with h1 h2; subst h1; subst h2; cases fb <;> simp [isXForm]
theorem HeadWord.xredAddI32 (fb d a) : HeadWord.Statement (.xredAddI32 fb d a) := by
  intro w r h; injection h with h1 h2; subst h1; subst h2; cases fb <;> simp [isXForm]
theorem HeadWord.xredAddF32 (fb d a) : HeadWord.Statement (.xredAddF32 fb d a) := by
  intro w r h; injection h with h1 h2; subst h1; subst h2; cases fb <;> simp [isXForm]
theorem HeadWord.xredMinI (fb d a) : HeadWord.Statement (.xredMinI fb d a) := by
  intro w r h; injection h with h1 h2; subst h1; subst h2; cases fb <;> simp [isXForm]
theorem HeadWord.xredMaxI (fb d a) : HeadWord.Statement (.xredMaxI fb d a) := by
  intro w r h; injection h with h1 h2; subst h1; subst h2; cases fb <;> simp [isXForm]
theorem HeadWord.xscanAddI32 (fb d a) : HeadWord.Statement (.xscanAddI32 fb d a) := by
  intro w r h; injection h with h1 h2; subst h1; subst h2; cases fb <;> simp [isXForm]
theorem HeadWord.xscanAddF32 (fb d a) : HeadWord.Statement (.xscanAddF32 fb d a) := by
  intro w r h; injection h with h1 h2; subst h1; subst h2; cases fb <;> simp [isXForm]
theorem HeadWord.xmatch (fb d a) : HeadWord.Statement (.xmatch fb d a) := by
  intro w r h; injection h with h1 h2; subst h1; subst h2; cases fb <;> simp [isXForm]
theorem HeadWord.bwait (fb a im) : HeadWord.Statement (.bwait fb a im) := by
  intro w r h; injection h with h1 h2; subst h1; subst h2; cases fb <;> simp [isXForm]
theorem HeadWord.barv (a im) : HeadWord.Statement (.barv a im) := by
  intro w r h; injection h with h1 h2; subst h1; subst h2; simp [isXForm]
theorem HeadWord.bqryBarrier (d im) : HeadWord.Statement (.bqryBarrier d im) := by
  intro w r h; injection h with h1 h2; subst h1; subst h2; simp [isXForm]
theorem HeadWord.gbar (fb a im) : HeadWord.Statement (.gbar fb a im) := by
  intro w r h; injection h with h1 h2; subst h1; subst h2; cases fb <;> simp [isXForm]
theorem HeadWord.gbarv (a im) : HeadWord.Statement (.gbarv a im) := by
  intro w r h; injection h with h1 h2; subst h1; subst h2; simp [isXForm]
theorem HeadWord.ld (fb d sl b) : HeadWord.Statement (.ld fb d sl b) := by
  intro w r h; injection h with h1 h2; subst h1; subst h2; cases fb <;> simp [isXForm]
theorem HeadWord.ld2 (fb d sl b) : HeadWord.Statement (.ld2 fb d sl b) := by
  intro w r h; injection h with h1 h2; subst h1; subst h2; cases fb <;> simp [isXForm]
theorem HeadWord.ld4 (fb d sl b) : HeadWord.Statement (.ld4 fb d sl b) := by
  intro w r h; injection h with h1 h2; subst h1; subst h2; cases fb <;> simp [isXForm]
theorem HeadWord.st (fb d sl b) : HeadWord.Statement (.st fb d sl b) := by
  intro w r h; injection h with h1 h2; subst h1; subst h2; cases fb <;> simp [isXForm]
theorem HeadWord.st2 (fb d sl b) : HeadWord.Statement (.st2 fb d sl b) := by
  intro w r h; injection h with h1 h2; subst h1; subst h2; cases fb <;> simp [isXForm]
theorem HeadWord.st4 (fb d sl b) : HeadWord.Statement (.st4 fb d sl b) := by
  intro w r h; injection h with h1 h2; subst h1; subst h2; cases fb <;> simp [isXForm]
theorem HeadWord.lda (fb d sl b lit) : HeadWord.Statement (.lda fb d sl b lit) := by
  intro w r h; injection h with h1 h2; subst h1; subst h2; cases fb <;> simp [isXForm]
theorem HeadWord.stl (fb d sl b lit) : HeadWord.Statement (.stl fb d sl b lit) := by
  intro w r h; injection h with h1 h2; subst h1; subst h2; cases fb <;> simp [isXForm]
theorem HeadWord.bload (fb sl a) : HeadWord.Statement (.bload fb sl a) := by
  intro w r h; injection h with h1 h2; subst h1; subst h2; cases fb <;> simp [isXForm]
theorem HeadWord.bqrySlot (d sl im) : HeadWord.Statement (.bqrySlot d sl im) := by
  intro w r h; injection h with h1 h2; subst h1; subst h2; simp [isXForm]
theorem HeadWord.lload (fb sl a) : HeadWord.Statement (.lload fb sl a) := by
  intro w r h; injection h with h1 h2; subst h1; subst h2; cases fb <;> simp [isXForm]
theorem HeadWord.aaddI32 (fb d sl b) : HeadWord.Statement (.aaddI32 fb d sl b) := by
  intro w r h; injection h with h1 h2; subst h1; subst h2; cases fb <;> simp [isXForm]
theorem HeadWord.aaddF32 (fb d sl b) : HeadWord.Statement (.aaddF32 fb d sl b) := by
  intro w r h; injection h with h1 h2; subst h1; subst h2; cases fb <;> simp [isXForm]
theorem HeadWord.aminI (fb d sl b) : HeadWord.Statement (.aminI fb d sl b) := by
  intro w r h; injection h with h1 h2; subst h1; subst h2; cases fb <;> simp [isXForm]
theorem HeadWord.aminN (fb d sl b) : HeadWord.Statement (.aminN fb d sl b) := by
  intro w r h; injection h with h1 h2; subst h1; subst h2; cases fb <;> simp [isXForm]
theorem HeadWord.amaxI (fb d sl b) : HeadWord.Statement (.amaxI fb d sl b) := by
  intro w r h; injection h with h1 h2; subst h1; subst h2; cases fb <;> simp [isXForm]
theorem HeadWord.amaxN (fb d sl b) : HeadWord.Statement (.amaxN fb d sl b) := by
  intro w r h; injection h with h1 h2; subst h1; subst h2; cases fb <;> simp [isXForm]
theorem HeadWord.aand (fb d sl b) : HeadWord.Statement (.aand fb d sl b) := by
  intro w r h; injection h with h1 h2; subst h1; subst h2; cases fb <;> simp [isXForm]
theorem HeadWord.aor (fb d sl b) : HeadWord.Statement (.aor fb d sl b) := by
  intro w r h; injection h with h1 h2; subst h1; subst h2; cases fb <;> simp [isXForm]
theorem HeadWord.axor (fb d sl b) : HeadWord.Statement (.axor fb d sl b) := by
  intro w r h; injection h with h1 h2; subst h1; subst h2; cases fb <;> simp [isXForm]
theorem HeadWord.axchg (fb d sl b) : HeadWord.Statement (.axchg fb d sl b) := by
  intro w r h; injection h with h1 h2; subst h1; subst h2; cases fb <;> simp [isXForm]
theorem HeadWord.acas (fb d sl b) : HeadWord.Statement (.acas fb d sl b) := by
  intro w r h; injection h with h1 h2; subst h1; subst h2; cases fb <;> simp [isXForm]
theorem HeadWord.ainc (fb d sl b) : HeadWord.Statement (.ainc fb d sl b) := by
  intro w r h; injection h with h1 h2; subst h1; subst h2; cases fb <;> simp [isXForm]
theorem HeadWord.aadd64 (fb d sl b) : HeadWord.Statement (.aadd64 fb d sl b) := by
  intro w r h; injection h with h1 h2; subst h1; subst h2; cases fb <;> simp [isXForm]
theorem HeadWord.acas64 (fb d sl b) : HeadWord.Statement (.acas64 fb d sl b) := by
  intro w r h; injection h with h1 h2; subst h1; subst h2; cases fb <;> simp [isXForm]
theorem HeadWord.fence (k sc) : HeadWord.Statement (.fence k sc) := by
  intro w r h; injection h with h1 h2; subst h1; subst h2; simp [isXForm]
theorem HeadWord.mminit (fb t a) : HeadWord.Statement (.mminit fb t a) := by
  intro w r h; injection h with h1 h2; subst h1; subst h2; cases fb <;> simp [isXForm]
theorem HeadWord.mmloop (fb t a b lit) : HeadWord.Statement (.mmloop fb t a b lit) := by
  intro w r h; injection h with h1 h2; subst h1; subst h2; cases fb <;> simp [isXForm]
theorem HeadWord.mmnorm (fb t a) : HeadWord.Statement (.mmnorm fb t a) := by
  intro w r h; injection h with h1 h2; subst h1; subst h2; cases fb <;> simp [isXForm]
theorem HeadWord.mmdrain (fb t m) : HeadWord.Statement (.mmdrain fb t m) := by
  intro w r h; injection h with h1 h2; subst h1; subst h2; cases fb <;> simp [isXForm]
theorem HeadWord.mmq (d t im) : HeadWord.Statement (.mmq d t im) := by
  intro w r h; injection h with h1 h2; subst h1; subst h2; simp [isXForm]
theorem HeadWord.cpt (fb l a b lit) : HeadWord.Statement (.cpt fb l a b lit) := by
  intro w r h; injection h with h1 h2; subst h1; subst h2; cases fb <;> simp [isXForm]
theorem HeadWord.cps (fb sl a b lit) : HeadWord.Statement (.cps fb sl a b lit) := by
  intro w r h; injection h with h1 h2; subst h1; subst h2; cases fb <;> simp [isXForm]
theorem HeadWord.tmov (fb d a b lit) : HeadWord.Statement (.tmov fb d a b lit) := by
  intro w r h; injection h with h1 h2; subst h1; subst h2; cases fb <;> simp [isXForm]
theorem HeadWord.hset (h a b) : HeadWord.Statement (.hset h a b) := by
  intro w r h; injection h with h1 h2; subst h1; subst h2; simp [isXForm]
theorem HeadWord.hwait (fb d h m) : HeadWord.Statement (.hwait fb d h m) := by
  intro w r h; injection h with h1 h2; subst h1; subst h2; cases fb <;> simp [isXForm]
theorem HeadWord.hrel (h b) : HeadWord.Statement (.hrel h b) := by
  intro w r h; injection h with h1 h2; subst h1; subst h2; simp [isXForm]
theorem HeadWord.hq (d h im) : HeadWord.Statement (.hq d h im) := by
  intro w r h; injection h with h1 h2; subst h1; subst h2; simp [isXForm]
theorem HeadWord.jobs (fb) : HeadWord.Statement (.jobs fb) := by
  intro w r h; injection h with h1 h2; subst h1; subst h2; cases fb <;> simp [isXForm]
theorem HeadWord.sst (fb d sl b) : HeadWord.Statement (.sst fb d sl b) := by
  intro w r h; injection h with h1 h2; subst h1; subst h2; cases fb <;> simp [isXForm]
theorem HeadWord.satmAdd (fb d sl b) : HeadWord.Statement (.satmAdd fb d sl b) := by
  intro w r h; injection h with h1 h2; subst h1; subst h2; cases fb <;> simp [isXForm]
theorem HeadWord.satmXchg (fb d sl b) : HeadWord.Statement (.satmXchg fb d sl b) := by
  intro w r h; injection h with h1 h2; subst h1; subst h2; cases fb <;> simp [isXForm]
theorem HeadWord.satmCas (fb d sl b) : HeadWord.Statement (.satmCas fb d sl b) := by
  intro w r h; injection h with h1 h2; subst h1; subst h2; cases fb <;> simp [isXForm]
theorem HeadWord.rsync (fb d) : HeadWord.Statement (.rsync fb d) := by
  intro w r h; injection h with h1 h2; subst h1; subst h2; cases fb <;> simp [isXForm]
theorem HeadWord.rstamp (fb d sl b) : HeadWord.Statement (.rstamp fb d sl b) := by
  intro w r h; injection h with h1 h2; subst h1; subst h2; cases fb <;> simp [isXForm]
theorem HeadWord.gsig (fb a b) : HeadWord.Statement (.gsig fb a b) := by
  intro w r h; injection h with h1 h2; subst h1; subst h2; cases fb <;> simp [isXForm]
theorem HeadWord.gwait (fb d a b) : HeadWord.Statement (.gwait fb d a b) := by
  intro w r h; injection h with h1 h2; subst h1; subst h2; cases fb <;> simp [isXForm]
theorem HeadWord.grd (fb d a) : HeadWord.Statement (.grd fb d a) := by
  intro w r h; injection h with h1 h2; subst h1; subst h2; cases fb <;> simp [isXForm]
theorem HeadWord.coll (fb) : HeadWord.Statement (.coll fb) := by
  intro w r h; injection h with h1 h2; subst h1; subst h2; cases fb <;> simp [isXForm]
theorem HeadWord.a2at (fb d a b lit) : HeadWord.Statement (.a2at fb d a b lit) := by
  intro w r h; injection h with h1 h2; subst h1; subst h2; cases fb <;> simp [isXForm]
theorem HeadWord.mcst (fb d sl o) : HeadWord.Statement (.mcst fb d sl o) := by
  intro w r h; injection h with h1 h2; subst h1; subst h2; cases fb <;> simp [isXForm]
theorem HeadWord.launch (d a b) : HeadWord.Statement (.launch d a b) := by
  intro w r h; injection h with h1 h2; subst h1; subst h2; simp [isXForm]
theorem HeadWord.trig (a) : HeadWord.Statement (.trig a) := by
  intro w r h; injection h with h1 h2; subst h1; subst h2; simp [isXForm]
theorem HeadWord.capq (d a) : HeadWord.Statement (.capq d a) := by
  intro w r h; injection h with h1 h2; subst h1; subst h2; simp [isXForm]
theorem HeadWord.clk (d a) : HeadWord.Statement (.clk d a) := by
  intro w r h; injection h with h1 h2; subst h1; subst h2; simp [isXForm]
theorem HeadWord.elog (a b) : HeadWord.Statement (.elog a b) := by
  intro w r h; injection h with h1 h2; subst h1; subst h2; simp [isXForm]
theorem HeadWord.ulog (d a b) : HeadWord.Statement (.ulog d a b) := by
  intro w r h; injection h with h1 h2; subst h1; subst h2; simp [isXForm]
theorem HeadWord.rgn : HeadWord.Statement (.rgn) := by
  intro w r h; injection h with h1 h2; subst h1; subst h2; simp [isXForm]
theorem HeadWord.exit : HeadWord.Statement (.exit) := by
  intro w r h; injection h with h1 h2; subst h1; subst h2; simp [isXForm]
theorem HeadWord.nop : HeadWord.Statement (.nop) := by
  intro w r h; injection h with h1 h2; subst h1; subst h2; simp [isXForm]
theorem HeadWord.yield : HeadWord.Statement (.yield) := by
  intro w r h; injection h with h1 h2; subst h1; subst h2; simp [isXForm]
theorem HeadWord.clauseEntry : HeadWord.Statement (.clauseEntry) := nofun
theorem HeadWord.clauseWaitEnd : HeadWord.Statement (.clauseWaitEnd) := nofun
theorem HeadWord.longLatencyComplete : HeadWord.Statement (.longLatencyComplete) := nofun
theorem HeadWord.queueUnblock : HeadWord.Statement (.queueUnblock) := nofun
theorem HeadWord.rvtoTimeout : HeadWord.Statement (.rvtoTimeout) := nofun
theorem HeadWord.qdlkTimeout : HeadWord.Statement (.qdlkTimeout) := nofun
theorem HeadWord.submissionAccept : HeadWord.Statement (.submissionAccept) := nofun
theorem HeadWord.engineItemAccess : HeadWord.Statement (.engineItemAccess) := nofun
theorem HeadWord.handleArrival : HeadWord.Statement (.handleArrival) := nofun
theorem HeadWord.itemComplete : HeadWord.Statement (.itemComplete) := nofun
theorem HeadWord.itemFail : HeadWord.Statement (.itemFail) := nofun
theorem HeadWord.dispatcherPlace : HeadWord.Statement (.dispatcherPlace) := nofun
theorem HeadWord.gangReservationPass : HeadWord.Statement (.gangReservationPass) := nofun
theorem HeadWord.sliceEnd : HeadWord.Statement (.sliceEnd) := nofun
theorem HeadWord.drainLimitExpiry : HeadWord.Statement (.drainLimitExpiry) := nofun
theorem HeadWord.groupSave : HeadWord.Statement (.groupSave) := nofun
theorem HeadWord.watchdogExpiry : HeadWord.Statement (.watchdogExpiry) := nofun
theorem HeadWord.periodBoundary : HeadWord.Statement (.periodBoundary) := nofun
theorem HeadWord.doorbellWrite : HeadWord.Statement (.doorbellWrite) := nofun
theorem HeadWord.commandRead : HeadWord.Statement (.commandRead) := nofun
theorem HeadWord.cmdNop : HeadWord.Statement (.cmdNop) := nofun
theorem HeadWord.cmdLaunch : HeadWord.Statement (.cmdLaunch) := nofun
theorem HeadWord.cmdGraphld : HeadWord.Statement (.cmdGraphld) := nofun
theorem HeadWord.cmdWait : HeadWord.Statement (.cmdWait) := nofun
theorem HeadWord.cmdWaitSatisfied : HeadWord.Statement (.cmdWaitSatisfied) := nofun
theorem HeadWord.cmdSignal : HeadWord.Statement (.cmdSignal) := nofun
theorem HeadWord.launchEnd : HeadWord.Statement (.launchEnd) := nofun
theorem HeadWord.shedEventDoorbell : HeadWord.Statement (.shedEventDoorbell) := nofun
theorem HeadWord.shedEventCmdread : HeadWord.Statement (.shedEventCmdread) := nofun
theorem HeadWord.shedEventBinddone : HeadWord.Statement (.shedEventBinddone) := nofun
theorem HeadWord.shedEventCopyflt : HeadWord.Statement (.shedEventCopyflt) := nofun
theorem HeadWord.shedEventError : HeadWord.Statement (.shedEventError) := nofun
theorem HeadWord.shedEventTrigger : HeadWord.Statement (.shedEventTrigger) := nofun
theorem HeadWord.pageRequestAnswer : HeadWord.Statement (.pageRequestAnswer) := nofun
theorem HeadWord.pageRequestTimeout : HeadWord.Statement (.pageRequestTimeout) := nofun
theorem HeadWord.graphNodeComplete : HeadWord.Statement (.graphNodeComplete) := nofun
theorem HeadWord.coaltTimerExpiry : HeadWord.Statement (.coaltTimerExpiry) := nofun
theorem HeadWord.invalStage1Va : HeadWord.Statement (.invalStage1Va) := nofun
theorem HeadWord.invalStage1Asid : HeadWord.Statement (.invalStage1Asid) := nofun
theorem HeadWord.invalStage2Gpa : HeadWord.Statement (.invalStage2Gpa) := nofun
theorem HeadWord.invalStage2Vmid : HeadWord.Statement (.invalStage2Vmid) := nofun
theorem HeadWord.invalAll : HeadWord.Statement (.invalAll) := nofun
theorem HeadWord.invalComplete : HeadWord.Statement (.invalComplete) := nofun
theorem HeadWord.adminContextWrite : HeadWord.Statement (.adminContextWrite) := nofun
theorem HeadWord.contextTeardown : HeadWord.Statement (.contextTeardown) := nofun
theorem HeadWord.contextTeardownFinish : HeadWord.Statement (.contextTeardownFinish) := nofun
theorem HeadWord.loftTeardownFinish : HeadWord.Statement (.loftTeardownFinish) := nofun
theorem HeadWord.replyReservationRelease : HeadWord.Statement (.replyReservationRelease) := nofun
theorem HeadWord.keyidQuarantineEnd : HeadWord.Statement (.keyidQuarantineEnd) := nofun
theorem HeadWord.adminYardWrite : HeadWord.Statement (.adminYardWrite) := nofun
theorem HeadWord.adminKeyInstall : HeadWord.Statement (.adminKeyInstall) := nofun
theorem HeadWord.adminReachList : HeadWord.Statement (.adminReachList) := nofun
theorem HeadWord.adminQueueReenable : HeadWord.Statement (.adminQueueReenable) := nofun
theorem HeadWord.adminFenceRelease : HeadWord.Statement (.adminFenceRelease) := nofun
theorem HeadWord.adminGateWrite : HeadWord.Statement (.adminGateWrite) := nofun
theorem HeadWord.adminCommunicatorWrite : HeadWord.Statement (.adminCommunicatorWrite) := nofun
theorem HeadWord.adminEnrol : HeadWord.Statement (.adminEnrol) := nofun
theorem HeadWord.attestationRequest : HeadWord.Statement (.attestationRequest) := nofun
theorem HeadWord.packetSend : HeadWord.Statement (.packetSend) := nofun
theorem HeadWord.packetReceive : HeadWord.Statement (.packetReceive) := nofun
theorem HeadWord.capoGrant : HeadWord.Statement (.capoGrant) := nofun
theorem HeadWord.strongGrantReceive : HeadWord.Statement (.strongGrantReceive) := nofun
theorem HeadWord.capoHandoff : HeadWord.Statement (.capoHandoff) := nofun
theorem HeadWord.lagDetect : HeadWord.Statement (.lagDetect) := nofun
theorem HeadWord.lagEvictTimeout : HeadWord.Statement (.lagEvictTimeout) := nofun
theorem HeadWord.linksLost : HeadWord.Statement (.linksLost) := nofun
theorem HeadWord.eviction : HeadWord.Statement (.eviction) := nofun
theorem HeadWord.counterWrap : HeadWord.Statement (.counterWrap) := nofun
theorem HeadWord.wrapRebase : HeadWord.Statement (.wrapRebase) := nofun
theorem HeadWord.stampRewrite : HeadWord.Statement (.stampRewrite) := nofun
theorem HeadWord.rejoinRequest : HeadWord.Statement (.rejoinRequest) := nofun
theorem HeadWord.rejoinCopyComplete : HeadWord.Statement (.rejoinCopyComplete) := nofun
theorem HeadWord.replfix : HeadWord.Statement (.replfix) := nofun
theorem HeadWord.uncorrectableError : HeadWord.Statement (.uncorrectableError) := nofun
theorem HeadWord.gateRequest : HeadWord.Statement (.gateRequest) := nofun
theorem HeadWord.gateAnswer : HeadWord.Statement (.gateAnswer) := nofun
theorem HeadWord.gateTokenAccrue : HeadWord.Statement (.gateTokenAccrue) := nofun
theorem HeadWord.gateMigrate : HeadWord.Statement (.gateMigrate) := nofun
theorem HeadWord.gateMigrateCopy : HeadWord.Statement (.gateMigrateCopy) := nofun
theorem HeadWord.gateMigrateAck : HeadWord.Statement (.gateMigrateAck) := nofun
theorem HeadWord.gateRetire : HeadWord.Statement (.gateRetire) := nofun
theorem HeadWord.pagePullComplete : HeadWord.Statement (.pagePullComplete) := nofun
theorem HeadWord.fabricPacketReceive : HeadWord.Statement (.fabricPacketReceive) := nofun
theorem HeadWord.globResponse : HeadWord.Statement (.globResponse) := nofun
theorem HeadWord.pathFailure : HeadWord.Statement (.pathFailure) := nofun
theorem HeadWord.responseTimeout : HeadWord.Statement (.responseTimeout) := nofun
theorem HeadWord.linkFlitReceive : HeadWord.Statement (.linkFlitReceive) := nofun
theorem HeadWord.flitAck : HeadWord.Statement (.flitAck) := nofun
theorem HeadWord.allowanceReturn : HeadWord.Statement (.allowanceReturn) := nofun
theorem HeadWord.collChunkStep : HeadWord.Statement (.collChunkStep) := nofun
theorem HeadWord.collComplete : HeadWord.Statement (.collComplete) := nofun
theorem HeadWord.collTimeout : HeadWord.Statement (.collTimeout) := nofun
theorem HeadWord.moduleReset : HeadWord.Statement (.moduleReset) := nofun
theorem HeadWord.bootAllDiesReady : HeadWord.Statement (.bootAllDiesReady) := nofun
theorem HeadWord.configRequest : HeadWord.Statement (.configRequest) := nofun
theorem HeadWord.functionLevelReset : HeadWord.Statement (.functionLevelReset) := nofun
theorem HeadWord.thermalThrottle : HeadWord.Statement (.thermalThrottle) := nofun
theorem HeadWord.thermalFence : HeadWord.Statement (.thermalFence) := nofun
theorem HeadWord.registerWrite : HeadWord.Statement (.registerWrite) := nofun
theorem HeadWord.encodingFault : HeadWord.Statement (.encodingFault) := nofun
theorem HeadWord.updateAcknowledgement : HeadWord.Statement (.updateAcknowledgement) := nofun
theorem HeadWord.frameOwnershipWrite : HeadWord.Statement (.frameOwnershipWrite) := nofun
theorem HeadWord.inPackageLinkFailure : HeadWord.Statement (.inPackageLinkFailure) := nofun

end Sys2Proof.Laws
end

