-- ==== Sys2Proof/Laws/Words.lean ====
section
/-! SUPPORT. The form in which a word's meaning is written: what a computation does step by step, and how each of its ends becomes an
outcome of the word. -/

namespace Sys2Proof.Machine

/-! ## Computations over the state -/

theorem Exec.bind_ok {m : Exec α} {f : α → Exec β} {s t : State} {a : α} (h : m s = .ok (a, t)) : (m >>= f) s = f a t := by
  simp [bind, StateT.bind, Except.bind, h]

theorem Exec.bind_error {m : Exec α} {f : α → Exec β} {s : State} {e : Stop} (h : m s = .error e) : (m >>= f) s = .error e := by
  simp [bind, StateT.bind, Except.bind, h]

/-- A computation of two parts that ends has passed through both. -/
theorem Exec.bind_inv {m : Exec α} {f : α → Exec β} {s u : State} {b : β} (h : (m >>= f) s = .ok (b, u)) :
    ∃ a t, m s = .ok (a, t) ∧ f a t = .ok (b, u) := by
  simp only [bind, StateT.bind, Except.bind] at h
  cases hm : m s with
  | error e => simp [hm] at h
  | ok r => exact ⟨r.1, r.2, rfl, by simpa [hm] using h⟩

@[simp] theorem Exec.pure_run (a : α) (s : State) : (pure a : Exec α) s = .ok (a, s) := rfl
@[simp] theorem act_run (f : State → State) (s : State) : act f s = .ok ((), f s) := rfl
@[simp] theorem actGet_run (f : State → α × State) (s : State) : actGet f s = .ok (f s) := rfl
@[simp] theorem stop_run (e : Stop) (s : State) : (stop e : Exec α) s = .error e := rfl
@[simp] theorem trapWith_run (t : TrapInfo) (s : State) : (trapWith t : Exec α) s = .error (.trap t s) := rfl
@[simp] theorem check_true (c : Cause) : check true c = pure () := rfl
@[simp] theorem check_false (c : Cause) : check false c = trap c := rfl
@[simp] theorem need_some (a : α) : need (some a) = pure a := rfl
@[simp] theorem need_none : (need none : Exec α) = stop (.refuse .noStrand) := rfl

/-! ## The ends of a word -/

theorem runWord_ok {k : StrandKey} {m : Exec Unit} {s t : State} (h : m s = .ok ((), t)) : runWord k m s = .next t := by
  simp [runWord, h]

theorem runWord_trap {k : StrandKey} {m : Exec Unit} {s u : State} {t : TrapInfo} (h : m s = .error (.trap t u)) :
    runWord k m s = .next (takeTrap k .word t { s with tlb := u.tlb, free := u.free, dies := u.dies }) := by simp [runWord, h]

theorem runWord_block {k : StrandKey} {m : Exec Unit} {s : State} {b : Block} (h : m s = .error (.block b)) :
    runWord k m s = .next (s.modStrand k (·.waits b s.cycle)) := by
  simp [runWord, h]

theorem runWord_blast {k : StrandKey} {m : Exec Unit} {s : State} {d c n : Nat} (h : m s = .error (.blast d c n)) :
    runWord k m s = .next (blastUse k.grp.launch d c n s) := by simp [runWord, h]

/-- Everything a word can do: its effect, a trap, a block, a failed structure, or a stop of the model. -/
theorem runWord_cases {k : StrandKey} {m : Exec Unit} {s t : State} (h : runWord k m s = .next t) :
    m s = .ok ((), t) ∨
    (∃ i u, m s = .error (.trap i u) ∧ t = takeTrap k .word i { s with tlb := u.tlb, free := u.free, dies := u.dies }) ∨
    (∃ b, m s = .error (.block b) ∧
      t = s.modStrand k (·.waits b s.cycle)) ∨
    ∃ d c n, m s = .error (.blast d c n) ∧ t = blastUse k.grp.launch d c n s := by
  unfold runWord at h
  split at h
  · rename_i s' e
    injection h with h
    subst h
    exact .inl e
  · rename_i i u e
    injection h with h
    exact .inr (.inl ⟨i, u, e, h.symm⟩)
  · rename_i b e
    injection h with h
    exact .inr (.inr (.inl ⟨b, e, h.symm⟩))
  · rename_i d c n e
    injection h with h
    exact .inr (.inr (.inr ⟨d, c, n, e, h.symm⟩))
  · simp at h
  · simp at h

/-! ## The shared forms of words -/

/-- Where a word of values writes its result. -/
theorem valueWord_ok {sp : WordForm} {f : Vals → List TVal × Log} {s s1 s2 : State} {v : Vals} (h1 : readWord sp s = .ok (v, s1))
    (h2 : (match sp.out with
      | some o => writeVals v.k v.x o.1 (f v).1
      | none => pure ()) s1 = .ok ((), s2)) :
    valueWord sp f s = .ok ((), (alogFor v.k v.k.tid v.x.cpc (f v).2 s2).modStrand v.k (·.advance sp.len)) := by
  unfold valueWord
  rw [Exec.bind_ok h1]
  cases ho : sp.out with
  | none =>
    rw [ho] at h2
    obtain rfl : s1 = s2 := by simpa using h2
    rfl
  | some o =>
    rw [ho] at h2
    simp only [bind, StateT.bind, Except.bind, h2]
    rfl

/-- A word whose operands cannot be read ends as the reading ends. -/
theorem valueWord_error {sp : WordForm} {f : Vals → List TVal × Log} {s : State} {e : Stop} (h : readWord sp s = .error e) :
    valueWord sp f s = .error e := Exec.bind_error h

theorem predWord_ok {sp : WordForm} {p : BitVec 7} {f : Vals → Bool × Log} {s s1 : State} {v : Vals} (h : readWord sp s = .ok (v, s1)) :
    predWord sp p f s = .ok ((), (alogFor v.k v.k.tid v.x.cpc (f v).2 (s1.modStrand v.k (·.setPred p (f v).1))).modStrand v.k
      (·.advance sp.len)) := by
  unfold predWord
  rw [Exec.bind_ok h]
  rfl

theorem predWord_error {sp : WordForm} {p : BitVec 7} {f : Vals → Bool × Log} {s : State} {e : Stop} (h : readWord sp s = .error e) :
    predWord sp p f s = .error e := Exec.bind_error h

theorem mathWord_error {fb : Bool} {sp : WordForm} {f : Vals → List TVal × Log} {s : State} {e : Stop} (h : readWord sp s = .error e) :
    mathWord fb sp f s = .error e := Exec.bind_error h

/-- Two words of one form are one word where their results agree. -/
theorem valueWord_congr {sp : WordForm} {f g : Vals → List TVal × Log} (h : ∀ v, f v = g v) : valueWord sp f = valueWord sp g := by
  rw [funext h]

theorem predWord_congr {sp : WordForm} {p : BitVec 7} {f g : Vals → Bool × Log} (h : ∀ v, f v = g v) :
    predWord sp p f = predWord sp p g := by rw [funext h]

theorem mathWord_congr {fb : Bool} {sp : WordForm} {f g : Vals → List TVal × Log} (h : ∀ v, f v = g v) :
    mathWord fb sp f = mathWord fb sp g := by rw [funext h]

/-! ## Writes that a discard may undo (R44), and counters (R389) -/

@[simp] theorem Strand.setPhys_regs (x : Strand) (n : Nat) (v : TVal) : (x.setPhys n v).regs = lset x.regs n v := rfl
@[simp] theorem Strand.setPhys_prov (x : Strand) (n : Nat) (v : TVal) : (x.setPhys n v).prov = x.prov.filter (·.reg != n) := rfl
@[simp] theorem Strand.setProv_regs (x : Strand) (op n : Nat) (v : TVal) : (x.setProv op n v).regs = lset x.regs n v := rfl
@[simp] theorem Strand.unprov_prov (x : Strand) : x.unprov.prov = [] := rfl
@[simp] theorem Strand.unprov_phase (x : Strand) : x.unprov.phase = x.phase := rfl
@[simp] theorem Strand.unprov_rgn (x : Strand) : x.unprov.rgn = x.rgn := rfl

/-- A strand of which nothing is kept for a discard is left as it is by one. -/
theorem Strand.unprov_none {x : Strand} (h : x.prov = []) : x.unprov = x := by
  cases x; simp_all [Strand.unprov]

/-- A discard takes the parts of squashed operations back in the order opposite to their writes: the latest one first. -/
theorem Strand.unprov_setProv (x : Strand) (op n : Nat) (v : TVal) :
    (x.setProv op n v).unprov.regs = ({ x with regs := lset (lset x.regs n v) n (lget x.regs n ⟨0#32, 0#5⟩) }).unprov.regs := rfl

theorem count64_le (c n : Nat) : count64 c n ≤ 2 ^ 64 - 1 := Nat.min_le_left ..

/-- A counter never decreases. -/
theorem le_count64 {c : Nat} (n : Nat) (h : c ≤ 2 ^ 64 - 1) : c ≤ count64 c n := by
  unfold count64; omega

end Sys2Proof.Machine
end

