-- ==== Sys2Proof/Tests/Slice0.lean ====
section
/-! SUPPORT. Tests of the model: ill-formed instructions, words written out from the spec, single steps with results worked out by hand
from the spec's tables and examples, and for every statement a state and operands that meet its hypotheses. -/

namespace Sys2Proof.Tests

set_option Elab.async false

open Sys2Proof Sys2Proof.Machine

/-! ## Well-formedness: each check refuses a term -/

theorem test_wf_register : Instr.wf (.iadd 127#7 1#7 2#7) = false ∧ Instr.wf (.iadd 3#7 127#7 2#7) = false ∧
    Instr.wf (.iadd 3#7 1#7 127#7) = false ∧ Instr.wf (.iadd 3#7 1#7 126#7) = true := by decide
theorem test_wf_pair : Instr.wf (.iadd64 3#7 4#7 6#7) = false ∧ Instr.wf (.iadd64 8#7 4#7 5#7) = false ∧
    Instr.wf (.iadd64 8#7 126#7 6#7) = true := by decide
theorem test_wf_quad : Instr.wf (.ld4 false 6#7 0#5 1#7) = false ∧ Instr.wf (.acas64 false 8#7 0#5 1#7) = true := by decide
theorem test_wf_tag : Instr.wf (.tag 1#7 1#7 15#5) = false ∧ Instr.wf (.tag 1#7 1#7 14#5) = true := by decide
theorem test_wf_selector : Instr.wf (.movs 1#7 0x3FFF#14) = false ∧ Instr.wf (.movs 5#7 0x200#14) = true := by decide
theorem test_wf_slot : Instr.wf (.ncvtRn 7#7 3#7 0#3 8#4) = false ∧ Instr.wf (.nunp 7#7 3#7 0#3 15#4) = false := by decide
theorem test_wf_barrier : Instr.wf (.barv 1#7 16#7) = false ∧ Instr.wf (.gbar false 1#7 8#7) = false ∧
    Instr.wf (.bqryBarrier 1#7 15#7) = true := by decide
theorem test_wf_selected : Instr.wf (.bqrySlot 1#7 0#5 9#7) = false ∧ Instr.wf (.mmq 1#7 0#4 3#7) = false ∧
    Instr.wf (.hq 1#7 0#7 7#7) = false := by decide
theorem test_wf_literal : Instr.wf (.lda false 5#7 2#5 4#7 0xFFFFFFFF#32) = false ∧ Instr.wf (.lda false 5#7 2#5 4#7 3#32) = true ∧
    Instr.wf (.mmloop false 0#4 4#7 5#7 0xFFFFFFFF#32) = false ∧ Instr.wf (.tmov false 4#7 5#7 6#7 0xFFFFFFFF#32) = false ∧
    Instr.wf (.a2at false 4#7 6#7 8#7 0xFFFFFFFF#32) = false := by decide
theorem test_wf_element : Instr.wf (.mcst false 4#7 0#5 3#2) = false ∧ Instr.wf (.mcst false 6#7 0#5 0#2) = false := by decide

/-! ## Words of the spec's examples (chapters 2 to 11), and one word of each family built from Table 2.2 -/

theorem test_decode_integer : decode 0x08208000#32 (some 0x3F800000#32) = .ok (.ldw 2#7 0x3F800000#32) ∧
    decode 0x0800C000#32 none = .ok (.ldi 3#7 0#14) ∧ decode 0x08008012#32 none = .ok (.ldi 2#7 0x12#14) := by decide
theorem test_decode_logic : decode (0x10000000#32 ||| (0x10#32 <<< 21) ||| (3#32 <<< 14) ||| (1#32 <<< 7) ||| 2#32) none =
    .ok (.bfxI 3#7 1#7 2#7) := by decide
theorem test_decode_compare : decode 0x201FC082#32 none = .ok (.icmpEq 127#7 1#7 2#7) := by decide
theorem test_decode_move : decode 0x30408103#32 none = .ok (.tag 2#7 2#7 3#5) ∧ decode 0x3040C18A#32 none = .ok (.tag 3#7 3#7 10#5) ∧
    decode 0x30C10000#32 none = .ok (.movs 4#7 0#14) ∧ decode 0x30C14200#32 none = .ok (.movs 5#7 0x200#14) ∧
    decode 0x31204000#32 none = .ok (.zext8 1#7 0#7) ∧ decode 0x301EC300#32 none = .ok (.mov 123#7 6#7) := by decide
theorem test_decode_control : decode 0x41000001#32 none = .ok (.trap 1#7) ∧ decode 0x41200001#32 none = .ok (.tret 1#1) ∧
    decode 0x41400000#32 none = .ok (.tkill 0#1) ∧ decode 0x41600000#32 none = .ok .exit ∧ decode 0x40E00000#32 none = .ok .rgn := by decide
theorem test_decode_float : decode 0x5000C102#32 none = .ok (.fadd .rn 3#7 2#7 2#7) ∧ decode 0x51820205#32 none = .ok (.ffma .rn 8#7 4#7 5#7) ∧
    decode 0x5102BC07#32 none = .ok (.fmul .rn 10#7 120#7 7#7) ∧ decode 0x52604000#32 none = .ok (.fneg 1#7 0#7) ∧
    decode 0x535E4200#32 none = .ok (.fcvtF32I32 121#7 4#7) := by decide
theorem test_decode_packed : decode 0x6301C181#32 none = .ok (.ncvtRn 7#7 3#7 0#3 1#4) := by decide
theorem test_decode_math : decode 0x72824406#32 none = .ok (.fdiv false 9#7 8#7 6#7) ∧ decode 0x70808080#32 none = .ok (.lexp false 2#7 1#7) ∧
    decode 0x72010182#32 none = .ok (.ladd false 4#7 3#7 2#7) ∧ decode 0x71414184#32 none = .ok (.ldiv false 5#7 3#7 4#7) ∧
    decode 0x70418280#32 none = .ok (.lnbk false 6#7 5#7) := by decide
theorem test_decode_circle : decode 0x80410210#32 none = .ok (.xbfly false 4#7 4#7 16#5) ∧ decode 0x86403F01#32 none = .ok (.barv 126#7 1#7) ∧
    decode 0x86003F02#32 none = .ok (.bwait false 126#7 2#7) ∧ decode 0x86814001#32 none = .ok (.bqryBarrier 5#7 1#7) ∧
    decode 0x86C03F00#32 none = .ok (.gbar false 126#7 0#7) ∧ decode 0x87003F01#32 none = .ok (.gbarv 126#7 1#7) := by decide
theorem test_decode_access : decode 0x901E0184#32 none = .ok (.ld false 120#7 3#5 4#7) ∧ decode 0x90DE4286#32 none = .ok (.st false 121#7 5#5 6#7) ∧
    decode 0x91814104#32 (some 3#32) = .ok (.lda false 5#7 2#5 4#7 3#32) ∧
    decode 0x9200C500#32 none = .ok (.bload false 3#5 10#7) ∧
    decode 0x92414188#32 none = .ok (.bqrySlot 5#7 3#5 8#7) ∧ decode 0x92808500#32 none = .ok (.lload false 2#3 10#7) := by decide
theorem test_decode_atomic : decode 0xA000C084#32 none = .ok (.aaddI32 false 3#7 1#5 4#7) ∧ decode 0xA2428092#32 none =
      .ok (.axchg false 10#7 1#5 18#7) ∧ decode 0xA286011A#32 none = .ok (.acas false 24#7 2#5 26#7) ∧
    decode 0xA4000023#32 none = .ok (.fence 1#2 3#3) ∧ decode 0xA4000064#32 none = .ok (.fence 3#2 4#3) := by decide
theorem test_decode_matrix : decode 0xB0000300#32 none = .ok (.mminit false 0#4 6#7) ∧ decode 0xB0400205#32 (some 0x00021001#32) =
      .ok (.mmloop false 0#4 4#7 5#7 0x00021001#32) ∧ decode 0xB0808380#32 none = .ok (.mmnorm false 2#4 7#7) ∧
    decode 0xB0C0C080#32 none = .ok (.mmdrain false 3#4 1#1) ∧ decode 0xB1024000#32 none = .ok (.mmq 9#7 0#4 0#7) := by decide
theorem test_decode_copy : decode 0xC000440C#32 (some 0x00030002#32) = .ok (.cpt false 1#3 8#7 12#7 0x00030002#32) ∧
    decode 0xC040850E#32 (some 0x00040300#32) = .ok (.cps false 2#5 10#7 14#7 0x00040300#32) ∧
    decode 0xC0810286#32 (some 0x00031401#32) = .ok (.tmov false 4#7 5#7 6#7 0x00031401#32) ∧
    decode 0xC0C0C205#32 none = .ok (.hset 3#7 4#7 5#7) ∧ decode 0xC1018181#32 none = .ok (.hwait false 6#7 3#7 1#1) ∧
    decode 0xC1400186#32 none = .ok (.hrel 3#7 6#7) ∧ decode 0xC181C184#32 none = .ok (.hq 7#7 3#7 4#7) ∧
    decode 0xC1C00000#32 none = .ok (.jobs false) := by decide
theorem test_decode_strong : decode 0xD2400000#32 none = .ok (.coll false) := by decide
theorem test_decode_system : decode 0xE001050C#32 none = .ok (.launch 4#7 10#7 12#7) ∧ decode 0xE0400180#32 none = .ok (.trig 3#7) ∧
    decode 0xE0814300#32 none = .ok (.capq 5#7 6#7) ∧ decode 0xE0C23F00#32 none = .ok (.clk 8#7 126#7) ∧
    decode 0xE1000103#32 none = .ok (.elog 2#7 3#7) ∧ decode 0xE1404307#32 none = .ok (.ulog 1#7 6#7 7#7) := by decide
/-- Class 0xF is unassigned, and a reserved minor, a reserved field and a missing literal are refused by name (R34). -/
theorem test_decode_refuses : decode 0xF0000000#32 none = .error .unassigned ∧ decode 0x03A00000#32 none = .error .unassigned ∧
    decode 0x11200020#32 none = .error .reservedField ∧ (decode 0x08208000#32 none).isOk = false := by decide

/-! ## Single steps of the register classes -/

/-- A word of Table 2.2, R form: class, minor, d, a, b. -/
def W (c m d a b : Nat) : Nat := c * 2 ^ 28 + m * 2 ^ 21 + d * 2 ^ 14 + a * 2 ^ 7 + b

def regVal (r : Nat × Nat) : TVal := ⟨BitVec.ofNat 32 r.2, BitVec.ofNat 5 r.1⟩

/-- The state with a word to fetch and some registers of its strand set: number, tag, bits. -/
def put (w : Nat) (ins : List (Nat × Nat × Nat)) : State :=
  let s := State.reset.withFetchWord 64 w
  s.modStrand s.cur fun x => { x with regs := ins.foldl (fun l r => l.set r.1 (regVal r.2)) x.regs }

def thenStrand (o : Host.Outcome State Fault Refusal) (p : Strand → Bool) : Bool :=
  match o with
  | .next t => ((t.strand t.cur).map p).getD false
  | .fault _ => false
  | .refused _ => false

def thenState (o : Host.Outcome State Fault Refusal) (p : State → Bool) : Bool :=
  match o with
  | .next t => p t
  | .fault _ => false
  | .refused _ => false

/-- One step from `put` leaves the listed registers so. -/
def gives (w : Nat) (ins outs : List (Nat × Nat × Nat)) : Bool :=
  thenStrand (step (put w ins)) fun x => outs.all fun r => x.regs[r.1]? == some (regVal r.2)

/-- The predicate word `w` leaves predicate 5 so. -/
def tells (w : Nat) (ins : List (Nat × Nat × Nat)) (b : Bool) : Bool :=
  thenStrand (step (put w ins)) fun x => x.preds.getLsbD 5 == b

/-- The arithmetic log of the launch after one step: the causes of its entries. -/
def logs (w : Nat) (ins : List (Nat × Nat × Nat)) (p : Launch → Bool) : Bool :=
  thenState (step (put w ins)) fun t => ((t.launch 1).map p).getD false

theorem test_integer_words :
    gives (W 0 0x00 3 1 2) [(1, 2, 0xFFFFFFF0), (2, 1, 0x20)] [(3, 2, 0x10)] = true ∧
    gives (W 0 0x01 3 1 0x7F) [(1, 1, 0)] [(3, 1, 0xFFFFFFFF)] = true ∧
    gives (W 0 0x02 3 1 2) [(1, 1, 3), (2, 1, 5)] [(3, 1, 0xFFFFFFFE)] = true ∧
    gives (W 0 0x03 3 1 2) [(1, 1, 0x10001), (2, 1, 0x10000)] [(3, 1, 0x10000)] = true ∧
    gives (W 0 0x04 3 1 2) [(1, 1, 0xFFFFFFFF), (2, 1, 1)] [(3, 1, 0xFFFFFFFF)] = true ∧
    gives (W 0 0x05 3 1 2) [(1, 1, 0xFFFFFFFF), (2, 1, 2)] [(3, 2, 1)] = true ∧
    gives (W 0 0x06 3 1 2) [(1, 1, 2), (2, 1, 3), (3, 2, 4)] [(3, 2, 10)] = true ∧
    gives (W 0 0x07 6 2 3) [(2, 1, 0xFFFFFFFE), (3, 1, 3)] [(6, 13, 0xFFFFFFFA), (7, 14, 0xFFFFFFFF)] = true ∧
    gives (W 0 0x08 6 2 3) [(2, 1, 0xFFFFFFFE), (3, 1, 3)] [(6, 13, 0xFFFFFFFA), (7, 14, 2)] = true ∧
    gives (W 0 0x11 3 1 0) [(1, 1, 0x80000000)] [(3, 1, 0x80000000)] = true ∧
    gives (W 0 0x12 3 1 0) [(1, 1, 1)] [(3, 1, 0xFFFFFFFF)] = true := by decide +kernel

theorem test_integer_division :
    gives (W 0 0x09 3 1 2) [(1, 1, 0xFFFFFFF9), (2, 1, 2)] [(3, 1, 0xFFFFFFFD)] = true ∧
    gives (W 0 0x09 3 1 2) [(1, 1, 0x80000000), (2, 1, 0xFFFFFFFF)] [(3, 1, 0x80000000)] = true ∧
    gives (W 0 0x0A 3 1 2) [(1, 2, 7), (2, 2, 0)] [(3, 2, 0xFFFFFFFF)] = true ∧
    gives (W 0 0x0B 3 1 2) [(1, 1, 0xFFFFFFF9), (2, 1, 2)] [(3, 1, 0xFFFFFFFF)] = true ∧
    gives (W 0 0x0C 3 1 2) [(1, 2, 7), (2, 2, 0)] [(3, 2, 7)] = true ∧
    logs (W 0 0x09 3 1 2) [(1, 1, 7), (2, 1, 0)] (fun l => l.killed) = false := by decide +kernel

theorem test_integer_bounds :
    gives (W 0 0x0D 3 1 2) [(1, 1, 0xFFFFFFFF), (2, 1, 1)] [(3, 1, 0xFFFFFFFF)] = true ∧
    gives (W 0 0x0E 3 1 2) [(1, 1, 0xFFFFFFFF), (2, 1, 1)] [(3, 2, 1)] = true ∧
    gives (W 0 0x0F 3 1 2) [(1, 1, 0xFFFFFFFF), (2, 1, 1)] [(3, 1, 1)] = true ∧
    gives (W 0 0x10 3 1 2) [(1, 1, 0xFFFFFFFF), (2, 1, 1)] [(3, 2, 0xFFFFFFFF)] = true ∧
    gives (W 0 0x13 3 1 2) [(1, 1, 0x7FFFFFFF), (2, 1, 1)] [(3, 1, 0x7FFFFFFF)] = true ∧
    gives (W 0 0x14 3 1 2) [(1, 2, 0xFFFFFFF0), (2, 2, 0x20)] [(3, 2, 0xFFFFFFFF)] = true ∧
    gives (W 0 0x15 3 1 2) [(1, 1, 0x80000000), (2, 1, 1)] [(3, 1, 0x80000000)] = true ∧
    gives (W 0 0x16 3 1 2) [(1, 2, 1), (2, 2, 2)] [(3, 2, 0)] = true ∧
    gives (W 0 0x17 8 4 6) [(4, 13, 0xFFFFFFFF), (5, 14, 0), (6, 13, 1), (7, 14, 0)] [(8, 13, 0), (9, 14, 1)] = true ∧
    gives (W 0 0x18 8 4 6) [(4, 13, 0), (5, 14, 1), (6, 13, 1), (7, 14, 0)] [(8, 13, 0xFFFFFFFF), (9, 14, 0)] = true ∧
    gives (W 0 0x19 3 1 2) [(1, 1, 100), (2, 1, 3)] [(3, 1, 106)] = true ∧
    gives (W 0 0x1A 3 1 2) [(1, 1, 100), (2, 1, 3)] [(3, 1, 112)] = true ∧
    gives (W 0 0x1B 3 1 2) [(1, 1, 100), (2, 1, 3)] [(3, 1, 124)] = true ∧
    gives (W 0 0x1C 3 1 2) [(1, 1, 100), (2, 1, 3)] [(3, 1, 148)] = true ∧
    gives (W 0 0x40 3 0 0 + 0x2000) [] [(3, 1, 0xFFFFE000)] = true ∧
    gives (0x08208000 + 0x3F800000 * 2 ^ 32) [] [(2, 0, 0x3F800000)] = true := by decide +kernel

theorem test_logic_words :
    gives (W 1 0x00 3 1 2) [(1, 3, 0xFF00), (2, 1, 0x0FF0)] [(3, 3, 0x0F00)] = true ∧
    gives (W 1 0x01 3 1 0x70) [(1, 1, 0xFFFFFFFF)] [(3, 1, 0xFFFFFFF0)] = true ∧
    gives (W 1 0x02 3 1 2) [(1, 1, 0xF0), (2, 1, 0x0F)] [(3, 1, 0xFF)] = true ∧
    gives (W 1 0x03 3 1 0x7F) [(1, 1, 0)] [(3, 1, 0xFFFFFFFF)] = true ∧
    gives (W 1 0x04 3 1 2) [(1, 1, 0xFF), (2, 1, 0x0F)] [(3, 1, 0xF0)] = true ∧
    gives (W 1 0x05 3 1 1) [(1, 1, 3)] [(3, 1, 2)] = true ∧
    gives (W 1 0x06 3 1 2) [(1, 1, 0xFF), (2, 1, 0x0F)] [(3, 1, 0xF0)] = true ∧
    gives (W 1 0x07 3 1 0) [(1, 1, 0xFFFF0000)] [(3, 1, 0xFFFF)] = true ∧
    gives (W 1 0x08 3 1 2) [(1, 1, 1), (2, 1, 33)] [(3, 1, 2)] = true ∧
    gives (W 1 0x09 3 1 31) [(1, 1, 3)] [(3, 1, 0x80000000)] = true ∧
    gives (W 1 0x0A 3 1 2) [(1, 1, 0x80000000), (2, 1, 31)] [(3, 1, 1)] = true ∧
    gives (W 1 0x0B 3 1 4) [(1, 1, 0x80000000)] [(3, 1, 0x08000000)] = true ∧
    gives (W 1 0x0C 3 1 2) [(1, 1, 0x80000000), (2, 1, 31)] [(3, 1, 0xFFFFFFFF)] = true ∧
    gives (W 1 0x0D 3 1 4) [(1, 1, 0x80000000)] [(3, 1, 0xF8000000)] = true ∧
    gives (W 1 0x0E 3 1 2) [(1, 1, 0x80000001), (2, 1, 1)] [(3, 1, 3)] = true ∧
    gives (W 1 0x0F 3 1 8) [(1, 1, 0x12345678)] [(3, 1, 0x34567812)] = true := by decide +kernel

theorem test_field_words :
    gives (W 1 0x10 3 1 2) [(1, 1, 0xA0000000), (2, 1, 0x0C1C)] [(3, 1, 0xFFFFFFFA)] = true ∧
    gives (W 1 0x11 3 1 2) [(1, 1, 0xA0000000), (2, 1, 0x0C1C)] [(3, 2, 0xA)] = true ∧
    gives (W 1 0x12 3 1 2) [(1, 1, 0xFF), (2, 1, 0x0408), (3, 1, 0x12345678)] [(3, 1, 0x12345F78)] = true ∧
    gives (W 1 0x12 3 1 2) [(1, 1, 0xFF), (2, 1, 0x0008), (3, 1, 0x12345678)] [(3, 1, 0x12345678)] = true ∧
    gives (W 1 0x13 3 1 0) [(1, 1, 0xF0F)] [(3, 2, 8)] = true ∧
    gives (W 1 0x14 3 1 0) [(1, 1, 0x00010000)] [(3, 2, 15)] = true ∧
    gives (W 1 0x14 3 1 0) [(1, 1, 0)] [(3, 2, 32)] = true ∧
    gives (W 1 0x15 3 1 0) [(1, 1, 0x00010000)] [(3, 2, 16)] = true ∧
    gives (W 1 0x15 3 1 0) [(1, 1, 0)] [(3, 2, 32)] = true ∧
    gives (W 1 0x16 3 1 0) [(1, 1, 3)] [(3, 1, 0xC0000000)] = true ∧
    gives (W 1 0x17 3 1 2) [(1, 1, 0x44332211), (2, 1, 0x8703), (3, 1, 0x88776655)] [(3, 1, 0x00881144)] = true := by decide +kernel

theorem test_integer_compares :
    tells (W 2 0x00 5 1 2) [(1, 1, 7), (2, 2, 7)] true = true ∧ tells (W 2 0x01 5 1 2) [(1, 1, 7), (2, 1, 7)] false = true ∧
    tells (W 2 0x02 5 1 2) [(1, 1, 0xFFFFFFFF), (2, 1, 0)] true = true ∧ tells (W 2 0x03 5 1 2) [(1, 1, 5), (2, 1, 5)] true = true ∧
    tells (W 2 0x04 5 1 2) [(1, 1, 0), (2, 1, 0xFFFFFFFF)] true = true ∧ tells (W 2 0x05 5 1 2) [(1, 1, 0xFFFFFFFF), (2, 1, 0)] false = true ∧
    tells (W 2 0x06 5 1 2) [(1, 1, 0), (2, 1, 0xFFFFFFFF)] true = true ∧ tells (W 2 0x07 5 1 2) [(1, 1, 0xFFFFFFFF), (2, 1, 0)] false = true ∧
    tells (W 2 0x08 5 1 2) [(1, 1, 0xFFFFFFFF), (2, 1, 0)] true = true ∧ tells (W 2 0x09 5 1 2) [(1, 1, 4), (2, 1, 4)] true = true := by decide +kernel

theorem test_float_compares :
    tells (W 2 0x10 5 1 2) [(1, 3, 0x80000000), (2, 3, 0)] true = true ∧ tells (W 2 0x11 5 1 2) [(1, 3, 0x7FC00000), (2, 3, 0)] true = true ∧
    tells (W 2 0x12 5 1 2) [(1, 3, 0xBF800000), (2, 3, 0x3F800000)] true = true ∧
    tells (W 2 0x13 5 1 2) [(1, 3, 0x7FC00000), (2, 3, 0x3F800000)] false = true ∧
    tells (W 2 0x14 5 1 2) [(1, 3, 0x7F800000), (2, 3, 0x3F800000)] true = true ∧
    tells (W 2 0x15 5 1 2) [(1, 3, 0x3F800000), (2, 3, 0x3F800000)] true = true ∧
    tells (W 2 0x16 5 1 2) [(1, 3, 0x7FC00000), (2, 3, 0x3F800000)] true = true ∧
    tells (W 2 0x18 5 4 6) [(4, 11, 0), (5, 12, 0x80000000), (6, 11, 0), (7, 12, 0)] true = true ∧
    tells (W 2 0x19 5 4 6) [(4, 11, 0), (5, 12, 0x3FF00000), (6, 11, 1), (7, 12, 0x3FF00000)] true = true ∧
    tells (W 2 0x1A 5 4 6) [(4, 11, 2), (5, 12, 0x3FF00000), (6, 11, 1), (7, 12, 0x3FF00000)] false = true ∧
    tells (W 2 0x1B 5 4 6) [(4, 11, 0), (5, 12, 0x7FF80000), (6, 11, 1), (7, 12, 0)] true = true := by decide +kernel

/-- Predicates 1 and 2 set before one step. -/
def tellsOf (w : Nat) (b : Bool) : Bool :=
  let s := put w [(1, 1, 9)]
  thenStrand (step (s.modStrand s.cur fun x => { x with preds := 2#128 })) fun x => x.preds.getLsbD 5 == b

theorem test_predicate_words :
    tellsOf (W 2 0x20 5 1 2) false = true ∧ tellsOf (W 2 0x21 5 1 2) true = true ∧ tellsOf (W 2 0x22 5 1 1) false = true ∧
    tellsOf (W 2 0x23 5 1 2) true = true ∧ tellsOf (W 2 0x24 5 1 0) false = true ∧ tellsOf (W 2 0x25 5 1 0) true = true ∧
    tellsOf (W 2 0x26 5 0 1) true = true ∧ tellsOf (W 2 0x29 5 1 0) true = true ∧
    gives (W 2 0x28 3 5 0) [] [(3, 2, 0)] = true := by decide +kernel

theorem test_moves :
    gives (W 3 0x00 3 1 0) [(1, 9, 5)] [(3, 9, 5)] = true ∧ gives (W 3 0x01 3 1 0) [(1, 9, 5), (3, 1, 7)] [(3, 1, 7)] = true ∧
    gives 0x30408103 [(2, 0, 0x3F800000)] [(2, 3, 0x3F800000)] = true ∧ gives (W 3 0x03 3 1 0) [(1, 9, 5)] [(3, 2, 9)] = true ∧
    gives (W 3 0x05 3 0 0) [] [(3, 2, 0)] = true ∧ gives 0x30C10000 [] [(4, 2, 0)] = true ∧
    gives (W 3 0x07 3 1 0) [(1, 1, 0x1FF)] [(3, 1, 0xFFFFFFFF)] = true ∧ gives (W 3 0x08 3 1 0) [(1, 1, 0x18000)] [(3, 1, 0xFFFF8000)] = true ∧
    gives (W 3 0x09 3 1 0) [(1, 1, 0x1FF)] [(3, 2, 0xFF)] = true ∧ gives (W 3 0x0A 3 1 0) [(1, 1, 0x18000)] [(3, 2, 0x8000)] = true ∧
    gives (W 3 0x0B 4 6 0) [(6, 11, 5), (7, 12, 6)] [(4, 11, 5), (5, 12, 6)] = true ∧
    thenStrand (step (put (W 3 0x04 0 0 2) [])) (fun x => x.wb == 16) = true := by decide +kernel

/-- Where the strand stands after one step. -/
def goes (w : Nat) (ins : List (Nat × Nat × Nat)) (pc : Nat) : Bool := thenStrand (step (put w ins)) fun x => x.pc.toNat == pc

theorem test_transfers :
    goes (W 4 0x00 0 0 0 + 5) [] 20 = true ∧ goes (W 4 0x00 0 0 0 + 0x3FFF) [] (2 ^ 57 - 4) = true ∧
    goes (W 4 0x01 5 0 0 + 5) [] 8 = true ∧ goes (W 4 0x02 5 0 0 + 5) [] 20 = true ∧
    goes (W 4 0x03 0 4 0) [(4, 13, 0x103), (5, 14, 0)] 0x100 = true ∧
    gives (W 4 0x04 4 0 0 + 5) [] [(4, 13, 8), (5, 14, 0)] = true ∧ goes (W 4 0x05 4 4 0) [(4, 13, 0x100), (5, 14, 0)] 0x100 = true ∧
    gives (W 4 0x05 4 4 0) [(4, 13, 0x100), (5, 14, 0)] [(4, 13, 8), (5, 14, 0)] = true ∧
    goes (W 4 0x06 0 4 0) [(4, 13, 0x200), (5, 14, 0)] 0x200 = true ∧ goes (W 4 0x07 0 0 0) [] 8 = true ∧
    goes (W 4 0x0C 0 0 0) [] 8 = true ∧ goes (W 4 0x0D 0 0 0 + 0xFFF) [] 8 = true ∧
    thenStrand (step (put (W 4 0x0E 0 0 0) [])) (·.blk == .yield) = true ∧
    thenStrand (step (put (W 4 0x0B 0 0 0) [])) (·.phase == .ended) = true := by decide +kernel

/-- TRAP without a handler kills the launch, and TKILL #1 too; TKILL #0 ends the group; TRET outside a handler is ILOP, which kills
(R86, R107, R109). -/
theorem test_kills :
    logs (W 4 0x08 0 0 1) [] (·.killed) = true ∧ logs (W 4 0x0A 0 0 1) [] (·.killed) = true ∧
    logs (W 4 0x0A 0 0 0) [] (·.killed) = false ∧ logs (W 4 0x09 0 0 1) [] (·.killed) = true := by decide +kernel

theorem test_float_words :
    gives 0x5000C102 [(2, 3, 0x3F800000)] [(3, 3, 0x40000000)] = true ∧
    gives (W 5 0x01 3 1 2) [(1, 3, 0x3F800000), (2, 3, 0x33800000)] [(3, 3, 0x3F800000)] = true ∧
    gives (W 5 0x03 3 1 2) [(1, 3, 0x3F800000), (2, 3, 0x33800000)] [(3, 3, 0x3F800001)] = true ∧
    gives (W 5 0x04 3 1 2) [(1, 3, 0x3F800000), (2, 3, 0x3F800000)] [(3, 3, 0)] = true ∧
    gives (W 5 0x06 3 1 2) [(1, 3, 0x3F800000), (2, 3, 0x3F800000)] [(3, 3, 0x80000000)] = true ∧
    gives (W 5 0x08 3 1 2) [(1, 3, 0x40400000), (2, 3, 0xC0000000)] [(3, 3, 0xC0C00000)] = true ∧
    gives (W 5 0x08 3 1 2) [(1, 3, 0x7F800000), (2, 3, 0)] [(3, 3, 0x7FC00000)] = true ∧
    gives (W 5 0x0C 3 1 2) [(1, 3, 0x3F800001), (2, 3, 0x3F800001), (3, 3, 0xBF800002)] [(3, 3, 0x28800000)] = true ∧
    gives (W 5 0x10 3 1 2) [(1, 3, 0x80000000), (2, 3, 0)] [(3, 3, 0x80000000)] = true ∧
    gives (W 5 0x11 3 1 2) [(1, 3, 0x80000000), (2, 3, 0)] [(3, 3, 0)] = true ∧
    gives (W 5 0x12 3 1 0) [(1, 3, 0xBF800000)] [(3, 3, 0x3F800000)] = true ∧
    gives (W 5 0x13 3 1 0) [(1, 3, 0xFFC12345)] [(3, 3, 0x7FC00000)] = true ∧
    gives (W 5 0x14 3 1 0) [(1, 3, 0xBE99999A)] [(3, 3, 0x80000000)] = true ∧
    gives (W 5 0x14 3 1 0) [(1, 3, 0x40200000)] [(3, 3, 0x40000000)] = true ∧
    gives (W 5 0x16 3 1 0) [(1, 3, 0x40200000)] [(3, 3, 0x40000000)] = true := by decide +kernel

theorem test_conversions :
    gives (W 5 0x18 3 1 0) [(1, 3, 0xC0200000)] [(3, 1, 0xFFFFFFFE)] = true ∧
    gives (W 5 0x18 3 1 0) [(1, 3, 0x4F000000)] [(3, 1, 0x7FFFFFFF)] = true ∧
    gives (W 5 0x19 3 1 0) [(1, 3, 0xBF800000)] [(3, 2, 0)] = true ∧
    gives (W 5 0x1A 3 1 0) [(1, 1, 0xFFFFFFFF)] [(3, 3, 0xBF800000)] = true ∧
    gives (W 5 0x1B 3 1 0) [(1, 2, 0xFFFFFFFF)] [(3, 3, 0x4F800000)] = true ∧
    gives (W 5 0x1C 3 1 0) [(1, 3, 0x3F800000)] [(3, 4, 0x3C00)] = true ∧
    gives (W 5 0x1D 3 1 0) [(1, 4, 0x12343C00)] [(3, 3, 0x3F800000)] = true ∧
    gives (W 5 0x1E 3 1 0) [(1, 3, 0x3F808000)] [(3, 5, 0x3F80)] = true ∧
    gives (W 5 0x1F 3 1 0) [(1, 5, 0x3F80)] [(3, 3, 0x3F800000)] = true ∧
    gives (W 5 0x20 4 1 0) [(1, 3, 0x3FC00000)] [(4, 11, 0), (5, 12, 0x3FF80000)] = true ∧
    gives (W 5 0x21 3 4 0) [(4, 11, 0), (5, 12, 0xBFF80000)] [(3, 3, 0xBFC00000)] = true := by decide +kernel

/-- Pairs of f64: 1.5 and 0.5. -/
def dIns : List (Nat × Nat × Nat) := [(4, 11, 0), (5, 12, 0x3FF80000), (6, 11, 0), (7, 12, 0x3FE00000), (8, 11, 0), (9, 12, 0x3FF00000)]

theorem test_double_words :
    gives (W 5 0x28 8 4 6) dIns [(8, 11, 0), (9, 12, 0x40000000)] = true ∧ gives (W 5 0x29 8 4 6) dIns [(8, 11, 0), (9, 12, 0x3FF00000)] = true ∧
    gives (W 5 0x2A 8 4 6) dIns [(8, 11, 0), (9, 12, 0x3FE80000)] = true ∧ gives (W 5 0x2B 8 4 6) dIns [(8, 11, 0), (9, 12, 0x3FFC0000)] = true ∧
    gives (W 5 0x2C 8 4 6) dIns [(8, 11, 0), (9, 12, 0x3FE00000)] = true ∧
    gives (W 5 0x2D 8 4 6) dIns [(8, 11, 0), (9, 12, 0x3FF80000)] = true := by decide +kernel

theorem test_packed_words :
    gives (W 6 0x00 3 1 2) [(1, 4, 0x3C004000), (2, 4, 0x3C003C00)] [(3, 4, 0x40004200)] = true ∧
    gives (W 6 0x01 3 1 2) [(1, 5, 0x3F804000), (2, 5, 0x3F803F80)] [(3, 5, 0x40004040)] = true ∧
    gives (W 6 0x02 3 1 2) [(1, 4, 0x40004000), (2, 4, 0x3C00C000)] [(3, 4, 0x4000C400)] = true ∧
    gives (W 6 0x03 3 1 2) [(1, 5, 0x40004000), (2, 5, 0x3F80C000)] [(3, 5, 0x4000C080)] = true ∧
    gives (W 6 0x04 3 1 2) [(1, 4, 0x3C003C00), (2, 4, 0x3C003C00), (3, 4, 0x3C000000)] [(3, 4, 0x40003C00)] = true ∧
    gives (W 6 0x05 3 1 2) [(1, 5, 0x3F803F80), (2, 5, 0x3F803F80), (3, 5, 0x3F800000)] [(3, 5, 0x40003F80)] = true ∧
    gives (W 6 0x06 3 1 2) [(1, 3, 0x3F800000), (2, 3, 0x40000000)] [(3, 4, 0x40003C00)] = true ∧
    gives (W 6 0x07 3 1 2) [(1, 3, 0x3F800000), (2, 3, 0x40000000)] [(3, 5, 0x40003F80)] = true ∧
    gives (W 6 0x08 3 1 0) [(1, 4, 0x40003C00)] [(3, 3, 0x3F800000)] = true ∧
    gives (W 6 0x09 3 1 0) [(1, 4, 0x40003C00)] [(3, 3, 0x40000000)] = true ∧
    gives (W 6 0x0A 3 1 0) [(1, 5, 0x40003F80)] [(3, 3, 0x3F800000)] = true ∧
    gives (W 6 0x0B 3 1 0) [(1, 5, 0x40003F80)] [(3, 3, 0x40000000)] = true ∧
    gives (W 6 0x10 3 1 2) [(1, 7, 0xFF020304), (2, 7, 0x05060708), (3, 1, 1)] [(3, 1, 61)] = true ∧
    gives (W 6 0x11 3 1 2) [(1, 8, 0xFF000000), (2, 8, 0x02000000), (3, 2, 1)] [(3, 2, 511)] = true ∧
    gives (W 6 0x12 3 1 2) [(1, 6, 0xFFFF0002), (2, 6, 0x00030004), (3, 1, 0)] [(3, 1, 5)] = true := by decide +kernel

/-- The format of R66: code 0x45 for 3.3, which decodes as 3.25; NSCL and SCX scale by 2^(c − 127). -/
theorem test_narrow_words :
    gives 0x6301C181 [(3, 3, 0x40533333)] [(7, 16, 0x00004500)] = true ∧
    gives (W 6 0x19 7 3 1) [(3, 3, 0x40533333)] [(7, 16, 0x00004500)] = true ∧
    gives (W 6 0x1A 4 7 1) [(7, 16, 0x00004500)] [(4, 3, 0x40500000)] = true ∧
    gives (W 6 0x1B 4 1 2) [(1, 3, 0x3FC00000), (2, 9, 0xFFFFFF80)] [(4, 3, 0x40400000)] = true ∧
    gives (W 6 0x1B 4 1 2) [(1, 3, 0x3FC00000), (2, 9, 0xFF)] [(4, 3, 0x7FC00000)] = true ∧
    gives (W 6 0x1C 4 1 1) [(1, 9, 0x8000)] [(4, 3, 0x40000000)] = true := by decide +kernel

/-- The run for x = 0.0 of chapter 4, and the cases of Table 4.8. -/
theorem test_lns_words :
    gives (W 7 0x00 3 1 0) [(1, 3, 0x40000000)] [(3, 10, 0x00800000)] = true ∧
    gives (W 7 0x02 6 5 0) [(5, 10, 0x7F800000)] [(6, 3, 0x3F000000)] = true ∧
    gives (W 7 0x04 2 1 0) [(1, 3, 0x80000000)] [(2, 10, 0)] = true ∧
    gives (W 7 0x06 3 1 0) [(1, 10, 0)] [(3, 3, 0)] = true ∧
    gives (W 7 0x08 3 1 2) [(1, 10, 0x00800000), (2, 10, 0x80800000)] [(3, 10, 0x81000000)] = true ∧
    gives (W 7 0x0A 5 3 4) [(3, 10, 0), (4, 10, 0x00800000)] [(5, 10, 0x7F800000)] = true ∧
    gives (W 7 0x0A 5 3 4) [(3, 10, 0), (4, 10, 0x40000000)] [(5, 10, 0x3FFFFFFF)] = true ∧
    gives (W 7 0x0C 3 1 0) [(1, 10, 0x01000000)] [(3, 10, 0x00800000)] = true ∧
    gives (W 7 0x0E 3 1 2) [(1, 10, 0xC0000000), (2, 1, 0)] [(3, 10, 0)] = true ∧
    gives (W 7 0x0E 3 1 2) [(1, 10, 0x80800000), (2, 1, 3)] [(3, 10, 0x81800000)] = true ∧
    gives (W 7 0x10 4 3 2) [(3, 10, 0), (2, 10, 0)] [(4, 10, 0x00800000)] = true ∧
    gives (W 7 0x12 4 3 2) [(3, 10, 0), (2, 10, 0)] [(4, 10, 0x40000000)] = true := by decide +kernel

theorem test_roots_and_quotients :
    gives (W 7 0x14 3 1 2) [(1, 3, 0x3F800000), (2, 3, 0x40400000)] [(3, 3, 0x3EAAAAAB)] = true ∧
    gives (W 7 0x14 3 1 2) [(1, 3, 0xBF800000), (2, 3, 0)] [(3, 3, 0xFF800000)] = true ∧
    gives (W 7 0x16 3 1 0) [(1, 3, 0x40000000)] [(3, 3, 0x3FB504F3)] = true ∧
    gives (W 7 0x16 3 1 0) [(1, 3, 0x80000000)] [(3, 3, 0x80000000)] = true ∧
    gives (W 7 0x18 8 4 6) dIns [(8, 11, 0), (9, 12, 0x40080000)] = true ∧
    gives (W 7 0x1A 4 8 0) [(8, 11, 0), (9, 12, 0x40100000)] [(4, 11, 0), (5, 12, 0x40000000)] = true := by decide +kernel

/-! ## A small module: page tables, a loft frame, budgets, and one record of each segment -/

/-- A buffer record (Table 7.1): BASE, segment, PR PW PA, stride, extent, element tag and size. -/
def recImg (base seg bits stride extent etag esz : Nat) : BitVec 256 :=
  BitVec.ofNat 256 (base + seg * 2 ^ 57 + bits * 2 ^ 60 + stride * 2 ^ 64 + extent * 2 ^ 96 + etag * 2 ^ 136 + esz * 2 ^ 141)

/-- Both stages map five gibibytes at themselves: the HBM of die 0, the replicated region, a glob page, host memory and the loft. The
first-stage tables stand at 0x4000 to 0x6FFF, the second-stage tables at 0x1000 to 0x3FFF (Tables 12.3, 12.4). -/
def tables : List Host.Cell :=
  [(0x1000, 0x01#8), (0x1001, 0x20#8), (0x2000, 0x01#8), (0x2001, 0x30#8), (0x3000, 0x1F#8), (0x3008, 0x5F#8), (0x3010, 0xDF#8),
   (0x3018, 0x9F#8), (0x301E, 0x04#8), (0x3020, 0x1F#8), (0x3026, 0x02#8), (0x4000, 0x01#8), (0x4001, 0x50#8), (0x5000, 0x01#8),
   (0x5001, 0x60#8), (0x6000, 0x1F#8), (0x6008, 0x1F#8), (0x600B, 0x40#8), (0x6010, 0x1F#8), (0x6013, 0x80#8), (0x6018, 0x1F#8),
   (0x601B, 0xC0#8), (0x6020, 0x1F#8), (0x6024, 0x01#8)]

theorem test_tables : memWf tables = true := by decide

/-- Bytes at an address above those listed. -/
def store64 (s : State) (e : Nat × Nat) : State :=
  { s with mem := s.mem ++ ((List.range 8).map fun i => (e.1 + i, BitVec.ofNat 8 (e.2 / 256 ^ i))).filter fun c => c.2 != 0#8 }

def records : List (BitVec 256) :=
  [recImg 0x100 1 7 4 16 1 2, recImg 0x10000 4 7 4 16 1 2, recImg (4 * 2 ^ 30) 3 3 4 16 2 2, recImg 0x60000000 5 7 4 16 1 2,
   recImg (2 * 2 ^ 30) 6 7 4 16 1 2 ||| BitVec.ofNat 256 (7 * 2 ^ 160), recImg (3 * 2 ^ 30) 7 3 4 16 1 2, recImg 0x18000 0 3 4 16 1 2, 0#256,
   recImg 0x100 1 7 8 16 13 3, recImg 0x100 1 7 16 16 2 4, recImg 0x100 1 3 1 16 1 0, recImg 0x10000 4 7 4 16 3 2,
   recImg 0x200 2 3 4 16 1 2, recImg 0x102 1 3 4 16 1 2, recImg 0x100 1 0 4 16 1 2, recImg 0x10000 4 7 8 16 13 3,
   recImg 0x60000000 5 7 8 16 13 3]

def richAcct : Acct := ⟨1000000, 1000000, 1000000, 0, 0, 0, 0, false⟩

def ctxDesc : CtxDesc := { CtxDesc.blank with root1 := 0x4000, root2 := 0x1000, hostfn := 1 }

def lab (w : Nat) (ins : List (Nat × Nat × Nat)) : State :=
  let s := put w ins
  let s := { s with
    mem := tables, boot := ⟨1, 0, 0, 3, List.replicate 8 ⟨6, 0, [], [], [], []⟩⟩, replBase := 0x20000000, replSize := 0x10000
    ctxs := tset s.ctxs 1 ⟨ctxDesc, true, false, 1, [], [], [], 0⟩ }
  let s := s.modDie 0 fun d => { d with
    accts := List.replicate 64 richAcct, reach := [(0, [7])], keys := [(0, ⟨true, 0⟩)], frames := [(0, 1#32)]
    keySlots := d.keySlots.set 0 ⟨0, 0, .live⟩ }
  s.modGroup s.cur.grp fun g => { g with slots := records ++ List.replicate 15 0#256 }

/-- One step from `lab` leaves the listed registers so. -/
def labGives (w : Nat) (ins outs : List (Nat × Nat × Nat)) : Bool :=
  thenStrand (step (lab w ins)) fun x => outs.all fun r => x.regs[r.1]? == some (regVal r.2)

/-- One step from a state, and what holds then. -/
def after (s : State) (p : State → Bool) : Bool := thenState (step s) p

def coreAt (s : State) (a n : Nat) : Nat := ofBytes (s.readCore s.cur.grp a n)
def memAt (s : State) (a n : Nat) : Nat := ofBytes (s.readSpa a n)

/-- The cause in the fault record of a strand: bits [7:0] of word 0 (Table 5.2). -/
def causeOf (x : Strand) : Nat := (x.fault.headD 0#32).toNat % 256

/-- A handler, so that a trap leaves its record in the strand. -/
def handled (s : State) : State := s.modLaunch 1 fun l => { l with rc := { l.rc with aHandler := 0x8000, xHandler := 0x9000 } }

/-- Element 3 of the core record holds 0x80. -/
def withCore (s : State) (a n v : Nat) : State := s.writeCore s.cur.grp a (toBytes n v)

theorem test_core_store : after (lab (W 9 0x06 3 0 1) [(1, 2, 3), (3, 1, 0x11223344)]) (fun t => coreAt t 0x10C 4 == 0x11223344) = true := by
  decide +kernel
theorem test_core_load : thenStrand (step (withCore (lab (W 9 0x00 3 0 1) [(1, 2, 3)]) 0x10C 4 0xCAFE)) (fun x => x.regs[3]? == some (regVal (1, 0xCAFE)))
    = true := by decide +kernel
theorem test_byte_load : thenStrand (step (withCore (lab (W 9 0x00 3 10 1) [(1, 2, 3)]) 0x103 1 0x80)) (fun x =>
    x.regs[3]? == some (regVal (1, 0xFFFFFF80))) = true := by decide +kernel
theorem test_pair_store : after (lab (W 9 0x08 4 8 1) [(1, 2, 1), (4, 13, 5), (5, 14, 6)]) (fun t => coreAt t 0x108 8 == 0x600000005) = true := by
  decide +kernel
theorem test_pair_load : thenStrand (step (withCore (lab (W 9 0x02 4 8 1) [(1, 2, 1)]) 0x108 8 0x600000005)) (fun x =>
    x.regs[4]? == some (regVal (13, 5)) && x.regs[5]? == some (regVal (14, 6))) = true := by decide +kernel
theorem test_quad_store : after (lab (W 9 0x0A 4 9 1) [(1, 2, 1), (4, 2, 1), (5, 2, 2), (6, 2, 3), (7, 2, 4)]) (fun t =>
    coreAt t 0x110 16 == 0x4000000030000000200000001) = true := by decide +kernel
theorem test_quad_load : thenStrand (step (withCore (lab (W 9 0x04 4 9 1) [(1, 2, 1)]) 0x110 16 0x4000000030000000200000001)) (fun x =>
    [0, 1, 2, 3].all fun i => x.regs[4 + i]? == some (regVal (2, i + 1))) = true := by decide +kernel
theorem test_chip_store : after (lab (W 9 0x06 3 1 1) [(1, 2, 2), (3, 1, 7)]) (fun t => memAt t 0x10008 4 == 7) = true := by decide +kernel
theorem test_chip_load : thenStrand (step (store64 (lab (W 9 0x00 3 1 1) [(1, 2, 2)]) (0x10008, 9))) (fun x => x.regs[3]? == some (regVal (1, 9)))
    = true := by decide +kernel
theorem test_acquire_load : thenStrand (step (store64 (lab (W 9 0x0C 3 1 1 + 3 * 2 ^ 32) [(1, 2, 2)]) (0x10008, 9))) (fun x =>
    x.regs[3]? == some (regVal (1, 9)) && x.pc == 12#57) = true := by decide +kernel
theorem test_release_store : after (lab (W 9 0x0E 3 1 1 + 3 * 2 ^ 32) [(1, 2, 2), (3, 1, 7)]) (fun t => memAt t 0x10008 4 == 7) = true := by
  decide +kernel
theorem test_loft_store : after (lab (W 9 0x06 3 2 1) [(1, 2, 2), (3, 2, 7)]) (fun t => memAt t (2 ^ 49 + 8) 4 == 7) = true := by decide +kernel
theorem test_clus_store : after (lab (W 9 0x06 3 12 1) [(1, 2, 2), (3, 1, 7)]) (fun t =>
    ofBytes (t.readClus t.cur.grp 0x208 4) == 7) = true := by decide +kernel
theorem test_host_store : after (lab (W 9 0x06 3 5 1) [(1, 2, 2), (3, 1, 7)]) (fun t => memAt t (2 ^ 50 + 3 * 2 ^ 30 + 8) 4 == 0) = true := by
  decide +kernel
/-- A load from another module under a key that is not live answers all ones (R168, R353). -/
theorem test_glob_load : thenStrand (step ((lab (W 9 0x00 3 4 1) [(1, 2, 2)]).modDie 0 fun d => { d with keys := [] })) (fun x =>
    x.regs[3]? == some (regVal (1, 0xFFFFFFFF))) = true := by decide +kernel

/-- The order of checks (R153): empty slot, bounds, permission, alignment, tag. -/
theorem test_access_traps :
    thenStrand (step (handled (lab (W 9 0x00 3 7 1) [(1, 2, 2)]))) (causeOf · == 0x08) = true ∧
    thenStrand (step (handled (lab (W 9 0x00 3 0 1) [(1, 2, 16)]))) (causeOf · == 0x09) = true ∧
    thenStrand (step (handled (lab (W 9 0x00 3 14 1) [(1, 2, 2)]))) (causeOf · == 0x0A) = true ∧
    thenStrand (step (handled (lab (W 9 0x00 3 13 1) [(1, 2, 2)]))) (causeOf · == 0x0B) = true := by decide +kernel
/-! ## Atomics, slots, circles and barriers -/

/-- An atomic on element 2 of the chip record (the element holds `m`): the old value in d, and the element after it. -/
def amo (c w m : Nat) (ins : List (Nat × Nat × Nat)) (old : List (Nat × Nat × Nat)) (new : Nat) : Bool :=
  let s := store64 (lab w ((1, 2, 2) :: ins)) (if c = 15 then 0x10010 else 0x10008, m)
  thenState (step s) fun t => (memAt t (if c = 15 then 0x10010 else 0x10008) (if c = 15 then 8 else 4) == new) &&
    ((t.strand t.cur).map fun x => old.all fun r => x.regs[r.1]? == some (regVal r.2)).getD false

theorem test_atomic_arithmetic :
    amo 1 (W 10 0x00 3 1 1) 5 [(3, 1, 0xFFFFFFFF)] [(3, 1, 5)] 4 = true ∧
    amo 11 (W 10 0x02 3 11 1) 0x3F800000 [(3, 3, 0x3F800000)] [(3, 3, 0x3F800000)] 0x40000000 = true ∧
    amo 1 (W 10 0x04 3 1 1) 5 [(3, 1, 0xFFFFFFFF)] [(3, 1, 5)] 0xFFFFFFFF = true ∧
    amo 1 (W 10 0x06 3 1 1) 5 [(3, 1, 0xFFFFFFFF)] [(3, 1, 5)] 5 = true ∧
    amo 1 (W 10 0x08 3 1 1) 5 [(3, 1, 0xFFFFFFFF)] [(3, 1, 5)] 5 = true ∧
    amo 1 (W 10 0x0A 3 1 1) 5 [(3, 1, 0xFFFFFFFF)] [(3, 1, 5)] 0xFFFFFFFF = true ∧
    amo 15 (W 10 0x18 4 15 1) 0xFFFFFFFF [(4, 13, 1), (5, 14, 0)] [(4, 13, 0xFFFFFFFF), (5, 14, 0)] 0x100000000 = true := by decide +kernel

theorem test_atomic_exchange :
    amo 1 (W 10 0x0C 3 1 1) 0xFF [(3, 1, 0x0F)] [(3, 1, 0xFF)] 0x0F = true ∧ amo 1 (W 10 0x0E 3 1 1) 0xF0 [(3, 1, 0x0F)] [(3, 1, 0xF0)] 0xFF = true ∧
    amo 1 (W 10 0x10 3 1 1) 0xFF [(3, 1, 0x0F)] [(3, 1, 0xFF)] 0xF0 = true ∧ amo 1 (W 10 0x12 3 1 1) 5 [(3, 1, 9)] [(3, 1, 5)] 9 = true ∧
    amo 1 (W 10 0x14 4 1 1) 5 [(4, 1, 5), (5, 1, 8)] [(4, 1, 5)] 8 = true ∧ amo 1 (W 10 0x14 4 1 1) 6 [(4, 1, 5), (5, 1, 8)] [(4, 1, 6)] 6 = true ∧
    amo 1 (W 10 0x16 4 1 1) 5 [(4, 0, 0), (5, 1, 8)] [(4, 1, 5)] 6 = true ∧ amo 1 (W 10 0x16 4 1 1) 8 [(4, 0, 0), (5, 1, 8)] [(4, 1, 8)] 0 = true ∧
    amo 15 (W 10 0x1A 4 15 1) 7 [(4, 13, 7), (5, 14, 0), (6, 13, 1), (7, 14, 2)] [(4, 13, 7), (5, 14, 0)] 0x200000001 = true := by decide +kernel

/-- A slot takes a record from memory, or traps with ASEG where the image is no record; BQRY reads a word of it (R143 to R146). -/
theorem test_slot_words :
    thenState (step (store64 (lab (W 9 0x10 7 4 0) [(4, 13, 0x20000), (5, 14, 0)]) (0x20008, 0x100000000))) (fun t =>
      ((t.group t.cur.grp).map fun g => lget g.slots 7 0#256 == recImg 0 0 0 0 1 0 0).getD false) = true ∧
    thenStrand (step (handled (store64 (lab (W 9 0x10 7 4 0) [(4, 13, 0x20000), (5, 14, 0)]) (0x20000, 2 ^ 63)))) (causeOf · == 0x08) = true ∧
    labGives (W 9 0x12 3 0 2) [] [(3, 2, 4)] = true ∧ labGives (W 9 0x12 3 0 8) [] [(3, 2, 1)] = true ∧ labGives (W 9 0x12 3 7 8) [] [(3, 2, 0)] = true ∧
    thenState (step (lab (W 9 0x14 2 4 0) [(4, 13, 0x20000), (5, 14, 0)])) (fun t =>
      ((t.group t.cur.grp).map fun g => lget g.lslots 2 1#512 == 0#512).getD false) = true ∧
    thenStrand (step (lab (W 10 0x20 0 0 0x23) [])) (fun x => x.pc == 8#57) = true := by decide +kernel

/-- Alone in its circle a thread completes every circle word at once, absent places counting as identities (R127, Table 6.1). -/
theorem test_circle_words :
    gives (W 8 0x00 3 1 2) [(1, 9, 5), (2, 1, 32)] [(3, 9, 5)] = true ∧ gives (W 8 0x02 3 1 1) [(1, 9, 5)] [(3, 9, 0)] = true ∧
    gives (W 8 0x04 3 1 0) [(1, 9, 5)] [(3, 9, 5)] = true ∧ tells (W 8 0x06 5 1 0) [] false = true ∧ tells (W 8 0x08 5 1 0) [] false = true ∧
    gives (W 8 0x0A 3 1 0) [] [(3, 2, 0)] = true ∧ gives (W 8 0x0C 3 1 0) [(1, 2, 7)] [(3, 2, 7)] = true ∧
    gives (W 8 0x0E 3 1 0) [(1, 3, 0x3F800000)] [(3, 3, 0x3F800000)] = true ∧ gives (W 8 0x10 3 1 0) [(1, 2, 7)] [(3, 1, 7)] = true ∧
    gives (W 8 0x12 3 1 0) [(1, 2, 7)] [(3, 1, 7)] = true ∧ gives (W 8 0x14 3 1 0) [(1, 2, 7)] [(3, 2, 7)] = true ∧
    gives (W 8 0x16 3 1 0) [(1, 3, 0x40000000)] [(3, 3, 0x40000000)] = true ∧ gives (W 8 0x18 3 1 0) [(1, 3, 4)] [(3, 2, 1)] = true := by decide +kernel

/-- A barrier of count 1 completes with its first arrival: GEN is one on; of count 2 it collects (Table 6.2). -/
theorem test_barrier_words :
    thenState (step (put (W 8 0x32 0 1 5) [(1, 2, 1)])) (fun t => ((t.group t.cur.grp).map fun g => (lget g.bars 5 Bar.zero).gen == 1).getD false) = true ∧
    thenState (step (put (W 8 0x32 0 1 5) [(1, 2, 2)])) (fun t =>
      ((t.group t.cur.grp).map fun g => lget g.bars 5 Bar.zero == ⟨0, true, 2, 1⟩).getD false) = true ∧
    thenStrand (step (put (W 8 0x30 0 1 5) [(1, 2, 1)])) (fun x => x.pc == 8#57) = true ∧
    thenState (step (put (W 8 0x30 0 1 5) [(1, 2, 2)])) (fun t => t.pend.length == 1) = true ∧
    gives (W 8 0x34 3 0 5) [] [(3, 2, 0)] = true := by decide +kernel

/-- The state as one of a gang of one group (R224). -/
def ganged (s : State) : State :=
  { s.modGroup s.cur.grp (fun g => { g with gang := true }) with gangs := tset s.gangs s.cur.grp ⟨1, List.replicate 8 GangBar.zero⟩ }

theorem test_gang_barrier_words :
    thenStrand (step (handled (put (W 8 0x36 0 1 5) [(1, 2, 1)]))) (causeOf · == 0x02) = true ∧
    thenStrand (step (ganged (put (W 8 0x36 0 1 5) [(1, 2, 1)]))) (fun x => x.pc == 8#57) = true ∧
    thenState (step (ganged (put (W 8 0x38 0 1 5) [(1, 2, 1)]))) (fun t =>
      ((tget t.gangs t.cur.grp).map fun g => (lget g.bars 5 GangBar.zero).gen == 1).getD false) = true := by decide +kernel

/-! ## The matrix unit, handles and copies -/

def tileOf (t : State) (n : Nat) : Tile := ((t.group t.cur.grp).map fun g => lget g.tiles n Tile.zero).getD Tile.zero

/-- MMINIT puts its command into the order of the array, which applies it: ANCHOR −5 (R185). -/
theorem test_mminit : thenState (step (put (W 11 0x00 2 1 0) [(1, 1, 0xFFFFFFFB)])) (fun t => tileOf t 2 == { Tile.zero with e := -5 }) = true := by
  decide +kernel
theorem test_mmloop_reserved : thenStrand (step (handled (put (W 11 0x02 2 1 4 + 0xFFFFFFFF * 2 ^ 32) [(1, 1, 0), (4, 1, 0)]))) (causeOf · == 0x02)
    = true := by decide +kernel
/-- MMNORM without headroom to gain keeps a zero tile; its headroom is 1 to 46 (R188). -/
theorem test_mmnorm : thenState (step (put (W 11 0x04 2 1 0) [(1, 1, 46)])) (fun t => tileOf t 2 == Tile.zero) = true ∧
    thenStrand (step (handled (put (W 11 0x04 2 1 0) [(1, 1, 47)]))) (causeOf · == 0x02) = true := by decide +kernel
/-- MMDRAIN delivers four f32 zeros to `mq` of each thread, two registers in bf16 mode (R190). -/
theorem test_mmdrain : thenState (step (put (W 11 0x06 0 0 0) [])) (fun t =>
      ((t.thread t.cur.thread).map fun h => h.mqIn.ents == List.replicate 4 (some ⟨0#32, 3#5⟩)).getD false) = true ∧
    thenState (step (put (W 11 0x06 0 1 0) [])) (fun t =>
      ((t.thread t.cur.thread).map fun h => h.mqIn.ents == List.replicate 2 (some ⟨0#32, 5#5⟩)).getD false) = true := by decide +kernel
theorem test_mmq : gives (W 11 0x08 3 2 0) [] [(3, 1, 0)] = true := by decide +kernel

def handleAt (t : State) (n : Nat) : Handle := t.handle t.cur.grp n

/-- HSET of handle 3 to a core buffer at 0x1000, its sync word at 0x40 with TARGET 64 (Tables 10.1, 10.2). -/
theorem test_hset : thenState (step (withCore (put (W 12 0x06 3 4 5) [(4, 2, 0x1000), (5, 2, 0x40)]) 0x40 4 64)) (fun t =>
    (handleAt t 3).bound && (handleAt t 3).target == 64 && (handleAt t 3).buf == 0x1000#32 && (handleAt t 3).state == .free) = true := by decide +kernel

/-- Handle 3 bound and full, generation 7. -/
def fullHandle (s : State) (psn : Bool) : State :=
  setHandle s.cur.grp 3 ⟨.full, psn, true, false, 0x1000#32, 0x40#32, 0, 0, 64, 0, 7, false, if psn then 8 else 0⟩ s

theorem test_hwait : thenStrand (step (fullHandle (put (W 12 0x08 6 3 0) []) false)) (fun x => x.regs[6]? == some (regVal (2, 7))) = true ∧
    thenStrand (step (handled (fullHandle (put (W 12 0x08 6 3 0) []) true))) (causeOf · == 0x0F) = true := by decide +kernel
theorem test_hwait_blocks : thenStrand (step (fullHandle (put (W 12 0x08 6 3 1) []) false)) (·.blk == .handle) = true := by decide +kernel
theorem test_hrel : thenState (step (fullHandle (put (W 12 0x0A 0 3 6) [(6, 2, 7)]) false)) (fun t => (handleAt t 3).state == .free) = true ∧
    thenState (step (fullHandle (put (W 12 0x0A 0 3 6) [(6, 2, 6)]) false)) (fun t => (handleAt t 3).state == .full) = true := by decide +kernel
theorem test_hq : thenStrand (step (fullHandle (put (W 12 0x0C 7 3 4) []) false)) (fun x => x.pc == 8#57) = true := by decide +kernel
/-! ## Copies, strong operations, gates and system words -/

/-- Handle 3 bound to a core buffer at 0x1000 with 64 bytes to come. -/
def bound (s : State) : State :=
  setHandle s.cur.grp 3 ⟨.free, false, true, false, 0x1000#32, 0x40#32, 0, 0, 64, 0, 7, false, 0⟩ s

def itemIs (p : Item → Bool) (t : State) : Bool :=
  match t.items with
  | [w] => p w
  | _ => false

/-- CPS of 64 bytes from the chip record into the buffer of handle 3, TMOV of 4 rows of 16 bytes (R215, R216). -/
theorem test_copies :
    thenState (step (bound (lab (W 12 0x02 1 4 6 + 0x03 * 2 ^ 32) [(4, 2, 0), (5, 2, 64), (6, 2, 0)]))) (itemIs fun w => w.total == 64 && w.handle == some 3)
      = true ∧
    thenState (step (bound (lab (W 12 0x04 4 5 6 + 0x03 * 2 ^ 32) [(4, 2, 0x2000), (5, 2, 0), (6, 2, 0x00100004)])))
      (itemIs fun w => w.total == 64 && w.kind == .tmov) = true ∧
    thenStrand (step (handled (lab (W 12 0x02 1 4 6 + 0x03 * 2 ^ 32) [(4, 2, 0), (5, 2, 64), (6, 2, 0)]))) (causeOf · == 0x02) = true := by
  decide +kernel

/-- A CPT through an empty layout slot is ASEG (R213). -/
theorem test_cpt_empty_slot : thenStrand (step (handled (bound (lab (W 12 0x00 1 8 12 + 0x03 * 2 ^ 32)
    [(8, 2, 0), (9, 2, 0), (10, 2, 0), (11, 2, 0), (12, 2, 0)])))) (causeOf · == 0x08) = true := by decide +kernel

/-- JOBS and COLL wait for their card in `cq` (R222, R364). -/
theorem test_cards_wait : thenStrand (step (put (W 12 0x0E 0 0 0) [])) (·.blk == .queue) = true ∧
    thenStrand (step (put (W 13 0x12 0 0 0) [])) (·.blk == .queue) = true := by decide +kernel

/-- A strong store takes SEQ 1 and asks for a slot; RSYNC too; RSTAMP of a line never written gives WSEQ 0 (R314 to R319). -/
theorem test_strong_words :
    thenState (step (lab (W 13 0x00 3 3 1) [(1, 2, 2), (3, 1, 7)])) (fun t => (t.repl 0).issued == 1 && t.slotReqs.length == 1) = true ∧
    thenState (step (lab (W 13 0x02 3 3 1) [(1, 2, 2), (3, 1, 7)])) (fun t => (t.repl 0).upds.length == 1) = true ∧
    thenState (step (lab (W 13 0x04 3 3 1) [(1, 2, 2), (3, 1, 7)])) (fun t => (t.repl 0).upds.length == 1) = true ∧
    thenState (step (lab (W 13 0x06 4 3 1) [(1, 2, 2), (4, 1, 7), (5, 1, 8)])) (fun t => (t.repl 0).upds.length == 1) = true ∧
    thenState (step (lab (W 13 0x08 3 0 0) [])) (fun t => (t.repl 0).issued == 1) = true ∧
    labGives (W 13 0x0A 4 3 1) [(1, 2, 2)] [(4, 2, 0), (5, 2, 0)] = true := by decide +kernel

/-- Gate words send a request and wait; a GSIG of 0 is reserved (R333, R336). -/
theorem test_gate_words :
    thenState (step (lab (W 13 0x0C 0 4 6) [(4, 13, 9), (5, 14, 0), (6, 2, 1)])) (fun t => t.gateOps.length == 1) = true ∧
    thenState (step (lab (W 13 0x0E 8 4 6) [(4, 13, 9), (5, 14, 0), (6, 13, 1), (7, 14, 0)])) (fun t => t.gateOps.length == 1) = true ∧
    thenState (step (lab (W 13 0x10 8 4 0) [(4, 13, 9), (5, 14, 0)])) (fun t => t.gateOps.length == 1) = true ∧
    thenStrand (step (handled (lab (W 13 0x0C 0 4 6) [(4, 13, 9), (5, 14, 0), (6, 2, 0)]))) (causeOf · == 0x02) = true := by decide +kernel

/-- A multicast of 4096 bytes at most; beyond, and with a communicator that is not valid, the word is reserved (R359, R364). -/
theorem test_fabric_words :
    thenStrand (step (handled (lab (W 13 0x16 8 1 0) [(8, 2, 0), (9, 2, 4097), (10, 13, 0x20000), (11, 14, 0)]))) (causeOf · == 0x02) = true ∧
    thenStrand (step (handled (bound (lab (W 13 0x14 8 4 126 + (2 ^ 20 + 3) * 2 ^ 32) [(4, 13, 0x20000), (5, 14, 0), (8, 13, 0x10000), (9, 14, 0)]))))
      (causeOf · == 0x02) = true := by decide +kernel

/-- LAUNCH on a queue of size 0 gives status 2; TRIG of a graph that is not there goes on; CAPQ 2 is the number of resident threads
per core, CLK 0 the time, and ULOG to a ring of no size has status 2 (R291 to R299, Table 13.19). -/
theorem test_system_words :
    labGives (W 14 0x00 3 4 6) [(4, 13, 0x10000), (5, 14, 0), (6, 2, 0)] [(3, 2, 2)] = true ∧
    thenStrand (step (lab (W 14 0x02 0 3 0) [(3, 2, 5)])) (fun x => x.pc == 8#57) = true ∧
    labGives (W 14 0x04 3 4 0) [(4, 2, 2)] [(3, 2, 2048)] = true ∧ labGives (W 14 0x06 8 126 0) [] [(8, 13, 0), (9, 14, 0)] = true ∧
    thenStrand (step (lab (W 14 0x08 0 2 3) [])) (fun x => x.pc == 8#57) = true ∧
    labGives (W 14 0x0A 1 6 7) [(7, 2, 0)] [(1, 2, 2)] = true := by decide +kernel
/-! ## Witnesses: for every statement a state and operands that meet its hypotheses, for statements of several clauses one for each -/

/-- A computation ends with a value and a state of which something holds. -/
def okThen (r : Except Stop (α × State)) (p : α → State → Bool) : Bool :=
  match r with
  | .ok (v, s) => p v s
  | .error _ => false

def trapThen (r : Except Stop (α × State)) (p : TrapInfo → Bool) : Bool :=
  match r with
  | .error (.trap t _) => p t
  | _ => false

def blocks (r : Except Stop (α × State)) (b : Block) : Bool :=
  match r with
  | .error (.block c) => c == b
  | _ => false

def someThen (o : Option α) (p : α → Bool) : Bool :=
  match o with
  | some v => p v
  | none => false

/-- Completion flag 2 selected for flag A. -/
def flagged (s : State) : State := s.modStrand s.cur fun x => { x with hdr := 0x0002F000#32 }

/-- The hypotheses of `Gives`. -/
def rowMet (row : State → Instr → Option Claims.Row) (i : Instr) (s : State) : Bool :=
  someThen (row s i) fun r => okThen (readWord r.1 s) fun v s1 => okThen (Claims.putOut r.1 v (r.2 v).1 s1) fun _ _ => true

def isNext (o : Host.Outcome State Fault Refusal) (t : State) : Bool :=
  match o with
  | .next u => decide (u = t)
  | .fault _ => false
  | .refused _ => false

theorem wit_IntegerWords : rowMet (fun _ => Claims.intRow) (.iadd 3#7 1#7 2#7) (put 0 [(1, 1, 0xFFFFFFFF), (2, 2, 1)]) = true := by decide +kernel
theorem wit_LogicWords : rowMet (fun _ => Claims.logicRow) (.permb 3#7 1#7 2#7) (put (W 1 0x17 3 1 2) []) = true := by decide +kernel
theorem wit_CompareWords : someThen (Claims.predRow (.fcmpLt 5#7 1#7 2#7)) (fun r => okThen (readWord r.1
    (put (W 2 0x12 5 1 2) [(1, 3, 0x7F800001), (2, 3, 0)])) fun _ _ => true) = true := by decide +kernel
theorem wit_MoveWords_row : rowMet Claims.moveRow (.movs 4#7 0#14) (put 0x30C10000 []) = true := by decide +kernel
theorem wit_MoveWords_window : okThen (readWord { cls := 3 } (put (W 3 0x04 0 0 15) [])) (fun v _ => decide (15 * 8 < v.x.regs.length)) = true ∧
    okThen (readWord { cls := 3 } (put (W 3 0x04 0 0 16) [])) (fun v _ => decide (v.x.regs.length ≤ 16 * 8)) = true := by decide +kernel
theorem wit_FloatWords : rowMet (fun _ => Claims.floatRow) (.fadd .ru 3#7 1#7 2#7) (put (W 5 0x03 3 1 2) [(1, 3, 0x3F800000), (2, 3, 0x33800000)])
    = true := by decide +kernel
theorem wit_PackedWords : rowMet Claims.packedRow (.ncvtRn 7#7 3#7 0#3 3#4) (put (W 6 0x18 7 3 3) [(3, 3, 0x40533333)]) = true := by decide +kernel

/-- The hypotheses of `GivesLong`, its word with a flag or without one. -/
def longMet (i : Instr) (s : State) (flag : Bool) : Bool :=
  someThen (Claims.mathRow i) fun r => someThen r.2.1.out fun o => okThen (readWord r.2.1 s) fun v s1 =>
    match v.x.selFlag r.1 with
    | none => !flag && okThen (writeVals v.k v.x o.1 (r.2.2 v).1 s1) fun _ _ => true
    | some g => flag && decide (lget v.x.flags g 0 < 15) && okThen (places v.k v.x o.1 o.2 s1) fun _ _ => true

theorem wit_MathWords : longMet (.fdiv false 3#7 1#7 2#7) (put (W 7 0x14 3 1 2) [(1, 3, 0x3F800000), (2, 3, 0)]) false = true ∧
    longMet (.fdiv false 3#7 1#7 2#7) ((flagged (put (W 7 0x14 3 1 2) [(1, 3, 0x3F800000), (2, 3, 0)])).modStrand ⟨⟨1, 0⟩, 0, .x⟩ fun x =>
      { x with flags := lset x.flags 2 14 }) true = true := by decide +kernel

theorem wit_TransferWords : someThen (Claims.xferRow (.callr 4#7 4#7)) (fun r =>
    let s := put (W 4 0x05 4 4 0) [(4, 13, 0x103), (5, 14, 0)]
    okThen (readWord r.1 s) fun v s1 => okThen (Claims.putOut r.1 v (r.2 v).1 s1) fun _ _ => true) = true := by decide +kernel

/-- The current strand in its handler, entered at word 4 of the clause at 0. -/
def inHandler (at_ : FaultAt) (s : State) : State :=
  s.modStrand s.cur fun x => { x with inHandler := true, hWb := 8, hCpc := 0x100#57, hFpc := 0x104#57, hAt := at_, hSkip := 0x108#57, hSkipIn := true }

theorem wit_ControlWords_plain : okThen (readWord { cls := 4 } (put (W 4 0x0D 0 0 0 + 1) [])) (fun v s1 =>
      !s1.barWaiting v.k && (List.range 12).all fun n => !(1#12).getLsbD n || lget v.x.flags n 0 == 0) = true ∧
    okThen (readWord { cls := 4 } ((put (W 4 0x0D 0 0 0 + 0x800) []).modStrand ⟨⟨1, 0⟩, 0, .a⟩ fun x => { x with flags := lset x.flags 11 1 }))
      (fun v _ => (List.range 12).any fun n => (0x800#12).getLsbD n && lget v.x.flags n 0 != 0) = true := by decide +kernel
theorem wit_ControlWords_again : okThen (readWord { cls := 4 } ((put (W 4 0x07 0 0 0) []).modStrand ⟨⟨1, 0⟩, 0, .a⟩ fun x => { x with redo := true, rgn := { x.rgn with cpc := x.cpc, w := x.pc } }))
    (fun v _ => v.x.again) = true := by decide +kernel
theorem wit_ControlWords_last : okThen (readWord { cls := 4, transfer := true } (inHandler .word (put (W 4 0x09 0 0 1) []))) (fun v s1 =>
    v.x.inHandler && ((List.range 12).all fun n => lget v.x.flags n 0 == 0) && (s1.launch v.k.grp.launch).isSome) = true := by decide +kernel

def ak : StrandKey := ⟨⟨1, 0⟩, 0, .a⟩
def xk : StrandKey := ⟨⟨1, 0⟩, 0, .x⟩
def word5 : TVal := ⟨5#32, 1#5⟩

/-- The state with entries in queue `q` of the thread. -/
def queued (q : QName) (n : Nat) (s : State) : State :=
  s.modThread ak.thread fun t => t.setQ q { t.q q with ents := List.replicate n (some word5), p := n }

/-- The other strand of the thread has ended. -/
def ended (k : StrandKey) (s : State) : State := s.modStrand k fun x => { x with phase := .ended }

theorem wit_OperandRead : popPort .x 120 = some .lq ∧
    someThen ((queued .lq 2 (put 0 [])).thread xk.thread) (fun t => (List.range 2).all fun i => (t.q .lq).front i == [word5, word5][i]?) = true ∧
    someThen ((queued .lq 1 (put 0 [])).thread xk.thread) (fun t => (t.q .lq).front 1 == none && decide ((t.q .lq).q < (t.q .lq).p)) = true ∧
    someThen ((queued .lq 0 (put 0 [])).thread xk.thread) (fun t => (t.q .lq).front 0 == none && decide ((t.q .lq).p ≤ (t.q .lq).q)) = true ∧
    pusherOf .lq = some .a ∧ (put 0 []).hasEnded ak = false ∧ (ended ak (put 0 [])).hasEnded ak = true := by decide +kernel

theorem wit_OperandWrite : pushPort .a 120 = some .lq ∧ ((put 0 []).strand ak).isSome = true ∧ (ended xk (put 0 [])).deadPort ak .lq = true ∧
    (put 0 []).deadPort ak .lq = false ∧
    someThen ((queued .lq 14 (put 0 [])).thread ak.thread) (fun t => (t.q .lq).s == 0 && decide ((t.q .lq).p - (t.q .lq).c + 2 ≤ (t.q .lq).depth))
      = true ∧
    someThen ((queued .lq 15 (put 0 [])).thread ak.thread) (fun t => (t.q .lq).s == 0 && decide ((t.q .lq).depth < (t.q .lq).p - (t.q .lq).c + 2))
      = true := by decide +kernel

/-- What `WordChecks` asks of a form at the current strand of a state. -/
def faultOf (sp : WordForm) (s : State) : Option Cause := someThen' (s.strand s.cur) fun x => sp.encFault s.cur.kind x
where someThen' (o : Option Strand) (f : Strand → Option Cause) : Option Cause :=
  match o with
  | some x => f x
  | none => none

/-- Two words in the body: the first is not the last. -/
def longBody (s : State) : State := s.modStrand s.cur fun x => { x with body := x.body ++ [0#32] }

theorem wit_WordChecks_faults :
    faultOf { cls := 5 } (put 0 []) = some .istr ∧ faultOf { cls := 9 } (put 0x50000000 []) = some .istr ∧
    faultOf { cls := 4, transfer := true } (longBody (put 0 [])) = some .icls ∧ faultOf { cls := 4, transfer := true } (put 0 []) = none ∧
    faultOf { cls := 0, rsv := true } (put 0 []) = some .irsv ∧ faultOf { cls := 0, a := some { n := 119#7, w := 2 } } (put 0 []) = some .irsv ∧
    faultOf { cls := 0, a := some { n := 127#7 } } (put 0 []) = some .iqpt ∧
    faultOf { cls := 0, a := some { n := 119#7 } } ((put 0 []).modStrand ak fun x => { x with wb := 16 }) = some .winf ∧
    faultOf { cls := 0, a := some { n := 119#7 } } ((put 0 []).modStrand ak fun x => { x with wb := 8 }) = none := by decide +kernel

theorem wit_WordChecks_tags : ((put 0 []).strand ak).any (fun x =>
      decide ((form3 0 3#7 1#7 2#7 .int .int).encFault .a x = none) && (Claims.plain x { n := 1#7, acc := .int } == [⟨0#32, 0#5⟩])) = true ∧
    ((put 0 [(1, 1, 5)]).strand ak).any (fun x =>
      decide ((form2 0 3#7 1#7 .int).encFault .a x = none) && (Claims.plain x { n := 1#7, acc := .int } == [word5])) = true := by decide +kernel

theorem wit_FaultingWords : (Claims.formOf (put 0 []) (.iadd 3#7 1#7 2#7)).isSome = true ∧
    trapThen (readWord (form3 0 3#7 1#7 2#7 .int .int) (put 0 [])) (·.cause == .ftag) = true ∧
    blocks (readWord (form3 0 3#7 121#7 2#7 .int .int) (put 0 [])) .queue = true := by decide +kernel

theorem wit_TrapEntry : someThen ((handled (put 0 [])).strand ak) (fun x => someThen ((handled (put 0 [])).launch 1) fun l =>
    Claims.handlerOf ak l != 0 && !x.inHandler) = true := by decide +kernel

/-- A fault area at 0x30000. -/
def withArea (s : State) : State := s.modLaunch 1 fun l => { l with rc := { l.rc with faultArea := 0x30000 } }

/-- The hypotheses of `FaultArea` with an area, its slot free or claimed. -/
def areaMet (s : State) (free : Bool) : Bool :=
  someThen (s.strand ak) fun x => someThen (s.launch 1) fun l => someThen (s.liveCtx l.ctx) fun c =>
    let s0 := s.modStrand ak fun y => { y with fault := Claims.record ak x .word { cause := .ftag } }
    match xlate c.d (Claims.faultSlot ak l) s0 with
    | (.ok p, s1) => l.rc.faultArea != 0 && p.w && p.kind != 1 && (s1.badAt p.spa 64 true).isNone &&
        (s1.readSpa p.spa 4 == [0#8, 0#8, 0#8, 0#8]) == free
    | _ => false

theorem wit_FaultArea : areaMet (withArea (lab 0 [])) true = true ∧ areaMet (store64 (withArea (lab 0 [])) (0x30000, 1)) false = true ∧
    someThen ((put 0 []).launch 1) (fun l => l.rc.faultArea == 0) = true := by decide +kernel

theorem wit_TrapKills : someThen ((put 0 []).strand ak) (fun _ => someThen ((put 0 []).launch 1) fun l =>
      l.id == 1 && Claims.handlerOf ak l == 0) = true ∧
    someThen ((inHandler .word (handled (put 0 []))).strand ak) (·.inHandler) = true := by decide +kernel

theorem wit_TretResumes : okThen (readWord { cls := 4, transfer := true } (put (W 4 0x09 0 0 0) [])) (fun v _ => !v.x.inHandler) = true ∧
    okThen (readWord { cls := 4, transfer := true } (inHandler .fetch (put (W 4 0x09 0 0 0) []))) (fun v _ => v.x.hAt == .fetch) = true ∧
    okThen (readWord { cls := 4, transfer := true } (inHandler .header (put (W 4 0x09 0 0 1) []))) (fun v _ => v.x.hAt == .header) = true ∧
    okThen (readWord { cls := 4, transfer := true } (inHandler .word (put (W 4 0x09 0 0 1) []))) (fun v _ => v.x.hAt == .word) = true := by decide +kernel

/-- The group has two threads. -/
def paired (s : State) : State :=
  let s := s.modGroup ak.grp fun g => { g with size := 2 }
  { s with
    threads := tset s.threads ⟨ak.grp, 1⟩ (Thread.fresh 1 0 [16, 16, 16, 16, 16, 16])
    strands := tset (tset s.strands ⟨ak.grp, 1, .a⟩ (Strand.fresh 0#57 128)) ⟨ak.grp, 1, .x⟩ (Strand.fresh 0#57 128) }

/-- The hypotheses of `CircleWords` in an instance that nobody has joined, which the word completes or not. -/
def circleMet (i : Instr) (s : State) (full : Bool) : Bool :=
  someThen (Claims.circRow i) fun r => okThen (readWord r.2.1 s) fun v s1 =>
    someThen v.x.word fun w => someThen (s.group v.k.grp) fun g =>
      let ci := tgetD g.circ (v.k.tid / 32, Claims.seqOf v.k.kind) ⟨s.cycle, []⟩
      let a := Claims.arrivalOf v r.2.1 r.2.2.1 w
      v.x.selFlag r.1 == none && !s.barWaiting v.k && (r.2.1.out.all fun o => decide (o.1.toNat < 120)) && ci.arr.isEmpty && decide (s1 = s) &&
        (Claims.held v ci a s).instFull v.k.grp g.size (v.k.tid / 32) (Claims.seqOf v.k.kind) (ci.arr ++ [a]) == full

theorem wit_CircleWords : circleMet (.xredAddI32 false 3#7 1#7) (put (W 8 0x0C 3 1 0) [(1, 2, 7)]) true = true ∧
    circleMet (.xredAddI32 false 3#7 1#7) (paired (put (W 8 0x0C 3 1 0) [(1, 2, 7)])) false = true := by decide +kernel

theorem wit_BarrierWords_query : rowMet Claims.bqryRow (.bqryBarrier 3#7 15#7) (put (W 8 0x34 3 0 15) []) = true := by decide +kernel

/-- The hypotheses of `BarrierWords`: whether the generation is still the one joined, and whether the strand goes on from its token. -/
def barrierMet (i : Instr) (s : State) (same tok : Bool) : Bool :=
  someThen (Claims.barRow i) fun (fb, wf, gang, a, im) => okThen (readWord (Claims.barForm (Claims.barNumOk s gang im) a) s) fun v s1 =>
    let c := (Claims.w32 v.a).toNat
    let gen := s1.barGen v.k.grp gang im.toNat
    let s2 := wakeBars (commitAt v.k (v.x.cpc, v.x.pc) (some ⟨gang, im.toNat, gen⟩) (barArrive v.k.grp gang im.toNat (some c) s1))
    decide (1 ≤ c) && decide (c ≤ Claims.barLimit gang) && (!wf || v.x.selFlag fb == none) && !s1.barWaiting v.k &&
      match v.x.tokenHere with
      | none => !tok && (s2.barGen v.k.grp gang im.toNat == gen) == same
      | some t => tok && (s1.barGen v.k.grp gang im.toNat == t.gen) == same

/-- The strand goes on at its word, which made a token of generation `n`. -/
def tokened (n : Nat) (s : State) : State :=
  s.modStrand s.cur fun x => { x with redo := true, rgn := { x.rgn with cpc := x.cpc, w := x.pc, tok := some ⟨false, 5, n⟩ } }

theorem wit_BarrierWords : barrierMet (.bwait false 1#7 5#7) (put (W 8 0x30 0 1 5) [(1, 2, 1)]) false false = true ∧
    barrierMet (.bwait false 1#7 5#7) (put (W 8 0x30 0 1 5) [(1, 2, 4096)]) true false = true ∧
    barrierMet (.gbarv 1#7 7#7) (ganged (put (W 8 0x38 0 1 7) [(1, 2, 131072)])) true false = true ∧
    barrierMet (.bwait false 1#7 5#7) (tokened 0 (put (W 8 0x30 0 1 5) [(1, 2, 2)])) true true = true ∧
    barrierMet (.bwait false 1#7 5#7) (tokened 65535 (put (W 8 0x30 0 1 5) [(1, 2, 2)])) false true = true := by decide +kernel

theorem wit_BarrierGeneration : Bar.zero.collecting = false ∧ (1 : Nat) ≤ 2 ∧ (1 : Nat) ≤ 1 ∧ (1 : Nat) < 2 := by decide
/-! ### Accesses -/

/-- The hypotheses of `CoreAccess` but for its clauses: the record `sl` read with an index of form `ldForm`, and what the clause asks of
record, index and thread. -/
def coreMet (s : State) (sl : Nat) (p : BufRec → Nat → Launch → Bool) : Bool :=
  someThen (s.strand s.cur) fun x => someThen (s.group s.cur.grp) fun g => someThen (s.launch s.cur.grp.launch) fun l =>
    let img := lget g.slots sl 0#256
    let i := (Claims.w32 (Claims.plain x { n := 1#7, acc := .int })).toNat
    decide ((Claims.ldForm 1#7 3#7 1).encFault s.cur.kind x = none) && s.pend.isEmpty && (s.ctx l.ctx).isSome && (x.regs[1]?.map (·.tag)) == some 2#5 &&
      img != 0#256 && [0, 1, 2].contains (bufRec img).esz && (bufRec img).seg == .core && p (bufRec img) i l

theorem wit_CoreAccess :
    coreMet (lab 0 [(1, 2, 16)]) 0 (fun r i _ => decide (r.extent ≤ i)) = true ∧
    coreMet (lab 0 [(1, 2, 15)]) 14 (fun r i _ => decide (i < r.extent) && !r.pr) = true ∧
    coreMet ((lab 0 [(1, 2, 15)]).modLaunch 1 fun l => { l with rc := { l.rc with scratch := 0x13F } }) 0 (fun r i l =>
      decide (i < r.extent) && r.pr && decide (l.rc.scratch < r.form i 0 + 4)) = true ∧
    coreMet (lab 0 [(1, 2, 0)]) 13 (fun r i l => decide (i < r.extent) && r.pr && decide (r.form i 0 + 4 ≤ l.rc.scratch) && r.form i 0 % 4 != 0) = true ∧
    coreMet ((lab 0 [(1, 2, 15)]).modLaunch 1 fun l => { l with rc := { l.rc with scratch := 0x140 } }) 0 (fun r i l =>
      decide (i < r.extent) && r.pr && decide (r.form i 0 + 4 ≤ l.rc.scratch) && r.form i 0 % 4 == 0) = true := by decide +kernel

/-- An index that carries no int tag, an empty slot, and a record that the word does not take: the first two clauses. -/
theorem wit_CoreAccess_tags :
    ((lab 0 [(1, 3, 0)]).strand ak).any (fun x => (Claims.plain x { n := 1#7, acc := .int }).all (·.tag == 3#5)) = true ∧
    ((lab 0 []).group ak.grp).any (fun g => lget g.slots 7 1#256 == 0#256 && (bufRec (lget g.slots 8 0#256)).esz == 3) = true := by
  decide +kernel

/-- Room in the flag of a word. -/
def flagFree (x : Strand) (fb : Bool) : Bool :=
  match x.selFlag fb with
  | some f => decide (lget x.flags f 0 < 15)
  | none => true

/-- An access in its turn waits for nothing, whichever port its plane has, which is an open value. -/
def waitsNot (h : Held) (s : State) : Bool :=
  (s.meetsBad h.die h.loc h.ask.size h.ask.reads).isNone &&
    (match h.loc with
      | .glob _ d _ => reachOf h s == .error || (List.range 16).all fun p => !s.isFenced d 5 p && s.canSend (h.way d p) h.acct h.ask.flits
      | _ => true) &&
    (reachOf h s != .here || s.hbmOk h.ctx h.loc h.ask.size) &&
    match h.loc with
    | .repl d _ => !(h.ask.writes && s.replHeld d)
    | _ => true

theorem waitsNot_holds (h : Held) (s : State) (hw : waitsNot h s = true) : waitAccess h s = .ok ((), s) := by
  simp only [waitsNot, Bool.and_eq_true, Option.isNone_iff_eq_none] at hw
  obtain ⟨⟨⟨hb, hf⟩, hh⟩, hr⟩ := hw
  have hfab : ∀ d p, (if reachOf h s == .error then none else s.leavesBy h) = some (d, p) →
      s.isFenced d 5 p = false ∧ s.canSend (h.way d p) h.acct h.ask.flits = true := by
    intro d p hp
    split at hp
    · cases hp
    · rename_i hne
      unfold State.leavesBy at hp
      split at hp <;> try cases hp
      rename_i m d' a hg
      rw [hg] at hf
      split at hp <;> cases hp
      have hlt : s.portOf h.die m d h.strm a h.ask.isAtomic < 16 := Nat.mod_lt _ (by decide)
      simp only [Bool.or_eq_true, hne, false_or, List.all_eq_true, List.mem_range, Bool.and_eq_true, Bool.not_eq_true',
        Bool.false_eq_true] at hf
      exact hf _ hlt
  simp only [waitAccess, hb]
  split
  · rename_i e he
    split at he
    · rename_i d p hp
      simp [(hfab d p hp).1, (hfab d p hp).2] at he
    · cases he
  · rw [if_neg]
    cases hc : (reachOf h s == .here) <;> cases hloc : h.loc <;> cases hq : h.ask.writes <;> simp_all

/-- Every port of die 0 holds allowances. -/
def openPorts (s : State) : State :=
  s.modDie 0 fun d => { d with ports := List.replicate 16 { Port.zero with allow := [(.pool 0, 64)] } }

/-- This module is module 7, and an area of die 0 is given to the yard of the context. -/
def homed (s : State) : State := { s with modId := 7, yards := [(0, { noYard with valid := true })], areas := [⟨0, 0, 0x10000, 0, 0xFF⟩] }

/-- The accesses that issue from now on are put off. -/
def putOff (s : State) : State := { s with late := true }

/-- An access is performed as it issues, as it is reached, or it is put off. -/
def onTime (go : Option Reach) (h : Held) (s : State) : Bool :=
  match go with
  | some g => s.inTurn h && !s.late && waitsNot h s && reachOf h (Claims.numbered s) == g
  | none => !(s.inTurn h && !s.late)

/-- The hypotheses of `LoadWords`. -/
def loadMet (i : Instr) (s : State) (go : Option Reach) : Bool :=
  someThen (Claims.loadRow i) fun r =>
    okThen (accessWord r.2.1 r.2.2.1 { ak := .read, esz := r.2.2.2.1, bits := (·.pr) } (fun _ => .any) s) fun a s1 =>
      flagFree a.w.x r.1 && okThen (places a.w.k a.w.x r.2.2.2.2.1 (Claims.regsOf (2 ^ a.r.esz)) s1) fun _ s2 =>
        onTime go (Claims.loadAsk a r.2.2.2.2.2 s2) s2

theorem wit_LoadWords :
    loadMet (.ld false 3#7 0#5 1#7) (lab (W 9 0 3 0 1) [(1, 2, 15)]) (some .here) = true ∧
    loadMet (.ld4 false 4#7 9#5 1#7) (lab (W 9 4 4 9 1) [(1, 2, 15)]) (some .here) = true ∧
    loadMet (.lda false 3#7 1#5 1#7 3#32) (flagged (lab (W 9 0x0C 3 1 1 + 3 * 2 ^ 32) [(1, 2, 0)])) (some .here) = true ∧
    loadMet (.ld false 3#7 4#5 1#7) (homed (openPorts (lab (W 9 0 3 4 1) [(1, 2, 0)]))) (some .here) = true ∧
    loadMet (.ld false 3#7 4#5 1#7) ((lab (W 9 0 3 4 1) [(1, 2, 0)]).modDie 0 fun d => { d with keys := [] }) (some .error) = true ∧
    loadMet (.ld false 3#7 4#5 1#7) (openPorts (lab (W 9 0 3 4 1) [(1, 2, 0)])) (some .away) = true ∧
    loadMet (.ld false 3#7 0#5 1#7) (putOff (lab (W 9 0 3 0 1) [(1, 2, 15)])) none = true := by decide +kernel

/-- The hypotheses of `StoreWords` and of `StoreFrame`. -/
def storeMet (i : Instr) (s : State) (go : Option Reach) (p : Acc → Bool) : Bool :=
  someThen (Claims.storeRow i) fun r => okThen (accessWord r.2.1 r.2.2.1 (Claims.storeNeeds r.2.2.2.1) (fun _ => .any) s) fun a s1 =>
    flagFree a.w.x r.1 && (!a.t.sc || !s1.barWaiting a.w.k) &&
      (match a.t.loc with
        | .repl d _ => !s1.replHeld d
        | _ => true) && onTime go (Claims.storeAsk r a s1) (Claims.committed a r.2.1.len s1) && p a

/-- The page of the replicated region, and the glob page, with strong coherence: bit 5 of their first-stage leaves. -/
def scRepl (s : State) : State := { s with mem := memSet s.mem 0x6008 0x3F#8 }
def scGlob (s : State) : State := { s with mem := memSet s.mem 0x6010 0x3F#8 }

theorem wit_StoreWords_here :
    storeMet (.st false 3#7 0#5 1#7) (lab (W 9 6 3 0 1) [(1, 2, 0), (3, 1, 7)]) (some .here) (fun _ => true) = true ∧
    storeMet (.st4 false 4#7 9#5 1#7) (lab (W 9 10 4 9 1) [(1, 2, 15), (4, 2, 1), (5, 2, 1), (6, 2, 1), (7, 2, 1)]) (some .here) (fun _ => true)
      = true ∧
    storeMet (.st false 3#7 3#5 1#7) (lab (W 9 6 3 3 1) [(1, 2, 0), (3, 1, 7)]) (some .here) (fun _ => true) = true ∧
    storeMet (.stl false 3#7 1#5 1#7 3#32) (lab (W 9 0x0E 3 1 1 + 3 * 2 ^ 32) [(1, 2, 0), (3, 1, 7)]) (some .here) (fun _ => true) = true ∧
    storeMet (.st false 3#7 3#5 1#7) (scRepl (lab (W 9 6 3 3 1) [(1, 2, 0), (3, 1, 7)])) (some .here) (fun a => a.t.sc && a.t.loc == .repl 0 0)
      = true := by decide +kernel
theorem wit_StoreWords_away :
    storeMet (.st false 3#7 4#5 1#7) ((lab (W 9 6 3 4 1) [(1, 2, 0), (3, 1, 7)]).modDie 0 fun d => { d with keys := [] }) (some .error)
      (fun _ => true) = true ∧
    storeMet (.st false 3#7 4#5 1#7) (openPorts (lab (W 9 6 3 4 1) [(1, 2, 0), (3, 1, 7)])) (some .away) (!·.t.sc) = true ∧
    storeMet (.st false 3#7 4#5 1#7) (scGlob (openPorts (lab (W 9 6 3 4 1) [(1, 2, 0), (3, 1, 7)]))) (some .away) (·.t.sc) = true ∧
    storeMet (.st false 3#7 0#5 1#7) (putOff (lab (W 9 6 3 0 1) [(1, 2, 0), (3, 1, 7)])) none (!·.t.sc) = true ∧
    storeMet (.st false 3#7 0#5 1#7) (flagged (putOff (lab (W 9 6 3 0 1) [(1, 2, 0), (3, 1, 7)]))) none (!·.t.sc) = true ∧
    storeMet (.st false 3#7 3#5 1#7) (scRepl (putOff (lab (W 9 6 3 3 1) [(1, 2, 0), (3, 1, 7)]))) none (·.t.sc) = true := by decide +kernel

/-- The places of `StoreFrame`. -/
theorem wit_StoreFrame :
    storeMet (.st false 3#7 0#5 1#7) (lab (W 9 6 3 0 1) [(1, 2, 15), (3, 1, 7)]) (some .here) (·.t.loc == .core ak.grp 0x13C) = true ∧
    storeMet (.st false 3#7 12#5 1#7) (lab (W 9 6 3 12 1) [(1, 2, 0), (3, 1, 7)]) (some .here) (·.t.loc == .clus ⟨1, 0⟩ 0x200) = true ∧
    storeMet (.st false 3#7 1#5 1#7) (lab (W 9 6 3 1 1) [(1, 2, 0), (3, 1, 7)]) (some .here) (·.t.loc == .spa 0x10000) = true ∧
    storeMet (.st false 3#7 4#5 1#7) (homed (openPorts (lab (W 9 6 3 4 1) [(1, 2, 0), (3, 1, 7)]))) (some .here) (·.t.loc == .glob 7 0 0) = true ∧
    storeMet (.st false 3#7 3#5 1#7) (lab (W 9 6 3 3 1) [(1, 2, 0), (3, 1, 7)]) (some .here) (·.t.loc == .repl 0 0) = true := by decide +kernel

/-- The hypotheses of `AtomicWords`. -/
def amoMet (i : Instr) (s : State) (go : Option Reach) : Bool :=
  someThen (Claims.amoRow i) fun r =>
    okThen (accessWord (Claims.amoForm r.1 r.2.2.1 r.2.2.2.2) r.2.2.2.1 (Claims.amoNeed r.1) r.1.accepts s) fun a s1 =>
      flagFree a.w.x r.2.1 && !s1.barWaiting a.w.k &&
        okThen (places a.w.k a.w.x r.2.2.1 (if Claims.isWide r.1 then 2 else 1) s1) fun _ s2 =>
          let s3 := commitWord a.w.k 1 s2
          let o := Claims.amoOperands r.1 a.data
          onTime go (Claims.asked a s3 (.atomic r.1 o.1.toNat (if r.1 = .add64 then 0 else o.2.toNat)) true false true none 0
            (some { n := r.2.2.1, w := r.1.reads })) s3

theorem wit_AtomicWords :
    amoMet (.aaddI32 false 3#7 1#5 1#7) (lab (W 10 0 3 1 1) [(1, 2, 0), (3, 1, 7)]) (some .here) = true ∧
    amoMet (.acas64 false 4#7 15#5 1#7) (flagged (lab (W 10 0x1A 4 15 1) [(1, 2, 15), (4, 13, 7), (5, 14, 0), (6, 13, 1), (7, 14, 2)])) (some .here)
      = true ∧
    amoMet (.aaddI32 false 3#7 4#5 1#7) (homed (openPorts (lab (W 10 0 3 4 1) [(1, 2, 0), (3, 1, 7)]))) (some .here) = true ∧
    amoMet (.aaddI32 false 3#7 4#5 1#7) ((lab (W 10 0 3 4 1) [(1, 2, 0), (3, 1, 7)]).modDie 0 fun d => { d with keys := [] }) (some .error) = true ∧
    amoMet (.aaddI32 false 3#7 4#5 1#7) (openPorts (lab (W 10 0 3 4 1) [(1, 2, 0), (3, 1, 7)])) (some .away) = true ∧
    amoMet (.aaddI32 false 3#7 1#5 1#7) (putOff (lab (W 10 0 3 1 1) [(1, 2, 0), (3, 1, 7)])) none = true := by decide +kernel

/-- A BLOAD reads the image at 0x20000: good or not. -/
def bloadMet (s : State) (good : Bool) : Bool :=
  okThen (readWord (Claims.slotWordForm 4#7) s) fun v s1 => okThen (slotRec v.k 7 s1) fun _ _ => okThen (who v.k v.x s1) fun w _ =>
    okThen (readRecord w (Claims.addr57 v.a) 32 32 s1) fun l s2 =>
      let img := BitVec.ofNat 256 (ofBytes l.bytes)
      flagFree v.x false && (img == 0#256 || (recWellFormed img && s2.usable w.g.die w.d w.l.rc (bufRec img).seg (bufRec img).epmod)) == good

/-- An LLOAD the same. -/
def lloadMet (s : State) (good : Bool) : Bool :=
  okThen (readWord (Claims.slotWordForm 4#7) s) fun v s1 => okThen (who v.k v.x s1) fun w _ =>
    okThen (readRecord w (Claims.addr57 v.a) 64 64 s1) fun l s2 =>
      let img := BitVec.ofNat 512 (ofBytes l.bytes)
      flagFree v.x false && (img == 0#512 || (layValid img && s2.usable w.g.die w.d w.l.rc (layRec img).seg (layRec img).epmod)) == good

def addrIns : List (Nat × Nat × Nat) := [(4, 13, 0x20000), (5, 14, 0)]

theorem wit_SlotAndFenceWords :
    bloadMet (lab (W 9 0x10 7 4 0) addrIns) true = true ∧ bloadMet (store64 (lab (W 9 0x10 7 4 0) addrIns) (0x20000, 2 ^ 63)) false = true ∧
    lloadMet (lab (W 9 0x14 2 4 0) addrIns) true = true ∧ lloadMet (store64 (lab (W 9 0x14 2 4 0) addrIns) (0x20000, 2 ^ 63)) false = true ∧
    someThen ((lab (W 9 0x10 7 4 0) [(4, 13, 0x20000), (5, 1, 0)]).strand ak) (fun x => decide ((Claims.slotWordForm 4#7).encFault .a x = none) &&
      Claims.tagOf ((Claims.window x 4#7 2).drop 1) != 14#5) = true ∧
    okThen (readWord { cls := 9, rsv := decide (9 ≤ (8#7).toNat), out := some (3#7, 1) } (lab (W 9 0x12 3 0 8) [])) (fun v s1 =>
      okThen (slotRec v.k 0 s1) fun _ _ => okThen (writeVals v.k v.x 3#7 [⟨1#32, 2#5⟩] s1) fun _ _ => true) = true ∧
    okThen (readWord { cls := 10 } (lab (W 10 0x20 0 1 0x23) [])) (fun v s1 => (s1.openOf v.k).isEmpty && s1.replDoneAt v.k v.x 3) = true ∧
    okThen (readWord { cls := 10 } { lab (W 10 0x20 0 1 0x23) [] with
      globs := [⟨0, 0, 0, 1, 7, 0, 0, 0, 0, .read 4, 0, some ak, some 9, none, 1#5, 2, false⟩],
      pend := [{ Pend.blank 9 ak (Strand.fresh 0#57 128) false 1 with kind := .glob 0 }] }) (fun v s1 => (s1.openOf v.k).any (·.ask.reads)) = true := by
  decide +kernel

theorem wit_RegisterWordFrame : rowMet (fun _ => Claims.intRow) (.iadd64 8#7 4#7 6#7)
    (put (W 0 0x17 8 4 6) [(4, 13, 1), (5, 14, 0), (6, 13, 1), (7, 14, 0)]) = true := by decide +kernel
/-! ### The units -/

/-- The hypotheses of `MatrixWords` for a word with its literal, in an instance that nobody has joined. -/
def matrixMet (i : Instr) (lit : Word) (s : State) (full : Bool) (ok : Vals → Bool) (p : Option Bool → WordForm → Vals → State → Group → Word → Bool) : Bool :=
  someThen (Claims.mmRow s i) fun r => someThen (s.launch s.cur.grp.launch) fun l => someThen (s.group s.cur.grp) fun g =>
    let loop := match i with
      | .mmloop .. => true
      | _ => false
    let sp := if loop then { r.2.1 with
        rsv := r.2.1.rsv || !(!litQl lit && mmLitOk lit && mmClassOk l.rc.fmt lit)
        more := if mmSupplies lit (s.cur.tid % 32) then some (mmSreg lit, mmScaleRegs lit) else none } else r.2.1
    okThen (readWord sp s) fun v s2 => someThen (s.thread v.k.thread) fun th => someThen v.x.word fun iw =>
      let ci := tgetD g.circ (v.k.tid / 32, .matrix) ⟨s.cycle, []⟩
      let a := Claims.mmArrival r.2.1 v iw (if loop then lit else 0#32) false
      ok v && (!loop || (!litQl lit && (!mmSupplies lit (v.k.tid % 32) ||
          (Claims.window v.x (mmSreg lit) (mmScaleRegs lit)).all (·.tag == 9#5)))) &&
        r.1.all (flagFree v.x) && !s2.barWaiting v.k && (r.2.1.out.all fun o => decide (o.1.toNat < 120) || o.1 == 126#7) && th.mqIn.room r.2.2.2 &&
        ci.arr.isEmpty && (Claims.mmHeld v ci a s).instFull v.k.grp g.size (v.k.tid / 32) .matrix (ci.arr ++ [a]) == full &&
        p r.1 r.2.1 v s2 g iw

/-- The loop literal of the short sequence of chapter 8: two steps in format 0, with scales in register 8. -/
def loopLit : Word := 0x00021001#32

theorem wit_MatrixWords :
    matrixMet (.mminit false 2#4 1#7) 0#32 (put (W 11 0x00 2 1 0) [(1, 1, 0xFFFF8000)]) true
      (fun v => decide (-32768 ≤ (Claims.w32 v.a).toInt)) (fun _ _ _ _ _ _ => true) = true ∧
    matrixMet (.mmloop false 0#4 4#7 5#7 loopLit) loopLit (put (0xB0400205 + 0x00021001 * 2 ^ 32) [(4, 1, 0), (5, 1, 0x1000), (8, 9, 0x7F7F)]) true (fun _ => true)
      (fun _ _ _ _ _ _ => true) = true ∧
    matrixMet (.mmnorm false 2#4 1#7) 0#32 (paired (put (W 11 0x04 2 1 0) [(1, 1, 46)])) false (fun v => (Claims.w32 v.a).toNat == 46)
      (fun _ _ _ _ _ _ => true) = true ∧
    matrixMet (.mmdrain false 0#4 0#1) 0#32 (flagged (put (W 11 0x06 0 0 0) [])) true (fun _ => true) (fun _ _ _ _ _ _ => true) = true ∧
    matrixMet (.mmq 3#7 0#4 2#7) 0#32 (put (W 11 0x08 3 0 2) []) true (fun _ => true) (fun _ _ _ _ _ _ => true) = true := by decide +kernel

/-- An instance of class 0xB at which the only thread of its circle has arrived. -/
def matrixArrived (w : Nat) (lit : Word) (a : Nat) (s : State) : State :=
  (s.modGroup ak.grp fun g => { g with
    circ := [((0, .matrix), ⟨0, [⟨0, BitVec.ofNat 32 w, lit, ⟨BitVec.ofNat 32 a, 1#5⟩, ⟨0#32, 1#5⟩, false, []⟩]⟩)] }).modStrand xk fun x =>
      { x with phase := .arrived .matrix }

def issueMet (s : State) (p : Group → Launch → Machine.Circle → Arrival → List Arrival → Instr → Nat × ArrOp → Strand → Bool) : Bool :=
  someThen (s.group ak.grp) fun x => someThen (s.launch 1) fun l => someThen (tget x.circ (0, .matrix)) fun ci =>
    s.instFull ak.grp x.size 0 .matrix ci.arr &&
      match inTidOrder ci.arr 0 with
      | a :: rest =>
        (match decode a.word (some a.lit) with
          | .ok i =>
            someThen (Claims.mmCommand i a (s.scales ak.grp 0 0 8 a.lit) (s.scales ak.grp 0 8 16 a.lit)) fun c =>
              someThen ((clearCircle ak.grp (0, .matrix) s).strand ⟨ak.grp, a.tid, .x⟩) fun y => p x l ci a rest i c y
          | .error _ => false)
      | [] => false

/-- The frames at the start of the sub-slices of core 0 of die 0 are yard 0's; one of them is fenced, or none. -/
def sliceFrames (fences : List (Nat × Nat)) (s : State) : State :=
  (s.modDie 0 fun d => { d with frames := (List.range 16).map (fun j => (8 * j, 1#32)), sfence := fences }).modGroup ak.grp fun x => { x with core := 0 }

theorem wit_MatrixIssue_fenced : [[], [(2, 3)]].map (fun l =>
    let s := matrixArrived 0xB0400205 loopLit 0 (sliceFrames l (lab (0xB0400205 + 0x00021001 * 2 ^ 32) []))
    issueMet s (fun x _ _ _ _ _ c _ => (c.2.fault x (2 ^ 20) 0 s).isNone && (c.2.fencedB x s).isNone) ||
      issueMet s (fun x _ _ _ _ _ c _ => (c.2.fault x (2 ^ 20) 0 s).isNone && c.2.fencedB x s == some (2, 3))) = [true, true] := by decide +kernel

theorem wit_MatrixIssue :
    issueMet (matrixArrived (W 11 0x00 2 1 0) 0#32 5 (put (W 11 0x00 2 1 0) [])) (fun x l _ _ _ _ c _ =>
      (c.2.fault x l.rc.scratch 0 (put 0 [])).isNone) = true ∧
    issueMet (matrixArrived 0xB0400205 loopLit 0x7FFF0 (put (0xB0400205 + 0x00021001 * 2 ^ 32) [])) (fun x l _ _ _ _ c _ =>
      (c.2.fault x l.rc.scratch 0 (put 0 [])).isSome) = true := by decide +kernel

/-- A step that reaches 2^47 − 1 in its first element and adds nothing elsewhere. -/
def stepVals : List StepVal := ⟨.fin, ⟨2 ^ 46 - 1, 1⟩, false⟩ :: List.replicate 127 ⟨.fin, ⟨0, -9⟩, false⟩

/-- A step that takes the first element beyond 2^47, so that the tile's exponent rises by two. -/
def bigVals : List StepVal := ⟨.fin, ⟨2 ^ 46 + 1, 1⟩, false⟩ :: List.replicate 127 ⟨.fin, ⟨0, -9⟩, false⟩

theorem wit_TileArithmetic_rises :
    let t : Tile := { Tile.zero with m := 1 :: List.replicate 127 0, e := 0 }
    let sums := (List.range t.m.length).map fun i => Claims.sumAt t i bigVals
    (bigVals.all fun y => y.sp == .fin && !y.invl && (y.s.m == 0 || decide (t.e ≤ y.s.e))) = true ∧ (sums.any fun v => decide (2 ^ 47 ≤ v.natAbs)) = true ∧
      (sums.all fun v => decide ((Claims.rneShift v 2).natAbs < 2 ^ 46)) = true ∧ (sums.any fun v => decide (2 ^ 46 ≤ (Claims.rneShift v 1).natAbs)) = true ∧
      t.e + (2 : Nat) ≤ 32767 := by
  refine ⟨?_, ?_, ?_, ?_, ?_⟩ <;> decide +kernel

/-- MMNORM with headroom 46 of a tile that holds a 3: 3 rounds to 2 at the next exponent, and to 1 at the one after it; at the greatest
exponent it does not fit. -/
theorem wit_TileArithmetic_norm :
    let t : Tile := { Tile.zero with m := 3 :: List.replicate 127 0, e := 0 }
    (t.m.all fun m => decide ((Claims.scaled m t.e 2).natAbs < 2 ^ (47 - 46))) = true ∧
      (t.m.any fun m => decide (2 ^ (47 - 46) ≤ (Claims.scaled m t.e (2 - 1)).natAbs)) = true ∧
      (t.m.any fun m => decide (2 ^ (47 - 46) ≤ (Claims.scaled m 32767 32767).natAbs)) = true := by
  refine ⟨?_, ?_, ?_⟩ <;> decide +kernel

theorem wit_TileArithmetic :
    let t : Tile := { Tile.zero with m := 1 :: List.replicate 127 0, e := 0 }
    stepVals.length = t.m.length ∧ t.sp.length = t.m.length ∧ (∀ y ∈ t.sp, y = .fin) ∧
      (∀ y ∈ stepVals, y.sp = .fin ∧ y.invl = false ∧ (y.s.m = 0 ∨ t.e ≤ y.s.e)) ∧ (Claims.sumAt t 0 stepVals).natAbs = 2 ^ 47 - 1 ∧
      ((List.range t.m.length).all fun i => decide ((Claims.sumAt t i stepVals).natAbs < 2 ^ 47)) = true ∧ t.e ≤ 32767 := by
  refine ⟨?_, ?_, ?_, ?_, ?_, ?_, ?_⟩ <;> decide +kernel

def hsetMet (s : State) (p : Group → Launch → State → Bool) : Bool :=
  okThen (readWord { cls := 12, a := some { n := 4#7, acc := .int }, b := some { n := 5#7, acc := .int } } s) fun v s1 =>
    someThen (s1.group v.k.grp) fun x => someThen (s1.launch v.k.grp.launch) fun l => p x l s1

def hsetAt (buf syn : Nat) (x : Group) (l : Launch) (s1 : State) : Option Cause :=
  hsetFault (BitVec.ofNat 32 buf) (BitVec.ofNat 32 syn) 3 ak.grp x l.rc (s1.yardOf l.ctx) s1

theorem wit_HandleWords_set :
    rowMet Claims.hqRow (.hq 7#7 3#7 6#7) (put (W 12 0x0C 7 3 6) []) = true ∧
    hsetMet (withCore (put (W 12 0x06 3 4 5) [(4, 2, 0x1000), (5, 2, 0x40)]) 0x40 4 64) (fun x l s1 =>
      (hsetAt 0x1000 0x40 x l s1).isNone && (s1.handle ak.grp 3).state == .free && fieldAt (s1.syncAt ak.grp x 0x40#32) 0 4 != 0) = true ∧
    hsetMet (fullHandle (put (W 12 0x06 3 4 5) [(4, 2, 0x1000), (5, 2, 0x40)]) false) (fun x l s1 =>
      (hsetAt 0x1000 0x40 x l s1).isNone && (s1.handle ak.grp 3).state != .free && (s1.handle ak.grp 3).buf == 0x1000#32 &&
        (s1.handle ak.grp 3).sync == 0x40#32) = true ∧
    hsetMet (put (W 12 0x06 3 4 5) [(4, 2, 0x1020), (5, 2, 0x40)]) (fun x l s1 => hsetAt 0x1020 0x40 x l s1 == some .aaln) = true := by
  decide +kernel

def waitMet (s : State) (p : Vals → Handle → State → Bool) : Bool :=
  okThen (readWord { cls := 12, rsv := !s.handleOk s.cur.grp 3, out := some (6#7, 1) } s) fun v s1 => flagFree v.x false && p v (s1.handle v.k.grp 3) s1

theorem wit_HandleWords_wait :
    waitMet (fullHandle (put (W 12 0x08 6 3 0) []) false) (fun v e s1 => e.state == .full && !e.psn && (v.x.selFlag false).isNone &&
      okThen (writeVals v.k v.x 6#7 [⟨7#32, 2#5⟩] s1) fun _ _ => true) = true ∧
    waitMet (flagged (bound (put (W 12 0x08 6 3 1) []))) (fun v e s1 => e.state == .free && (v.x.selFlag false).isSome &&
      okThen (places v.k v.x 6#7 1 s1) fun _ _ => true) = true ∧
    waitMet (fullHandle (put (W 12 0x08 6 3 0) []) true) (fun _ e _ => e.state == .full && e.psn) = true ∧
    waitMet (bound (put (W 12 0x08 6 3 0) [])) (fun _ e _ => e.state != .full) = true := by decide +kernel

theorem wit_HandleWords_release :
    okThen (readWord { cls := 12, rsv := !(fullHandle (put (W 12 0x0A 0 3 6) [(6, 2, 7)]) false).handleOk ak.grp 3, b := some { n := 6#7, acc := .int } }
      (fullHandle (put (W 12 0x0A 0 3 6) [(6, 2, 7)]) false)) (fun v s1 =>
        (s1.handle v.k.grp 3).state == .full && (s1.handle v.k.grp 3).gen == (Claims.w32 v.b).toNat) = true ∧
    okThen (readWord { cls := 12, rsv := !(fullHandle (put (W 12 0x0A 0 3 6) [(6, 2, 8)]) false).handleOk ak.grp 3, b := some { n := 6#7, acc := .int } }
      (fullHandle (put (W 12 0x0A 0 3 6) [(6, 2, 8)]) false)) (fun v s1 => (s1.handle v.k.grp 3).gen != (Claims.w32 v.b).toNat) = true := by
  decide +kernel

/-- What `submitReady` asks, as a test. -/
def readyFor (w : Who) (fb : Bool) (scope : Nat) (tok : Bool) (it : Item) (s : State) : Bool :=
  flagFree w.x fb && !s.barWaiting w.k && s.released w.k s.nextId scope false &&
    (match s.unitOf it with
      | some u => !s.isFenced u.1 3 u.2
      | none => true) && s.engineRoom w.k.grp it.kind && (!tok || someThen (s.thread w.k.thread) fun t => t.cqIn.room 1)

/-- A two-dimensional layout of 4-byte elements, 8 by 8 with a box of 4 by 4, at 0x10000 of the chip segment (Table 10.5). -/
def layImg : BitVec 512 :=
  BitVec.ofNat 512 (0x10000 + 4 * 2 ^ 57 + 3 * 2 ^ 60 + 2 * 2 ^ 64 + 2 * 2 ^ 68 + 8 * 2 ^ 128 + 8 * 2 ^ 160 + 32 * 2 ^ 256 +
    4 * 2 ^ 400 + 4 * 2 ^ 416 + 2 ^ 432 + 2 ^ 448)

def withLayout (s : State) : State := s.modGroup ak.grp fun g => { g with lslots := lset g.lslots 1 layImg }

/-- The copies inbound to handle 3: literal 3, or outbound: literal 0x103. -/
def cptMet (lit : Word) (s : State) (p : Sub → Handle → List Int → Nat → Bool → Item → State → Bool) : Bool :=
  okThen (subWord { cls := 12, len := 2, a := some { n := 8#7, w := 4, acc := .int }, b := some { n := 12#7, acc := .int } } lit (copyLitOk false)
      (some 1) false s) fun q s1 => okThen (layoutRec q.v.k 1 s1) fun img u =>
    let (hn, out, tok, _, _, scope) := Claims.litOf q.lit
    let h := s1.handle q.w.k.grp hn
    let c := q.v.a.map fun v => v.bits.toInt
    let off := (Claims.w32 q.v.b).toNat
    let it := Claims.cptItem q.w hn h img c off out s1
    let r := layRec img
    decide (u = s1) && s1.handleOk q.w.k.grp hn && img != 0#512 && s1.usable q.w.g.die q.w.d q.w.l.rc r.seg r.epmod && !(out && r.seg == .repl) &&
      (if out then r.pw else r.pr) && s1.descIn q.w.g q.w.l.rc q.w.d.yard h.buf off r.bytes && !r.gather && off % 2 ^ r.esz == 0 &&
      readyFor q.w false scope tok it s1 && p q h c off out it s1

def cptIns : List (Nat × Nat × Nat) := [(8, 1, 0xFFFFFFFF), (9, 1, 2), (10, 1, 0), (11, 1, 0), (12, 1, 64)]

theorem wit_CopyWords_box :
    cptMet 3#32 (withLayout (bound (lab (W 12 0 1 8 12 + 3 * 2 ^ 32) cptIns))) (fun _ _ _ _ _ _ _ => true) = true ∧
    cptMet 0x303#32 (withLayout (bound (lab (W 12 0 1 8 12 + 0x303 * 2 ^ 32) cptIns))) (fun _ _ _ _ out _ _ => out) = true := by decide +kernel

def cpsMet (lit : Word) (s : State) (p : Sub → Bool → Item → State → Bool) : Bool :=
  okThen (subWord { cls := 12, len := 2, a := some { n := 4#7, w := 2, acc := .int }, b := some { n := 6#7, acc := .int } } lit (copyLitOk false)
      (some 1) true s) fun q s1 => okThen (slotRec q.v.k 1 s1) fun img u =>
    let (hn, out, tok, _, _, scope) := Claims.litOf q.lit
    let h := s1.handle q.w.k.grp hn
    let r := bufRec img
    let i := (Claims.w32 q.v.a).toNat
    let n := (Claims.w32 (q.v.a.drop 1)).toNat
    let off := (Claims.w32 q.v.b).toNat
    let it := Claims.cpsItem q.w hn h r i n off out s1
    decide (u = s1) && s1.handleOk q.w.k.grp hn && decide (1 ≤ n) && decide (n ≤ 2 ^ 23) && img != 0#256 && r.seg != .priv &&
      s1.usable q.w.g.die q.w.d q.w.l.rc r.seg r.epmod && !(out && r.seg == .repl) &&
      (spanFault q.w r i n (if out then r.pw else r.pr) (s1.descIn q.w.g q.w.l.rc q.w.d.yard h.buf off n) (off % 2 ^ r.esz == 0)).isNone &&
      readyFor q.w false scope tok it s1 && p q out it s1

def tmovMet (lit : Word) (s : State) (p : Sub → Item → State → Bool) : Bool :=
  okThen (subWord { cls := 12, len := 2, a := some { n := 5#7, acc := .int }, b := some { n := 6#7, acc := .int }, d := some { n := 4#7, acc := .int } }
      lit (copyLitOk true) none false s) fun q s1 =>
    let (hn, _, tok, mode, csz, scope) := Claims.litOf q.lit
    let h := s1.handle q.w.k.grp hn
    let src := Claims.w32 q.v.d
    let off := (Claims.w32 q.v.a).toNat
    let rows := ((Claims.w32 q.v.b).extractLsb' 0 16).toNat
    let rowb := ((Claims.w32 q.v.b).extractLsb' 16 16).toNat
    let it := Claims.tmovItem q.w hn h src off rows rowb (mode == 1) csz s1
    let n := rows * rowb
    let so := descOff src
    let bo := descOff h.buf + off
    mode == 0 && s1.handleOk q.w.k.grp hn && descOk src && decide (1 ≤ rows) && rowb % 16 == 0 && decide (16 ≤ rowb) &&
      decide (min (so + n) (bo + n) ≤ max so bo) && s1.descIn q.w.g q.w.l.rc q.w.d.yard src 0 n &&
      s1.descIn q.w.g q.w.l.rc q.w.d.yard h.buf off n && so % 16 == 0 && bo % 16 == 0 && readyFor q.w false scope tok it s1 && p q it s1

theorem wit_CopyWords_spans :
    cpsMet 3#32 (bound (lab (W 12 2 1 4 6 + 3 * 2 ^ 32) [(4, 2, 0), (5, 2, 64), (6, 2, 0)])) (fun _ _ _ _ => true) = true ∧
    cpsMet 0x303#32 (bound (lab (W 12 2 1 4 6 + 0x303 * 2 ^ 32) [(4, 2, 15), (5, 2, 4), (6, 2, 0)])) (fun _ out _ _ => out) = true ∧
    tmovMet 3#32 (bound (lab (W 12 4 4 5 6 + 3 * 2 ^ 32) [(4, 2, 0x2000), (5, 2, 0), (6, 2, 0x00100004)])) (fun _ _ _ => true) = true := by
  decide +kernel

/-- A card in the outbound `cq`. -/
def carded (c : List Nat) (s : State) : State :=
  s.modThread ak.thread fun t => { t with cqOut := { t.cqOut with ents := c.map fun n => some ⟨BitVec.ofNat 32 n, 2#5⟩, p := c.length } }

/-- A fill of 64 bytes of the chip segment with a pattern (Table 10.8). -/
def fillCard : List Nat := [1, 64, 0xAB, 0, 0x10000, 0x38000000, 64, 0, 0, 0, 0, 0, 0, 0, 0, 0]

def jobMet (s : State) (p : Who → List TVal → Item → State → Bool) : Bool :=
  someThen (s.strand s.cur) fun x => decide (({ cls := 12 } : WordForm).encFault s.cur.kind x = none) && okThen (popVals s.cur .cqOut 16 s) fun c s1 =>
    okThen (who s.cur x s1) fun w u =>
      let it := Claims.jobItem w s.cur c s1
      decide (u = s1) && jobOk c (s1.handleOk s.cur.grp ((Claims.w32 c).extractLsb' 6 7).toNat) &&
        ((((List.range 4).map (jobReg c)).filter (·.valid)).all fun r => s1.usable w.g.die w.d w.l.rc r.seg 0) &&
        readyFor w false ((Claims.w32 c).extractLsb' 16 3).toNat ((Claims.w32 c).getLsbD 4) it s1 && p w c it s1

theorem wit_CopyWords_jobs : jobMet (carded fillCard (lab (W 12 0x0E 0 0 0) [])) (fun _ _ _ _ => true) = true := by decide +kernel
/-! ### Strong operations, gates, collectives and system words -/

/-- What `strongGoes` asks, as a test. -/
def strongFree (w : Who) (fb : Bool) (s : State) : Bool :=
  flagFree w.x fb && !s.barWaiting w.k && s.released w.k s.nextId 4 true && !s.strongHeld w.g.die

def strongMet (i : Instr) (s : State) (p : Acc → StrongKind → Nat → List Place → State → Nat → Bool) : Bool :=
  someThen (Claims.strongRow i) fun (op, fb, d, sl, b) => okThen (slotRec s.cur sl.toNat s) fun img u =>
    let esz := (bufRec img).esz
    decide (u = s) && okThen (accessWord (Claims.strongForm op esz d b) sl (Claims.strongNeed op esz) (strongAcc op esz) s) fun a s1 =>
      s1.inTurn (.plain s1.nextId a.w.k a.t.loc (.write (List.replicate (2 ^ esz) 0#8))) && strongFree a.w fb s1 &&
        match a.t.loc with
        | .repl _ off => if op == .sst then p a op esz [] s1 off
          else okThen (places a.w.k a.w.x d (if esz = 3 then 2 else 1) s1) fun pl s2 => p a op esz pl s2 off
        | _ => false

theorem wit_StrongWords_ops :
    strongMet (.sst false 3#7 3#5 1#7) (lab (W 13 0x00 3 3 1) [(1, 2, 2), (3, 1, 7)]) (fun _ _ _ _ _ _ => true) = true ∧
    strongMet (.satmCas false 4#7 3#5 1#7) (flagged (lab (W 13 0x06 4 3 1) [(1, 2, 15), (4, 1, 7), (5, 1, 8)])) (fun _ _ _ _ _ _ => true) = true ∧
    strongMet (.satmAdd false 4#7 16#5 1#7) (lab (W 13 0x02 4 16 1) [(1, 2, 0), (4, 13, 1), (5, 14, 0)]) (fun _ _ esz pl _ _ =>
      esz == 3 && pl.length == 2) = true ∧
    strongMet (.sst false 3#7 3#5 1#7) (scRepl (lab (W 13 0x00 3 3 1) [(1, 2, 2), (3, 1, 7)])) (fun a _ _ _ _ _ => a.t.sc) = true := by
  decide +kernel

/-- The hypotheses of the second clause: an RSYNC on a member and on a die that is none. -/
def rsyncMet (s : State) (member : Bool) (p : Who → List Place → State → Bool) : Bool :=
  okThen (readWord { cls := 13, out := some (3#7, 1) } s) fun v s1 => okThen (who v.k v.x s1) fun w u => decide (u = s1) &&
    s1.isMember w.g.die == member && (!member || (!s1.isFenced w.g.die 7 0 && strongFree w false s1)) &&
      okThen (places w.k w.x 3#7 1 s1) fun pl s2 => p w pl s2

theorem wit_StrongWords_rsync : rsyncMet (lab (W 13 0x08 3 0 0) []) true (fun _ _ _ => true) = true ∧
    rsyncMet { lab (W 13 0x08 3 0 0) [] with memb := 0xFE } false (fun _ _ _ => true) = true := by decide +kernel

/-- An access of 4 bytes of chip memory that was put off, number 5, for operation 6, with the registers that it has still to read. -/
def late (ask : GlobAsk) (regs : List (Nat × TVal)) : Held :=
  ⟨5, ak, some 6, false, ask, regs, .spa 0x10000, 0x10000, 0, false, none, 0, 1, 0, 0, 1#5, 2, false, []⟩

def rstampMet (s : State) (turn : Bool) (p : Acc → List Place → State → Nat → Nat → Bool) : Bool :=
  okThen (accessWord { cls := 13, b := some { n := 1#7, acc := .int }, out := some (4#7, 2) } 3#5
      { ak := .read, esz := [0, 1, 2, 3, 4], seg := (· == .repl), bits := (·.pr) } (fun _ => .any) s) fun a s1 =>
    flagFree a.w.x false && !s1.barWaiting a.w.k && okThen (places a.w.k a.w.x 4#7 2 s1) fun pl s2 =>
      match a.t.loc with
      | .repl die off => p a pl s2 die off && s1.inTurn (.plain s1.nextId a.w.k (.repl die (off / 32 * 32)) (.read 32)) == turn
      | _ => false

theorem wit_StrongWords_rstamp :
    rstampMet (lab (W 13 0x0A 4 3 1) [(1, 2, 15)]) true (fun _ _ _ _ _ => true) = true ∧
    rstampMet { lab (W 13 0x0A 4 3 1) [(1, 2, 15)] with
      nextId := 1, held := [{ late (.read 4) [] with id := 0, loc := .repl 0 32, acq := true }] } false
      (fun _ _ _ _ _ => true) = true := by decide +kernel

def releaseFree (v : Vals) (s : State) : Bool := !s.barWaiting v.k && s.released v.k s.nextId 6 false

/-- The hypotheses of `GateWords`, but for the check of its operands and the two clauses. -/
def gateMet (i : Instr) (s : State) (p : Claims.GateRow → Vals → Who → State → Bool) : Bool :=
  someThen (Claims.gateRow i) fun r => okThen (readWord r.2.1 s) fun v s1 =>
    decide ((Claims.w64 v.a).toNat < 2 ^ 36) && okThen (who v.k v.x s1) fun w u => decide (u = s1) && flagFree v.x r.1 && releaseFree v s1 && p r v w s1

/-- The words: GSIG of 1, GWAIT and GRD of gate 9. -/
def gsig1 : State := lab (W 13 0x0C 0 4 6) [(4, 13, 9), (5, 14, 0), (6, 2, 1)]
def gwait1 : State := lab (W 13 0x0E 8 4 6) [(4, 13, 9), (5, 14, 0), (6, 13, 1), (7, 14, 0)]
def grd1 : State := lab (W 13 0x10 8 4 0) [(4, 13, 9), (5, 14, 0)]

theorem wit_GateWords_send :
    gateMet (.gsig false 4#7 6#7) gsig1 (fun _ v _ s1 => Claims.w32 v.b != 0#32 && s1.gateOps.isEmpty) = true ∧
    gateMet (.gwait false 8#7 4#7 6#7) gwait1 (fun r _ _ s1 => s1.gateOps.isEmpty && r.2.1.out == some (8#7, 2) && pushPort .a 8 == none) = true ∧
    gateMet (.grd false 8#7 4#7) grd1 (fun _ _ _ s1 => s1.gateOps.isEmpty) = true := by decide +kernel

/-- The gate has answered what the current strand asked. -/
def answered (ask : GateAsk) (val : Nat) (s : State) : State := { s with gateOps := [⟨0, s.cur, 1, 1, 9, ask, .answered val, none, false⟩] }

def gateAnswered (i : Instr) (s : State) (p : Claims.GateRow → Vals → Who → GateOp → Nat → List Place → State → Bool) : Bool :=
  gateMet i s fun r v w s1 => someThen (s.gateOps.find? (·.owner == v.k)) fun o =>
    match o.st with
    | .answered val => decide (o.ask = r.2.2.2.1 v) &&
      (if r.2.2.2.2.2 = 0 then p r v w o val [] s1 else okThen (places v.k v.x r.2.2.2.2.1 r.2.2.2.2.2 s1) fun pl s2 => p r v w o val pl s2)
    | _ => false

theorem wit_GateWords_answered :
    gateAnswered (.gsig false 4#7 6#7) (answered (.sig 1) 0 gsig1) (fun _ v _ _ _ _ _ => Claims.w32 v.b != 0#32) = true ∧
    gateAnswered (.gwait false 8#7 4#7 6#7) (answered (.wait 1) 5 gwait1) (fun _ _ _ _ _ _ _ => true) = true ∧
    gateAnswered (.gwait false 8#7 4#7 6#7) (answered (.wait 1) 5 (flagged gwait1)) (fun _ v _ _ _ _ _ => (v.x.selFlag false).isSome) = true ∧
    gateAnswered (.grd false 8#7 4#7) (answered .rd (2 ^ 63) grd1) (fun _ _ _ _ _ _ _ => true) = true := by decide +kernel

/-- Many words of 64 bits in memory, from an address above those listed. -/
def storeWords (s : State) (a : Nat) (l : List Nat) : State :=
  ((List.range l.length).zip l).foldl (fun s e => if e.2 = 0 then s else store64 s (a + 8 * e.1, e.2)) s

/-- A multicast list of one entry: die 1 of this module, at 0x18000 (Table 17.2). -/
def mcstLab : State :=
  storeWords (lab (W 13 0x16 8 1 0) [(8, 2, 15), (9, 2, 4), (10, 13, 0x20000), (11, 14, 0)]) 0x20000 [1, 0, 0x18000, 2 ^ 20]

def mcstMet (s : State) (p : Vals → BitVec 256 → Who → RecRead → State → Bool) : Bool :=
  okThen (readWord { cls := 13, d := some { n := 8#7, w := 4 } } s) fun v s1 => okThen (slotRec v.k 1 s1) fun img u => okThen (who v.k v.x s1) fun w u' =>
    decide (u = s1) && decide (u' = s1) &&
    let r := bufRec img
    let i := (Claims.w32 v.d).toNat
    let n := (Claims.w32 (v.d.drop 1)).toNat
    let tg := fun j => Claims.tagOf (v.d.drop j)
    [1#5, 2#5].contains (tg 0) && [1#5, 2#5].contains (tg 1) && tg 2 == 13#5 && tg 3 == 14#5 && img != 0#256 && mcstTagOk 0 r.etag &&
      decide (1 ≤ n) && decide (n ≤ 4096) && r.seg == .chip && s1.usable w.g.die w.d w.l.rc r.seg r.epmod && (spanFault w r i n r.pr true true).isNone &&
      okThen (readList w (((Claims.w64 (v.d.drop 2)).setWidth 57).toNat) s1) fun l s2 => mcstListOk l.bytes n &&
        let s3 := Claims.logged w l s2
        readyFor w false 6 true (Claims.mcstItem w 0 n i r l.bytes s3) s3 && p v img w l s3

theorem wit_CollectiveWords_mcst : mcstMet mcstLab (fun _ _ _ _ _ => true) = true := by decide +kernel

/-- Die 0 has a communicator 3 of one rank, of context 1. -/
def joined (s : State) : State := s.modDie 0 fun d => { d with comms := [(3, ⟨true, true, 0, 1, 1, 0, 0, 0, 0x30000⟩)] }

/-- An all-reduce of 16 elements of 4 bytes (Table 17.5). -/
def collWords : List Nat := [0x00030300, 16, 0x10000, 0, 0x18000, 0, 3, 0]

def collMet (s : State) (p : Who → CollCard → Nat → Nat → State → State → Bool) : Bool :=
  someThen (s.strand s.cur) fun x => decide (({ cls := 13 } : WordForm).encFault s.cur.kind x = none) && okThen (popVals s.cur .cqOut 8 s) fun l s1 =>
    okThen (who s.cur x s1) fun w u => decide (u = s1) &&
      let c := collCard l
      let cm := s1.comm w.g.die c.comm
      let y := Claims.collOf w c s1
      let ns := y.srcBytes cm.nranks cm.myrank
      let nd := y.dstBytes cm.nranks
      s1.commOk w c.comm && c.ok cm.nranks (s1.handleOk s.cur.grp c.handle) && c.src % dtBytes c.dt == 0 && c.dst % dtBytes c.dt == 0 &&
        okThen (chipRange w c.src ns false s1) fun _ s2 => okThen (chipRange w c.dst nd true s2) fun _ s3 =>
          readyFor w false c.scope c.tok (Claims.collItem w s.cur c ns nd s3) s3 && p w c ns nd s1 s3

theorem wit_CollectiveWords_coll : collMet (carded collWords (joined (bound (lab (W 13 0x12 0 0 0) [])))) (fun _ _ _ _ _ _ => true) = true := by
  decide +kernel

/-- A map of one dimension of 16 elements over one rank (Table 17.7), at 0x20000, into memory. -/
def a2atLit : Word := 0x00300083#32
def a2atLab : State :=
  storeWords (joined (bound (lab (W 13 0x14 8 4 6 + 0x00300083 * 2 ^ 32) [(4, 13, 0x20000), (5, 14, 0), (6, 13, 0x18000), (7, 14, 0), (8, 13, 0x10000), (9, 14, 0)])))
    0x20000 [0x0000001000000211, 0, 0x0000000100000000, 0, 16, 0, 0x1000000000]

def a2atMet (s : State) (p : Sub → BitVec 1024 → State → State → Bool) : Bool :=
  okThen (subWord { cls := 13, len := 2, a := some (Claims.pair 4#7), b := some (Claims.pair 6#7), d := some (Claims.pair 8#7) } a2atLit a2atLitOk none false s)
    fun q s1 =>
    let hn := (q.lit.extractLsb' 0 7).toNat
    let cn := (q.lit.extractLsb' 20 8).toNat
    let ma := Claims.addr57 q.v.a
    let src := Claims.addr57 q.v.d
    let dst := Claims.addr57 q.v.b
    q.lit.getLsbD 7 && s1.handleOk q.w.k.grp hn && s1.commOk q.w cn && okThen (readRuns q.w ma 2 s1) fun rd s2 =>
        let s3 := Claims.logged q.w rd s2
        let img := BitVec.ofNat 1024 (ofBytes rd.bytes)
        let m := lmap img
        let ns := m.local_ m.sax * 2 ^ m.esz
        let nd := m.local_ m.dax * 2 ^ m.esz
        mapOk img (s1.comm q.w.g.die cn).nranks && src % 2 ^ m.esz == 0 && dst % 2 ^ m.esz == 0 && okThen (chipRange q.w src ns false s3) fun _ s4 =>
          okThen (chipRange q.w dst nd true s4) fun _ s5 =>
            readyFor q.w false (q.lit.extractLsb' 16 3).toNat (q.lit.getLsbD 9) { Item.blank s5.nextId q.w.g.die q.w.l.ctx q.w.k .coll with
              regions := [⟨.mem .chip, src, src + ns, false⟩, ⟨.mem .chip, dst, dst + nd, true⟩]
              handle := some hn, inbound := true, counts := true, total := nd } s5 && p q img s1 s5

theorem wit_CollectiveWords_a2at : a2atMet a2atLab (fun _ _ _ _ => true) = true := by decide +kernel
/-! ### Words of class 0xE, the decoder, and steps -/

/-- Context 1 with its queue table at 0x20000 (Table 13.1): queue 1 a device queue of 4 entries at 0x21000, its HEADADDR 0x22000. -/
def queuedCtx (dev : Nat) (rt : QueueRt) (s : State) : State :=
  storeWords { s with ctxs := tset s.ctxs 1 ⟨{ ctxDesc with qtable := 0x20000 }, true, false, 1, [(1, rt)], [], [], 0⟩ } 0x20020
    [0x21000, 4 + dev * 2 ^ 35, 0x22000]

def launchWord : State := lab (W 14 0x00 3 4 6) [(4, 13, 0x10000), (5, 14, 0), (6, 2, 1)]

def launchMet (s : State) (p : Vals → Who → State → Bool) : Bool :=
  okThen (readWord { cls := 14, a := some (Claims.pair 4#7), b := some { n := 6#7, acc := .int }, out := some (3#7, 1) } s) fun v s1 =>
    decide ((Claims.w32 v.b).toNat ≤ 63) && (Claims.w64 v.a).toNat % 64 == 0 && releaseFree v s1 && okThen (who v.k v.x s1) fun w u => decide (u = s1) &&
      !s1.isFenced ((yardDies (s1.yard w.d.yard)).headD 0) 6 0 && p v w (commitWord v.k 1 s1)

/-- The cases of an append: what the word's queue descriptor says and how far its TAIL stands before its HEAD. -/
def appendMet (s : State) (p : Vals → Ctx → QDesc → QueueRt → State → State → Bool) : Bool :=
  launchMet s fun v w s2 => someThen (s2.liveCtx w.l.ctx) fun x =>
    match readQDesc x (s2.homeDie x) (Claims.w32 v.b).toNat s2 with
    | (some e, s3) => p v x e (x.queue (Claims.w32 v.b).toNat) s2 s3
    | (none, _) => false

theorem wit_SystemWords_launch :
    launchMet launchWord (fun v w s2 => okThen (writeVals v.k v.x 3#7 (Claims.n32 (appendLaunch w.l.ctx 1 0x10000 s2).1) (appendLaunch w.l.ctx 1 0x10000 s2).2)
      fun _ _ => true) = true ∧
    appendMet (queuedCtx 0 QueueRt.zero launchWord) (fun _ _ e _ _ _ => e.size == 4 && !e.dev) = true ∧
    appendMet (queuedCtx 1 ⟨2 ^ 32 - 2, 2, false, none, []⟩ launchWord) (fun _ _ e r _ _ => e.dev && decide (e.size ≤ (r.tail + 2 ^ 32 - r.head) % 2 ^ 32)) = true ∧
    appendMet (queuedCtx 1 ⟨2 ^ 32 - 2, 1, false, none, []⟩ launchWord) (fun _ x e r _ s3 => e.dev &&
      decide ((r.tail + 2 ^ 32 - r.head) % 2 ^ 32 < e.size) && (devWrite x.d (s3.homeDie x) (e.ring + 32 * (r.tail % e.size)) (Claims.launchEntry 0x10000) s3).1) = true := by
  decide +kernel

/-- A graph of context 1 in slot 255 of die 0. -/
def graphed (g : Graph) (s : State) : State := s.modDie 0 fun d => { d with graphs := [(255, g)] }

def trigMet (s : State) (p : Who → Nat → State → Bool) : Bool :=
  okThen (readWord { cls := 14, a := some { n := 3#7, acc := .int } } s) fun v s1 => decide ((Claims.w32 v.a).toNat ≤ 255) && releaseFree v s1 &&
    okThen (who v.k v.x (commitWord v.k 1 s1)) fun w u => decide (u = commitWord v.k 1 s1) && !u.isFenced w.g.die 6 1 &&
      p w (Claims.w32 v.a).toNat u

theorem wit_SystemWords_trig :
    trigMet (graphed ⟨1, 0, [], 0, false, false, none, []⟩ (lab (W 14 0x02 0 3 0) [(3, 2, 255)])) (fun w g s2 =>
      someThen (tget (s2.die w.g.die).graphs g) fun y => y.ctx == w.l.ctx) = true ∧
    trigMet (graphed ⟨2, 0, [], 0, false, false, none, []⟩ (lab (W 14 0x02 0 3 0) [(3, 2, 255)])) (fun w g s2 =>
      someThen (tget (s2.die w.g.die).graphs g) fun y => y.ctx != w.l.ctx) = true := by decide +kernel

theorem wit_SystemWords_read :
    okThen (readWord { cls := 14, a := some { n := 4#7, acc := .int }, out := some (3#7, 1) } (put (W 14 0x04 3 4 0) [(4, 2, 13)])) (fun v s1 =>
      someThen (Claims.capTable[(Claims.w32 v.a).toNat]?) fun n => okThen (writeVals v.k v.x 3#7 (Claims.n32 n) s1) fun _ _ => true) = true ∧
    okThen (readWord { cls := 14, a := some { n := 4#7, acc := .int }, out := some (8#7, 2) } (put (W 14 0x06 8 4 0) [(4, 2, 1)])) (fun v s1 =>
      Claims.w32 v.a == 1#32 && okThen (writeVals v.k v.x 8#7 (Claims.two 13#5 14#5 (BitVec.ofNat 64 s1.cycle)).1 s1) fun _ _ => true) = true := by
  decide +kernel

theorem wit_SystemWords_log :
    okThen (readWord { cls := 14, a := some { n := 2#7 }, b := some { n := 3#7 } } (lab (W 14 0x08 0 2 3) [(2, 3, 0x7F800000)])) (fun v s1 =>
      okThen (who v.k v.x s1) fun _ u => decide (u = s1)) = true ∧
    okThen (readWord { cls := 14, a := some { n := 6#7, w := 2 }, b := some { n := 7#7, acc := .int }, out := some (1#7, 1) }
      (lab (W 14 0x0A 1 6 7) [(7, 2, 7)])) (fun v s1 => decide ((Claims.w32 v.b).toNat ≤ 7) && releaseFree v s1 &&
        okThen (who v.k v.x (commitWord v.k 1 s1)) fun w s2 => decide (s2 = commitWord v.k 1 s1) &&
          let r := appendURing w.l.ctx w.l.id w.g.die 7 (Claims.w64 v.a).toNat v.k.tid (v.k.kind == .x) s2
          okThen (writeVals v.k v.x 1#7 (Claims.n32 r.1) r.2) fun _ _ => true) = true := by decide +kernel

theorem wit_DecodeEncode : encode (.mmloop false 0#4 4#7 5#7 0x00021001#32) = [0xB0400205#32, 0x00021001#32] ∧ encode (.iadd 3#7 1#7 2#7) = [0x0000C082#32] := by
  decide +kernel
theorem wit_EncodeDecode : decode 0xB0400205#32 (some 0x00021001#32) = .ok (.mmloop false 0#4 4#7 5#7 0x00021001#32) := by decide +kernel

/-- What `standsAt` asks, as a test. -/
def stands (s : State) (p : Strand → Word → Bool) : Bool :=
  s.agenda.isEmpty && decide (s.ran < 64) && s.groupIssues s.cur.grp && someThen (s.strand s.cur) fun x => x.phase == .body &&
    (x.blk == .none || x.blk == .again) &&
    someThen (x.body[(x.pc - x.cpc).toNat / 4 - 1]?) fun w => p x w

theorem wit_StepRunsWord :
    stands { put (W 0 0x00 3 1 2) [] with ran := 63 } (fun _ _ => true) = true ∧
    stands (put 0xF0000000 []) (fun x w => match decode w (Claims.nextWord x) with
      | .ok _ => false
      | .error _ => true) = true ∧
    stands (put (W 0 0x00 3 1 2) []) (fun x w => match decode w (Claims.nextWord x) with
      | .ok i => i == .iadd 3#7 1#7 2#7
      | .error _ => false) = true := by decide +kernel

theorem wit_StepTakesInputs :
    ({ put 0 [] with agenda := [.ev .moduleReset .none, .elapse 1] } : State).agenda = .ev .moduleReset .none :: [.elapse 1] ∧
    someThen ((put (W 0 0x00 3 1 2) []).strand xk) (fun x => x.phase == .header) = true ∧
    someThen ((put (W 0 0x00 3 1 2) []).strand ak) (fun x => x.phase == .body && (put 0 []).groupIssues ak.grp && someThen x.word fun w =>
      match decode w x.litWord with
      | .ok i => i == .iadd 3#7 1#7 2#7
      | .error _ => false) = true ∧
    (let s := (put (W 0 0x00 3 1 2) []).modStrand ak fun x => { x with blk := .yield }
     someThen (s.strand ak) (·.blk == .yield) && s.strands.any fun e => decide (e.1 ≠ ak) &&
       decide ((s.group e.1.grp).map (fun g => (g.die, g.core)) = (s.group ak.grp).map fun g => (g.die, g.core)) && s.strandReady e.1 e.2) = true ∧
    (let s := ((put (W 0 0x00 3 1 2) []).modStrand ak fun x => { x with blk := .yield }).modStrand xk fun x => { x with phase := .ended }
     someThen (s.strand ak) (·.blk == .yield) && s.strands.all fun e => decide (e.1 = ak) || !s.strandReady e.1 e.2) = true := by decide +kernel
/-! ### Clauses, stalls and engines -/

/-- The current strand at the header `h`, which stands at 0x10000 with two words after it; the launch began with the same bytes. -/
def atHeaderWord (h : Nat) (s : State) : State :=
  let s := storeWords s 0x10000 [h + (W 0 0x00 3 1 2) * 2 ^ 32, W 0 0x00 3 1 2]
  (s.modLaunch 1 fun l => { l with code := s.mem }).modStrand ak fun x => { x with cpc := 0x10000#57, pc := 0x10000#57, phase := .header }

/-- What the fetch of the current strand's clause brings. -/
def clauseMet (s : State) (p : Strand → List Word → Option (Nat × Fetched) → State → Bool) : Bool :=
  someThen (s.strand ak) fun x => someThen (s.group ak.grp) fun g => someThen (s.launch 1) fun l => someThen (s.ctx l.ctx) fun c =>
    let r := fetchClause ⟨ak, x, g, l, c.d⟩ s
    x.phase == .header && g.life.issues && someThen (r.2.strand ak) fun y => decide (y = x) && p x r.1.1 r.1.2 r.2

def isFault (c : Cause) (o : Option (Nat × Fetched)) : Bool :=
  match o with
  | some (_, .fault d _) => d == c
  | _ => false

def entryMet (h : Nat) (s : State) (f : Option Cause) (p : Strand → Word → Bool) : Bool :=
  clauseMet (atHeaderWord h s) fun x ws o _ =>
    match ws with
    | h :: body => o.isNone && body.length == 2 && Claims.headerFault h == f && p x h
    | [] => false

theorem wit_ClauseEvents_header :
    entryMet 0xE100 (lab 0 []) (some .icls) (fun _ _ => true) = true ∧ entryMet 0xF101 (lab 0 []) (some .irsv) (fun _ _ => true) = true ∧
    entryMet 0x8000F100 ((lab 0 []).modStrand ak fun x => { x with flags := lset x.flags 11 1 }) none (fun x h => (List.range 12).any fun n =>
      h.getLsbD (20 + n) && lget x.flags n 0 != 0) = true ∧
    entryMet 0xFF185 ((lab 0 []).modStrand ak fun x => { x with preds := 32#128 }) none (fun x h => (!x.inside) && h.getLsbD 7 &&
      x.preds.getLsbD (h.extractLsb' 0 7).toNat) = true ∧
    entryMet 0xFF185 (lab 0 []) none (fun x h => (!x.inside) && h.getLsbD 7 && !x.preds.getLsbD (h.extractLsb' 0 7).toNat) = true ∧
    entryMet 0xFF100 ((lab 0 []).modStrand ak fun x => { x with inside := true }) none (fun x _ => x.inside) = true := by decide +kernel

theorem wit_ClauseEvents_fault :
    clauseMet ((lab 0 []).modStrand ak fun x => { x with cpc := 0x1000000000#57, pc := 0x1000000000#57, phase := .header }) (fun _ _ o _ => isFault .anrs o)
      = true := by decide +kernel

/-- A strand that waits on flag 11 at its header, then one whose flag has become clear. -/
def waiting (n : Nat) (s : State) : State :=
  s.modStrand ak fun x => { x with hdr := 0x8000F000#32, flags := lset x.flags 11 n, phase := .flags, blk := .flag }

theorem wit_ClauseEvents_wait :
    someThen ((waiting 1 (lab 0 [])).strand ak) (fun x => x.phase == .flags && (lab 0 []).groupIssues ak.grp && lget x.flags 11 0 == 1) = true ∧
    someThen ((waiting 0 (lab 0 [])).strand ak) (fun x => x.phase == .flags && lget x.flags 11 0 == 0 && !x.inside) = true := by decide +kernel

theorem wit_ClauseEvents_words : someThen ((put 0xF0000000 []).strand ak) (fun x =>
    x.phase == .body && x.body[(x.pc - x.cpc).toNat / 4 - 1]? == some 0xF0000000#32 && match decode 0xF0000000#32 (if x.body.length ≤ (x.pc - x.cpc).toNat / 4 - 1 + 1 then none else some 0#32) with
    | .error .unassigned => true
    | _ => false) = true := by decide +kernel

/-- An operation of the current strand under flag 2 with some results to come. -/
def pending (ds : List Dest) (s : State) : State :=
  { s.modStrand ak fun x => { x with flags := lset x.flags 2 1 } with
    pend := [{ id := 5, owner := ak, flag := some 2, committed := false, cpc := 0#57, fpc := 4#57, len := 1, kind := .ready, places := [],
               tags := [], dests := ds, invl := false, divz := false, ovfl := false, unfl := false }] }

theorem wit_ClauseEvents_completion :
    someThen ((pending [.reg 3 word5] (lab 0 [])).pend.find? (·.id == 5)) (fun p => p.kind == .ready && p.dests == [.reg 3 word5] && p.flag == some 2 && !p.invl)
      = true ∧
    someThen ((pending [.reg 4 word5, .reg 5 word5] (lab 0 [])).pend.find? (·.id == 5)) (fun p =>
      p.kind == .ready && decide (2 ≤ p.dests.length) && p.dests[1]? == some (.reg 5 word5)) = true := by decide +kernel

def lateAt (l : List Held) (s : State) : State :=
  { s with held := l, pend := [{ Pend.blank 6 ak (Strand.fresh 0#57 128) false 1 with flag := some 2, kind := .data 5 }] }

theorem wit_ClauseEvents_held :
    (let s := lateAt [{ late (.write [1#8, 2#8, 3#8, 4#8]) [] with id := 4 }, late (.read 4) []] (lab 0 [])
     (s.pend.find? (·.id == 5)).isNone && someThen (s.held.find? (·.id == 5)) fun h => !s.inTurn h) = true ∧
    (let s := lateAt [late (.read 4) []] (lab 0 [])
     (s.pend.find? (·.id == 5)).isNone && someThen (s.held.find? (·.id == 5)) fun h => s.inTurn h && h.regs.isEmpty && h.done.isEmpty &&
       okThen (waitAccess h s) (fun _ u => decide (u = s)) && reachOf h s == .here && !h.halves && h.ask == .read 4) = true ∧
    (let s := lateAt [late (.write [1#8, 2#8, 3#8, 4#8]) []] (lab 0 [])
     someThen (s.held.find? (·.id == 5)) fun h => s.inTurn h && h.regs.isEmpty && h.done.isEmpty &&
       okThen (waitAccess h s) (fun _ u => decide (u = s)) && reachOf h s == .here && !h.halves && h.loc == .spa 0x10000) = true ∧
    (let s := lateAt [late (.write [1#8, 2#8, 3#8, 4#8]) [(3, word5)]] (lab 0 [(3, 1, 5)])
     someThen (s.pend.find? (·.id == 6)) (fun p => p.kind == .data 5 && p.flag == some 2 && !p.invl && !p.divz && !p.ovfl && !p.unfl) &&
       someThen (s.held.find? (·.id == 5)) fun h => someThen (s.strand h.owner) fun x => !h.regs.isEmpty &&
         h.regs.all fun r => lget x.regs r.1 r.2 == r.2) = true := by decide +kernel

/-- Both strands of a thread in their bodies, blocked on queues. -/
def locked (b : Block) (s : State) : State :=
  (s.modStrand ak fun x => { x with phase := .body, blk := b }).modStrand xk fun x => { x with phase := .body, blk := b }

theorem wit_StallEvents_blocked :
    someThen ((locked .queue (put 0 [])).strand ak) (fun x => x.phase == .body && x.blk == .queue && (put 0 []).groupIssues ak.grp) = true ∧
    someThen ((locked .room (put 0 [])).strand ak) (fun x => x.phase == .body && x.blk == .room && (put 0 []).groupIssues ak.grp) = true := by
  decide +kernel

/-- An instance of the control circle, joined at cycle 0, in cycle `c`. -/
def joinedCircle (c : Nat) (s : State) : State :=
  { matrixArrived (W 11 0x00 2 1 0) 0#32 5 s with cycle := c }

theorem wit_StallEvents_times :
    someThen ((joinedCircle (2 ^ 20) (put 0 [])).group ak.grp) (fun x => someThen (tget x.circ (0, .matrix)) fun ci => (put 0 []).groupIssues ak.grp &&
      decide (ci.first + 2 ^ 20 ≤ 2 ^ 20)) = true ∧
    someThen ((joinedCircle (2 ^ 20 - 1) (put 0 [])).group ak.grp) (fun x => someThen (tget x.circ (0, .matrix)) fun ci =>
      decide (2 ^ 20 - 1 < ci.first + 2 ^ 20)) = true ∧
    someThen ((locked .queue (put 0 [])).thread ak.thread) (fun y => someThen ((locked .queue (put 0 [])).strand ak) fun a =>
      someThen ((locked .queue (put 0 [])).strand xk) fun x => a.blk == .queue && x.blk == .queue && decide (max y.act (max a.blkAt x.blkAt) ≤ 0))
      = true ∧
    someThen ((locked .again (put 0 [])).strand xk) (fun x => x.blk == .again && x.phase == .body) = true := by decide +kernel

/-- An item that moves 8 bytes from the chip to core memory, its data read or not. -/
def moving (data : Option (List Byte)) (s : State) : State :=
  { s with items := [{ Item.blank 5 0 1 ak .cps with
      handle := some 3, counts := true, total := 8, landed := 0, moves := [⟨0, .mem .chip 0x10000 0 0 0, .core ak.grp 0x100, 8, data, false⟩] }] }

def engineMet (s : State) (e : Item → Move → End × Bool) (p : Item → Move → Loc → State → Bool) : Bool :=
  someThen (s.items.find? (·.id == 5)) fun w => !w.held && w.paused.isNone && w.fail.isNone && s.itemFree w && w.arr.isNone && w.box.isNone &&
    someThen (w.moves[0]?) fun m => !m.done && w.mayGo 0 m && match meetEnd w (e w m).1 m.n (e w m).2 s with
      | (.at_ loc, s1) => (match loc with
          | .glob _ _ _ => false
          | _ => true) && s1.hbmOk w.ctx loc m.n && p w m loc s1
      | _ => false

def eight : List Byte := [1#8, 2#8, 3#8, 4#8, 5#8, 6#8, 7#8, 8#8]

theorem wit_EngineEvents_access :
    engineMet (moving none (lab 0 [])) (fun _ m => (m.src, false)) (fun _ m _ _ => m.data.isNone) = true ∧
    engineMet (moving (some eight) (lab 0 [])) (fun _ m => (m.dst, true)) (fun w m _ _ => m.data == some eight && !w.whole && w.split.isNone) = true := by
  decide +kernel

/-- The item has `l` bytes written and `a` counted, with or without a cause of failure. -/
def landed (l a : Nat) (f : Option Cause) (s : State) : State :=
  { s with items := [{ Item.blank 5 0 1 ak .cps with handle := some 3, inbound := true, counts := true, total := 8, landed := l, arrived := a, fail := f }] }

theorem wit_EngineEvents_ends :
    someThen ((landed 8 3 none (lab 0 [])).items.find? (·.id == 5)) (fun w => w.handle == some 3 && decide (5 ≤ w.landed - w.arrived)) = true ∧
    decide ((Item.blank 5 0 1 ak (.job 2)).kind = .job 2 ∧ 8 ≤ 8 - 0) = true ∧
    someThen ((landed 8 8 none (lab 0 [])).items.find? (·.id == 5)) (fun w => (landed 8 8 none (lab 0 [])).itemDone w) = true ∧
    someThen ((landed 8 3 none (lab 0 [])).items.find? (·.id == 5)) (fun w => !(landed 8 3 none (lab 0 [])).itemDone w) = true ∧
    someThen ((landed 3 3 (some .aprm) (lab 0 [])).items.find? (·.id == 5)) (fun w => w.fail == some .aprm && w.moves.isEmpty && w.landed == w.arrived &&
      w.counts && decide (w.landed < w.total)) = true := by decide +kernel

/-- A handle in a state, with a count, a target of 64 and `n` outbound items. -/
def handleIn (st : HState) (c n : Nat) : Handle :=
  match (bound (put 0 [])).handle ak.grp 3 with
  | h => { h with state := st, count := c, nout := n }

theorem wit_HandleStates :
    ((handleIn .filling 60 0).state = .filling ∧ (handleIn .filling 60 0).count + 3 < (handleIn .filling 60 0).target) ∧
    (handleIn .filling 60 0).count + 4 = (handleIn .filling 60 0).target ∧ (handleIn .filling 60 0).target < (handleIn .filling 60 0).count + 5 ∧
    (handleIn .draining 0 1).state = .draining ∧ (handleIn .full 0 1).nout ≠ 0 ∧ ((handleIn .full 0 0).nout = 0 ∧ (handleIn .full 0 0).count = 0) ∧
    (handleIn .free 0 0).state = .free ∧ ((handleIn .draining 70 1).nout = 1 ∧ (handleIn .draining 70 1).target < (handleIn .draining 70 1).count) ∧
    1 < (handleIn .draining 0 2).nout ∧ { handleIn .free 0 0 with heldIn := true }.heldIn = true := by decide +kernel
/-! ### The front end: commands, launches, the shed, graphs -/

/-- The module of `lab` with a yard of die 0, and context 1 with its queue table; queue 1 as given. -/
def fronted (rt : QueueRt) (s : State) : State := { queuedCtx 0 rt s with yards := [(0, ⟨true, 0, 0, 0, [1], 0, 0, 0, 0⟩)], vfs := [(1, 0)] }

/-- The queue has room for no more than its 4 entries, two of which stand in it, across the wrap of the counts. -/
def twoIn : QueueRt := ⟨2 ^ 32 - 1, 1, false, none, []⟩

def bellMet (s : State) (page q : Nat) (val : Word) (p : Nat → Ctx → QDesc → State → Bool) : Bool :=
  someThen (s.pageCtx 1 page) fun e =>
    match readQDesc e.2 (s.homeDie e.2) q s with
    | (some d, s1) => d.size != 0 && !d.dev && decide (q < 64) && p (Claims.ahead val.toNat (e.2.queue q).head) e.2 d s1
    | (none, _) => false

theorem wit_CommandEvents_doorbell :
    bellMet (fronted twoIn (lab 0 [])) 0 1 3#32 (fun n _ d _ => decide (n ≤ d.size)) = true ∧
    bellMet (fronted twoIn (lab 0 [])) 0 1 4#32 (fun n x d s1 => decide (d.size < n) && decide (s1.ctx 1 = some x)) = true ∧
    ((fronted twoIn (lab 0 [])).pageCtx 1 7).isNone = true := by decide +kernel

def readMet (s : State) (ok : Bool) : Bool :=
  someThen (s.liveCtx 1) fun x =>
    let r := x.queue 1
    !r.stopped && r.cmd.isNone && r.head != r.tail && match readQDesc x (s.homeDie x) 1 s with
      | (some e, s1) => e.size != 0 && match devRead x.d (s.homeDie x) (va57 (e.ring + 32 * (r.head % e.size))) 32 s1 with
        | (some _, _) => ok
        | (none, s2) => !ok && decide (s2.ctx 1 = some x)
      | (none, _) => false

/-- Queue 1 with a ring outside the mapped pages. -/
def farRing (s : State) : State :=
  storeWords { s with ctxs := tset s.ctxs 1 ⟨{ ctxDesc with qtable := 0x28000 }, true, false, 1, [(1, twoIn)], [], [], 0⟩ } 0x28020 [0x1000000000, 4]

theorem wit_CommandEvents_read : readMet (fronted twoIn (lab 0 [])) true = true ∧ readMet (farRing (lab 0 [])) false = true ∧
    (let s := (fronted twoIn (lab 0 [])).modDie 0 fun d => { d with waiting := [⟨.doorbell, 1, 1, 0, 0, false⟩] }
     someThen (s.liveCtx 1) fun x => ((s.die (s.homeDie x)).waiting.any fun e => e.kind == .doorbell) && !(x.queue 1).stopped && (x.queue 1).cmd.isNone &&
       (x.queue 1).head != (x.queue 1).tail) = true := by decide +kernel

/-- The command that queue 1 has read: operation, address, value and CADDR (Table 13.3). -/
def commanded (op addr value caddr : Nat) (started : Bool) (s : State) : State :=
  fronted ⟨1, 1, false, some ⟨BitVec.ofNat 256 (op + addr * 2 ^ 64 + value * 2 ^ 128 + caddr * 2 ^ 192), 0x21000, started⟩, []⟩ s

def commandMet (op : BitVec 4) (s : State) (p : Ctx → Cmd → Bool) : Bool :=
  someThen (s.liveCtx 1) fun x => someThen (x.queue 1).cmd fun m => s.cmdSeen (s.homeDie x) 1 1 && Claims.cmdOp m == op && (x.queue 1).open_.isEmpty &&
    m.words.extractLsb' 4 60 == 0#60 && (op != 0#4 || m.words.extractLsb' 64 64 == 0#64) && (!(op == 0#4 || op == 1#4) || Claims.cmdValue m == 0) &&
    (op != 1#4 || Claims.cmdAddr m % 64 == 0) && (!(op == 3#4 || op == 4#4) || Claims.cmdAddr m % 8 == 0) && p x m

/-- A launch record at 0x30000 (Table 13.7): one thread, eight registers for each strand. -/
def withRecord (s : State) : State :=
  let f := 0x0001073900010739
  storeWords s 0x30000 ([1 + 2 * 2 ^ 40, 8 + 8 * 2 ^ 16 + 0x333333 * 2 ^ 32, 0x10000, 0x10000] ++ List.replicate 13 0 ++
    [1 + 2 ^ 16 + 2 ^ 32 + 2 ^ 56] ++ List.replicate 6 0 ++ [f, f, f, f])

/-- A graph image at 0x30000: one node that waits for the word at 0x10000 (Tables 13.12 to 13.14). -/
def withGraphImage (s : State) : State :=
  storeWords s 0x30000 [1 + 0xFFFF * 2 ^ 48, 0xFFFFFFFF, 0, 0, 0, 0, 0, 0, 3 + 2 ^ 16 + 0xFFFFFFFF * 2 ^ 32, 0xFFFFFFFFFFFFFFFF, 0xFFFFFFFF, 0x10000]

theorem wit_CommandEvents_nop : commandMet 0#4 (commanded 0 0 0 0x23000 false (lab 0 [])) (fun _ _ => true) = true := by decide +kernel
theorem wit_CommandEvents_launch :
    commandMet 1#4 (withRecord (commanded 1 0x30000 0 0x23000 false (lab 0 []))) (fun x m =>
      match (checkRecord x (Claims.cmdAddr m) (withRecord (commanded 1 0x30000 0 0x23000 false (lab 0 [])))).1 with
      | .ok rc => rc.tierCount == 2
      | .error _ => false) = true ∧
    commandMet 1#4 (commanded 1 0x30000 0 0x23000 false (lab 0 [])) (fun x m =>
      match (checkRecord x (Claims.cmdAddr m) (commanded 1 0x30000 0 0x23000 false (lab 0 []))).1 with
      | .ok _ => false
      | .error why => why == 1) = true := by decide +kernel
theorem wit_CommandEvents_graph :
    commandMet 2#4 (withGraphImage (commanded 2 0x30000 255 0x23000 false (lab 0 []))) (fun x m =>
      (loadGraph x 0 (Claims.cmdAddr m) (Claims.cmdValue m % 256) (withGraphImage (commanded 2 0x30000 255 0x23000 false (lab 0 [])))).1 == 0) = true := by
  decide +kernel
theorem wit_CommandEvents_wait :
    commandMet 3#4 (commanded 3 0x10000 1 0x23000 false (lab 0 [])) (fun x m => !m.started && (devWord x.d 0 (Claims.cmdAddr m) (lab 0 [])).1 == some 0) = true ∧
    commandMet 3#4 (commanded 3 0x10000 0 0x23000 true (lab 0 [])) (fun x m => m.started && (devWord x.d 0 (Claims.cmdAddr m) (lab 0 [])).1 == some 0)
      = true ∧
    commandMet 3#4 (commanded 3 0x10000 1 0x23000 true (lab 0 [])) (fun x m => m.started && (devWord x.d 0 (Claims.cmdAddr m) (lab 0 [])).1 == some 0)
      = true ∧
    commandMet 3#4 (commanded 3 0x1000000000 1 0x23000 false (lab 0 [])) (fun x m => !m.started && (devWord x.d 0 (Claims.cmdAddr m) (lab 0 [])).1 == none)
      = true := by decide +kernel
theorem wit_CommandEvents_signal : commandMet 4#4 (commanded 4 0x10000 (2 ^ 64 - 1) 0x23000 false (lab 0 [])) (fun x m =>
    (signalStore 1 x.d (Claims.cmdAddr m) (toBytes 8 (Claims.cmdValue m)) (lab 0 [])).1) = true := by decide +kernel

/-- Launch 1 has ended with nothing left, or has not. -/
def launchAt (o : Origin) (killed : Bool) (total : Nat) (s : State) : State :=
  { s.modLaunch 1 fun l => { l with origin := o, killed := killed, total := total, ended := 1, dfc := 7, silent := false } with groups := [] }

theorem wit_LaunchEvents :
    someThen ((launchAt (.queue 1 0x23000) false 2 (lab 0 [])).launch 1) (fun l => !(launchAt (.queue 1 0x23000) false 2 (lab 0 [])).launchOver l) = true ∧
    someThen ((launchAt (.queue 1 0x23000) false 1 (lab 0 [])).launch 1) (fun l => (launchAt (.queue 1 0x23000) false 1 (lab 0 [])).launchOver l &&
      !l.silent && l.origin == .queue 1 0x23000) = true ∧
    someThen ((launchAt (.node 0 255 0) true 2 (lab 0 [])).launch 1) (fun l => (launchAt (.node 0 255 0) true 2 (lab 0 [])).launchOver l && !l.silent)
      = true := by decide +kernel

/-- Events in the queue of die 0, the third behind another of its lock. -/
def shedQueue (k : ShedKind) (a0 a1 : Nat) (s : State) : State :=
  s.modDie 0 fun d => { d with events := [⟨.slice, 1, 99, 0, 0, false⟩, ⟨k, 1, 5, a0, a1, false⟩] }

def takenMet (s : State) (k : ShedKind) : Bool :=
  match (s.die 0).events with
  | [p, e] => p.kind != k && p.lock != e.lock && e.kind == k && !e.again
  | _ => false

theorem wit_ShedEvents_taken :
    takenMet (shedQueue .doorbell 1 0 (lab 0 [])) .doorbell = true ∧ takenMet (shedQueue .error 0 0 (lab 0 [])) .error = true ∧
    takenMet (shedQueue .binddone 0 0 (lab 0 [])) .binddone = true ∧
    takenMet (shedQueue .cmdread 1 0 (commanded 4 0x10000 1 0 false (lab 0 []))) .cmdread = true ∧
    someThen ((commanded 4 0x10000 1 0 false (lab 0 [])).liveCtx 1) (fun x => someThen (x.queue 1).cmd fun m => decide ((Claims.cmdOp m).toNat ≤ 4))
      = true ∧
    someThen ((commanded 5 0x10000 1 0 false (lab 0 [])).liveCtx 1) (fun x => someThen (x.queue 1).cmd fun m => decide (5 ≤ (Claims.cmdOp m).toNat))
      = true := by decide +kernel

/-- An item that waits for the page 0x40000, not asked for yet or asked for under number 2. -/
def pagedItem (n : Nat) (reqs : List PageReq) (s : State) : State :=
  { s.modCtx 1 fun x => { x with reqs := reqs, nextReq := 3 } with items := [{ Item.blank 5 0 1 ak .cps with paused := some n }] }

theorem wit_ShedEvents_pages :
    (takenMet (shedQueue .copyflt 5 0x4ABC1 (pagedItem 0 [] (lab 0 []))) .copyflt &&
      someThen ((pagedItem 0 [] (lab 0 [])).item 5) fun w => w.paused == some 0) = true ∧
    someThen ((pagedItem 0 [⟨2, 0x40000, true, 0⟩] (lab 0 [])).ctx 1) (fun x => (x.reqs.find? (·.va == 0x4ABC1 / 65536 * 65536)).isSome) = true ∧
    someThen ((pagedItem 3 [⟨2, 0x40000, true, 0⟩] (lab 0 [])).request 1 2) (fun r => decide (r.since + 12500000 ≤ 12500000) &&
      decide (12499999 < r.since + 12500000)) = true ∧
    (let s := pagedItem 3 [⟨2, 0x40000, true, 0⟩] (lab 0 [])
     someThen (s.request 1 2) (fun r => (Claims.pullOf 1 r.va s).isNone) &&
       let p : Pull := ⟨1, 0x40000, 0x50000, .inr eight, 8, 0x1040, 0#64⟩
       someThen (s.request 1 2) fun r => Claims.pullOf 1 r.va { s with pulls := [p] } == some p) = true := by decide +kernel

theorem wit_ShedEvents_triggers :
    (takenMet (shedQueue .trigger 255 0 (graphed ⟨1, 0, [0], 0, true, false, none, []⟩ (lab 0 []))) .trigger &&
      someThen (tget ((graphed ⟨1, 0, [0], 0, true, false, none, []⟩ (lab 0 [])).die 0).graphs 255) fun x => x.ctx == 1 && x.running) = true ∧
    someThen (tget ((graphed ⟨1, 0, [0], 0, false, false, none, []⟩ (lab 0 [])).die 0).graphs 255) (fun x => x.ctx == 1 && !x.running) = true := by
  decide +kernel

/-- Ring 2 of context 1 with an entry that no interrupt has told of. -/
def ringed (s : State) : State :=
  { s with ctxs := tset s.ctxs 1 ⟨{ ctxDesc with urings := List.replicate 8 ⟨0x28000, 16, 4, 8⟩ }, true, false, 1, [], [(2, ⟨3, 0⟩)], [], 0⟩ }

theorem wit_ShedEvents_timer : someThen ((ringed (lab 0 [])).liveCtx 1) (fun x =>
    let u := lget x.d.urings 2 ⟨0, 0, 0, 0⟩
    someThen (tget x.rings 2) fun rt => rt.unsent != 0 && u.coalt != 0 && decide (rt.since + 1250 * u.coalt ≤ 5000)) = true := by decide +kernel

/-- A graph of one node of a kind, with one predecessor, successor 0 and alternative 0, whose payload starts at 0x10000. -/
def oneNode (kind pay : Nat) (busy : Bool) (res : Option Bool) (failed : Option Nat) (s : State) : State :=
  graphed ⟨1, 0, [0], 4, true, false, failed, [⟨BitVec.ofNat 512 (kind + 2 ^ 16 + 0xFFFFFFFFFFFF0000 * 2 ^ 32 + 0xFFFFFFFFFFFF0000 * 2 ^ 96 + pay * 2 ^ 192), 0, 2,
    busy, res⟩]⟩ s

def nodeMet (s : State) (p : Graph → GNode → Ctx → Bool) : Bool :=
  someThen (s.graph 0 255) fun x => someThen (x.nodes[0]?) fun y => someThen (s.liveCtx x.ctx) fun c => p x y c

/-- The copy of a node, its transfers done. -/
def nodeCopy (s : State) : State := { s with items := [Item.blank 5 0 1 ak (.node 255 0)] }

theorem wit_GraphEvents_nodes :
    nodeMet (oneNode 1 0 true none none (lab 0 [])) (fun x y _ => x.running && y.busy && Claims.kindOf y == 1#4 && y.res.isNone) = true ∧
    nodeMet (oneNode 1 0 true (some true) none (lab 0 [])) (fun _ y _ => y.res == some true) = true ∧
    nodeMet (oneNode 1 0 true (some false) none (lab 0 [])) (fun _ y _ => y.res == some false) = true ∧
    nodeMet (nodeCopy (oneNode 2 0 true none none (lab 0 []))) (fun _ y _ => Claims.kindOf y == 2#4 &&
      someThen ((nodeCopy (oneNode 2 0 true none none (lab 0 []))).items.find? (fun (w : Item) => w.die == 0 && w.kind == .node 255 0)) fun w =>
        w.fail.isNone && (nodeCopy (oneNode 2 0 true none none (lab 0 []))).itemRuns w && w.moves.all (·.done)) = true ∧
    nodeMet (oneNode 3 0x10000 true none none (lab 0 [])) (fun _ y c => Claims.kindOf y == 3#4 && (devWord c.d 0 (Claims.payAddr y 0) (lab 0 [])).1 == some 0 &&
      decide ((Claims.payOf y 8 64).toNat ≤ 0)) = true ∧
    nodeMet (oneNode 3 (0x10000 + 2 ^ 64) true none none (lab 0 [])) (fun _ y c => (devWord c.d 0 (Claims.payAddr y 0) (lab 0 [])).1 == some 0 &&
      decide (0 < (Claims.payOf y 8 64).toNat)) = true ∧
    nodeMet (oneNode 5 (0x10000 + 2 ^ 128) true none none (lab 0 [])) (fun _ y c => Claims.kindOf y == 5#4 &&
      (devWord c.d 0 (Claims.payAddr y 0) (lab 0 [])).1 == some 0) = true ∧
    nodeMet (oneNode 6 3 true none none (lab 0 [])) (fun _ y _ => Claims.kindOf y == 6#4 && y.iter + 1 == (Claims.payOf y 0 32).toNat) = true := by
  decide +kernel

theorem wit_GraphEvents_runs :
    nodeMet (oneNode 3 0x10000 true none none (lab 0 [])) (fun _ y _ => y.busy) = true ∧
    nodeMet (oneNode 3 0x10000 false none none (lab 0 [])) (fun x y _ => x.running && !y.busy && !x.pending && x.failed.isNone) = true ∧
    nodeMet (oneNode 3 0x10000 false none (some 0) (lab 0 [])) (fun x y _ => x.running && !y.busy && !x.pending && x.failed == some 0) = true := by
  decide +kernel
/-! ### Placement, lifecycles, invalidations, firmware -/

/-- A launch of small groups, and a bind record of it in slot 3 of die 0 whose next group is 2. -/
def bindOf (gang : Bool) : Bind := ⟨true, gang, 0, 0, 1, 9, 1, 0, 4, 1, 2⟩
def bindable (gang : Bool) (s : State) : State :=
  ({ s with yards := [(0, ⟨true, 0, 0, 0, [1], 0, 0, 0, 0⟩)], pens := [((0, 0), ⟨[1], 0, some 1⟩)] }.modLaunch 1 fun l => { l with total := 4, placed := 2, rc := { l.rc with
      scratch := 4096, cluster := 4096, aEntry := 0x10004, tiers := if gang then [⟨0, 0, 0, 0, 0⟩, ⟨1, 1, 1, 0, 1⟩, ⟨2, 1, 1, 1, 2⟩] else [⟨0, 0, 0, 0, 0⟩, ⟨1, 1, 1, 0, 1⟩, ⟨4, 1, 1, 2, 3⟩] } }).modDie 0
    fun d => { d with binds := [(3, bindOf gang)] }

def placeMet (s : State) (gang : Bool) (p : Bind → Launch → Bool) : Bool :=
  match s.pickBind 0 0 with
  | some (slot, b) => slot == 3 && b.gang == gang && decide (b = bindOf gang) && !(s.die 0).stalls .binddone && someThen (s.launch b.launch) fun l => l.id == b.launch && p b l
  | none => false

/-- The group of the current strand is saved. -/
def savedGroup (s : State) : State := s.modGroup ak.grp fun x => { x with life := .saved }

theorem wit_PlacementEvents_single :
    placeMet (bindable false (lab 0 [])) false (fun b l => (bindable false (lab 0 [])).firstSaved 0 0 b l.rc == none &&
      (bindable false (lab 0 [])).nextFits 0 0 b l.rc && (bindable false (lab 0 [])).coreFits 0 7 l.rc && !(bindable false (lab 0 [])).isFenced 0 0 7 && !l.rc.gang &&
      (bindable false (lab 0 [])).strands.all fun e => e.1.grp != ⟨1, 2⟩) = true ∧
    placeMet (savedGroup (bindable false (lab 0 []))) false (fun b l => (savedGroup (bindable false (lab 0 []))).firstSaved 0 0 b l.rc == some ak.grp &&
      someThen ((savedGroup (bindable false (lab 0 []))).group ak.grp) fun x => (savedGroup (bindable false (lab 0 []))).restoreFits 0 x.core l.rc x) = true := by
  decide +kernel

theorem wit_PlacementEvents_gang :
    placeMet (bindable true (lab 0 [])) true (fun b l => ((bindable true (lab 0 [])).savedOf 0 b).isEmpty && l.rc.gangSize == 2 &&
      (bindable true (lab 0 [])).winFits 0 0 l.rc && (gangPlace 0 0 2 l [2, 3] 0 [1, 2] (bindable true (lab 0 []))).isSome) = true ∧
    placeMet (bindable true (lab 0 [])) true (fun _ l => (gangPlace 0 0 2 l [2, 3] 0 [1] (bindable true (lab 0 []))).isNone) = true := by decide +kernel

/-- Account 0 alone on die 0 holds `n` of each balance, the others none. -/
def accounts (n : Int) (s : State) : State :=
  s.modDie 0 fun d => { d with accts := ⟨n, 5, 5, 0, 0, 0, 0, false⟩ :: List.replicate 63 Acct.zero }

/-- The shed of die 0 holds the end of account 0's slice. -/
def sliced (s : State) : State := s.modDie 0 fun d => { d with events := [⟨.slice, 0, 0, 0, 1, false⟩] }

theorem wit_LifecycleEvents_slice :
    ((sliced (accounts 1 (lab 0 []))).acctBusy 0 0 && ([Bal.core, .hbm, .fab].all fun b => (sliced (accounts 1 (lab 0 []))).borrowMax 0 0 b == 0) &&
      ((sliced (lab 0 [])).die 0).waiting.isEmpty && ((lab 0 []).die 0).events.isEmpty) = true ∧
    ((accounts 0 (lab 0 [])).acctBusy 0 0 && ([Bal.core, .hbm, .fab].all fun b => (accounts 0 (lab 0 [])).borrowMax 0 0 b == 0) &&
      decide (((accounts 0 (lab 0 [])).acct 0 0).core ≤ 0)) = true ∧
    ((accounts 1 (lab 0 [])).acctBusy 0 0 && ([Bal.core, .hbm, .fab].all fun b => (accounts 1 (lab 0 [])).borrowMax 0 0 b == 0) &&
      decide (0 < ((accounts 1 (lab 0 [])).acct 0 0).core)) = true ∧
    (let s := (accounts 1 (lab 0 [])).modDie 0 fun d => { d with events := [⟨.migr, 0, 0, 0, 0, false⟩, ⟨.slice, 0, 0, 0, 1, false⟩] }
     s.acctBusy 0 0 && ([Bal.core, .hbm, .fab].all fun b => s.borrowMax 0 0 b == 0) && match (s.die 0).events with
       | f :: rest => f.kind != .slice && (rest.any fun e => e.kind == .slice && e.a0 == 0) && (rest ++ (s.die 0).waiting).all fun e => e.kind != .slice || e.lock == f.lock
       | [] => false) = true := by
  decide +kernel

/-- The group of the current strand in a life, with DRAIN_LIMIT 2, DISCARD_OK and the cycle as given; no account of its yard. -/
def lifeAt (f : Life) (ok : Bool) (now : Nat) (s : State) : State :=
  { (s.modGroup ak.grp fun x => { x with life := f, since := 0 }).modLaunch 1 fun l => { l with rc := { l.rc with drainLimit := 2, discardOk := ok } } with
    cycle := now, yards := [(0, ⟨true, 0, 0, 0, [1], 0, 0, 0, 3⟩)] }

def lifeMet (s : State) (p : Group → Launch → Bool) : Bool :=
  someThen (s.group ak.grp) fun x => someThen (s.launch 1) fun l => l.id == 1 && p x l

theorem wit_LifecycleEvents_drain :
    lifeMet (lifeAt .draining false 2500 (lab 0 [])) (fun x l => x.life == .draining && decide (x.since + 1250 * l.rc.drainLimit ≤ 2500) && !l.rc.discardOk) = true ∧
    lifeMet (lifeAt .draining true 2500 (lab 0 [])) (fun x l => x.life == .draining && l.rc.discardOk) = true ∧
    lifeMet (lifeAt .draining true 2499 (lab 0 [])) (fun x l => decide (2499 < x.since + 1250 * l.rc.drainLimit)) = true ∧
    lifeMet (lifeAt .discarding true 0 (lab 0 [])) (fun x _ => !x.gang && x.life == .discarding && (lifeAt .discarding true 0 (lab 0 [])).quiet ak.grp &&
      someThen ((lab 0 []).strand ak) fun y => y.phase != .ended) = true := by decide +kernel

/-- Two operations of the current strand are discarded: of each, one of its two registers was written, register 4 by both. -/
def halfDone (s : State) : State :=
  { s.modStrand ak fun x => { x with prov := [⟨4, 6, ⟨9#32, 1#5⟩⟩, ⟨4, 5, word5⟩] } with
    pend := [{ Pend.blank 5 ak (Strand.fresh 0#57 128) false 1 with dests := [.reg 5 word5] }] }

theorem wit_LifecycleEvents_discard :
    (lifeMet (halfDone (lifeAt .draining true 2500 (lab 0 []))) (fun x l => x.life == .draining && decide (x.since + 1250 * l.rc.drainLimit ≤ 2500) && l.rc.discardOk) &&
      match (halfDone (lab 0 [])).pend with
      | [p] => p.owner.grp == ak.grp && !p.committed && someThen ((halfDone (lab 0 [])).strand p.owner) fun y =>
          decide (5 < y.regs.length) && Claims.putBack y 4 == some word5 && Claims.putBack y 3 == y.regs[3]?
      | _ => false) = true := by decide +kernel

theorem wit_LifecycleEvents_watchdog :
    lifeMet (lifeAt .overrunning true 3751 (lab 0 [])) (fun x l => x.life == .overrunning &&
      decide (1250 * ((lifeAt .overrunning true 3751 (lab 0 [])).yard ((lifeAt .overrunning true 3751 (lab 0 [])).yardOf l.ctx)).allow < 3751 - x.since)) = true ∧
    lifeMet (lifeAt .overrunning true 3750 (lab 0 [])) (fun x l =>
      decide (3750 - x.since ≤ 1250 * ((lifeAt .overrunning true 3750 (lab 0 [])).yard ((lifeAt .overrunning true 3750 (lab 0 [])).yardOf l.ctx)).allow)) = true := by
  decide +kernel

/-- A die with no group, no context and no record, at the end of its period. -/
def idleDie : State := { accounts (-7) (put 0 []) with groups := [], ctxs := [], cycle := 1250000 }

theorem wit_LifecycleEvents_period :
    (decide ((idleDie.die 0).periodAt + (idleDie.die 0).period ≤ idleDie.cycle) && ((idleDie.die 0).waiting.all fun e => e.kind != .period && e.kind != .slice) && decide (0 < idleDie.dies.length) && (idleDie.die 0).accts.length == 64 &&
      ((List.range 64).all fun i => !idleDie.acctBusy 0 i && idleDie.acctYard 0 i == none) && (idleDie.acct 0 0).debt == 0) = true ∧
    (match (lifeAt .overrunning false 0 (lab 0 [])).groups with
      | [(g, x)] => x.life != .saved && x.life != .ended &&
        let n := fun k => ((accounts k (lifeAt .overrunning false 0 (lab 0 []))).acct x.die ((lab 0 []).groupAcct g)).core
        x.size == 1 && n 0 == 0 && n 3 == 3
      | _ => false) = true := by decide +kernel

/-- An invalidation by VMID 3 and ASID 7 of one page from 0x50000, its completion at 0x100 (Table 12.6). -/
def invalImg (op : Nat) : BitVec 256 := BitVec.ofNat 256 (op + 3 * 2 ^ 16 + 7 * 2 ^ 32 + 0x50000 * 2 ^ 64 + 2 ^ 128 + 0x100 * 2 ^ 192)

/-- A ring with one command, entries that it names and that it does not, and a request on its way or none. -/
def invaled (refused : Bool) (g : List GlobReq) (s : State) : State :=
  { s with
    invals := [(2, ⟨0x20000, 2, 9, 9, false, [⟨8, 1, 3, 7, 0x50000, 0x60000, 0x100, refused⟩]⟩)], globs := g
    tlb := [⟨false, 3, 7, 0x5FFFF, 0x60000, 0, 0, 0#64⟩, ⟨false, 3, 7, 0x60000, 0x70000, 0, 0, 0#64⟩, ⟨true, 3, 0, 0x50000, 0x60000, 0, 0, 0#64⟩] }

/-- A ring at 0x20000 of 2 places that holds two commands from place 1 on, of an operation `op` and a reserved one; `next` have been
taken. -/
def rung (op next : Nat) (s : State) : State :=
  storeWords { s with invals := [(2, ⟨0x20000, 2, 3, next, false, []⟩)] } 0x20000
    [6, 0, 0, 0x200, op + 3 * 2 ^ 16 + 7 * 2 ^ 32, 0x50000, 1, 0x100]

/-- The command that the ring's place of a state holds next. -/
def rungNext (s : State) (p : BitVec 256 → Bool) : Bool :=
  s.boot.state == 1 && someThen (tget s.invals 2) fun r => !r.stopped && r.next % 2 ^ 32 != r.tail &&
    (s.badAt (r.base + 32 * (r.next % r.size)) 32 true).isNone && !s.hostBad (r.base + 32 * (r.next % r.size)) 32 &&
    p (BitVec.ofNat 256 (ofBytes (s.readSpa (r.base + 32 * (r.next % r.size)) 32)))

/-- The line at an address has failed; the ring has stopped. -/
def failedAt (a : Nat) (s : State) : State := { s with bad := [a / 32] }
def halted (s : State) : State := { s with invals := s.invals.map fun e => (e.1, { e.2 with stopped := true }) }

theorem wit_InvalidationEvents :
    ([1, 2, 3, 4, 5].all fun n => rungNext (rung n 1 (lab 0 [])) fun c => c == invalImg n && (c.extractLsb' 0 4).toNat == n) = true ∧
    rungNext (rung 1 2 (lab 0 [])) (fun c => c.extractLsb' 0 4 == 6#4) = true ∧
    ((failedAt 0x20020 (rung 1 1 (lab 0 []))).badAt 0x20020 32 true).isSome = true ∧
    (someThen (tget (halted (rung 1 1 (lab 0 []))).invals 2) (·.stopped)) = true ∧
    (someThen (tget (rung 1 3 (lab 0 [])).invals 2) (fun r => r.next % 2 ^ 32 == r.tail) && (put 0 []).boot.state != 1) = true ∧
    someThen (tget (invaled false [] (lab 0 [])).invals 2) (fun r => match r.cmds with
      | [c] => c.op == 1 && !c.refused && !(invaled false [] (lab 0 [])).inFlight c
      | _ => false) = true ∧
    someThen (tget (invaled true [] (lab 0 [])).invals 2) (fun r => match r.cmds with
      | [c] => c.refused && c.op == 1
      | _ => false) = true := by decide +kernel

/-- A request of context 1 to another module, of a strand of launch 1. -/
def asked (ask : GlobAsk) (op : Option Nat) (s : State) : State :=
  { pending [.reg 3 word5] s with
    globs := [{ id := 4, die := 0, ctx := 1, keyid := 0, tmod := 7, tdie := 1, strm := 2, spa := 0x100, va := 0x80000100, ask := ask, owner := some ak, op := op, item := none, etag := 1#5, esz := 2, since := 0, acq := false }] }

theorem wit_InvalidationEvents_flight : someThen ((asked (.read 4) none (lab 0 [])).ctx 1) (fun x =>
    ({ n := 8, op := 4, vmid := x.d.vmid, asid := 0, lo := 0, hi := 0, caddr := 0x100, refused := false } : InvalCmd).op == 4 &&
      (asked (.read 4) none (lab 0 [])).inFlight ⟨8, 4, x.d.vmid, 0, 0, 0, 0x100, false⟩) = true := by decide +kernel

/-- A descriptor that obeys the rules of Tables 13.1 and 15.10. -/
def ctxMet (d : CtxDesc) (s : State) : Bool :=
  s.boot.state == 1 && ctxDescOk d && (tget s.quar d.keyid).isNone && !s.ctxFull d &&
    (s.ctxs.all fun e => e.1 == d.ctxid || !e.2.valid || d.hostfn == 0 || e.2.d.hostfn != d.hostfn || e.2.d.dbidx != d.dbidx) &&
    (d.pen == 0xFF || someThen (tget s.pens (d.yard, d.pen)) (·.acct == d.bclass))

/-- Pen 0 of yard 0, bound to account 0. -/
def penned (s : State) : State := { s with pens := [((0, 0), ⟨[1], 0, none⟩)] }

theorem wit_AdminEvents_context :
    (ctxMet { ctxDesc with ctxid := 2, pen := 0xFF, dbidx := 1 } (lab 0 []) && ((lab 0 []).ctx 2).isNone) = true ∧
    (ctxMet ctxDesc (penned (lab 0 [])) && someThen ((penned (lab 0 [])).ctx 1) fun x => x.valid && !x.dying && x.d.yard == 0 && x.d.pen == 0) = true ∧
    (ctxMet { ctxDesc with pen := 0xFF } (lab 0 []) && (lab 0 []).launches.any fun e => e.2.ctx == 1) = true ∧
    (ctxMet { ctxDesc with pen := 0xFF } { lab 0 [] with launches := [] } && ({ lab 0 [] with launches := [] } : State).launches.all fun e => e.2.ctx != 1) = true ∧
    (((lab 0 []).liveCtx 1).isSome && (({ lab 0 [] with launches := [] } : State).launches.filter fun e => e.2.ctx == 1).isEmpty) = true := by decide +kernel

/-- Context 1 is dying with nothing left; context 2 holds its yard under another key. -/
def dying (s : State) : State :=
  { s with launches := [], ctxs := [(1, ⟨{ ctxDesc with keyid := 4 }, false, true, 1, [], [], [], 0⟩), (2, ⟨{ ctxDesc with ctxid := 2 }, true, false, 0, [], [], [], 0⟩)] }

theorem wit_AdminEvents_dying : someThen ((dying (lab 0 [])).ctx 1) (fun x => x.dying && (dying (lab 0 [])).items.isEmpty && (dying (lab 0 [])).launches.isEmpty &&
    ((tdel (dying (lab 0 [])).ctxs 1).any fun e => e.2.valid && e.2.d.yard == x.d.yard) &&
    (tdel (dying (lab 0 [])).ctxs 1).all fun e => !e.2.valid || e.2.d.keyid != x.d.keyid) = true := by decide +kernel

/-- Frame 0 valid of yard 0, in quarantine or not. -/
def framed (w : Word) (s : State) : State := s.modDie 0 fun d => { d with frames := [(0, w)] }

/-- Its key slot 0 discards. -/
def discards (s : State) : State := s.modDie 0 fun d => { d with keySlots := d.keySlots.set 0 ⟨0, 0, .discarding⟩ }

def loftMet (s : State) (st : KeyState) : Bool :=
  s.tearing 0 0 && !s.usesGone 0 0 && ((s.die 0).frames.all fun e => Claims.fValid e.2 && Claims.fQuar e.2 && Claims.fYard e.2 == 0 &&
    Claims.fSlot e.2 == 0) && (lget (s.die 0).keySlots 0 KeySlot.zero).state == st

theorem wit_AdminEvents_loft : loftMet (framed 0x01000001#32 (lab 0 [])) .live = true ∧
    loftMet (discards (framed 0x01000001#32 (lab 0 []))) .discarding = true := by decide +kernel

theorem wit_AdminEvents_keys :
    (tget ({ lab 0 [] with revoked := [(4, 0)] } : State).revoked 4 == some 0) = true ∧
    (tget ({ lab 0 [] with quar := [(4, 0)] } : State).quar 4 == some 0 && (tget (lab 0 []).revoked 4).isNone) = true ∧
    (decide (((lab 0 []).die 0).keys.length < 256) && (tget (lab 0 []).gates 9).isNone && !(lab 0 []).isFenced 0 8 0) = true := by decide +kernel

/-- Yard 0 has cluster 0 of die 0, or had it. -/
def yard0 (m : Nat) : YardDesc := ⟨true, 0, 0, 0, [m], 0, 0, 0, 0⟩
def yarded (s : State) : State := { s with yards := [(0, yard0 1)] }

theorem wit_AdminEvents_yard :
    (((List.range 8).all fun d => (List.range 12).all fun c => !((yarded (lab 0 [])).yards.any fun e => e.1 != 0 && e.2.valid && (lget e.2.cmask d 0).testBit c)) &&
      (List.range 8).all fun d => (List.range 12).all fun c => !((lget (yard0 1).cmask d 0).testBit c && !(lget (yard0 3).cmask d 0).testBit c)) = true ∧
    ((lget ((yarded (lab 0 [])).yard 0).cmask 0 0).testBit 0 && !(lget (yard0 2).cmask 0 0).testBit 0 && (yarded (lab 0 [])).clusterHeld 0 0 0) = true := by
  decide +kernel

/-- Whether the tables of all dies have room once the yard is written. -/
def roomyB (y : YardDesc) (s : State) : Bool :=
  (List.range 8).all fun d => decide ((s.ctxs.filter fun c => decide (lget ((Claims.yarded y s).yard c.2.d.yard).cmask d 0 ≠ 0)).length ≤ 256)

/-- 257 contexts of yard 0. -/
def crowded (s : State) : State :=
  { s with ctxs := (List.range 257).map fun n => (n, ⟨{ ctxDesc with ctxid := n }, true, false, 0, [], [], [], 0⟩) }

theorem wit_AdminEvents_roomy : roomyB (yard0 1) (lab 0 []) = true ∧ roomyB { yard0 1 with valid := false } (lab 0 []) = true ∧
    roomyB (yard0 1) (crowded (lab 0 [])) = false := by decide +kernel

theorem wit_AdminEvents_yards :
    (yardDescOk { yard0 1 with valid := false } && ((yarded (lab 0 [])).yard 0).valid) = true ∧
    (yardDescOk (yard0 3) && yardDescOk (yard0 2) && (List.range 32).all fun n => n == 0 || !(yarded (lab 0 [])).clusterHeld 0 1 n) = true := by
  decide +kernel

/-- A gate of home 0, with its list, its value and its tokens. -/
def gate9 (acl : List AclEntry) (value rate : Nat) (mig : GMig) : Gate :=
  { Claims.newGate 0 ⟨9, true, rate, 4, acl, []⟩ 0 with value := value, mig := mig }
def gated (g : Gate) (s : State) : State := { s with gates := [(9, g)] }

theorem wit_AdminEvents_gate : someThen (tget (gated (gate9 [] 0 2 .active) (lab 0 [])).gates 9) (fun g => g.home == 0 && g.mig == .active && g.valid && g.rate == 2 && g.burst == 4)
    = true := by decide +kernel

theorem wit_AdminEvents_gateFits :
    Claims.gateFits ⟨9, true, 2, 4, [⟨0, true, false, false⟩], [(0x10000, 0x20000)]⟩ ∧ ¬Claims.gateFits ⟨2 ^ 36, true, 2, 4, [], []⟩ := by
  refine ⟨⟨by decide, by decide, by decide, by decide, by decide, by decide, by decide, by decide⟩, fun h => ?_⟩
  exact absurd h.1 (by decide)

theorem wit_AdminEvents_comm : decide (15 < 256 ∧ 2 ≤ 15 ∧ 15 ≤ 15 ∧ 1 ≤ 2 ^ 20 ∧ 2 ^ 20 ≤ 2 ^ 20 ∧ 2 ^ 20 - 1 < 2 ^ 20) = true ∧
    (((joined (lab 0 [])).die 0).comms.all fun e => e.1 == 15 || !e.2.valid || e.2.vc != 15) = true := by decide +kernel

/-- Yard 0 under a key of its own. -/
def keyed (n : Nat) (s : State) : State := { s with yards := [(0, { yard0 1 with keyid := n })] }

def frameMet (s : State) (f : Nat) (e : Word) (st : KeyState) : Bool :=
  let k := lget (s.die 0).keySlots (Claims.fSlot e) KeySlot.zero
  let key := (s.yard (Claims.fYard e)).keyid
  decide (f < 12288) && !s.isFenced 0 2 (f / 8) && Claims.fValid e && (s.yard (Claims.fYard e)).valid && !s.isFenced 0 9 (Claims.fSlot e) && k.state == st &&
    (st != .live || k.keyid == key) && (s.die 0).keySlots.length == 32 && (List.range 32).all fun i => i == Claims.fSlot e ||
      (lget (s.die 0).keySlots i KeySlot.zero).state != .live || (lget (s.die 0).keySlots i KeySlot.zero).keyid != key

theorem wit_AdminEvents_frame :
    (tget ((lab 0 []).die 0).frames 0 == some 1#32 && !(lab 0 []).isFenced 0 2 0 && Claims.fValid 1#32 && !Claims.fQuar 1#32 && Claims.fYard 3#32 != Claims.fYard 1#32)
      = true ∧
    (frameMet (keyed 4 (lab 0 [])) 8 0x41#32 .free && (tget ((lab 0 []).die 0).frames 8).isNone) = true ∧
    (frameMet (keyed 0 (lab 0 [])) 0 0x00010001#32 .live && Claims.fYard 0x00010001#32 == Claims.fYard 1#32 &&
      Claims.fSlot 0x00010001#32 == Claims.fSlot 1#32) = true := by
  decide +kernel
/-! ### Replication, membership, gates, the fabric, the module -/

/-- The next update of die 1, of one line, as a packet: SEQ 1, WSEQ 5. -/
def pk (wseq : Nat) : Packet := ⟨1, false, false, 0, 0, 1, wseq, 0, [0, 0, 0, 0, 0, 0, 0, 0], [(32, List.replicate 32 7#8)], 0, 1⟩

/-- The packet stands in die 1's log for die 0, with `n` more of it in die 0's paddock. -/
def logged (n : Nat) (s : State) : State :=
  (s.modRepl 1 fun r => { r with outLog := [pk 5] :: List.replicate 7 [] }).modRepl 0 fun r => { r with paddock := List.replicate n (pk 9) }

def sendMet (s : State) : Bool :=
  s.isMember 1 && s.isMember 0 && !s.linkDead 1 0 && (lget (s.repl 1).outLog 0 [])[lget (s.repl 1).sent 0 0]? == some (pk 5)

theorem wit_ReplicationEvents_send : (sendMet (logged 1 (lab 0 [])) && decide (((logged 1 (lab 0 [])).repl 0).paddock.length < 1024)) = true ∧
    (sendMet (logged 1024 (lab 0 [])) && (((logged 1024 (lab 0 [])).repl 0).paddock.filter (·.src == 1)).length == 1024) = true := by decide +kernel

/-- The packet is on its way to die 0, which has a stamp for its line. -/
def inAir (st : Stamp) (e : Nat) (s : State) : State :=
  { s.modRepl 0 (fun r => { r with stamps := [(32, st)] }) with air := [(1, 0, { pk 5 with epoch := e })] }

def dueMet (s : State) : Bool :=
  decide ((pk 5).epoch = s.epoch ∧ (pk 5).sep = (s.repl 0).sep ∧ (pk 5).sq = lget (s.repl 0).applied 1 0 + 1) && (s.repl 0).paddock.isEmpty && (s.repl 0).upds.isEmpty &&
    (s.repl 0).mstate == .member && (List.range 8).all fun k => decide (lget (pk 5).dep k 0 ≤ lget (s.repl 0).applied k 0)

theorem wit_ReplicationEvents_receive :
    (match (inAir ⟨0, 0, 0⟩ 1 (lab 0 [])).air with
      | (_, _, p) :: _ => p.epoch != (lab 0 []).epoch
      | [] => false) = true ∧
    (dueMet (inAir ⟨5, 0, 0⟩ 0 (lab 0 [])) && (inAir ⟨5, 0, 0⟩ 0 (lab 0 [])).stampOf 0 32 == ⟨5, 0, 0⟩) = true ∧
    (dueMet (inAir ⟨5, 2, 0⟩ 0 (lab 0 [])) && (inAir ⟨5, 2, 0⟩ 0 (lab 0 [])).stampOf 0 32 == ⟨5, 2, 0⟩) = true := by decide +kernel

/-- Die 0 has applied `n` updates of die 1, whose log for it holds the first. -/
def applied (n : Nat) (s : State) : State := (logged 0 s).modRepl 0 fun r => { r with applied := [0, n, 0, 0, 0, 0, 0, 0] }

theorem wit_ReplicationEvents_ack :
    (lget ((applied 0 (lab 0 [])).repl 1).outLog 0 [] == [pk 5] && decide (lget ((applied 0 (lab 0 [])).repl 0).applied 1 0 < 1) && !(applied 0 (lab 0 [])).linkDead 1 0) = true ∧
    (decide (1 ≤ lget ((applied 1 (lab 0 [])).repl 0).applied 1 0) && ((applied 1 (lab 0 [])).repl 0).mstate == .member) = true := by decide +kernel

/-- A strong store of die 0 with its slot asked for, or granted. -/
def strongUnder (s : State) : State :=
  s.modRepl 0 fun r => { r with issued := 1, upds := [⟨1, some .sst, ak, 1, 36, 4, 0xABCD, 0, none, 5, 4#57, 0⟩] }

theorem wit_ReplicationEvents_slots :
    ({ strongUnder (lab 0 []) with slotReqs := [⟨0, 1, 3⟩] } : State).slotReqs = ⟨0, 1, 3⟩ :: [] ∧
    (match ((strongUnder (lab 0 [])).repl 0).upds with
      | [u] => u.sq == 1 && u.strong == some .sst && ((strongUnder (lab 0 [])).repl 0).paddock.isEmpty && ((strongUnder (lab 0 [])).repl 0).gseq == 0
      | _ => false) = true := by decide +kernel

/-- The capo with some grants made, in cycle `c`. -/
def capoAt (n c : Nat) (s : State) : State := { s with capo := { s.capo with grants := n, since := 0 }, cycle := c }

theorem wit_ReplicationEvents_capo :
    (({ capoAt 4096 0 (lab 0 []) with slotReqs := [⟨0, 1, 3⟩] } : State).arch.isNone && decide (4096 ≤ (capoAt 4096 0 (lab 0 [])).capo.grants)) = true ∧
    decide ((capoAt 4095 125000 (lab 0 [])).capo.since + 125000 ≤ 125000) = true ∧
    decide ((capoAt 4095 124999 (lab 0 [])).capo.grants < 4096 ∧ 124999 < (capoAt 4095 124999 (lab 0 [])).capo.since + 125000) = true := by decide +kernel

/-- Die 1 has issued `n` updates that die 0 has not applied; die 0 has a member state. -/
def behind (n : Nat) (m : MState) (c : Nat) (s : State) : State :=
  { (s.modRepl 1 fun r => { r with issued := n }).modRepl 0 fun r => { r with mstate := m, lagSince := 0 } with cycle := c }

theorem wit_MembershipEvents_lag :
    ((behind (2 ^ 20) .member 0 (lab 0 [])).arch.isNone && (behind (2 ^ 20) .member 0 (lab 0 [])).isMember 0 && (behind (2 ^ 20) .member 0 (lab 0 [])).lagging 0 0) = true ∧
    (behind (2 ^ 20 - 1) .member 0 (lab 0 [])).lagging 0 0 = false ∧
    ((behind (2 ^ 20) .lagging 12500000 (lab 0 [])).lagging 0 1 && (behind (2 ^ 20) .lagging 12500000 (lab 0 [])).others 0 != [] &&
      decide (((behind (2 ^ 20) .lagging 12500000 (lab 0 [])).repl 0).lagSince + 12500000 ≤ 12500000)) = true := by decide +kernel

/-- Every link of die 0 has failed. -/
def cutOff (s : State) : State := { s with deadLinks := (List.range 7).map fun k => (0, k + 1) }

theorem wit_MembershipEvents_links :
    (((cutOff (lab 0 [])).repl 0).mstate != .evicted && ((cutOff (lab 0 [])).others 0).all fun k => (cutOff (lab 0 [])).linkDead 0 k) = true ∧
    (((lab 0 []).others 0).any fun k => !(lab 0 []).linkDead 0 k) = true := by decide +kernel

theorem wit_MembershipEvents_evict : ((behind 1 .evicted 0 (lab 0 [])).isMember 0 && ((behind 1 .evicted 0 (lab 0 [])).repl 0).mstate == .evicted) = true := by
  decide +kernel

/-- Die 1 has issued 2^31 updates; or every member is quiet while a wrap waits. -/
def wrapping (s : State) : State := { s with arch := some (.wrap 0), quies := true }

theorem wit_MembershipEvents_wrap :
    ((behind (2 ^ 31) .member 0 (lab 0 [])).archFree && (behind (2 ^ 31) .member 0 (lab 0 [])).wrapDue) = true ∧
    ((behind (2 ^ 31 - 1) .member 0 (lab 0 [])).archFree && !(behind (2 ^ 31 - 1) .member 0 (lab 0 [])).wrapDue) = true ∧
    ((wrapping (lab 0 [])).slotReqs.isEmpty && (wrapping (lab 0 [])).grants.isEmpty && (wrapping (lab 0 [])).air.isEmpty && (List.range 8).all fun d =>
      ((wrapping (lab 0 [])).repl d).upds.isEmpty && ((wrapping (lab 0 [])).repl d).paddock.isEmpty && ((wrapping (lab 0 [])).repl d).outLog.all (·.isEmpty) &&
        ((wrapping (lab 0 [])).repl d).mstate != .evicted) = true ∧
    ((wrapping (logged 0 (lab 0 []))).repl 1).outLog.all (·.isEmpty) = false := by decide +kernel

/-- A pass over the line 32 of die 0 is due. -/
def passing (sep : Nat) (s : State) : State :=
  { s.modRepl 0 (fun r => { r with sep := 4, stamps := [(32, ⟨9, 1, sep⟩)] }) with rewrite := [(0, 32)] }

theorem wit_MembershipEvents_pass :
    ((passing 3 (lab 0 [])).rewrite == [(0, 32)] && tget ((passing 3 (lab 0 [])).repl 0).stamps 32 == some ⟨9, 1, 3⟩ && (lab 0 []).replSize != 32) = true := by
  decide +kernel

/-- Die 0 is out, or on its way back. -/
def outside (s : State) : State := { s.modRepl 0 (fun r => { r with mstate := .evicted }) with memb := 0xFE }
def rejoining (s : State) : State := { outside s with arch := some (.rejoin 0 0), quies := true }

theorem wit_MembershipEvents_rejoin :
    ((outside (lab 0 [])).archFree && !(outside (lab 0 [])).isMember 0 && ((outside (lab 0 [])).repl 0).mstate == .evicted) = true ∧
    ((rejoining (lab 0 [])).drained && !(rejoining (lab 0 [])).isMember 0 && (List.range 8).find? (rejoining (lab 0 [])).isMember == some 1 &&
      !(rejoining (lab 0 [])).linkDead 1 0) = true := by decide +kernel

/-- The line 64 of die 0's replica has failed. -/
def failedLine (s : State) : State := { s with bad := [s.replSpa 0 64 / 32] }

theorem wit_MembershipEvents_behind :
    ((List.range 8).all fun j => decide (lget ((failedLine (lab 0 [])).repl 0).applied j 0 ≤ lget ((failedLine (lab 0 [])).repl 1).applied j 0)) = true ∧
    (let s := (failedLine (lab 0 [])).modRepl 0 fun r => { r with applied := [0, 1, 0, 0, 0, 0, 0, 0] }
     decide (lget (s.repl 1).applied 1 0 < lget (s.repl 0).applied 1 0)) = true := by decide +kernel
theorem wit_MembershipEvents_repair : ((failedLine (lab 0 [])).isMember 0 && decide (64 < (failedLine (lab 0 [])).replSize) &&
    (failedLine (lab 0 [])).bad.contains ((failedLine (lab 0 [])).replSpa 0 64 / 32) &&
    ((failedLine (lab 0 [])).others 0).find? (fun k => !(failedLine (lab 0 [])).bad.contains ((failedLine (lab 0 [])).replSpa k 64 / 32)) == some 1) = true := by
  decide +kernel

/-- An operation of the current strand at gate 9 whose list grants tenant 1 everything. -/
def opAt (g : Gate) (ask : GateAsk) (st : GateSt) (s : State) : State := { gated g s with gateOps := [⟨6, ak, 1, 1, 9, ask, st, none, false⟩] }
def openGate (rate : Nat) (mig : GMig) : Gate := gate9 [⟨1, true, true, true⟩] (2 ^ 64 - 3) rate mig

def opMet (g : Gate) (ask : GateAsk) (p : GateOp → Gate → Bool) : Bool :=
  let s := opAt g ask .sent (put 0 [])
  someThen (s.gateOps.find? (·.id == 6)) fun o => someThen (tget s.gates o.gid) fun g => g.gid == o.gid && o.st == .sent &&
    o.away.isNone && (s.gateEvent 6).isNone && decide (g.home < 8) && g.held.isEmpty &&
    !s.isFenced g.home 8 0 && p o g

def granted (g : Gate) (o : GateOp) : Bool :=
  g.valid && g.acl.any fun a => a.tenant == o.tenant && match o.ask with
    | .sig _ => a.sig
    | .wait _ => a.wait
    | .rd => a.read

theorem wit_GateEvents_request :
    opMet (gate9 [] 0 0 .active) (.sig 1) (fun o g => g.mig == .active && !granted g o) = true ∧
    opMet (openGate 0 .active) (.sig 5) (fun o g => granted g o && g.rate == 0 && g.delayed.isEmpty) = true ∧
    opMet (openGate 0 .forwarding) (.wait (2 ^ 64 - 3)) (fun o g => granted g o && g.mig == .forwarding && decide (2 ^ 64 - 3 ≤ g.value)) = true ∧
    opMet (openGate 0 .active) (.wait (2 ^ 64 - 2)) (fun o g => granted g o && decide (g.value < 2 ^ 64 - 2)) = true ∧
    opMet (openGate 0 .active) .rd (fun o g => granted g o) = true ∧ opMet (openGate 0 .freezing) .rd (fun _ g => g.mig == .freezing) = true ∧
    opMet (openGate 0 .arriving) .rd (fun o g => g.mig == .arriving && !o.fwd) = true := by decide +kernel

/-- The event of the operation waits in the shed of die 0 behind another of gate 9. -/
def behindGate (s : State) : State := s.modDie 0 fun d => { d with events := [⟨.gate, 1, 9, 5, 0, false⟩, ⟨.gate, 1, 9, 6, 0, false⟩] }

theorem wit_GateEvents_order :
    (let s := behindGate (opAt (openGate 0 .active) .rd .sent (put 0 []))
     (s.gateOps.find? (·.id == 6)).isSome && s.gateEvent 6 == some (0, ⟨.gate, 1, 9, 6, 0, false⟩) && !(s.die 0).oldest ⟨.gate, 1, 9, 6, 0, false⟩) = true := by
  decide +kernel

/-- An operation of module 7, number 3 of its die 2. -/
def opAway (st : GateSt) : GateOp := ⟨6, noStrandKey, 0, 1, 9, .rd, st, some (7, 2, 3), false⟩

theorem wit_GateEvents_away :
    (({ put 0 [] with gateOps := [opAway .denied] } : State).gateOps.find? (·.id == 6)).any (fun o => o.st == .denied && o.away == some (7, 2, 3)) = true ∧
    (({ put 0 [] with gateOps := [opAway (.answered 5)] } : State).gateOps.find? (·.id == 6)).any (fun o => o.st == .answered 5 && o.away == some (7, 2, 3)) = true := by
  decide +kernel

/-- The operation that a committed gate word left, under flag 2 or none. -/
def gatePend (flag : Option Nat) (s : State) : State :=
  { s with pend := [{ id := 5, owner := ak, flag := flag, committed := true, cpc := 0#57, fpc := 4#57, len := 1, kind := .gate 6, places := [],
                      tags := [], dests := [], invl := false, divz := false, ovfl := false, unfl := false }] }

theorem wit_GateEvents_answer :
    ((opAt (openGate 0 .active) (.sig 1) .denied (put 0 [])).gateOps.find? (·.id == 6)).any (·.st == .denied) = true ∧
    ((opAt (openGate 0 .active) (.wait 1) (.answered 5) (put 0 [])).gateOps.find? (·.id == 6)).any (fun o => o.st == .answered 5 && o.ask == .wait 1) = true ∧
    ((gatePend none (opAt (openGate 0 .active) .rd (.answered 5) (put 0 []))).pend.find? (·.kind == .gate 6)).any (·.flag == none) = true ∧
    ((gatePend (some 2) (opAt (openGate 0 .active) .rd (.answered 5) (put 0 []))).pend.find? (·.kind == .gate 6)).any (·.flag == some 2) = true := by
  decide +kernel

/-- A gate of 2 tokens in a millisecond with a delayed signal and no token, brought up to date at cycle 0. -/
def delayedGate : Gate := { openGate 2 .active with tokens := 0, delayed := [(1, 3)] }

theorem wit_GateEvents_tokens :
    (decide ((openGate 2 .active).rate ≠ 0 ∧ (openGate 2 .active).home < 8) && (openGate 2 .active).delayed.isEmpty) = true ∧
    (delayedGate.tokens == 0 && (delayedGate.credit + delayedGate.rate * (625000 - delayedGate.at_) * 4) / 5000000 == 1 && delayedGate.delayed == [(1, 3)]) = true := by
  decide +kernel

theorem wit_GateEvents_migrate :
    (decide ((openGate 0 .active).home < 8 ∧ (openGate 0 .active).mig = .active ∧ (put 0 []).modId < 2 ^ 20 ∧ 7 ≠ (openGate 0 .active).home) &&
      !(put 0 []).isFenced 7 8 0) = true ∧
    ((openGate 0 .freezing).mig == .freezing && (openGate 0 .freezing).rate == 0 && (openGate 0 .freezing).delayed.isEmpty) = true ∧
    ({ openGate 0 .copying with newHome := 7 }.newMod == (put 0 []).modId && (openGate 0 .copying).mig == .copying && (openGate 0 .copying).held.isEmpty) = true ∧
    ({ openGate 0 .copying with newMod := 7, newHome := 2 }.newMod != (put 0 []).modId && (openGate 0 .copying).held.isEmpty) = true ∧
    ((openGate 0 .forwarding).mig == .forwarding) = true := by decide +kernel

/-- A packet of die 1 of module 7 to port 15 of die 0 under key 0, whose flits stand in the port's buffer. -/
def packet (ok : Bool) (b : FabBody) : FabPacket := ⟨0, 0, 0, bodyPayload b, 7, 1, 0, 2, 7 + 2 ^ 20, ok, 15, b⟩
def buffered (s : State) : State := s.modDie 0 fun d => { d with ports := List.replicate 16 { Port.zero with buf := [⟨0, 0, 0, false, 0⟩] } }

/-- Two flits in the buffer, and an area of HBM given to yard 0. -/
def granting (s : State) : State :=
  { s.modDie 0 fun d => { d with ports := List.replicate 16 { Port.zero with buf := [⟨0, 0, 0, false, 0⟩, ⟨1, 0, 0, true, 0⟩] } } with
    yards := [(0, { noYard with valid := true })], areas := [⟨0, 0, 0x20000, 0, 0xFF⟩] }

def packetMet (s : State) (p : FabPacket) (live : Bool) (q : FabPacket → State → Bool) : Bool :=
  let u := Claims.unbuffered p s
  decide (p.die < 8 ∧ p.port < 16) && !s.isFenced p.die 5 p.port && packetFits p s.modId && (Claims.flits p s).length == 1 + p.len &&
    (p.tagOk && u.keyLive p.die p.keyid) == live && q p u

theorem wit_FabricEvents_packets :
    packetMet (buffered (lab 0 [])) (packet true (.read 3 0x10000 4)) true (fun p u => !admitsPacket u p 0x10000 4 true) = true ∧
    packetMet (buffered (lab 0 [])) (packet true (.write 3 0x10000 [])) true (fun p u => !admitsPacket u p 0x10000 0 false) = true ∧
    packetMet (buffered (lab 0 [])) (packet false (.read 3 0x10000 4)) false (fun p _ => !p.tagOk) = true := by decide +kernel

theorem wit_FabricEvents_admitted :
    packetMet (granting (lab 0 [])) (packet true (.write 3 0x10000 [1#8, 2#8, 3#8, 4#8])) true (fun p u => admitsPacket u p 0x10000 4 false) = true ∧
    packetMet { granting (lab 0 []) with dies := (buffered (lab 0 [])).dies } (packet true (.read 3 0x10000 4)) true
      (fun p u => admitsPacket u p 0x10000 4 true) = true := by decide +kernel

theorem wit_FabricEvents_partial :
    (packetFits { packet true (.read 3 0x10000 4) with dmod := 5 } (lab 0 []).modId == false) = true ∧
    ((Claims.flits (packet true (.read 3 0x10000 4)) (lab 0 [])).length != 1) = true ∧
    (({ buffered (lab 0 []) with dies := ((buffered (lab 0 [])).modDie 0 fun d => { d with sfence := [(5, 15)] }).dies } : State).isFenced 0 5 15) = true := by
  decide +kernel

theorem wit_FabricEvents_requests :
    ((asked (.read 4) (some 5) (lab 0 [])).globs.find? (fun (x : GlobReq) => x.id == 4)).any (fun r => r.op == some 5 && r.ask == .read 4 && !r.ask.isAtomic) = true ∧
    ((asked (.write eight) (some 5) (lab 0 [])).globs.find? (fun (x : GlobReq) => x.id == 4)).any (fun r => r.op == some 5 && r.ask == .write eight) = true ∧
    ((asked (.read 4) (some 5) (lab 0 [])).pend.find? (·.id == 5)).isSome = true ∧
    decide (0 + 1250000 ≤ 1250000 ∧ 1249999 < 0 + 1250000) = true ∧
    ((asked (.read 4) (some 5) (lab 0 [])).air.isEmpty && (asked (.read 4) (some 5) (lab 0 [])).items.isEmpty && (asked (.read 4) (some 5) (lab 0 [])).dies.length == 8 &&
      !(asked (.read 4) (some 5) (lab 0 [])).linkDead 0 1) = true := by decide +kernel

theorem wit_FabricEvents_links : (lget (((lab 0 []).die 0).ports) 15 Port.zero).expect = (⟨0, 0, 2, false, 0⟩ : Flit).num ∧
    (lget (((lab 0 []).die 0).ports) 15 Port.zero).buf.length < 16384 ∧
    (lget (((lab 0 []).die 0).ports) 15 Port.zero).expect ≠ (⟨1, 0, 2, false, 0⟩ : Flit).num := by decide +kernel

/-- A barrier of the communicator of one rank of die 0 (op 4), with its item. -/
def barrierColl (got : Nat) (f : Option Cause) (s : State) : State :=
  { joined s with
    items := [{ Item.blank 5 0 1 ak .coll with fail := f }]
    colls := [{ id := 4, die := 0, comm := 3, order := 0, op := 4, dt := 0, count := 0, root := 0, src := 0x10000, dst := 0x18000, clog := 0,
                prio := 0, scope := 0, tile := none, launch := 1, map := none, dmem := true, pos := 0, sent := [], got := got, need := 1,
                since := 0, item := 5 }] }

def collAt (s : State) (p : Coll → Item → Bool) : Bool :=
  someThen (s.colls.find? (fun (x : Coll) => x.die == 0 && x.id == 4)) fun c => someThen (s.item c.item) fun w => c.map.isNone && c.op == 4 && p c w

theorem wit_FabricEvents_colls :
    collAt (barrierColl 0 none (lab 0 [])) (fun c w => let s := barrierColl 0 none (lab 0 [])
      decide (s.localRanks c = [(0, (s.comm 0 c.comm).myrank)]) && (s.comm 0 c.comm).nranks == 1 && (s.comm 0 c.comm).myrank == 0 &&
        decide (s.matchOn c 0 = some c) && s.itemRuns w && !s.outranked c && c.tile.isNone && c.got == 0 && c.got != c.need) = true ∧
    collAt (barrierColl 1 none (lab 0 [])) (fun c w => w.fail.isNone && w.landed == w.arrived && c.got == c.need) = true ∧
    collAt (barrierColl 0 none (lab 0 [])) (fun c w => decide (c.since + 12500000 ≤ 12500000 ∧ 12499999 < c.since + 12500000) && w.fail.isNone &&
      decide ((barrierColl 0 none (lab 0 [])).peers c = [(0, c)])) = true := by decide +kernel

/-- Every die has passed its last stage, or die `d` has failed in one. -/
def staged (d code : Nat) (s : State) : State :=
  { s with boot := { Boot.zero with dies := (List.replicate 8 { DieBoot.zero with stage := 6 }).set d { DieBoot.zero with stage := 6, code := code } } }

/-- Die 3 stands at a stage, with an image of two empty sections, whose serial is that of the die. -/
def atStage (n : Nat) (s : State) : State :=
  { s with
    boot := { Boot.zero with dies := Boot.zero.dies.set 3 { DieBoot.zero with stage := n } }
    flash := { s.flash with
      sections := [[], []]
      header := ⟨3, ofBytes ((shake256 ([] ++ Config.kdfLabel 0)).take 8), 0xB0, [shake256 [], shake256 []]⟩ } }

theorem wit_ModuleEvents_stages :
    ((atStage 1 (put 0 [])).boot.dies.length = 8 ∧ (atStage 1 (put 0 [])).boot.state = 0) ∧
    (∀ n, n < 6 → (lget (atStage n (put 0 [])).boot.dies 3 DieBoot.zero).stage = n) ∧
    (Config.fuzzy (Config.sram 3 0) [] = none ∨ ∃ seed, Config.fuzzy (Config.sram 3 0) [] = some seed) ∧
    (atStage 2 (put 0 [])).flash.header.series = 3 ∧ (put 0 []).flash.header.series ≠ 3 ∧
    (atStage 3 (put 0 [])).flash.header.serial = ofBytes ((shake256 ((lget (atStage 3 (put 0 [])).boot.dies 3 DieBoot.zero).seed ++ Config.kdfLabel 0)).take 8) ∧
    (atStage 3 (put 0 [])).flash.header.stepping = 0xB0 ∧ (put 0 []).flash.header.stepping ≠ 0xB0 ∧
    (atStage 4 (put 0 [])).flash.sections.map shake256 = (atStage 4 (put 0 [])).flash.header.digests :=
  ⟨by decide, by decide, by cases Config.fuzzy (Config.sram 3 0) [] <;> simp, rfl, by decide, rfl, rfl, by decide, rfl⟩

theorem wit_ModuleEvents :
    memWf (lab 0 []).mem = true ∧ ((staged 0 0 (put 0 [])).boot.state = 0 ∧ ∀ b ∈ (staged 0 0 (put 0 [])).boot.dies, b.stage = 6) ∧
    ((List.range 8).all fun e => (lget (staged 0 0 (put 0 [])).boot.dies e DieBoot.zero).code == 0 && (lget (staged 7 5 (put 0 [])).boot.dies e DieBoot.zero).code == if e == 7 then 5 else 0) = true ∧
    (∃ b ∈ (put 0 []).boot.dies, b.stage ≠ 6) ∧ (lab 0 []).boot.state = 1 ∧
    (tget (lab 0 []).vfs 64 = none ∧ tget ({ lab 0 [] with vfs := [(1, 4)] } : State).vfs 1 = some 4) ∧
    ((lab 0 []).ctxs.all fun e => e.2.d.hostfn != 64) = true ∧
    decide ((lab 0 []).ctxs.filter (fun e => e.2.d.hostfn == 1) = [(1, ⟨ctxDesc, true, false, 1, [], [], [], 0⟩)]) = true ∧
    ((lab 0 []).blastSet 0 5 3 == [] && !(lab 0 []).isFenced 0 5 3) = true := by decide +kernel

theorem wit_StepKeepsMemory : let s := lab (W 9 0x06 3 1 1) [(1, 2, 2), (3, 1, 7)]
    memWf s.mem = true ∧ (s.groups.all fun e => memWf e.2.win) = true ∧ (s.cwins.all fun e => memWf e.2) = true ∧
    thenState (step (lab (W 9 0x06 3 1 1) [(1, 2, 2), (3, 1, 7)])) (fun t => t.mem != tables) = true := by decide +kernel
end Sys2Proof.Tests
end

/-! The transfers of class 0x4 (R15, R22, R23, R83): the model's targets are the spec's, and every transfer is one instance of
`transferWord`. -/

namespace Sys2Proof.Transfers

open Sys2Proof Sys2Proof.Machine

/-! ## Targets and the link -/

/-- An offset counts words: the model multiplies it by four where the claim shifts it by two (R23). -/
theorem relTarget_eq_relTo (v : Vals) (im : BitVec 14) : v.x.relTarget im = Claims.relTo v im := by
  rw [Strand.relTarget, Claims.relTo, BitVec.shiftLeft_eq_mul_twoPow]
  rfl

theorem hdrLen_eq_extract (h : Word) : hdrLen h = (h.extractLsb' 8 4).toNat := by
  simp [hdrLen, bitsOf, BitVec.extractLsb'_toNat, Nat.shiftRight_eq_div_pow]

theorem nextHdr_eq_nextOf (v : Vals) : v.x.nextHdr = Claims.nextOf v := by
  rw [Strand.nextHdr, Claims.nextOf, hdrLen_eq_extract, BitVec.ofNat_mul, BitVec.ofNat_add, BitVec.ofNat_toNat]

/-- The link's two words are those of its address zero-extended to 64 bits: the high one holds bits [56:32] and seven zeros (R23). -/
theorem linkPair_eq_linkOf (v : Vals) : v.x.linkPair = Claims.linkOf v := by
  have low (a : BitVec 57) : a.extractLsb' 0 32 = (a.setWidth 64).setWidth 32 := by
    ext i hi
    simp
  have high (a : BitVec 57) : (a.extractLsb' 32 25).zeroExtend 32 = (a.setWidth 64 >>> 32).setWidth 32 := by
    apply BitVec.eq_of_toNat_eq
    simp [BitVec.extractLsb'_toNat, Nat.shiftRight_eq_div_pow]
    omega
  rw [Strand.linkPair, Claims.linkOf, Claims.two, nextHdr_eq_nextOf, low, high]

theorem v64_eq_w64 (l : List TVal) : v64 l = (Claims.w64 l).toNat := by
  rw [Claims.w64, BitVec.toNat_append, ← Nat.shiftLeft_add_eq_or_of_lt (Claims.w32 l).isLt, Nat.shiftLeft_eq, Nat.mul_comm, Nat.add_comm]
  rfl

/-- Rounding an address down to a multiple of four clears its bits [1:0], and bits [63:57] are cut off (R15). -/
theorem pcOf_toNat (w : BitVec 64) : pcOf w.toNat = w.setWidth 57 &&& ~~~3#57 := by
  have shifted : pcOf w.toNat = (w >>> 2 <<< 2).setWidth 57 := by
    apply BitVec.eq_of_toNat_eq
    simp [pcOf, Nat.shiftRight_eq_div_pow, Nat.shiftLeft_eq]
  have mask : (BitVec.allOnes 64 <<< 2).setWidth 57 = ~~~3#57 := by decide
  rw [shifted, BitVec.shiftLeft_ushiftRight, BitVec.setWidth_and, mask]

theorem pcOf_eq_pairTo (v : Vals) : pcOf (v64 v.a) = Claims.pairTo v := by
  rw [v64_eq_w64, pcOf_toNat, Claims.pairTo]

/-! ## The shared form -/

/-- A transfer completes at its target once its operands are read and its link is written. -/
theorem transferWord_ok {sp : WordForm} {f : Vals → List TVal × BitVec 57} {s s1 s2 : State} {v : Vals}
    (hread : readWord { sp with cls := 4, transfer := true } s = .ok (v, s1)) (hput : Claims.putOut sp v (f v).1 s1 = .ok ((), s2)) :
    transferWord sp f s = .ok ((), s2.modStrand v.k (Claims.atHeader (f v).2)) := by
  unfold transferWord
  rw [Exec.bind_ok hread]
  unfold Claims.putOut at hput
  cases ho : sp.out with
  | none =>
    rw [ho] at hput
    obtain rfl : s1 = s2 := by simpa using hput
    rfl
  | some o =>
    rw [ho] at hput
    exact Exec.bind_ok hput

/-- `transferWord` sets the class and the mark of a transfer itself, so two forms that differ there alone give one word. -/
theorem transferWord_congr {sp sp' : WordForm} {f g : Vals → List TVal × BitVec 57}
    (hsp : { sp with cls := 4, transfer := true } = { sp' with cls := 4, transfer := true }) (h : ∀ v, f v = g v) :
    transferWord sp f = transferWord sp' g := by
  rw [funext h]
  change transferWord { sp with cls := 4, transfer := true } g = transferWord { sp' with cls := 4, transfer := true } g
  rw [hsp]

theorem runTransfer_congr {sp sp' : WordForm} {f g : Vals → List TVal × BitVec 57} {k : StrandKey} {s : State}
    (hsp : { sp with cls := 4, transfer := true } = { sp' with cls := 4, transfer := true }) (h : ∀ v, f v = g v) :
    runWord k (transferWord sp f) s = runWord k (transferWord sp' g) s := by rw [transferWord_congr hsp h]

/-! ## The rows -/

theorem xferRow_form {i : Instr} {sp : WordForm} {f : Vals → List TVal × BitVec 57} (h : Claims.xferRow i = some (sp, f)) :
    { sp with cls := 4, transfer := true } = sp := by
  unfold Claims.xferRow at h
  split at h <;> cases h <;> rfl

/-- The instruction of a row runs the transfer that the row describes. -/
theorem exec_of_xferRow {i : Instr} {sp : WordForm} {f : Vals → List TVal × BitVec 57} (h : Claims.xferRow i = some (sp, f))
    (s : State) : exec i s = runWord s.cur (transferWord sp f) s := by
  unfold Claims.xferRow at h
  split at h <;> cases h
  case h_1 => /- BRA -/ exact runTransfer_congr rfl fun v => by rw [relTarget_eq_relTo]
  case h_2 => /- BRP -/ exact runTransfer_congr rfl fun v => by rw [Strand.pred, relTarget_eq_relTo, nextHdr_eq_nextOf]
  case h_3 => /- BRN -/ exact runTransfer_congr rfl fun v => by rw [Strand.pred, relTarget_eq_relTo, nextHdr_eq_nextOf]
  case h_4 => /- JMP -/ exact runTransfer_congr rfl fun v => by rw [pcOf_eq_pairTo]
  case h_5 => /- CALL -/ exact runTransfer_congr rfl fun v => by rw [linkPair_eq_linkOf, relTarget_eq_relTo]
  case h_6 => /- CALLR -/ exact runTransfer_congr rfl fun v => by rw [linkPair_eq_linkOf, pcOf_eq_pairTo]
  case h_7 => /- RET -/ exact runTransfer_congr rfl fun v => by rw [pcOf_eq_pairTo]

/-- Settles O8: each transfer is one `transferWord` with the row's target and link, and such a word completes at its target. -/
theorem transferWords : Obligations.TransferWords := by
  unfold Obligations.TransferWords
  intro i sp f s s1 s2 v hrow hread hput
  rw [exec_of_xferRow hrow]
  refine runWord_ok (transferWord_ok ?_ hput)
  rwa [xferRow_form hrow]

end Sys2Proof.Transfers

/-! What the two value-word families share (R71): where a word of one form and of an equal result runs, it completes as `Claims.Gives`
states; and how the model's readings of an operand, as numbers, stand to the claims' words. -/

namespace Sys2Proof.ValueWords

open Sys2Proof Sys2Proof.Machine Sys2Proof.Claims

/-! ## From a row to a completed word -/

/-- A table holds of the machine once each of its instructions runs the value word of its row. -/
theorem gives_of_exec {row : State → Instr → Option Row}
    (h : ∀ s i sp f, row s i = some (sp, f) → exec i s = runWord s.cur (valueWord sp f) s) : Gives row := by
  intro i sp f s s1 s2 v hrow hread hput
  rw [h s i sp f hrow]
  exact runWord_ok (valueWord_ok hread hput)

section
variable {k : StrandKey} {sp : WordForm} {s : State}

theorem runValue_congr {f g : Vals → List TVal × Log} (h : ∀ v, f v = g v) :
    runWord k (valueWord sp f) s = runWord k (valueWord sp g) s := by rw [valueWord_congr h]

/-- Two words with one-register results of one tag and log are one word where the results agree. -/
theorem runOne {t : Vals → Tag} {lg : Vals → Log} {f g : Vals → BitVec 32} (h : ∀ v, f v = g v) :
    runWord k (valueWord sp fun v => ret1 (t v) (f v) (lg v)) s = runWord k (valueWord sp fun v => one (t v) (g v) (lg v)) s :=
  runValue_congr fun v => by rw [h]; rfl

theorem ret2_eq_two (lo hi : Tag) (w : BitVec 64) (lg : Log) : ret2 lo hi w lg = two lo hi w lg := by
  have low : w.extractLsb' 0 32 = w.setWidth 32 := by ext i hi; simp
  have high : w.extractLsb' 32 32 = (w >>> 32).setWidth 32 := by ext i hi; simp
  rw [ret2, two, low, high]

theorem runTwo {lo hi : Tag} {f g : Vals → BitVec 64} (h : ∀ v, f v = g v) :
    runWord k (valueWord sp fun v => ret2 lo hi (f v)) s = runWord k (valueWord sp fun v => two lo hi (g v)) s :=
  runValue_congr fun v => by rw [h, ret2_eq_two]

end

/-! ## Two's complement (R36) -/

theorem ofNat_toNat_self {n : Nat} (x : BitVec n) : BitVec.ofNat n x.toNat = x := by
  rw [BitVec.ofNat_toNat, BitVec.setWidth_eq]

theorem ofInt_sub {n : Nat} (x y : Int) : BitVec.ofInt n (x - y) = BitVec.ofInt n x - BitVec.ofInt n y := by
  rw [Int.sub_eq_add_neg, BitVec.ofInt_add, BitVec.ofInt_neg, BitVec.sub_eq_add_neg]

/-- `sext` reads the low bits of a number as a two's-complement value. -/
theorem sext_eq_toInt (x : Nat) {n : Nat} (hn : 0 < n) : sext x n = (BitVec.ofNat n x).toInt := by
  have half : 2 * 2 ^ (n - 1) = 2 ^ n := by rw [← Nat.pow_succ', Nat.succ_eq_add_one, Nat.sub_add_cancel hn]
  have below : x % 2 ^ n < 2 ^ (n - 1) ↔ 2 * (x % 2 ^ n) < 2 ^ n := by omega
  simp only [sext, BitVec.toInt_eq_toNat_cond, BitVec.toNat_ofNat, below]
  split <;> simp

/-- The low bits of a sign extension are a sign extension of words. -/
theorem low32_sext (x : Nat) {n : Nat} (hn : 0 < n) : low32 (sext x n) = (BitVec.ofNat n x).signExtend 32 := by
  rw [sext_eq_toInt x hn]; rfl

theorem low32_sext_toNat {n : Nat} (x : BitVec n) (hn : 0 < n) : low32 (sext x.toNat n) = x.signExtend 32 := by
  rw [low32_sext _ hn, ofNat_toNat_self]

/-! ## The readings of an operand (R72) -/

theorem v32_eq_toNat (l : List TVal) : v32 l = (w32 l).toNat := rfl

theorem ofNat_v32 (l : List TVal) : BitVec.ofNat 32 (v32 l) = w32 l := ofNat_toNat_self _

theorem nval_eq_toNat (l : List TVal) : nval l = ((w32 l).toNat : Int) := rfl

theorem ival_eq_toInt (l : List TVal) : ival l = (w32 l).toInt := by
  rw [ival, sext_eq_toInt _ (by decide), ofNat_v32]

end Sys2Proof.ValueWords

/-! The integer words of class 0x0 (R74, R75, Table 4.1): taking the low bits of an exact integer undoes either reading of a word and
keeps sums, differences and products, so the model's exact results are the claims' wrapped ones. -/

namespace Sys2Proof.IntegerRows

open Sys2Proof Sys2Proof.Machine Sys2Proof.Claims Sys2Proof.ValueWords

/-! ## Low words of exact integers -/

theorem low32_add (x y : Int) : low32 (x + y) = low32 x + low32 y := BitVec.ofInt_add ..
theorem low32_sub (x y : Int) : low32 (x - y) = low32 x - low32 y := ofInt_sub ..
theorem low32_mul (x y : Int) : low32 (x * y) = low32 x * low32 y := BitVec.ofInt_mul ..
theorem low32_neg (x : Int) : low32 (-x) = -low32 x := BitVec.ofInt_neg
theorem low64_add (x y : Int) : low64 (x + y) = low64 x + low64 y := BitVec.ofInt_add ..
theorem low64_sub (x y : Int) : low64 (x - y) = low64 x - low64 y := ofInt_sub ..
theorem low64_mul (x y : Int) : low64 (x * y) = low64 x * low64 y := BitVec.ofInt_mul ..

section
variable (l : List TVal)

theorem low32_nval : low32 (nval l) = w32 l := ofNat_v32 l
theorem low32_ival : low32 (ival l) = w32 l := by rw [ival_eq_toInt]; exact BitVec.ofInt_toInt
theorem low64_nval : low64 (nval l) = (w32 l).setWidth 64 := BitVec.ofNat_toNat ..
theorem low64_ival : low64 (ival l) = (w32 l).signExtend 64 := by rw [ival_eq_toInt]; rfl
theorem low64_v64 : low64 (v64 l) = w64 l := by
  rw [Transfers.v64_eq_w64]
  exact ofNat_toNat_self _

end

/-- Bits [63:32] of an exact product, and of its low 64 bits. -/
theorem low32_div_two_pow (x : Int) : low32 (x / 2 ^ 32) = (low64 x).extractLsb' 32 32 := by
  apply BitVec.eq_of_toNat_eq
  simp only [low32, low64, BitVec.extractLsb'_toNat, BitVec.toNat_ofInt, Nat.shiftRight_eq_div_pow]
  omega

/-- An index scaled by a power of two is a shift (the IXADD forms). -/
theorem low32_add_mul_two_pow (x y : List TVal) (n : Nat) : low32 (nval x + nval y * (2 ^ n : Nat)) = w32 x + w32 y <<< n := by
  rw [low32_add, low32_mul, low32_nval, low32_nval, BitVec.shiftLeft_eq_mul_twoPow]
  have pow : low32 (2 ^ n : Nat) = BitVec.twoPow 32 n := by
    apply BitVec.eq_of_toNat_eq
    rw [BitVec.toNat_twoPow]
    exact BitVec.toNat_ofNat ..
  rw [pow]

/-! ## Minimum, maximum, magnitude and clamping -/

theorem ival_lt (x y : List TVal) : ival x < ival y ↔ (w32 x).slt (w32 y) = true := by
  rw [ival_eq_toInt, ival_eq_toInt, BitVec.slt_iff_toInt_lt]

theorem nval_lt (x y : List TVal) : nval x < nval y ↔ (w32 x).ult (w32 y) = true := by
  rw [nval_eq_toNat, nval_eq_toNat, Int.ofNat_lt, BitVec.ult_iff_toNat_lt]

/-- The lesser of two readings, taken back to a word, is the word whose reading is the lesser; `max` alike. -/
theorem low32_min (m n : Int) : low32 (min m n) = if n < m then low32 n else low32 m := by
  rw [min_comm, min_def_lt, apply_ite low32]

theorem low32_max (m n : Int) : low32 (max m n) = if m < n then low32 n else low32 m := by
  rw [max_def_lt, apply_ite low32]

theorem low32_natAbs (x : List TVal) : low32 (ival x).natAbs = if (w32 x).msb then -(w32 x) else w32 x := by
  rw [BitVec.msb_eq_toInt, ← ival_eq_toInt, Int.natCast_natAbs]
  by_cases neg : ival x < 0
  · rw [abs_of_neg neg, low32_neg, low32_ival]; simp [neg]
  · rw [abs_of_nonneg (not_lt.1 neg), low32_ival]; simp [neg]

theorem low32_clampInt {lo hi : Int} (h : lo ≤ hi) (x : Int) : low32 (clampInt lo hi x) = clamp lo hi x := by
  have : clampInt lo hi x = max lo (min hi x) := by unfold clampInt; omega
  rw [this]; rfl

theorem low32_clampI (x : Int) : low32 (clampI x).1 = clamp (-(2 ^ 31)) (2 ^ 31 - 1) x := low32_clampInt (by decide) x
theorem low32_clampN (x : Int) : low32 (clampN x).1 = clamp 0 (2 ^ 32 - 1) x := low32_clampInt (by decide) x

/-! ## Division (R55) -/

theorem ival_eq_zero (l : List TVal) : ival l = 0 ↔ w32 l = 0#32 := by
  rw [ival_eq_toInt, ← BitVec.toInt_zero (w := 32), BitVec.toInt_inj]

theorem nval_eq_zero (l : List TVal) : nval l = 0 ↔ w32 l = 0#32 := by
  rw [nval_eq_toNat, Int.natCast_eq_zero, ← BitVec.toNat_inj, BitVec.toNat_zero]

/-- The quotient of two readings where the divisor's is zero just for a zero word. -/
theorem ret1_divLog {t : Tag} {x y : Int} {b q : BitVec 32} (hb : y = 0 ↔ b = 0#32) (hq : low32 (x.tdiv y) = q) :
    ret1 t (low32 (divLog x y).1) (divLog x y).2 = if b = 0#32 then one t 0xFFFFFFFF#32 divz else one t q := by
  by_cases hy : y = 0
  · simp only [divLog, hy, beq_self_eq_true, if_true, hb.1 hy]; rfl
  · simp only [divLog, beq_iff_eq, hy, hb.not.1 hy, if_false, hq]; rfl

theorem ret1_remLog {t : Tag} {x y : Int} {a b r : BitVec 32} (hb : y = 0 ↔ b = 0#32) (ha : low32 x = a) (hr : low32 (x.tmod y) = r) :
    ret1 t (low32 (remLog x y).1) (remLog x y).2 = if b = 0#32 then one t a divz else one t r := by
  by_cases hy : y = 0
  · simp only [remLog, hy, beq_self_eq_true, if_true, hb.1 hy, ha]; rfl
  · simp only [remLog, beq_iff_eq, hy, hb.not.1 hy, if_false, hr]; rfl

section
variable (x y : List TVal)

theorem low32_tdiv_ival : low32 ((ival x).tdiv (ival y)) = (w32 x).sdiv (w32 y) := by
  rw [ival_eq_toInt, ival_eq_toInt, ← BitVec.toInt_inj, BitVec.toInt_sdiv]
  exact BitVec.toInt_ofInt ..

theorem low32_tmod_ival : low32 ((ival x).tmod (ival y)) = (w32 x).srem (w32 y) := by
  rw [ival_eq_toInt, ival_eq_toInt, ← BitVec.toInt_srem]
  exact BitVec.ofInt_toInt

theorem low32_tdiv_nval : low32 ((nval x).tdiv (nval y)) = w32 x / w32 y := by
  rw [nval_eq_toNat, nval_eq_toNat, ← Int.ofNat_tdiv, ← BitVec.toNat_udiv]
  exact ofNat_toNat_self _

theorem low32_tmod_nval : low32 ((nval x).tmod (nval y)) = w32 x % w32 y := by
  rw [nval_eq_toNat, nval_eq_toNat, ← Int.ofNat_tmod, ← BitVec.toNat_umod]
  exact ofNat_toNat_self _

end

/-! ## The rows -/

/-- The instruction of a row runs the value word that the row describes. -/
theorem exec_of_intRow {i : Instr} {sp : WordForm} {f : Vals → List TVal × Log} (h : intRow i = some (sp, f)) (s : State) :
    exec i s = runWord s.cur (valueWord sp f) s := by
  unfold intRow at h
  split at h <;> cases h
  case h_1 => /- IADD -/ exact runOne fun v => by rw [low32_add, low32_nval, low32_nval]
  case h_2 => /- IADDI -/ exact runOne fun v => by rw [low32_add, low32_nval, low32_sext_toNat _ (by decide)]
  case h_3 => /- ISUB -/ exact runOne fun v => by rw [low32_sub, low32_nval, low32_nval]
  case h_4 => /- IMUL -/ exact runOne fun v => by rw [low32_mul, low32_nval, low32_nval]
  case h_5 => /- IMULH.i -/ exact runOne fun v => by rw [low32_div_two_pow, low64_mul, low64_ival, low64_ival]
  case h_6 => /- IMULH.n -/ exact runOne fun v => by rw [low32_div_two_pow, low64_mul, low64_nval, low64_nval]
  case h_7 => /- IMAD -/ exact runOne fun v => by rw [low32_add, low32_mul, low32_nval, low32_nval, low32_nval]
  case h_8 => /- IMULW.i -/ exact runTwo fun v => by rw [low64_mul, low64_ival, low64_ival]
  case h_9 => /- IMULW.n -/ exact runTwo fun v => by rw [low64_mul, low64_nval, low64_nval]
  case h_10 => /- IDIV.i -/ exact runValue_congr fun v => ret1_divLog (ival_eq_zero v.b) (low32_tdiv_ival v.a v.b)
  case h_11 => /- IDIV.n -/ exact runValue_congr fun v => ret1_divLog (nval_eq_zero v.b) (low32_tdiv_nval v.a v.b)
  case h_12 => /- IREM.i -/
    exact runValue_congr fun v => ret1_remLog (ival_eq_zero v.b) (low32_ival v.a) (low32_tmod_ival v.a v.b)
  case h_13 => /- IREM.n -/
    exact runValue_congr fun v => ret1_remLog (nval_eq_zero v.b) (low32_nval v.a) (low32_tmod_nval v.a v.b)
  case h_14 => /- IMIN.i -/ exact runOne fun v => by simp only [low32_min, ival_lt, low32_ival]
  case h_15 => /- IMIN.n -/ exact runOne fun v => by simp only [low32_min, nval_lt, low32_nval]
  case h_16 => /- IMAX.i -/ exact runOne fun v => by simp only [low32_max, ival_lt, low32_ival]
  case h_17 => /- IMAX.n -/ exact runOne fun v => by simp only [low32_max, nval_lt, low32_nval]
  case h_18 => /- IABS -/ exact runOne fun v => low32_natAbs v.a
  case h_19 => /- INEG -/ exact runOne fun v => by rw [low32_neg, low32_nval]
  case h_20 => /- IADDS.i -/ exact runOne fun v => by rw [← ival_eq_toInt, ← ival_eq_toInt]; exact low32_clampI _
  case h_21 => /- IADDS.n -/ exact runOne fun v => low32_clampN _
  case h_22 => /- ISUBS.i -/ exact runOne fun v => by rw [← ival_eq_toInt, ← ival_eq_toInt]; exact low32_clampI _
  case h_23 => /- ISUBS.n -/ exact runOne fun v => low32_clampN _
  case h_24 => /- IADD64 -/ exact runTwo fun v => by rw [low64_add, low64_v64, low64_v64]
  case h_25 => /- ISUB64 -/ exact runTwo fun v => by rw [low64_sub, low64_v64, low64_v64]
  case h_26 => /- IXADD2 -/ exact runOne fun v => low32_add_mul_two_pow v.a v.b 1
  case h_27 => /- IXADD4 -/ exact runOne fun v => low32_add_mul_two_pow v.a v.b 2
  case h_28 => /- IXADD8 -/ exact runOne fun v => low32_add_mul_two_pow v.a v.b 3
  case h_29 => /- IXADD16 -/ exact runOne fun v => low32_add_mul_two_pow v.a v.b 4
  case h_30 => /- LDI -/ exact runOne fun _ => low32_sext_toNat _ (by decide)
  case h_31 => /- LDW -/ exact runOne fun _ => rfl

/-- Settles O1: each integer word is one value word with the row's result, and such a word completes. -/
theorem integerWords : Obligations.IntegerWords := gives_of_exec fun s _ _ _ h => exec_of_intRow h s

end Sys2Proof.IntegerRows

/-! The logic words of class 0x1 (R76 to R78, Table 4.2). The model computes fields, counts and reversals on numbers and the claims on
words; the lemmas compare them bit by bit, and PERMB byte by byte. -/

namespace Sys2Proof.LogicRows

open Sys2Proof Sys2Proof.Machine Sys2Proof.Claims Sys2Proof.ValueWords

/-! ## Shifts and rotations (R76) -/

theorem shiftCount_eq (y : BitVec 32) : shiftCount y = (y.setWidth 5).toNat := by
  rw [shiftCount, BitVec.toNat_setWidth]

theorem rotl_eq_rot (x : BitVec 32) (n : BitVec 5) : rotl x n.toNat = rot x n.toNat := by
  have below : n.toNat < 32 := n.isLt
  rw [rotl, rot, BitVec.rotateLeft_def, Nat.mod_eq_of_lt below]

/-! ## Fields (R77) -/

section
variable (b : BitVec 32)

theorem fieldPos_eq_fpos : fieldPos b.toNat = fpos b := by rw [fieldPos, fpos, BitVec.toNat_setWidth]

theorem fieldWidth_eq_fwid : fieldWidth b.toNat = fwid b := by
  rw [fieldWidth, fwid, fieldPos_eq_fpos, toNat_field]
  rfl

theorem fpos_add_fwid_le : fpos b + fwid b ≤ 32 := by
  have start : fpos b < 32 := (b.setWidth 5).isLt
  have width : fwid b ≤ 32 - fpos b := min_le_right ..
  omega

end

/-- The field of width `w` at position `p`, and the same bits moved to the top of the word: bit `i` of the one is bit `32 - w + i` of the
other. -/
theorem getLsbD_top (x : BitVec 32) {p w i : Nat} (h : p + w ≤ 32) (hi : i < w) :
    (x <<< (32 - p - w)).getLsbD (32 - w + i) = (BitVec.ofNat w (x.toNat / 2 ^ p)).getLsbD i := by
  have inside : 32 - w + i < 32 := by omega
  have above : ¬ 32 - w + i < 32 - p - w := by omega
  have place : 32 - w + i - (32 - p - w) = i + p := by omega
  simp only [BitVec.getLsbD_shiftLeft, BitVec.getLsbD_ofNat, Nat.testBit_div_two_pow, BitVec.testBit_toNat, inside, above, place, hi,
    decide_true, decide_false, Bool.true_and, Bool.not_false]

/-- BFX.n: a zero-extended field is its bits at the top of the word, shifted down. -/
theorem ushiftRight_top (x : BitVec 32) {p w : Nat} (h : p + w ≤ 32) :
    BitVec.ofNat 32 (x.toNat / 2 ^ p % 2 ^ w) = (x <<< (32 - p - w)) >>> (32 - w) := by
  apply BitVec.eq_of_getLsbD_eq
  intro i hi
  rw [BitVec.getLsbD_ushiftRight, BitVec.getLsbD_ofNat, Nat.testBit_mod_two_pow]
  by_cases field : i < w
  · rw [getLsbD_top x h field, BitVec.getLsbD_ofNat]
    simp [hi, field]
  · rw [BitVec.getLsbD_of_ge _ _ (by omega)]
    simp [field]

/-- BFX.i: a sign-extended field is its bits at the top of the word, shifted down with copies of the top bit. -/
theorem sshiftRight_top (x : BitVec 32) {p w : Nat} (h : p + w ≤ 32) (hw : 0 < w) :
    low32 (sext (x.toNat / 2 ^ p) w) = (x <<< (32 - p - w)).sshiftRight (32 - w) := by
  have sign : (x <<< (32 - p - w)).msb = (BitVec.ofNat w (x.toNat / 2 ^ p)).msb := by
    rw [BitVec.msb_eq_getLsbD_last, BitVec.msb_eq_getLsbD_last, ← getLsbD_top x h (by omega)]
    congr 1
    omega
  rw [low32_sext _ hw]
  apply BitVec.eq_of_getLsbD_eq
  intro i hi
  rw [BitVec.getLsbD_signExtend, BitVec.getLsbD_sshiftRight, sign]
  by_cases field : i < w
  · have inside : 32 - w + i < 32 := by omega
    simp only [field, inside, if_true, getLsbD_top x h field]
    simp [hi]
  · have outside : ¬ 32 - w + i < 32 := by omega
    simp [hi, field, outside]

/-- A number with a field replaced, as its three parts. -/
theorem insertField_eq (x a p w : Nat) : insertField x a p w = 2 ^ p * (2 ^ w * (x / 2 ^ (p + w)) + a % 2 ^ w) + x % 2 ^ p := by
  rw [insertField, pow_add]
  ring

theorem testBit_insertField (x a p w i : Nat) :
    (insertField x a p w).testBit i = if p ≤ i ∧ i < p + w then a.testBit (i - p) else x.testBit i := by
  rw [insertField_eq, Nat.testBit_two_pow_mul_add _ (Nat.mod_lt _ (Nat.two_pow_pos p)),
    Nat.testBit_two_pow_mul_add _ (Nat.mod_lt _ (Nat.two_pow_pos w)), Nat.testBit_mod_two_pow, Nat.testBit_mod_two_pow,
    Nat.testBit_div_two_pow]
  by_cases low : i < p
  · simp [low, Nat.not_le.2 low]
  · by_cases field : i < p + w
    · have : i - p < w := by omega
      simp [low, field, this, Nat.not_lt.1 low]
    · have high : ¬ i - p < w := by omega
      have place : i - p - w + (p + w) = i := by omega
      simp [low, field, high, place]

theorem getLsbD_fmask (b : BitVec 32) {i : Nat} (hi : i < 32) :
    (fmask b).getLsbD i = decide (fpos b ≤ i ∧ i < fpos b + fwid b) := by
  have := fpos_add_fwid_le b
  rw [fmask, BitVec.getLsbD_shiftLeft, BitVec.getLsbD_ushiftRight, BitVec.getLsbD_allOnes, Bool.eq_iff_iff]
  simp only [hi, decide_true, Bool.true_and, Bool.and_eq_true, Bool.not_eq_true', decide_eq_false_iff_not, decide_eq_true_eq]
  omega

/-- BFI: the field's bits come from `a`, the others stay. -/
theorem insertField_eq_mask (x a b : BitVec 32) : BitVec.ofNat 32 (insertField x.toNat a.toNat (fpos b) (fwid b)) =
    (x &&& ~~~(fmask b)) ||| (a <<< fpos b &&& fmask b) := by
  apply BitVec.eq_of_getLsbD_eq
  intro i hi
  rw [BitVec.getLsbD_ofNat, testBit_insertField, BitVec.testBit_toNat, BitVec.testBit_toNat, BitVec.getLsbD_or, BitVec.getLsbD_and,
    BitVec.getLsbD_and, BitVec.getLsbD_not, BitVec.getLsbD_shiftLeft, getLsbD_fmask b hi]
  by_cases field : fpos b ≤ i ∧ i < fpos b + fwid b
  · simp [hi, field, Nat.not_lt.2 field.1]
  · simp [hi, field]

section
variable (a b : List TVal)

theorem bfxI_result : (if fieldWidth (v32 b) == 0 then 0#32 else low32 (sext (v32 a / 2 ^ fieldPos (v32 b)) (fieldWidth (v32 b)))) =
    if fwid (w32 b) = 0 then 0#32 else (ftop (w32 a) (w32 b)).sshiftRight (32 - fwid (w32 b)) := by
  rw [v32_eq_toNat, v32_eq_toNat, fieldWidth_eq_fwid, fieldPos_eq_fpos]
  by_cases empty : fwid (w32 b) = 0
  · rw [if_pos empty, if_pos (beq_iff_eq.2 empty)]
  · rw [if_neg empty, if_neg (beq_iff_eq.not.2 empty), sshiftRight_top _ (fpos_add_fwid_le _) (Nat.pos_of_ne_zero empty), ftop]

theorem bfxN_result : BitVec.ofNat 32 (v32 a / 2 ^ fieldPos (v32 b) % 2 ^ fieldWidth (v32 b)) =
    if fwid (w32 b) = 0 then 0#32 else ftop (w32 a) (w32 b) >>> (32 - fwid (w32 b)) := by
  rw [v32_eq_toNat, v32_eq_toNat, fieldWidth_eq_fwid, fieldPos_eq_fpos]
  by_cases empty : fwid (w32 b) = 0
  · rw [if_pos empty, empty, pow_zero, Nat.mod_one]
  · rw [if_neg empty, ushiftRight_top _ (fpos_add_fwid_le _), ftop]

end

/-! ## Counts and reversal (Table 4.2) -/

theorem bitOf_toNat (x : BitVec 32) (n : Nat) : bitOf x.toNat n = x.getLsbD n := by
  rw [← BitVec.testBit_toNat, Nat.testBit_eq_decide_div_mod_eq]
  rfl

theorem b2n_eq_toNat (b : Bool) : b2n b = b.toNat := by cases b <;> rfl

theorem popCount_eq_length (x : BitVec 32) (n : Nat) :
    popCount x.toNat n = ((List.range n).filter fun i => x.getLsbD i).length := by
  induction n with
  | zero => rfl
  | succ n ih =>
    rw [popCount, ih, bitOf_toNat, List.range_succ, List.filter_append, List.length_append, Nat.add_comm]
    cases h : x.getLsbD n <;> simp [b2n, h]

theorem leadZeros_eq_length (x : BitVec 32) (n : Nat) :
    leadZeros x.toNat n = ((List.range n).reverse.takeWhile fun i => !x.getLsbD i).length := by
  induction n with
  | zero => rfl
  | succ n ih =>
    rw [leadZeros, ih, bitOf_toNat, List.range_succ, List.reverse_append]
    cases h : x.getLsbD n <;> simp [h]

/-- Bit `i` of a number with its low `n` bits reversed. -/
theorem testBit_revBits (x n i : Nat) : (revBits x n).testBit i = (decide (i < n) && bitOf x (n - 1 - i)) := by
  induction n generalizing i with
  | zero => simp [revBits]
  | succ n ih =>
    rw [revBits, b2n_eq_toNat, Nat.add_comm, ← Nat.bit_val]
    cases i with
    | zero => simp
    | succ i => simp [ih, Nat.testBit_bit_succ, Nat.sub_sub, Nat.add_comm]

theorem revBits_toNat (x : BitVec 32) : revBits x.toNat 32 = x.reverse.toNat := by
  apply Nat.eq_of_testBit_eq
  intro i
  rw [testBit_revBits, bitOf_toNat, BitVec.testBit_toNat, BitVec.getLsbD_reverse, BitVec.getMsbD_eq_getLsbD]

theorem takeWhile_congr {p q : Nat → Bool} {l : List Nat} (h : ∀ i ∈ l, p i = q i) : l.takeWhile p = l.takeWhile q := by
  induction l with
  | nil => rfl
  | cons i l ih => rw [List.takeWhile_cons, List.takeWhile_cons, h i List.mem_cons_self, ih fun j hj => h j (List.mem_cons_of_mem i hj)]

/-- CTZ: the leading zeros of the reversed word are the trailing zeros of the word. -/
theorem leadZeros_revBits (x : BitVec 32) :
    leadZeros (revBits x.toNat 32) 32 = ((List.range 32).takeWhile fun i => !x.getLsbD i).length := by
  have positions : (List.range 32).reverse = (List.range 32).map (31 - ·) := by decide
  have bit (i : Nat) (hi : i ∈ List.range 32) : (!x.reverse.getLsbD (31 - i)) = !x.getLsbD i := by
    have hi : i < 32 := List.mem_range.1 hi
    have place : 32 - 1 - (31 - i) = i := by omega
    rw [BitVec.getLsbD_reverse, BitVec.getMsbD_eq_getLsbD, place, decide_eq_true (by omega), Bool.true_and]
  rw [revBits_toNat, leadZeros_eq_length, positions, List.takeWhile_map, List.length_map]
  exact congrArg _ (takeWhile_congr bit)

/-! ## Bytes (R78) -/

theorem permByte_eq_pick (a b d : BitVec 32) (n : Nat) : permByte a.toNat b.toNat d.toNat n = (pick a b d n).toNat := by
  have sel : bitsOf b.toNat (4 * n + 3) (4 * n) = (b.extractLsb' (4 * n) 4).toNat := by
    rw [toNat_field, bitsOf]
    congr 2
    omega
  have byte (x : BitVec 32) (k : Nat) : ((x >>> k).setWidth 8).toNat = x.toNat / 2 ^ k % 256 := by
    simp [Nat.shiftRight_eq_div_pow]
  simp only [permByte, pick, sel]
  generalize b.extractLsb' (4 * n) 4 = s
  have place : (s.setWidth 2).toNat = s.toNat % 4 := BitVec.toNat_setWidth ..
  rw [place]
  by_cases ofA : s.toNat < 4
  · have here : s.ult 4#4 = true := by simpa [BitVec.ult] using ofA
    rw [if_pos ofA, if_pos here, byte, Nat.mod_eq_of_lt ofA]
  · have notA : ¬ s.ult 4#4 = true := by simpa [BitVec.ult] using ofA
    rw [if_neg ofA, if_neg notA]
    by_cases ofD : s.toNat < 8
    · have here : s.ult 8#4 = true := by simpa [BitVec.ult] using ofD
      have old : s.toNat % 4 = s.toNat - 4 := by omega
      rw [if_pos ofD, if_pos here, byte, old]
    · have notD : ¬ s.ult 8#4 = true := by simpa [BitVec.ult] using ofD
      rw [if_neg ofD, if_neg notD]
      rfl

/-- Four bytes in place. -/
theorem ofNat_bytes (b0 b1 b2 b3 : BitVec 8) :
    BitVec.ofNat 32 (b0.toNat + b1.toNat * 2 ^ 8 + b2.toNat * 2 ^ 16 + b3.toNat * 2 ^ 24) = b3 ++ b2 ++ b1 ++ b0 := by
  have := b0.isLt
  have := b1.isLt
  have := b2.isLt
  have := b3.isLt
  apply BitVec.eq_of_toNat_eq
  rw [toNat_app, toNat_app, toNat_app, BitVec.toNat_ofNat]
  omega

/-! ## The rows -/

/-- The instruction of a row runs the value word that the row describes. -/
theorem exec_of_logicRow {i : Instr} {sp : WordForm} {f : Vals → List TVal × Log} (h : logicRow i = some (sp, f)) (s : State) :
    exec i s = runWord s.cur (valueWord sp f) s := by
  unfold logicRow at h
  split at h <;> cases h
  case h_1 => /- AND -/ exact runOne fun v => by simp only [ofNat_v32]
  case h_2 => /- ANDI -/ exact runOne fun v => by simp only [ofNat_v32, imm32]
  case h_3 => /- OR -/ exact runOne fun v => by simp only [ofNat_v32]
  case h_4 => /- ORI -/ exact runOne fun v => by simp only [ofNat_v32, imm32]
  case h_5 => /- XOR -/ exact runOne fun v => by simp only [ofNat_v32]
  case h_6 => /- XORI -/ exact runOne fun v => by simp only [ofNat_v32, imm32]
  case h_7 => /- ANDN -/ exact runOne fun v => by simp only [ofNat_v32]
  case h_8 => /- NOT -/ exact runOne fun v => by simp only [ofNat_v32]
  case h_9 => /- SHL -/ exact runOne fun v => by simp only [ofNat_v32, shiftCount_eq]
  case h_10 => /- SHLI -/ exact runOne fun v => by simp only [ofNat_v32]
  case h_11 => /- SHR -/ exact runOne fun v => by simp only [ofNat_v32, shiftCount_eq]
  case h_12 => /- SHRI -/ exact runOne fun v => by simp only [ofNat_v32]
  case h_13 => /- SAR -/ exact runOne fun v => by simp only [ofNat_v32, shiftCount_eq]
  case h_14 => /- SARI -/ exact runOne fun v => by simp only [ofNat_v32]
  case h_15 => /- ROL -/ exact runOne fun v => by simp only [ofNat_v32, shiftCount_eq, rotl_eq_rot]
  case h_16 => /- ROLI -/ exact runOne fun v => by simp only [ofNat_v32, rotl_eq_rot]
  case h_17 => /- BFX.i -/ exact runOne fun v => bfxI_result v.a v.b
  case h_18 => /- BFX.n -/ exact runOne fun v => bfxN_result v.a v.b
  case h_19 => /- BFI -/ exact runOne fun v => by simp only [v32_eq_toNat, fieldPos_eq_fpos, fieldWidth_eq_fwid, insertField_eq_mask]
  case h_20 => /- POPC -/ exact runOne fun v => by simp only [ofNat_v32, popCount_eq_length]
  case h_21 => /- CLZ -/ exact runOne fun v => by simp only [ofNat_v32, leadZeros_eq_length, zerosOf]
  case h_22 => /- CTZ -/ exact runOne fun v => by simp only [ofNat_v32, leadZeros_revBits, zerosOf]
  case h_23 => /- BREV -/ exact runOne fun v => by simp only [ofNat_v32, revBits_toNat, ofNat_toNat_self]
  case h_24 => /- PERMB -/ exact runOne fun v => by simp only [v32_eq_toNat, permByte_eq_pick, ofNat_bytes]

/-- Settles O2: each logic word is one value word with the row's result, and such a word completes. -/
theorem logicWords : Obligations.LogicWords := gives_of_exec fun s _ _ _ h => exec_of_logicRow h s

end Sys2Proof.LogicRows

/-! The decoder and the encoder undo each other (R32, R33): a word is put together from its fields, and each class's table is read once
in either direction. -/

namespace Sys2Proof.Codec

open Sys2Proof

/-! ## A word and its fields -/

section
variable {c : BitVec 4} {d a b : BitVec 7} {lit : Option Word}

theorem decode_packR {m : BitVec 7} (plain : isFlaggedClass c = false) :
    decode (packR c m d a b) lit = decodePlain c.toNat m.toNat d a b (a ++ b) lit := by simp [decode, plain]

theorem decode_packF {m : BitVec 6} {fb : Bool} (flagged : isFlaggedClass c = true) :
    decode (packF c m fb d a b) lit = decodeFlagged c.toNat m.toNat fb d a b (a ++ b) lit := by
  cases fb <;> simp [decode, flagged]

theorem packL_eq_packR {m : BitVec 7} {l : BitVec 14} : packL c m d l = packR c m d (l.extractLsb' 7 7) (l.extractLsb' 0 7) := by
  apply BitVec.eq_of_toNat_eq
  rw [packL_toNat, packR_toNat, toNat_field, toNat_field]
  omega

theorem halves_append (l : BitVec 14) : l.extractLsb' 7 7 ++ l.extractLsb' 0 7 = l := by
  apply BitVec.eq_of_toNat_eq
  rw [toNat_app, toNat_field, toNat_field]
  omega

theorem decode_packL {m : BitVec 7} {l : BitVec 14} (plain : isFlaggedClass c = false) :
    decode (packL c m d l) lit = decodePlain c.toNat m.toNat d (l.extractLsb' 7 7) (l.extractLsb' 0 7) l lit := by
  rw [packL_eq_packR, decode_packR plain, halves_append]

end

/-- A word of a class without flag selection is made of its five fields. -/
theorem packR_fields (w : Word) :
    packR (w.extractLsb' 28 4) (w.extractLsb' 21 7) (w.extractLsb' 14 7) (w.extractLsb' 7 7) (w.extractLsb' 0 7) = w := by
  apply BitVec.eq_of_toNat_eq
  simp only [packR_toNat, toNat_field]
  omega

theorem packF_fields (w : Word) :
    packF (w.extractLsb' 28 4) (w.extractLsb' 22 6) (w.extractLsb' 21 1 == 1#1) (w.extractLsb' 14 7) (w.extractLsb' 7 7) (w.extractLsb' 0 7) = w := by
  have flag (x : BitVec 1) : BitVec.ofBool (x == 1#1) = x := by revert x; decide
  apply BitVec.eq_of_toNat_eq
  simp only [packF_toNat, toNat_field, flag]
  omega

theorem append_fields (w : Word) : w.extractLsb' 7 7 ++ w.extractLsb' 0 7 = w.extractLsb' 0 14 := by
  apply BitVec.eq_of_toNat_eq
  simp only [toNat_app, toNat_field]
  omega

/-- FENCE's scope and kind stand at the ends of its immediate. -/
theorem fence_fields (k : BitVec 2) (sc : BitVec 3) :
    (k ++ 0#2 ++ sc).extractLsb' 5 2 = k ∧ (k ++ 0#2 ++ sc).extractLsb' 3 2 = 0#2 ∧ (k ++ 0#2 ++ sc).extractLsb' 0 3 = sc := by
  revert k sc; decide

/-! ## From an instruction to its words and back -/

/-- Settles O37: the words of an instruction have its fields, which its class's table reads back. The rounding variants, and the
immediates, slots and scopes that are narrower than their place, need a look at their bits. -/
theorem decodeEncode : Obligations.DecodeEncode := by
  unfold Obligations.DecodeEncode
  intro i w r h
  cases i with
  | fadd rm | fsub rm | fmul rm | ffma rm | frnd rm =>
    cases h
    rw [decode_packR rfl]
    cases rm <;> rfl
  | shli | shri | sari | roli | tag | pset | tret | tkill | ncvtRn | ncvtRz | nunp | scx =>
    cases h
    rw [decode_packR rfl]
    simp only [decodePlain, decodeClass1, decodeClass2, decodeClass3, decodeClass4, decodeClass6, BitVec.toNat_ofNat, app_low, app_high,
      and_self, if_true]
  | waitf =>
    cases h
    rw [decode_packL rfl]
    simp only [decodePlain, decodeClass4, BitVec.toNat_ofNat, app_low, app_high, and_self, if_true]
  | fence kd sc =>
    cases h
    rw [decode_packF rfl]
    obtain ⟨kind, gap, scope⟩ := fence_fields kd sc
    simp only [decodeFlagged, decodeClassA, BitVec.toNat_ofNat, kind, gap, scope, and_self, if_true]
  | xbfly | xbcst | ld | ld2 | ld4 | st | st2 | st4 | lda | stl | bload | bqrySlot | lload | aaddI32 | aaddF32 | aminI | aminN | amaxI
  | amaxN | aand | aor | axor | axchg | acas | ainc | aadd64 | acas64 | mminit | mmloop | mmnorm | mmdrain | mmq | cpt | cps
  | hwait | sst | satmAdd | satmXchg | satmCas | rstamp | mcst =>
    cases h
    rw [decode_packF rfl]
    simp only [decodeFlagged, decodeClass8, decodeClass9, decodeClassA, decodeClassB, decodeClassC, decodeClassD, withLit,
      BitVec.toNat_ofNat, app_low, app_high, and_self, if_true, List.head?_cons]
  | _ =>
    cases h <;> first
    | rw [decode_packR rfl]; rfl
    | rw [decode_packF rfl]; rfl
    | rw [decode_packL rfl]; rfl

/-! ## From a word to its instruction and back -/

/-- What a table gives for a word is encoded by it: an instruction whose first word it is, the rest its literal. -/
def Mirrors (w : Word) (lit : Option Word) (r : Except DecodeError Instr) : Prop :=
  ∀ i, r = .ok i → encode i = w :: if isXForm w then lit.toList else []

section
variable {w : Word} {lit : Option Word}

theorem Mirrors.error {e : DecodeError} : Mirrors w lit (.error e) := nofun

theorem Mirrors.ok {i : Instr} (words : encode i = [w]) (short : isXForm w = false) : Mirrors w lit (.ok i) := by
  rintro _ ⟨⟩
  rw [words, short]
  rfl

theorem Mirrors.ok_if {p : Prop} [Decidable p] {i : Instr} {e : DecodeError} (words : p → encode i = [w]) (short : isXForm w = false) :
    Mirrors w lit (if p then .ok i else .error e) := by
  split
  · exact .ok (words ‹p›) short
  · exact .error

theorem Mirrors.withLit {f : Word → Instr} (words : ∀ v, encode (f v) = [w, v]) (long : isXForm w = true) :
    Mirrors w lit (withLit lit fun v => .ok (f v)) := by
  intro i h
  cases lit with
  | none => cases h
  | some v =>
    cases h
    rw [words, long]
    rfl

theorem Mirrors.withLit_if {p : Prop} [Decidable p] {f : Word → Instr} {e : DecodeError} (words : p → ∀ v, encode (f v) = [w, v])
    (long : isXForm w = true) : Mirrors w lit (if p then Sys2Proof.withLit lit fun v => .ok (f v) else .error e) := by
  split
  · exact .withLit (words ‹p›) long
  · exact .error

end

/-! ### Fields narrower than their place -/

/-- A field is its upper part and the rest. -/
theorem rejoin {n k : Nat} (x : BitVec (n + k)) : x.extractLsb' k n ++ x.extractLsb' 0 k = x := by
  have below := Nat.div_lt_of_lt_mul (Nat.pow_add' 2 n k ▸ x.isLt)
  apply BitVec.eq_of_toNat_eq
  rw [toNat_app, toNat_field, toNat_field, Nat.mod_eq_of_lt below, Nat.pow_zero, Nat.div_one, Nat.div_add_mod']

section
variable {x : BitVec 7}

theorem rejoin_slot (h : x.extractLsb' 5 2 = 0#2) : 0#2 ++ x.extractLsb' 0 5 = x := h ▸ rejoin (k := 5) x
theorem rejoin_bit (h : x.extractLsb' 1 6 = 0#6) : 0#6 ++ x.extractLsb' 0 1 = x := h ▸ rejoin (k := 1) x
theorem rejoin_two (h : x.extractLsb' 2 5 = 0#5) : 0#5 ++ x.extractLsb' 0 2 = x := h ▸ rejoin (k := 2) x
theorem rejoin_tile (h : x.extractLsb' 4 3 = 0#3) : 0#3 ++ x.extractLsb' 0 4 = x := h ▸ rejoin (k := 4) x
theorem rejoin_layout (h : x.extractLsb' 3 4 = 0#4) : 0#4 ++ x.extractLsb' 0 3 = x := h ▸ rejoin (k := 3) x
theorem rejoin_narrow : x.extractLsb' 4 3 ++ x.extractLsb' 0 4 = x := rejoin (k := 4) x
theorem rejoin_fence (h : x.extractLsb' 3 2 = 0#2) : x.extractLsb' 5 2 ++ 0#2 ++ x.extractLsb' 0 3 = x := by revert x; decide

end

theorem rejoin_waits {l : BitVec 14} (h : l.extractLsb' 12 2 = 0#2) : 0#2 ++ l.extractLsb' 0 12 = l := h ▸ rejoin (k := 12) l

theorem packL_append {c : BitVec 4} {m d a b : BitVec 7} : packL c m d (a ++ b) = packR c m d a b := by
  rw [packL_eq_packR, app_low, app_high]

/-! ### The tables of the classes -/

/-- A word that selects no flag stands at an even minor alone (R24). -/
theorem Mirrors.unflagged {c : BitVec 4} {m : BitVec 6} {fb : Bool} {d a b : BitVec 7} {lit : Option Word} {r : Except DecodeError Instr}
    {e : DecodeError} (h : Mirrors (packF c m false d a b) lit r) : Mirrors (packF c m fb d a b) lit (if fb = false then r else .error e) := by
  cases fb
  · exact h
  · exact .error

theorem mirrors_class0 (d a b : BitVec 7) (lit m) :
    Mirrors (packR 0x0#4 (BitVec.ofNat 7 m) d a b) lit (decodeClass0 m d a b (a ++ b) lit) := by
  unfold decodeClass0
  split
  all_goals apply_rules [Mirrors.error, Mirrors.ok, Mirrors.ok_if, Mirrors.withLit_if]
  all_goals simp +contextual [encode, isXForm, packL_append]

theorem mirrors_class1 (d a b : BitVec 7) (lit m) :
    Mirrors (packR 0x1#4 (BitVec.ofNat 7 m) d a b) lit (decodeClass1 m d a b (a ++ b) lit) := by
  unfold decodeClass1
  split
  all_goals apply_rules [Mirrors.error, Mirrors.ok, Mirrors.ok_if, Mirrors.withLit_if]
  all_goals simp +contextual [encode, isXForm, rejoin_slot]

theorem mirrors_class2 (d a b : BitVec 7) (lit m) :
    Mirrors (packR 0x2#4 (BitVec.ofNat 7 m) d a b) lit (decodeClass2 m d a b (a ++ b) lit) := by
  unfold decodeClass2
  split
  all_goals apply_rules [Mirrors.error, Mirrors.ok, Mirrors.ok_if, Mirrors.withLit_if]
  all_goals simp +contextual [encode, isXForm, rejoin_bit]

theorem mirrors_class3 (d a b : BitVec 7) (lit m) :
    Mirrors (packR 0x3#4 (BitVec.ofNat 7 m) d a b) lit (decodeClass3 m d a b (a ++ b) lit) := by
  unfold decodeClass3
  split
  all_goals apply_rules [Mirrors.error, Mirrors.ok, Mirrors.ok_if, Mirrors.withLit_if]
  all_goals simp +contextual [encode, isXForm, rejoin_slot, packL_append]

theorem mirrors_class4 (d a b : BitVec 7) (lit m) :
    Mirrors (packR 0x4#4 (BitVec.ofNat 7 m) d a b) lit (decodeClass4 m d a b (a ++ b) lit) := by
  unfold decodeClass4
  split
  all_goals apply_rules [Mirrors.error, Mirrors.ok, Mirrors.ok_if, Mirrors.withLit_if]
  all_goals simp +contextual [encode, isXForm, rejoin_bit, rejoin_waits, packL_append]

theorem mirrors_class5 (d a b : BitVec 7) (lit m) :
    Mirrors (packR 0x5#4 (BitVec.ofNat 7 m) d a b) lit (decodeClass5 m d a b (a ++ b) lit) := by
  unfold decodeClass5
  split
  all_goals apply_rules [Mirrors.error, Mirrors.ok, Mirrors.ok_if, Mirrors.withLit_if]
  all_goals simp +contextual [encode, isXForm, modeBits]

theorem mirrors_class6 (d a b : BitVec 7) (lit m) :
    Mirrors (packR 0x6#4 (BitVec.ofNat 7 m) d a b) lit (decodeClass6 m d a b (a ++ b) lit) := by
  unfold decodeClass6
  split
  all_goals apply_rules [Mirrors.error, Mirrors.ok, Mirrors.ok_if, Mirrors.withLit_if]
  all_goals simp +contextual [encode, isXForm, rejoin_narrow, rejoin_two]

theorem mirrors_classE (d a b : BitVec 7) (lit m) :
    Mirrors (packR 0xE#4 (BitVec.ofNat 7 m) d a b) lit (decodeClassE m d a b (a ++ b) lit) := by
  unfold decodeClassE
  split
  all_goals apply_rules [Mirrors.error, Mirrors.ok, Mirrors.ok_if, Mirrors.withLit_if]
  all_goals simp +contextual [encode, isXForm]

theorem mirrors_class7 (d a b : BitVec 7) (fb lit m) :
    Mirrors (packF 0x7#4 (BitVec.ofNat 6 m) fb d a b) lit (decodeClass7 m fb d a b (a ++ b) lit) := by
  unfold decodeClass7
  split
  all_goals apply_rules [Mirrors.error, Mirrors.ok, Mirrors.ok_if, Mirrors.withLit, Mirrors.withLit_if, Mirrors.unflagged]
  all_goals cases fb <;> simp +contextual [encode, isXForm]

theorem mirrors_class8 (d a b : BitVec 7) (fb lit m) :
    Mirrors (packF 0x8#4 (BitVec.ofNat 6 m) fb d a b) lit (decodeClass8 m fb d a b (a ++ b) lit) := by
  unfold decodeClass8
  split
  all_goals apply_rules [Mirrors.error, Mirrors.ok, Mirrors.ok_if, Mirrors.withLit, Mirrors.withLit_if, Mirrors.unflagged]
  all_goals cases fb <;> simp +contextual [encode, isXForm, rejoin_slot]

theorem mirrors_class9 (d a b : BitVec 7) (fb lit m) :
    Mirrors (packF 0x9#4 (BitVec.ofNat 6 m) fb d a b) lit (decodeClass9 m fb d a b (a ++ b) lit) := by
  unfold decodeClass9
  split
  all_goals apply_rules [Mirrors.error, Mirrors.ok, Mirrors.ok_if, Mirrors.withLit, Mirrors.withLit_if, Mirrors.unflagged]
  all_goals cases fb <;> simp +contextual [encode, isXForm, rejoin_slot, rejoin_layout]

theorem mirrors_classA (d a b : BitVec 7) (fb lit m) :
    Mirrors (packF 0xA#4 (BitVec.ofNat 6 m) fb d a b) lit (decodeClassA m fb d a b (a ++ b) lit) := by
  unfold decodeClassA
  split
  all_goals apply_rules [Mirrors.error, Mirrors.ok, Mirrors.ok_if, Mirrors.withLit, Mirrors.withLit_if, Mirrors.unflagged]
  all_goals cases fb <;> simp +contextual [encode, isXForm, rejoin_slot, rejoin_fence]

theorem mirrors_classB (d a b : BitVec 7) (fb lit m) :
    Mirrors (packF 0xB#4 (BitVec.ofNat 6 m) fb d a b) lit (decodeClassB m fb d a b (a ++ b) lit) := by
  unfold decodeClassB
  split
  all_goals apply_rules [Mirrors.error, Mirrors.ok, Mirrors.ok_if, Mirrors.withLit, Mirrors.withLit_if, Mirrors.unflagged]
  all_goals cases fb <;> simp +contextual [encode, isXForm, rejoin_tile, rejoin_bit]

theorem mirrors_classC (d a b : BitVec 7) (fb lit m) :
    Mirrors (packF 0xC#4 (BitVec.ofNat 6 m) fb d a b) lit (decodeClassC m fb d a b (a ++ b) lit) := by
  unfold decodeClassC
  split
  all_goals apply_rules [Mirrors.error, Mirrors.ok, Mirrors.ok_if, Mirrors.withLit, Mirrors.withLit_if, Mirrors.unflagged]
  all_goals cases fb <;> simp +contextual [encode, isXForm, rejoin_slot, rejoin_layout, rejoin_bit]

theorem mirrors_classD (d a b : BitVec 7) (fb lit m) :
    Mirrors (packF 0xD#4 (BitVec.ofNat 6 m) fb d a b) lit (decodeClassD m fb d a b (a ++ b) lit) := by
  unfold decodeClassD
  split
  all_goals apply_rules [Mirrors.error, Mirrors.ok, Mirrors.ok_if, Mirrors.withLit, Mirrors.withLit_if, Mirrors.unflagged]
  all_goals cases fb <;> simp +contextual [encode, isXForm, rejoin_slot, rejoin_two]

/-! ### All words -/

theorem mirrors_plain (n m : Nat) (d a b : BitVec 7) (lit) :
    Mirrors (packR (BitVec.ofNat 4 n) (BitVec.ofNat 7 m) d a b) lit (decodePlain n m d a b (a ++ b) lit) := by
  unfold decodePlain
  split
  · exact mirrors_class0 d a b lit m
  · exact mirrors_class1 d a b lit m
  · exact mirrors_class2 d a b lit m
  · exact mirrors_class3 d a b lit m
  · exact mirrors_class4 d a b lit m
  · exact mirrors_class5 d a b lit m
  · exact mirrors_class6 d a b lit m
  · exact mirrors_classE d a b lit m
  · exact .error

theorem mirrors_flagged (n m : Nat) (fb : Bool) (d a b : BitVec 7) (lit) :
    Mirrors (packF (BitVec.ofNat 4 n) (BitVec.ofNat 6 m) fb d a b) lit (decodeFlagged n m fb d a b (a ++ b) lit) := by
  unfold decodeFlagged
  split
  · exact mirrors_class7 d a b fb lit m
  · exact mirrors_class8 d a b fb lit m
  · exact mirrors_class9 d a b fb lit m
  · exact mirrors_classA d a b fb lit m
  · exact mirrors_classB d a b fb lit m
  · exact mirrors_classC d a b fb lit m
  · exact mirrors_classD d a b fb lit m
  · exact .error

theorem mirrors_decode (w : Word) (lit : Option Word) : Mirrors w lit (decode w lit) := by
  simp only [decode]
  split
  · have h := mirrors_flagged (w.extractLsb' 28 4).toNat (w.extractLsb' 22 6).toNat (w.extractLsb' 21 1 == 1#1) (w.extractLsb' 14 7)
      (w.extractLsb' 7 7) (w.extractLsb' 0 7) lit
    rwa [ValueWords.ofNat_toNat_self, ValueWords.ofNat_toNat_self, packF_fields, append_fields] at h
  · have h := mirrors_plain (w.extractLsb' 28 4).toNat (w.extractLsb' 21 7).toNat (w.extractLsb' 14 7) (w.extractLsb' 7 7)
      (w.extractLsb' 0 7) lit
    rwa [ValueWords.ofNat_toNat_self, ValueWords.ofNat_toNat_self, packR_fields, append_fields] at h

/-- Settles O38: each class's table gives an instruction whose words are made of the same fields, and those fields are the whole word. -/
theorem encodeDecode : Obligations.EncodeDecode := by
  unfold Obligations.EncodeDecode
  exact fun w lit i => mirrors_decode w lit i

/-- Settles O39: words written out from the table are those of the encoder, and class 0xF has no table. -/
theorem decodesTableWords : Obligations.DecodesTableWords := by
  unfold Obligations.DecodesTableWords
  have noClass (w : Word) (lit : Option Word) (h : w.extractLsb' 28 4 = 0xF#4) : decode w lit = .error .unassigned := by
    simp [decode, h, isFlaggedClass, decodePlain]
  refine ⟨fun d a b => ⟨?_, ?_, ?_, ?_, ?_⟩, rfl, rfl, rfl, rfl, noClass⟩ <;> exact decode_packR rfl

end Sys2Proof.Codec

/-! The words of class 0x2 that write a predicate (R79, R80, Table 4.3): each is one `predWord`, and the model's comparisons of numbers and
of decoded values are the claims'. -/

namespace Sys2Proof.CompareRows

open Sys2Proof Sys2Proof.Machine Sys2Proof.Claims Sys2Proof.ValueWords Sys2Proof.IntegerRows

/-- A table of predicate words holds once each of its instructions runs the word of its row. -/
theorem givesPred_of_exec {row : Instr → Option PRow}
    (h : ∀ i sp p f, row i = some (sp, p, f) → ∀ s, exec i s = runWord s.cur (predWord sp p f) s) : GivesPred row := by
  intro i sp p f s s1 v hrow hread
  rw [h i sp p f hrow s]
  exact runWord_ok (predWord_ok hread)

theorem runPred_congr {k : StrandKey} {sp : WordForm} {p : BitVec 7} {s : State} {f g : Vals → Bool × Log} (h : ∀ v, f v = g v) :
    runWord k (predWord sp p f) s = runWord k (predWord sp p g) s := by rw [predWord_congr h]

/-! ## Integer comparisons -/

section
variable (x y : List TVal)

theorem nval_beq : (nval x == nval y) = (w32 x == w32 y) := by
  rw [Bool.eq_iff_iff, beq_iff_eq, beq_iff_eq, nval_eq_toNat, nval_eq_toNat, Int.natCast_inj, BitVec.toNat_inj]

theorem decide_ival_lt : decide (ival x < ival y) = (w32 x).slt (w32 y) := by
  rw [Bool.eq_iff_iff, decide_eq_true_iff, ival_lt]

theorem decide_ival_le : decide (ival x ≤ ival y) = (w32 x).sle (w32 y) := by
  rw [Bool.eq_iff_iff, decide_eq_true_iff, ival_eq_toInt, ival_eq_toInt, BitVec.sle_iff_toInt_le]

theorem decide_nval_lt : decide (nval x < nval y) = (w32 x).ult (w32 y) := by
  rw [Bool.eq_iff_iff, decide_eq_true_iff, nval_lt]

theorem decide_nval_le : decide (nval x ≤ nval y) = (w32 x).ule (w32 y) := by
  rw [Bool.eq_iff_iff, decide_eq_true_iff, nval_eq_toNat, nval_eq_toNat, Int.ofNat_le, BitVec.ule_iff_toNat_le]

theorem v32_bne_zero : (v32 x != 0) = (w32 x != 0#32) := by
  rw [Bool.eq_iff_iff, bne_iff_ne, bne_iff_ne, v32_eq_toNat, ne_eq, ne_eq, ← BitVec.toNat_inj, BitVec.toNat_zero]

end

/-! ## Floating-point comparisons -/

/-- A comparison in the model answers for a NaN beside it what the claim's condition says of no order. -/
theorem fcmpVal_eq_quiet (f : Fmt) (m n : Nat) {ifNan : Bool} {on : Ordering → Bool} {p : Option Ordering → Bool}
    (unordered : p none = ifNan) (ordered : ∀ o, p (some o) = on o) : fcmpVal (f.dec m) (f.dec n) ifNan on = quiet f m n p := by
  unfold fcmpVal quiet order
  split
  · rw [unordered]; rfl
  · rw [ordered]; rfl

section
variable {k : StrandKey} {sp : WordForm} {d : BitVec 7} {s : State}

/-- Two words that log nothing are one word where their predicates agree. -/
theorem runPlain {f g : Vals → Bool} (h : ∀ v, f v = g v) :
    runWord k (predWord sp d fun v => (f v, noLog)) s = runWord k (predWord sp d fun v => (g v, {})) s :=
  runPred_congr fun v => by rw [h]; rfl

theorem runQuiet32 {ifNan : Bool} {on : Ordering → Bool} {p : Option Ordering → Bool} (unordered : p none = ifNan)
    (ordered : ∀ o, p (some o) = on o) :
    runWord k (predWord sp d fun v => fcmpVal (f32.dec (v32 v.a)) (f32.dec (v32 v.b)) ifNan on) s =
      runWord k (predWord sp d fun v => quiet f32 (w32 v.a).toNat (w32 v.b).toNat p) s :=
  runPred_congr fun _ => fcmpVal_eq_quiet f32 _ _ unordered ordered

theorem runQuiet64 {ifNan : Bool} {on : Ordering → Bool} {p : Option Ordering → Bool} (unordered : p none = ifNan)
    (ordered : ∀ o, p (some o) = on o) :
    runWord k (predWord sp d fun v => fcmpVal (f64.dec (v64 v.a)) (f64.dec (v64 v.b)) ifNan on) s =
      runWord k (predWord sp d fun v => quiet f64 (w64 v.a).toNat (w64 v.b).toNat p) s :=
  runPred_congr fun v => by
    rw [Transfers.v64_eq_w64, Transfers.v64_eq_w64]
    exact fcmpVal_eq_quiet f64 _ _ unordered ordered

end

/-- The conditions on an order, as the model tests them. -/
theorem ordered_le (o : Ordering) : ((some o == some Ordering.lt) || (some o == some Ordering.eq)) = (o != .gt) := by cases o <;> rfl
theorem ordered_ge (o : Ordering) : ((some o == some Ordering.gt) || (some o == some Ordering.eq)) = (o != .lt) := by cases o <;> rfl

/-! ## The rows -/

/-- The instruction of a row runs the predicate word that the row describes. -/
theorem exec_of_predRow {i : Instr} {sp : WordForm} {p : BitVec 7} {f : Vals → Bool × Log} (h : predRow i = some (sp, p, f)) (s : State) :
    exec i s = runWord s.cur (predWord sp p f) s := by
  unfold predRow at h
  split at h <;> cases h
  case h_1 => /- ICMP.eq -/ exact runPlain fun v => nval_beq v.a v.b
  case h_2 => /- ICMP.ne -/ exact runPlain fun v => congrArg (!·) (nval_beq v.a v.b)
  case h_3 => /- ICMP.lt.i -/ exact runPlain fun v => decide_ival_lt v.a v.b
  case h_4 => /- ICMP.le.i -/ exact runPlain fun v => decide_ival_le v.a v.b
  case h_5 => /- ICMP.gt.i -/ exact runPlain fun v => decide_ival_lt v.b v.a
  case h_6 => /- ICMP.ge.i -/ exact runPlain fun v => decide_ival_le v.b v.a
  case h_7 => /- ICMP.lt.n -/ exact runPlain fun v => decide_nval_lt v.a v.b
  case h_8 => /- ICMP.le.n -/ exact runPlain fun v => decide_nval_le v.a v.b
  case h_9 => /- ICMP.gt.n -/ exact runPlain fun v => decide_nval_lt v.b v.a
  case h_10 => /- ICMP.ge.n -/ exact runPlain fun v => decide_nval_le v.b v.a
  case h_11 => /- FCMP.eq -/ exact runQuiet32 rfl fun _ => rfl
  case h_12 => /- FCMP.ne -/ exact runQuiet32 rfl fun _ => rfl
  case h_13 => /- FCMP.lt -/ exact runQuiet32 rfl fun _ => rfl
  case h_14 => /- FCMP.le -/ exact runQuiet32 rfl ordered_le
  case h_15 => /- FCMP.gt -/ exact runQuiet32 rfl fun _ => rfl
  case h_16 => /- FCMP.ge -/ exact runQuiet32 rfl ordered_ge
  case h_17 => /- FCMP.un -/ exact runQuiet32 rfl fun _ => rfl
  case h_18 => /- DCMP.eq -/ exact runQuiet64 rfl fun _ => rfl
  case h_19 => /- DCMP.lt -/ exact runQuiet64 rfl fun _ => rfl
  case h_20 => /- DCMP.le -/ exact runQuiet64 rfl ordered_le
  case h_21 => /- DCMP.un -/ exact runQuiet64 rfl fun _ => rfl
  case h_22 | h_23 | h_24 | h_25 | h_26 | h_27 | h_28 => /- the predicate operations read the strand alone -/ rfl
  case h_29 => /- DTOP -/ exact runPlain fun v => v32_bne_zero v.a

/-- Settles O3: each compare and each predicate operation is one predicate word with the row's result, and such a word completes. -/
theorem compareWords : Obligations.CompareWords := givesPred_of_exec fun _ _ _ _ => exec_of_predRow

end Sys2Proof.CompareRows

/-! Operands and destinations (R28 to R31, R35, R44, R51, R71, R122): what each reads and writes, which part of the state that can change,
and what a word whose operands have been read has passed. -/

namespace Sys2Proof.Operands

open Sys2Proof Sys2Proof.Machine Sys2Proof.Claims

/-! ## What reading leaves alone -/

/-- Two states that differ at most in the queues of one thread. -/
def OnlyQueues (k : ThreadKey) (s t : State) : Prop := { t with threads := s.threads } = s ∧ ∀ j, j ≠ k → t.thread j = s.thread j

theorem OnlyQueues.refl (k : ThreadKey) (s : State) : OnlyQueues k s s := ⟨rfl, fun _ _ => rfl⟩

theorem OnlyQueues.trans {k : ThreadKey} {s t u : State} (h : OnlyQueues k s t) (g : OnlyQueues k t u) : OnlyQueues k s u := by
  obtain ⟨hs, hq⟩ := h
  obtain ⟨gs, gq⟩ := g
  refine ⟨?_, fun j hj => (gq j hj).trans (hq j hj)⟩
  rw [← hs, ← gs]

theorem onlyQueues_modQ (k : ThreadKey) (q : QName) (f : Queue → Queue) (s : State) : OnlyQueues k s (s.modQ k q f) :=
  ⟨rfl, fun _ hj => tget_tmod_ne _ _ _ _ (Ne.symm hj)⟩

section
variable {k : StrandKey} {x : Strand} {s t : State} {l : List TVal}

theorem popVals_frame {q : QName} {w : Nat} (h : popVals k q w s = .ok (l, t)) : OnlyQueues k.thread s t := by
  unfold popVals at h
  split at h
  · cases h
  · dsimp only at h
    split at h
    · cases h
      exact onlyQueues_modQ ..
    · split at h
      · split at h <;> cases h
      · cases h

theorem readOpnd_frame {o : Opnd} (h : readOpnd k x o s = .ok (l, t)) : OnlyQueues k.thread s t := by
  unfold readOpnd at h
  rcases Nat.lt_or_ge o.n.toNat 120 with hn | hn
  · rw [if_pos hn] at h
    cases h
    exact .refl ..
  · rw [if_neg (Nat.not_lt.2 hn)] at h
    cases hq : popPort k.kind o.n.toNat with
    | some q => exact popVals_frame (by simpa only [hq] using h)
    | none => rw [hq] at h; cases h; exact .refl ..

theorem readOpt_frame {o : Option Opnd} (h : readOpt k x o s = .ok (l, t)) : OnlyQueues k.thread s t := by
  cases o with
  | none => cases h; exact .refl ..
  | some o => exact readOpnd_frame h

end

/-! ## A word whose operands have been read -/

/-- What the steps 1 to 4 of R71 have found. -/
structure WordRead (sp : WordForm) (s : State) (v : Vals) (s1 : State) : Prop where
  key : v.k = s.cur
  strand : s.strand s.cur = some v.x
  fits : sp.encFault s.cur.kind v.x = none
  frame : OnlyQueues s.cur.thread s s1
  tags : (tagsOk sp.a v.a && tagsOk sp.b v.b && tagsOk sp.d v.d) = true
  reads : ∃ t u, readOpt s.cur v.x sp.a s = .ok (v.a, t) ∧ readOpt s.cur v.x sp.b t = .ok (v.b, u) ∧ readOpt s.cur v.x sp.d u = .ok (v.d, s1)

theorem curStrand_some {s : State} {x : Strand} (h : s.strand s.cur = some x) : curStrand s = .ok ((s.cur, x), s) := by
  unfold curStrand
  rw [h]

theorem curStrand_ok {s t : State} {k : StrandKey} {x : Strand} (h : curStrand s = .ok ((k, x), t)) :
    k = s.cur ∧ t = s ∧ s.strand s.cur = some x := by
  unfold curStrand at h
  split at h <;> cases h
  exact ⟨rfl, rfl, ‹_›⟩

theorem wordRead_of_ok {sp : WordForm} {va : Vals → Nat} {s s1 : State} {v : Vals} (h : readWordAt sp va s = .ok (v, s1)) :
    WordRead sp s v s1 := by
  unfold readWordAt at h
  obtain ⟨⟨k, x⟩, s0, hcur, h⟩ := Exec.bind_inv h
  obtain ⟨rfl, rfl, hx⟩ := curStrand_ok hcur
  dsimp only at h
  cases fits : sp.encFault s0.cur.kind x with
  | some c => rw [fits] at h; cases h
  | none =>
    rw [fits] at h
    obtain ⟨a, t, ha, h⟩ := Exec.bind_inv h
    obtain ⟨b, u, hb, h⟩ := Exec.bind_inv h
    obtain ⟨d, z, hd, h⟩ := Exec.bind_inv h
    split at h
    · cases h
      exact ⟨rfl, hx, fits, ((readOpt_frame ha).trans (readOpt_frame hb)).trans (readOpt_frame hd), ‹_›, t, u, ha, hb, hd⟩
    · cases h

/-! ## What an operand reads -/

section
variable {k : StrandKey} {x : Strand} {o : Opnd} {s : State} {q : QName} {t : Thread}

theorem port_of_popPort {κ : StrandKind} {n : Nat} (h : popPort κ n = some q) : 120 ≤ n ∧ n < 126 := by
  unfold popPort at h
  split at h <;> cases h <;> exact ⟨by decide, by decide⟩

theorem port_of_pushPort {κ : StrandKind} {n : Nat} (h : pushPort κ n = some q) : 120 ≤ n ∧ n < 126 := by
  unfold pushPort at h
  split at h <;> cases h <;> exact ⟨by decide, by decide⟩

theorem readOpnd_window (h : o.n.toNat < 120) : readOpnd k x o s = .ok (window x o.n o.w, s) := by
  unfold readOpnd
  rw [if_pos h]
  rfl

theorem readOpnd_zr (h : o.n = 126#7) : readOpnd k x o s = .ok ((List.range o.w).map fun i => ⟨0#32, o.acc.zrTag i⟩, s) := by
  unfold readOpnd
  rw [h, if_neg (by decide)]
  cases k.kind <;> rfl

theorem readOpnd_port (h : popPort k.kind o.n.toNat = some q) : readOpnd k x o = popVals k q o.w := by
  unfold readOpnd
  rw [if_neg (Nat.not_lt.2 (port_of_popPort h).1), h]

theorem ready_iff {y : Queue} {w : Nat} : y.ready w = true ↔ ∀ i, i < w → (y.front i).isSome := by simp [Queue.ready]

theorem popVals_ready {w : Nat} {l : List TVal} (ht : s.thread k.thread = some t) (len : l.length = w)
    (vals : ∀ i v, l[i]? = some v → (t.q q).front i = some v) :
    popVals k q w s = .ok (l, s.modQ k.thread q (·.popN w)) := by
  have at_ (i : Nat) (hi : i < w) : (t.q q).front i = some (l[i]'(len ▸ hi)) := vals i _ (List.getElem?_eq_getElem _)
  have ready : (t.q q).ready w = true := ready_iff.2 fun i hi => by rw [at_ i hi]; rfl
  have read : ((List.range w).map fun i => ((t.q q).front i).getD ⟨0#32, 0#5⟩) = l :=
    List.ext_getElem (by simp [len]) fun i hi _ => by simp [at_ i (by simpa using hi)]
  unfold popVals
  simp only [ht, ready, if_true, read]

theorem popVals_short {w : Nat} (ht : s.thread k.thread = some t) (short : ∃ i, i < w ∧ (t.q q).front i = none)
    (fed : (t.q q).q < (t.q q).p ∨ ∀ p, pusherOf q = some p → s.hasEnded { k with kind := p } = false) :
    popVals k q w s = .error (.block .queue) := by
  obtain ⟨i, hi, none_⟩ := short
  have ready : ¬ (t.q q).ready w = true := fun r => by simpa [none_] using ready_iff.1 r i hi
  unfold popVals
  simp only [ht, if_neg ready]
  cases hp : pusherOf q with
  | none => rfl
  | some p =>
    refine if_neg fun both => ?_
    rw [Bool.and_eq_true, decide_eq_true_eq] at both
    rcases fed with more | open_
    · exact absurd both.1 (Nat.not_le.2 more)
    · simp [open_ p hp] at both

theorem popVals_ended {w : Nat} {p : StrandKind} (ht : s.thread k.thread = some t) (pos : 0 < w) (empty : (t.q q).p ≤ (t.q q).q)
    (hp : pusherOf q = some p) (ended : s.hasEnded { k with kind := p } = true) :
    popVals k q w s = .error (.trap { cause := .qdlk } s) := by
  have ready : ¬ (t.q q).ready w = true := fun r => by simpa [Queue.front, Nat.not_lt.2 empty] using ready_iff.1 r 0 pos
  unfold popVals
  simp only [ht, if_neg ready, hp]
  exact if_pos (by simp [empty, ended])

end

/-- Settles O10: one lemma for each place an operand may name. -/
theorem operandRead : Obligations.OperandRead := by
  intro k x o s
  refine ⟨readOpnd_window, readOpnd_zr, fun q t hport ht => ?_⟩
  rw [readOpnd_port hport]
  exact ⟨fun l => popVals_ready ht, popVals_short ht, fun pos empty p => popVals_ended ht pos empty⟩

/-! ## What a destination does -/

theorem getElem?_lset {α : Type} (l : List α) (n : Nat) (a : α) (j : Nat) :
    (lset l n a)[j]? = if j = n ∧ n < l.length then some a else l[j]? := by
  induction l generalizing n j with
  | nil => simp [lset]
  | cons y l ih =>
    cases n with
    | zero => cases j <;> simp [lset]
    | succ n => cases j <;> simp [lset, ih]

theorem tmod_congr {α β : Type} [DecidableEq α] {t : Table α β} {a : α} {v : β} {f g : β → β} (ht : tget t a = some v) (h : f v = g v) :
    tmod t a f = tmod t a g := by
  induction t with
  | nil => rfl
  | cons e t ih =>
    rw [tget] at ht
    rw [tmod, tmod]
    split at ht
    · cases ht
      rw [if_pos ‹_›, if_pos ‹_›, h]
    · rw [if_neg ‹_›, if_neg ‹_›, ih ht]

section
variable (x : Strand) (n : Nat) (l : List TVal)

theorem setRegs_getElem? (j : Nat) :
    (x.setRegs n l).regs[j]? = if n ≤ j ∧ j < n + l.length ∧ j < x.regs.length then l[j - n]? else x.regs[j]? := by
  induction l generalizing x n with
  | nil => simp [Strand.setRegs]; omega
  | cons v l ih =>
    rw [Strand.setRegs, ih]
    simp only [Strand.setPhys, lset_length, getElem?_lset, List.length_cons]
    rcases Nat.lt_trichotomy j n with h | rfl | h
    · rw [if_neg (by omega), if_neg (by omega), if_neg (by omega)]
    · by_cases hj : j < x.regs.length
      · rw [if_neg (by omega), if_pos ⟨rfl, hj⟩, if_pos (by omega), Nat.sub_self]; rfl
      · rw [if_neg (by omega), if_neg (by omega), if_neg (by omega)]
    · obtain ⟨m, rfl⟩ : ∃ m, j = n + 1 + m := ⟨j - (n + 1), by omega⟩
      have h1 : n + 1 + m - n = m + 1 := by omega
      rw [Nat.add_sub_cancel_left, h1, List.getElem?_cons_succ]
      by_cases hm : m < l.length ∧ n + 1 + m < x.regs.length
      · rw [if_pos (by omega), if_pos (by omega)]
      · rw [if_neg (by omega), if_neg (by omega), if_neg (by omega)]

theorem mem_setRegs_prov (e : Prov) : e ∈ (x.setRegs n l).prov ↔ e ∈ x.prov ∧ (e.reg < n ∨ n + l.length ≤ e.reg) := by
  induction l generalizing x n with
  | nil => simp [Strand.setRegs]; omega
  | cons v l ih =>
    rw [Strand.setRegs, ih]
    simp only [Strand.setPhys, List.mem_filter, bne_iff_ne, List.length_cons, and_assoc]
    exact and_congr_right fun _ => by omega

theorem setRegs_frame : { x.setRegs n l with regs := x.regs, prov := x.prov } = x := by
  induction l generalizing x n with
  | nil => rfl
  | cons v l ih =>
    calc { x.setRegs n (v :: l) with regs := x.regs, prov := x.prov }
      _ = { ({ (x.setPhys n v).setRegs (n + 1) l with regs := (x.setPhys n v).regs, prov := (x.setPhys n v).prov } : Strand) with
            regs := x.regs, prov := x.prov } := rfl
      _ = { x.setPhys n v with regs := x.regs, prov := x.prov } := by rw [ih]
      _ = x := rfl

end

section
variable {k : StrandKey} {x y : Strand} {n : RegNo} {l : List TVal} {s : State} {q : QName} {t : Thread}

theorem writeVals_window (h : n.toNat < 120) : writeVals k x n l s = .ok ((), s.modStrand k (·.setRegs (x.wb + n.toNat) l)) := by
  unfold writeVals
  rw [if_pos h]
  rfl

theorem writeVals_zr (h : n = 126#7) : writeVals k x n l s = .ok ((), s) := by
  unfold writeVals
  rw [h, if_neg (by decide)]
  cases k.kind <;> rfl

theorem writeVals_port (h : pushPort k.kind n.toNat = some q) : writeVals k x n l = pushVals k q l := by
  unfold writeVals
  rw [if_neg (Nat.not_lt.2 (port_of_pushPort h).1), h]

theorem pushAll_eq_append (z : Queue) (h : z.s = 0) : z.pushAll l = { z with ents := z.ents ++ l.map some, p := z.p + l.length } := by
  induction l generalizing z with
  | nil => simp [Queue.pushAll]
  | cons v l ih =>
    have one : z.push v = { z with ents := z.ents ++ [some v], p := z.p + 1 } := if_neg (by omega)
    rw [Queue.pushAll, one, ih { z with ents := z.ents ++ [some v], p := z.p + 1 } h]
    simp [Nat.add_comm, Nat.add_left_comm]

theorem room_iff (z : Queue) (h : z.s = 0) (w : Nat) : z.room w = true ↔ z.p - z.c + w ≤ z.depth := by
  simp [Queue.room, Queue.live, h]

theorem pushVals_dead (ht : s.thread k.thread = some t) (h : s.deadPort k q = true) : pushVals k q l s = .ok ((), s) := by
  unfold pushVals
  simp [ht, h]

section
variable (ht : s.thread k.thread = some t) (hl : l ≠ []) (alive : s.deadPort k q = false) (fresh : (t.q q).s = 0)
include ht hl alive fresh

theorem pushVals_room (h : (t.q q).p - (t.q q).c + l.length ≤ (t.q q).depth) :
    pushVals k q l s = .ok ((), s.modQ k.thread q (·.pushAll l)) := by
  unfold pushVals
  simp [ht, hl, alive, (room_iff _ fresh _).2 h]

theorem pushVals_full (h : (t.q q).depth < (t.q q).p - (t.q q).c + l.length) : pushVals k q l s = .error (.block .queue) := by
  unfold pushVals
  have full : ¬ (t.q q).room l.length = true := fun r => absurd ((room_iff _ fresh _).1 r) (by omega)
  simp [ht, hl, alive, full]

end

theorem modQ_congr {f g : Queue → Queue} (ht : s.thread k.thread = some t) (h : f (t.q q) = g (t.q q)) :
    s.modQ k.thread q f = s.modQ k.thread q g := by
  have mods : tmod s.threads k.thread (fun z => { z.setQ q (f (z.q q)) with act := s.cycle })
      = tmod s.threads k.thread (fun z => { z.setQ q (g (z.q q)) with act := s.cycle }) :=
    tmod_congr ht (by rw [h])
  simp only [State.modQ, State.modThread, mods]

end

/-- Settles O11: one lemma for each place a destination may name. -/
theorem operandWrite : Obligations.OperandWrite := by
  intro k x y n l s hy
  refine ⟨fun hn => ⟨_, y.setRegs (x.wb + n.toNat) l, writeVals_window hn, by rw [State.strand, State.modStrand, tget_tmod_self, ← State.strand, hy]; rfl, ?_, ?_, ?_, setRegs_frame .., ?_, rfl⟩,
    writeVals_zr, fun q t hport ht hl => ?_⟩
  · intro i v hv hi
    have := (List.getElem?_eq_some_iff.1 hv).1
    rw [setRegs_getElem?, if_pos (by omega), Nat.add_sub_cancel_left, hv]
  · intro j hj
    rw [setRegs_getElem?, if_neg (by omega)]
  · exact fun e => mem_setRegs_prov ..
  · exact fun j hj => tget_tmod_ne _ _ _ _ (Ne.symm hj)
  · rw [writeVals_port hport]
    refine ⟨pushVals_dead ht, fun alive fresh room => ?_, fun alive fresh => pushVals_full ht hl alive fresh⟩
    rw [pushVals_room ht hl alive fresh room, modQ_congr (g := fun y => { y with ents := y.ents ++ l.map some, p := y.p + l.length }) ht (pushAll_eq_append _ fresh)]

/-! ## The checks of a word -/

theorem any_not_eq_false {α : Type} {o : Option α} {p : α → Bool} (h : ∀ a, o = some a → p a = true) : o.any (fun a => !p a) = false := by
  cases o with
  | none => rfl
  | some a => simp [h a rfl]

theorem classOk_iff_admits {c : Nat} {κ : StrandKind} : classOk c κ = true ↔ admits c κ := by
  unfold classOk admits
  cases κ <;> simp only [List.mem_cons, List.not_mem_nil, or_false, Bool.or_eq_true, beq_iff_eq] <;> split <;> try split
  all_goals simp_all
  all_goals omega

theorem canRead_unassigned (κ : StrandKind) : canRead κ 127#7 = false := by cases κ <;> rfl

theorem alignedReg_eq_false {n : RegNo} {w : Nat} (h : n.toNat < 120 ∨ n = 127#7) (hw : n.toNat % w ≠ 0) : alignedReg n w = false := by
  rcases h with h | rfl
  · simp [alignedReg, Nat.not_le.2 h, hw]
  · simpa [alignedReg] using hw

theorem inWindow_eq_true {x : Strand} {n : RegNo} {w : Nat} (h : n.toNat < 120 → x.wb + n.toNat + w ≤ x.regs.length) :
    x.inWindow n w = true := by
  rw [Strand.inWindow, Bool.or_eq_true, decide_eq_true_eq, decide_eq_true_eq]
  omega

section
variable {sp : WordForm} {κ : StrandKind} {x : Strand}

theorem encFault_istr (h : ¬ admits sp.cls κ) : sp.encFault κ x = some .istr := by
  rw [← classOk_iff_admits, Bool.not_eq_true] at h
  simp [WordForm.encFault, h]

section
variable (cls : admits sp.cls κ)
include cls

theorem encFault_icls (h : sp.transfer = true ∧ x.isLast sp.len = false) : sp.encFault κ x = some .icls := by
  simp [WordForm.encFault, classOk_iff_admits.2 cls, h]

section
variable (place : sp.transfer = false ∨ x.isLast sp.len = true)
include place

/-- Past the class and the clause, the checks of fields are left. -/
theorem encFault_fields : sp.encFault κ x =
    if sp.rsv || sp.ins.any (fun o => !alignedReg o.n o.w) || sp.out.any (fun o => !alignedReg o.1 o.2) then some .irsv
    else if sp.ins.any (fun o => !canRead κ o.n) || sp.out.any (fun o => !canWrite κ o.1) then some .iqpt
    else if sp.ins.any (fun o => !x.inWindow o.n o.w) || sp.out.any (fun o => !x.inWindow o.1 o.2) ||
      sp.more.any (fun o => !x.inWindow o.1 o.2) then some .winf
    else none := by
  have : (sp.transfer && !x.isLast sp.len) = false := by rcases place with h | h <;> simp [h]
  simp [WordForm.encFault, classOk_iff_admits.2 cls, this]

theorem encFault_reserved (h : sp.rsv = true) : sp.encFault κ x = some .irsv := by
  rw [encFault_fields cls place, if_pos (by simp [h])]

theorem encFault_misaligned {o : Opnd} (ho : o ∈ sp.ins) (h : alignedReg o.n o.w = false) : sp.encFault κ x = some .irsv := by
  have : sp.ins.any (fun o => !alignedReg o.n o.w) = true := List.any_eq_true.2 ⟨o, ho, by simp [h]⟩
  rw [encFault_fields cls place, if_pos (by simp [this])]

section
variable (rsv : sp.rsv = false) (ins : ∀ o, o ∈ sp.ins → alignedReg o.n o.w = true) (out : ∀ o, sp.out = some o → alignedReg o.1 o.2 = true)
include rsv ins out

theorem encFault_ports : sp.encFault κ x =
    if sp.ins.any (fun o => !canRead κ o.n) || sp.out.any (fun o => !canWrite κ o.1) then some .iqpt
    else if sp.ins.any (fun o => !x.inWindow o.n o.w) || sp.out.any (fun o => !x.inWindow o.1 o.2) ||
      sp.more.any (fun o => !x.inWindow o.1 o.2) then some .winf
    else none := by
  have h1 : sp.ins.any (fun o => !alignedReg o.n o.w) = false := List.any_eq_false.2 fun o ho => by simp [ins o ho]
  have h2 : sp.out.any (fun o => !alignedReg o.1 o.2) = false := any_not_eq_false out
  rw [encFault_fields cls place, if_neg (by simp [rsv, h1, h2])]

theorem encFault_iqpt {o : Opnd} (ho : o ∈ sp.ins) (h : canRead κ o.n = false) : sp.encFault κ x = some .iqpt := by
  have : sp.ins.any (fun o => !canRead κ o.n) = true := List.any_eq_true.2 ⟨o, ho, by simp [h]⟩
  rw [encFault_ports cls place rsv ins out, if_pos (by simp [this])]

section
variable (reads : ∀ o, o ∈ sp.ins → canRead κ o.n = true) (writes : ∀ o, sp.out = some o → canWrite κ o.1 = true)
include reads writes

theorem encFault_window : sp.encFault κ x =
    if sp.ins.any (fun o => !x.inWindow o.n o.w) || sp.out.any (fun o => !x.inWindow o.1 o.2) ||
      sp.more.any (fun o => !x.inWindow o.1 o.2) then some .winf
    else none := by
  have h1 : sp.ins.any (fun o => !canRead κ o.n) = false := List.any_eq_false.2 fun o ho => by simp [reads o ho]
  have h2 : sp.out.any (fun o => !canWrite κ o.1) = false := any_not_eq_false writes
  rw [encFault_ports cls place rsv ins out, if_neg (by simp [h1, h2])]

theorem encFault_winf {o : Opnd} (ho : o ∈ sp.ins) (hn : o.n.toNat < 120) (h : x.regs.length < x.wb + o.n.toNat + o.w) :
    sp.encFault κ x = some .winf := by
  have : sp.ins.any (fun o => !x.inWindow o.n o.w) = true :=
    List.any_eq_true.2 ⟨o, ho, by simp [Strand.inWindow, Nat.not_le.2 hn, Nat.not_le.2 h]⟩
  rw [encFault_window cls place rsv ins out reads writes, if_pos (by simp [this])]

theorem encFault_none (hin : ∀ o, o ∈ sp.ins → o.n.toNat < 120 → x.wb + o.n.toNat + o.w ≤ x.regs.length)
    (hout : ∀ o, sp.out = some o ∨ sp.more = some o → o.1.toNat < 120 → x.wb + o.1.toNat + o.2 ≤ x.regs.length) :
    sp.encFault κ x = none := by
  have h1 : sp.ins.any (fun o => !x.inWindow o.n o.w) = false :=
    List.any_eq_false.2 fun o ho => by simp [inWindow_eq_true (hin o ho)]
  have h2 : sp.out.any (fun o => !x.inWindow o.1 o.2) = false := any_not_eq_false fun o ho => inWindow_eq_true (hout o (.inl ho))
  have h3 : sp.more.any (fun o => !x.inWindow o.1 o.2) = false := any_not_eq_false fun o ho => inWindow_eq_true (hout o (.inr ho))
  rw [encFault_window cls place rsv ins out reads writes, if_neg (by simp [h1, h2, h3])]

end
end
end
end
end

/-! ## Reading the operands -/

section
variable {sp : WordForm} {s : State} {x : Strand}

theorem readWord_fault {c : Cause} (hx : s.strand s.cur = some x) (h : sp.encFault s.cur.kind x = some c) :
    readWord sp s = .error (.trap { cause := c } s) := by
  unfold readWord readWordAt
  rw [Exec.bind_ok (curStrand_some hx)]
  simp only [h]
  rfl

theorem readOpt_plain {k : StrandKey} {o : Option Opnd} (h : isPlain o) : readOpt k x o s = .ok (plainOpt x o, s) := by
  cases o with
  | none => rfl
  | some o =>
    rcases h o rfl with hn | hn
    · exact (readOpnd_window hn).trans (by simp [plainOpt, plain, hn])
    · exact (readOpnd_zr hn).trans (by simp [plainOpt, plain, hn])

theorem tagsOkGo_iff (c : Accept) (n : Nat) (l : List TVal) : tagsOkGo c n l = true ↔ ∀ i v, l[i]? = some v → c.ok (n + i) v.tag = true := by
  induction l generalizing n with
  | nil => simp [tagsOkGo]
  | cons v l ih =>
    rw [tagsOkGo, Bool.and_eq_true, ih]
    constructor
    · rintro ⟨h0, h⟩ (_ | i) w hw
      · cases hw; exact h0
      · simpa [Nat.add_assoc, Nat.add_comm 1] using h i w hw
    · exact fun h => ⟨h 0 v rfl, fun i w hw => by simpa [Nat.add_assoc, Nat.add_comm 1] using h (i + 1) w hw⟩

theorem tagsOk_iff_carries {o : Option Opnd} {l : List TVal} : tagsOk o l = true ↔ carries o l := by
  cases o with
  | none => simp [tagsOk, carries]
  | some o =>
    simp only [tagsOk, Accept.okAll, tagsOkGo_iff, carries, Option.some.injEq, forall_eq', Nat.zero_add]
    cases o.acc <;> simp [Accept.ok]

section
variable (hx : s.strand s.cur = some x) (fits : sp.encFault s.cur.kind x = none) (ha : isPlain sp.a) (hb : isPlain sp.b) (hd : isPlain sp.d)
include hx fits ha hb hd

theorem readWord_plain : readWord sp s =
    if tagsOk sp.a (plainOpt x sp.a) && tagsOk sp.b (plainOpt x sp.b) && tagsOk sp.d (plainOpt x sp.d) then
      .ok (⟨s.cur, x, plainOpt x sp.a, plainOpt x sp.b, plainOpt x sp.d⟩, s)
    else .error (.trap { cause := .ftag } s) := by
  unfold readWord readWordAt
  rw [Exec.bind_ok (curStrand_some hx)]
  simp only [fits]
  rw [Exec.bind_ok (readOpt_plain ha), Exec.bind_ok (readOpt_plain hb), Exec.bind_ok (readOpt_plain hd)]
  split <;> rfl

theorem readWord_plain_ok (h : carries sp.a (plainOpt x sp.a) ∧ carries sp.b (plainOpt x sp.b) ∧ carries sp.d (plainOpt x sp.d)) :
    readWord sp s = .ok (⟨s.cur, x, plainOpt x sp.a, plainOpt x sp.b, plainOpt x sp.d⟩, s) := by
  simp only [← tagsOk_iff_carries] at h
  rw [readWord_plain hx fits ha hb hd, if_pos (by simp [h])]

theorem readWord_plain_ftag (h : ¬ (carries sp.a (plainOpt x sp.a) ∧ carries sp.b (plainOpt x sp.b) ∧ carries sp.d (plainOpt x sp.d))) :
    readWord sp s = .error (.trap { cause := .ftag } s) := by
  simp only [← tagsOk_iff_carries] at h
  rw [readWord_plain hx fits ha hb hd, if_neg (by simpa [and_assoc] using h)]

end
end

/-- Settles O12: one lemma for each check, in their order. -/
theorem wordChecks : Obligations.WordChecks := by
  intro sp s x hx
  refine ⟨fun c => readWord_fault hx, fun cls _ => encFault_istr cls, fun cls _ => ⟨encFault_icls cls, fun place => ?_⟩,
    fun fits ha hb hd => ⟨readWord_plain_ok hx fits ha hb hd, readWord_plain_ftag hx fits ha hb hd⟩⟩
  refine ⟨encFault_reserved cls place, fun o ho hn hw => encFault_misaligned cls place ho (alignedReg_eq_false hn hw),
    fun rsv ins out => ⟨?_, fun reads writes => ⟨fun o => encFault_winf cls place rsv ins out reads writes,
      encFault_none cls place rsv ins out reads writes⟩⟩⟩
  rintro ⟨o, ho, hn⟩
  exact encFault_iqpt cls place rsv ins out ho (hn ▸ canRead_unassigned _)

end Sys2Proof.Operands

/-! The moves of class 0x3 with PTOD, the special registers of Table 3.3, and WIN (R46 to R48, R80 to R82). -/

namespace Sys2Proof.MoveRows

open Sys2Proof Sys2Proof.Machine Sys2Proof.Claims Sys2Proof.ValueWords Sys2Proof.IntegerRows Sys2Proof.Operands

/-! ## Special registers (Table 3.3) -/

theorem lget_eq_getD {α : Type} (l : List α) (n : Nat) (d : α) : lget l n d = l[n]?.getD d := by
  induction l generalizing n with
  | nil => rfl
  | cons x l ih => cases n <;> simp [lget, ih]

theorem low_lo32 (n : Nat) : BitVec.ofNat 32 (lo32 n) = BitVec.ofNat 32 n := by
  apply BitVec.eq_of_toNat_eq
  simp [lo32]

theorem low_hi32 (n : Nat) : BitVec.ofNat 32 (hi32 n) = BitVec.ofNat 32 (n / 2 ^ 32) := low_lo32 (n / 2 ^ 32)

section
variable (r : LaunchRec) (t n : Nat)

theorem extOf_eq : extOf r t = ((r.tier t).x, (r.tier t).y, (r.tier t).z) := by
  unfold extOf LaunchRec.tier
  split
  · rw [lget_eq_getD]; rfl
  · rfl

theorem volume_extOf : volume (extOf r t) = (r.tier t).size := by rw [extOf_eq]; rfl

theorem groupsBelow_eq : groupsBelow r t = r.below t := by
  unfold groupsBelow
  induction t with
  | zero => rfl
  | succ t ih =>
    match t with
    | 0 | 1 => rfl
    | t + 2 =>
      rw [List.range_succ, List.drop_append_of_le_length (by simp), List.map_append, List.prod_append, ih]
      simp [LaunchRec.below, volume_extOf]

theorem coordIn_extOf {c : Nat} :
    coordIn (extOf r t).1 (extOf r t).2.1 (extOf r t).2.2 n c = (r.tier t).coord c n := by
  rw [extOf_eq]
  match c with
  | 0 => rfl
  | 1 => rfl
  | c + 2 => simp [coordIn, Tier.coord]

end

/-- The counts of flags in a row, four bits each. -/
theorem flagSum_eq_counts (x : Strand) (lo cnt : Nat) :
    ((List.range cnt).map fun i => lget x.flags (lo + i) 0 * 16 ^ i).sum = counts x ((List.range cnt).map (lo + ·)) := by
  induction cnt generalizing lo with
  | zero => rfl
  | succ n ih =>
    have step : ((List.range n).map fun i => lget x.flags (lo + (i + 1)) 0 * 16 ^ (i + 1)).sum
        = 16 * ((List.range n).map fun i => lget x.flags (lo + 1 + i) 0 * 16 ^ i).sum := by
      rw [← List.sum_map_mul_left]
      refine congrArg List.sum (List.map_congr_left fun i _ => ?_)
      rw [pow_succ, Nat.add_right_comm, Nat.add_assoc]
      ring
    have shift : (List.range n).map (fun i => lo + (i + 1)) = (List.range n).map (lo + 1 + ·) :=
      List.map_congr_left fun i _ => by omega
    simp only [List.range_succ_eq_map, List.map_cons, List.map_map, List.sum_cons, Function.comp_def, Nat.succ_eq_add_one, step, ih, shift]
    simp [counts]

/-- A special register of the model is the table's value, of which the register takes the low 32 bits, and its tag. -/
def Agrees (s : State) (k : StrandKey) (x : Strand) (n : Nat) : Prop :=
  (specialReg s k x n).2 = specialTag n ∧ BitVec.ofNat 32 (specialReg s k x n).1 = BitVec.ofNat 32 (special s k x n)

section
variable (s : State) (k : StrandKey) (x : Strand) {n : Nat}

theorem agrees_flags (h : n ∈ [0x28, 0x29]) : Agrees s k x n := by
  simp only [List.mem_cons, List.not_mem_nil, or_false] at h
  rcases h with rfl | rfl
  · exact ⟨rfl, congrArg _ (flagSum_eq_counts x 0 8)⟩
  · exact ⟨rfl, congrArg _ (flagSum_eq_counts x 8 4)⟩

theorem agrees_strand (h : n ∈ [0, 5, 8, 9, 0x13, 0x18, 0x19, 0x20, 0x21, 0x24, 0x25, 0x200, 0x201]) : Agrees s k x n := by
  simp only [List.mem_cons, List.not_mem_nil, or_false] at h
  rcases h with rfl | rfl | rfl | rfl | rfl | rfl | rfl | rfl | rfl | rfl | rfl | rfl | rfl <;> refine ⟨rfl, ?_⟩
  case inr.inl => cases hk : k.kind <;> simp [specialReg, special, b2n, hk]
  all_goals simp [specialReg, special, low_lo32, low_hi32, capAtom]

theorem agrees_group (h : n ∈ [4, 0x10, 0x11, 0x12]) : Agrees s k x n := by
  simp only [List.mem_cons, List.not_mem_nil, or_false] at h
  rcases h with rfl | rfl | rfl | rfl <;> refine ⟨rfl, ?_⟩ <;> simp only [special, ofGroup] <;> cases hg : s.group k.grp <;>
    simp [specialReg, hg]

theorem agrees_ctx (h : n ∈ [0x14, 0x15]) : Agrees s k x n := by
  simp only [List.mem_cons, List.not_mem_nil, or_false] at h
  rcases h with rfl | rfl <;> refine ⟨rfl, ?_⟩ <;> simp only [special, ofCtx] <;> cases hl : s.launch k.grp.launch <;>
    simp [specialReg, hl]
  all_goals rename_i l; cases s.ctx l.ctx <;> rfl

theorem agrees_launch (h : n ∈ [1, 2, 3, 0x1A, 0x1B, 0x1C, 0x22]) : Agrees s k x n := by
  simp only [List.mem_cons, List.not_mem_nil, or_false] at h
  rcases h with rfl | rfl | rfl | rfl | rfl | rfl | rfl <;> refine ⟨rfl, ?_⟩ <;> simp only [special, ofLaunch, coordIn_extOf] <;>
    cases hl : s.launch k.grp.launch <;> simp [specialReg, hl, low_lo32, low_hi32]
theorem agrees_formats (low : 0x40 ≤ n) (high : n < 0x48) : Agrees s k x n := by
  interval_cases n <;> refine ⟨rfl, ?_⟩ <;> simp only [special, ofLaunch] <;> cases hl : s.launch k.grp.launch <;> simp [specialReg, hl]

theorem agrees_record (low : 0x80 ≤ n) (high : n < 0x90) : Agrees s k x n := by
  interval_cases n <;> exact ⟨rfl, rfl⟩

/-- The extents of a tier above 1 and the group's coordinates in it. -/
theorem agrees_tiers (low : 0x100 ≤ n) (high : n < 0x130) (used : n % 4 ≠ 3) : Agrees s k x n := by
  interval_cases n <;> first | exact absurd rfl used | refine ⟨rfl, ?_⟩
  all_goals
    simp only [special, ofLaunch, coordIn_extOf, volume_extOf, groupsBelow_eq]
    cases hl : s.launch k.grp.launch <;> simp [specialReg, hl, extOf_eq, LaunchRec.coord, Tier.ext]

theorem agrees_of_selectorOk {sel : BitVec 14} (h : selectorOk sel = true) : Agrees s k x sel.toNat := by
  have sort : sel.toNat ∈ [0, 5, 8, 9, 0x13, 0x18, 0x19, 0x20, 0x21, 0x24, 0x25, 0x200, 0x201] ∨ sel.toNat ∈ [4, 0x10, 0x11, 0x12] ∨
      sel.toNat ∈ [0x14, 0x15] ∨ sel.toNat ∈ [1, 2, 3, 0x1A, 0x1B, 0x1C, 0x22] ∨ sel.toNat ∈ [0x28, 0x29] ∨
      (0x40 ≤ sel.toNat ∧ sel.toNat < 0x48) ∨ (0x80 ≤ sel.toNat ∧ sel.toNat < 0x90) ∨
      (0x100 ≤ sel.toNat ∧ sel.toNat < 0x130 ∧ sel.toNat % 4 ≠ 3) := by
    simp only [selectorOk, Bool.or_eq_true, Bool.and_eq_true, decide_eq_true_eq, beq_iff_eq, bne_iff_ne] at h
    simp only [List.mem_cons, List.not_mem_nil, or_false]
    omega
  rcases sort with h | h | h | h | h | ⟨low, high⟩ | ⟨low, high⟩ | ⟨low, high, used⟩
  · exact agrees_strand s k x h
  · exact agrees_group s k x h
  · exact agrees_ctx s k x h
  · exact agrees_launch s k x h
  · exact agrees_flags s k x h
  · exact agrees_formats s k x low high
  · exact agrees_record s k x low high
  · exact agrees_tiers s k x low high used

end

/-! ## The rows -/

theorem low32_sext_v32 (l : List TVal) {n : Nat} (hn : 0 < n) :
    low32 (sext (v32 l) n) = ((w32 l).setWidth n).signExtend 32 := by
  rw [low32_sext _ hn, v32_eq_toNat, BitVec.ofNat_toNat]

theorem low_bits (l : List TVal) (n : Nat) : BitVec.ofNat 32 (v32 l % 2 ^ n) = ((w32 l).setWidth n).setWidth 32 := by
  apply BitVec.eq_of_toNat_eq
  simp [v32_eq_toNat]

/-- A word that is read has no field or immediate out of its range. -/
theorem rsv_of_readWord {sp : WordForm} {s s1 : State} {v : Vals} (h : readWord sp s = .ok (v, s1)) : sp.rsv = false := by
  have fits := (wordRead_of_ok h).fits
  by_contra rsv
  simp only [WordForm.encFault, Bool.not_eq_false _ ▸ rsv, Bool.true_or] at fits
  split at fits
  · cases fits
  · split at fits <;> cases fits

/-- The instruction of a row runs the value word that the row describes. -/
theorem exec_of_moveRow {s : State} {i : Instr} {sp : WordForm} {f : Vals → List TVal × Log} (h : moveRow s i = some (sp, f)) (used : sp.rsv = false) :
    exec i s = runWord s.cur (valueWord sp f) s := by
  unfold moveRow at h
  split at h <;> cases h
  case h_1 => /- PTOD -/ rfl
  case h_2 => /- MOV -/ rfl
  case h_3 => /- CMOV -/ rfl
  case h_4 => /- TAG -/ exact runOne fun v => ofNat_v32 v.a
  case h_5 => /- TAGQ -/ rfl
  case h_6 => /- WINQ -/ rfl
  case h_7 d sel => /- MOVS -/
    refine runValue_congr fun v => ?_
    obtain ⟨tag, low⟩ := agrees_of_selectorOk s v.k v.x (by simpa using used : selectorOk sel = true)
    show ret1 (specialReg s v.k v.x sel.toNat).2 (BitVec.ofNat 32 (specialReg s v.k v.x sel.toNat).1) = _
    rw [tag, low]
    rfl
  case h_8 => /- SEXT8 -/ exact runOne fun v => low32_sext_v32 v.a (by decide)
  case h_9 => /- SEXT16 -/ exact runOne fun v => low32_sext_v32 v.a (by decide)
  case h_10 => /- ZEXT8 -/ exact runOne fun v => low_bits v.a 8
  case h_11 => /- ZEXT16 -/ exact runOne fun v => low_bits v.a 16
  case h_12 => /- MOV64 -/ rfl

theorem gives_moveRow : Gives moveRow := by
  intro i sp f s s1 s2 v hrow hread hput
  rw [exec_of_moveRow hrow (rsv_of_readWord hread)]
  exact runWord_ok (valueWord_ok hread hput)

/-! ## WIN -/

section
variable {im : BitVec 7} {s s1 : State} {v : Vals} (h : readWord { cls := 3 } s = .ok (v, s1))
include h

theorem exec_win_inside (small : im.toNat * 8 < v.x.regs.length) :
    exec (.win im) s = .next ((s1.modStrand v.k fun x => { x with wb := im.toNat * 8 }).modStrand v.k (·.advance 1)) := by
  refine runWord_ok ?_
  rw [Exec.bind_ok h, decide_eq_true small]
  rfl

theorem exec_win_beyond (big : v.x.regs.length ≤ im.toNat * 8) :
    exec (.win im) s = .next (takeTrap s.cur .word { cause := .winf } { s with tlb := s1.tlb, free := s1.free, dies := s1.dies }) := by
  refine runWord_trap ?_
  rw [Exec.bind_ok h, decide_eq_false (Nat.not_lt.2 big)]
  rfl

end

/-- Settles O4: the rows of the table, and WIN on both sides of its bound. -/
theorem moveWords : Obligations.MoveWords :=
  ⟨gives_moveRow, fun _ _ _ _ h => ⟨exec_win_inside h, exec_win_beyond h⟩⟩

end Sys2Proof.MoveRows

/-! The floating-point words of class 0x5 (R57 to R60, R87, R88, Tables 4.6 and 4.7): the model's operand values and results are the claims'. -/

namespace Sys2Proof.FloatRows

open Sys2Proof Sys2Proof.Machine Sys2Proof.Claims Sys2Proof.ValueWords Sys2Proof.IntegerRows

theorem dval_eq_dbl (l : List TVal) : dval l = dbl l := by rw [dval, Transfers.v64_eq_w64]; rfl

theorem dres_eq_twoD (r : FRes) : dres r = twoD r := ret2_eq_two ..

theorem ofIntVal_ival (l : List TVal) : ofIntVal (ival l) = signed (w32 l) := by
  rw [ival_eq_toInt, ofIntVal, signed, BitVec.msb_eq_toInt]

theorem ofIntVal_nval (l : List TVal) : ofIntVal (nval l) = unsigned (w32 l) := by
  rw [nval_eq_toNat, ofIntVal, unsigned]
  simp

theorem v32_low16 (l : List TVal) : v32 l % 2 ^ 16 = ((w32 l).setWidth 16).toNat := by
  rw [BitVec.toNat_setWidth, v32_eq_toNat]

section
variable {k : StrandKey} {sp : WordForm} {s : State}

/-- Two words of f32 or f64 results are one word where the results agree. -/
theorem runF {f g : Vals → FRes} (h : ∀ v, f v = g v) :
    runWord k (valueWord sp fun v => fres (f v)) s = runWord k (valueWord sp fun v => oneF (g v)) s :=
  runValue_congr fun v => by rw [h]; rfl

theorem runD {f g : Vals → FRes} (h : ∀ v, f v = g v) :
    runWord k (valueWord sp fun v => dres (f v)) s = runWord k (valueWord sp fun v => twoD (g v)) s :=
  runValue_congr fun v => by rw [h, dres_eq_twoD]

end

/-- The instruction of a row runs the value word that the row describes. -/
theorem exec_of_floatRow (s : State) {i : Instr} {sp : WordForm} {f : Vals → List TVal × Log} (h : floatRow i = some (sp, f)) :
    exec i s = runWord s.cur (valueWord sp f) s := by
  unfold floatRow ff dd at h
  split at h <;> cases h
  case h_1 => /- FADD -/ rfl
  case h_2 => /- FSUB -/ rfl
  case h_3 => /- FMUL -/ rfl
  case h_4 => /- FFMA -/ rfl
  case h_5 => /- FMIN -/ rfl
  case h_6 => /- FMAX -/ rfl
  case h_7 => /- FABS -/ rfl
  case h_8 => /- FNEG -/ rfl
  case h_9 => /- FRND -/ rfl
  case h_10 => /- FCVT i32 from f32 -/ rfl
  case h_11 => /- FCVT n32 from f32 -/ rfl
  case h_12 => /- FCVT f32 from i32 -/ exact runF fun v => by rw [ofIntVal_ival]
  case h_13 => /- FCVT f32 from n32 -/ exact runF fun v => by rw [ofIntVal_nval]
  case h_14 => /- FCVT f16 from f32 -/ rfl
  case h_15 => /- FCVT f32 from f16 -/ exact runF fun v => by rw [v32_low16]
  case h_16 => /- FCVT bf16 from f32 -/ rfl
  case h_17 => /- FCVT f32 from bf16 -/ exact runF fun v => by rw [v32_low16]
  case h_18 => /- FCVT f64 from f32 -/ exact runD fun v => rfl
  case h_19 => /- FCVT f32 from f64 -/ exact runF fun v => by rw [dval_eq_dbl]
  case h_20 => /- DADD -/ exact runD fun v => congrArg₂ (f64.add .rn) (dval_eq_dbl v.a) (dval_eq_dbl v.b)
  case h_21 => /- DSUB -/ exact runD fun v => congrArg₂ (f64.sub .rn) (dval_eq_dbl v.a) (dval_eq_dbl v.b)
  case h_22 => /- DMUL -/ exact runD fun v => congrArg₂ (f64.mul .rn) (dval_eq_dbl v.a) (dval_eq_dbl v.b)
  case h_23 => /- DFMA -/ exact runD fun v => by rw [dval_eq_dbl, dval_eq_dbl, dval_eq_dbl]
  case h_24 => /- DMIN -/ exact runD fun v => congrArg₂ (f64.minmax false) (Transfers.v64_eq_w64 v.a) (Transfers.v64_eq_w64 v.b)
  case h_25 => /- DMAX -/ exact runD fun v => congrArg₂ (f64.minmax true) (Transfers.v64_eq_w64 v.a) (Transfers.v64_eq_w64 v.b)

/-- Settles O5: each word of the table is the value word of its row. -/
theorem floatWords : Obligations.FloatWords := gives_of_exec fun s _ _ _ h => exec_of_floatRow s h

end Sys2Proof.FloatRows

/-! The words of class 0x7 (R24, R25, R94 to R100): the result at once without a completion flag, and in a pending operation with one. -/

namespace Sys2Proof.MathRows

open Sys2Proof Sys2Proof.Machine Sys2Proof.Claims Sys2Proof.ValueWords Sys2Proof.FloatRows

section
variable {fb : Bool} {sp : WordForm} {f : Vals → List TVal × Log} {s s1 s2 : State} {v : Vals}

theorem flagRoom_none (x : Strand) (h : x.selFlag fb = none) : flagRoom x fb = pure () := by
  unfold flagRoom
  rw [h]

theorem flagRoom_some (x : Strand) {g : Nat} (h : x.selFlag fb = some g) (room : lget x.flags g 0 < 15) : flagRoom x fb = pure () := by
  unfold flagRoom
  rw [h]
  exact if_neg (Nat.not_le.2 room)

theorem flagRoom_of_room (x : Strand) (h : FlagRoom x fb) : flagRoom x fb = pure () := by
  cases hf : x.selFlag fb with
  | none => exact flagRoom_none x hf
  | some g => exact flagRoom_some x hf (h g hf)

section
variable {o : RegNo × Nat} (hout : sp.out = some o) (hread : readWord sp s = .ok (v, s1))
include hout hread

theorem mathWord_sync (hf : v.x.selFlag fb = none) (hput : writeVals v.k v.x o.1 (f v).1 s1 = .ok ((), s2)) :
    mathWord fb sp f s = .ok ((), onward v sp.len (f v).2 s2) := by
  unfold mathWord
  rw [Exec.bind_ok hread, flagRoom_none v.x hf]
  simp only [pure_bind, hf, hout]
  rw [Exec.bind_ok hput]
  rfl

theorem mathWord_async {g : Nat} {pl : List Place} (hf : v.x.selFlag fb = some g) (room : lget v.x.flags g 0 < 15)
    (hplaces : places v.k v.x o.1 o.2 s1 = .ok (pl, s2)) :
    mathWord fb sp f s = .ok ((), leave (pendOf s2 v.k v.x g sp.len (destsOf pl (f v).1) (f v).2 false) g s2) := by
  unfold mathWord
  rw [Exec.bind_ok hread, flagRoom_some v.x hf room]
  simp only [pure_bind, hf, hout]
  rw [Exec.bind_ok hplaces]
  show Except.ok ((), issuePend _ _) = _
  simp only [issuePend, Pend.withLog, Pend.blank, hf]
  rfl

end

end

section
variable {k : StrandKey} {fb : Bool} {sp : WordForm} {s : State}

theorem runMath_congr {f g : Vals → List TVal × Log} (h : ∀ v, f v = g v) :
    runWord k (mathWord fb sp f) s = runWord k (mathWord fb sp g) s := by rw [mathWord_congr h]

end

/-- The instruction of a row runs the word that the row describes. -/
theorem exec_of_mathRow (s : State) {i : Instr} {fb : Bool} {sp : WordForm} {f : Vals → List TVal × Log}
    (h : mathRow i = some (fb, sp, f)) : exec i s = runWord s.cur (mathWord fb sp f) s := by
  unfold mathRow at h
  split at h <;> cases h
  case h_1 => /- LNCV -/ rfl
  case h_2 => /- LNBK -/ rfl
  case h_3 => /- LEXP -/ rfl
  case h_4 => /- LLOG -/ rfl
  case h_5 => /- LMUL -/ rfl
  case h_6 => /- LDIV -/ rfl
  case h_7 => /- LSQR -/ rfl
  case h_8 => /- LPOW -/ exact runMath_congr fun v => congrArg (fun n => lres (lnsPow (lval v.a) n)) (ival_eq_toInt v.b)
  case h_9 => /- LADD -/ rfl
  case h_10 => /- LSUB -/ rfl
  case h_11 => /- FDIV -/ rfl
  case h_12 => /- FSQRT -/ rfl
  case h_13 => /- DDIV -/ exact runMath_congr fun v => by rw [dres_eq_twoD, dval_eq_dbl, dval_eq_dbl]
  case h_14 => /- DSQRT -/ exact runMath_congr fun v => by rw [dres_eq_twoD, dval_eq_dbl]

/-- Settles O7: the word of each row, without a flag and with one. -/
theorem mathWords : Obligations.MathWords := by
  intro i fb sp f o s s1 s2 v hrow hout hread
  rw [exec_of_mathRow s hrow]
  exact ⟨fun hf hput => runWord_ok (mathWord_sync hout hread hf hput),
    fun g pl hf room hpl => runWord_ok (mathWord_async hout hread hf room hpl)⟩

end Sys2Proof.MathRows

/-! The packed words of class 0x6 (R89 to R93): every result of an f16 or bf16 operation is a code of 16 bits, so that two of them pack
into one register; dot products are wrapped sums of words; and a narrow conversion replaces one container. -/

namespace Sys2Proof.PackedRows

open Sys2Proof Sys2Proof.Machine Sys2Proof.Claims Sys2Proof.ValueWords Sys2Proof.IntegerRows Sys2Proof.LogicRows Sys2Proof.FloatRows

/-! ## The codes of a format -/

/-- A result whose code fits the width of its format. -/
def Fits (f : Fmt) (r : FRes) : Prop := r.1 < 2 ^ (f.eb + f.mb + 1)

section
variable {f : Fmt} (hm : 0 < f.mb)

theorem fits_ite {c : Prop} [Decidable c] {r t : FRes} (hr : Fits f r) (ht : Fits f t) : Fits f (if c then r else t) := by
  split <;> assumption

theorem infCode_lt : f.infCode < 2 ^ (f.eb + f.mb) := by
  rw [Fmt.infCode, pow_add]
  exact Nat.mul_lt_mul_of_pos_right (Nat.sub_lt (Nat.two_pow_pos _) Nat.one_pos) (Nat.two_pow_pos _)

theorem fits_signed {neg : Bool} {c : Nat} {lg : Log} (h : c < 2 ^ (f.eb + f.mb)) : Fits f (f.signed neg c, lg) := by
  rw [Fits, Fmt.signed, pow_succ]
  cases neg
  · exact Nat.lt_of_lt_of_le h (Nat.le_mul_of_pos_right _ two_pos)
  · show 2 ^ (f.eb + f.mb) + c < _
    omega

theorem fits_inf {neg : Bool} {lg : Log} : Fits f (f.signed neg f.infCode, lg) := fits_signed infCode_lt

theorem fits_zero {neg : Bool} {lg : Log} : Fits f (f.signed neg 0, lg) := fits_signed (Nat.two_pow_pos _)

include hm in
theorem fits_nan {b : Bool} : Fits f (f.nanRes b) := by
  have quiet : f.infCode + 2 ^ (f.mb - 1) < 2 ^ (f.eb + f.mb) := by
    have half : 2 ^ (f.mb - 1) < 2 ^ f.mb := Nat.pow_lt_pow_right one_lt_two (by omega)
    have inf : f.infCode + 2 ^ f.mb = 2 ^ (f.eb + f.mb) := by
      rw [Fmt.infCode, pow_add, ← Nat.succ_mul, Nat.succ_eq_add_one, Nat.sub_add_cancel (Nat.two_pow_pos _)]
    omega
  exact Nat.lt_trans quiet (Nat.pow_lt_pow_right one_lt_two (Nat.lt_succ_self _))

theorem fits_enc {mode : RMode} {neg : Bool} {x : Mag} : Fits f (f.enc mode neg x) := by
  unfold Fmt.enc
  split
  · exact fits_zero
  · dsimp only
    split
    · exact fits_zero
    · split
      · exact fits_signed (Nat.lt_trans ‹_› infCode_lt)
      · have largest (b : Bool) : (if b then f.infCode else f.infCode - 1) < 2 ^ (f.eb + f.mb) := by
          have := infCode_lt (f := f)
          split <;> omega
        exact fits_signed (largest _)

theorem fits_addFin {mode : RMode} {n1 n2 : Bool} {m1 m2 : Nat} {e1 e2 : Int} : Fits f (f.addFin mode n1 m1 e1 n2 m2 e2) := by
  unfold Fmt.addFin
  dsimp only
  split
  · exact fits_zero
  · exact fits_enc

section
include hm

theorem fits_conv {mode : RMode} {x : FVal} : Fits f (f.conv mode x) := by
  cases x with
  | nan s => exact fits_nan hm
  | inf n => exact fits_inf
  | fin n m e => exact fits_enc

theorem fits_add {mode : RMode} {x y : FVal} : Fits f (f.add mode x y) := by
  unfold Fmt.add
  split
  case h_3 => exact fits_ite fits_inf (fits_nan hm)
  case h_1 | h_2 => exact fits_nan hm
  case h_4 | h_5 => exact fits_inf
  case h_6 => exact fits_addFin

theorem fits_mul {mode : RMode} {x y : FVal} : Fits f (f.mul mode x y) := by
  unfold Fmt.mul
  split
  case h_1 | h_2 => exact fits_nan hm
  case h_3 => exact fits_inf
  case h_4 | h_5 => exact fits_ite (fits_nan hm) fits_inf
  case h_6 => exact fits_enc

theorem fits_fma {mode : RMode} {x y z : FVal} : Fits f (f.fma mode x y z) := by
  unfold Fmt.fma
  split
  · exact fits_nan hm
  split
  · exact fits_nan hm
  split
  case h_1 => exact fits_addFin
  case h_2 => exact fits_inf
  case h_3 =>
    dsimp only
    split
    · exact fits_ite fits_inf (fits_nan hm)
    · exact fits_inf

end

end

/-! ## Elements of a register -/

theorem half_eq_h16 (x : BitVec 32) (i : Nat) : half x.toNat i = (h16 x i).toNat := by
  rw [half, h16, BitVec.extractLsb'_toNat, Nat.shiftRight_eq_div_pow]

theorem byteOf_eq_h8 (x : BitVec 32) (i : Nat) : byteOf x.toNat i = (h8 x i).toNat := by
  rw [byteOf, h8, BitVec.extractLsb'_toNat, Nat.shiftRight_eq_div_pow]

theorem pack2_eq_pack {t : Tag} {r0 r1 : FRes} (h : r0.1 < 2 ^ 16) : pack2 t r0 r1 = pack t r0 r1 := by
  have words : BitVec.ofNat 32 (r0.1 + 2 ^ 16 * r1.1) = BitVec.ofNat 16 r1.1 ++ BitVec.ofNat 16 r0.1 := by
    apply BitVec.eq_of_toNat_eq
    rw [BitVec.toNat_append, BitVec.toNat_ofNat, BitVec.toNat_ofNat, BitVec.toNat_ofNat, Nat.mod_eq_of_lt h,
      ← Nat.shiftLeft_add_eq_or_of_lt h, Nat.shiftLeft_eq]
    omega
  rw [pack2, words]
  rfl

/-- The low words of products and sums of integers. -/
theorem low32_mul_sext {n : Nat} (x y : BitVec n) (hn : 0 < n) :
    low32 (sext x.toNat n * sext y.toNat n) = x.signExtend 32 * y.signExtend 32 := by
  rw [low32, BitVec.ofInt_mul]
  exact congrArg₂ _ (low32_sext_toNat x hn) (low32_sext_toNat y hn)

theorem low32_nat (n : Nat) : low32 (n : Int) = BitVec.ofNat 32 n := BitVec.ofInt_natCast _ _

theorem low32_add (x y : Int) : low32 (x + y) = low32 x + low32 y := BitVec.ofInt_add _ _

theorem low32_nval (l : List TVal) : low32 (nval l) = w32 l := by rw [nval_eq_toNat, low32_nat, ofNat_toNat_self]

/-- Replacing container `p` of width `w` by a code, through a mask. -/
theorem insertField_eq_container (x : BitVec 32) (c : Nat) {p w : Nat} (h : p + w ≤ 32) :
    BitVec.ofNat 32 (insertField x.toNat c p w) =
      (x &&& ~~~((BitVec.allOnes 32 >>> (32 - w)) <<< p)) ||| (BitVec.ofNat 32 c <<< p &&& (BitVec.allOnes 32 >>> (32 - w)) <<< p) := by
  apply BitVec.eq_of_getLsbD_eq
  intro i hi
  have mask : ((BitVec.allOnes 32 >>> (32 - w)) <<< p).getLsbD i = decide (p ≤ i ∧ i < p + w) := by
    rw [BitVec.getLsbD_shiftLeft, BitVec.getLsbD_ushiftRight, BitVec.getLsbD_allOnes, Bool.eq_iff_iff]
    simp only [hi, decide_true, Bool.true_and, Bool.and_eq_true, Bool.not_eq_true', decide_eq_false_iff_not, decide_eq_true_eq]
    omega
  rw [BitVec.getLsbD_ofNat, testBit_insertField, BitVec.testBit_toNat, BitVec.getLsbD_or, BitVec.getLsbD_and, BitVec.getLsbD_and,
    BitVec.getLsbD_not, mask, BitVec.getLsbD_shiftLeft, BitVec.getLsbD_ofNat]
  by_cases field : p ≤ i ∧ i < p + w
  · have : i - p < 32 := by omega
    simp [hi, field, this, Nat.not_lt.2 field.1]
  · simp [hi, field]

theorem container_le {f : NFmt} {i : Nat} (h : decide (f.slots ≤ i) = false) : f.cbits * i + f.cbits ≤ 32 := by
  rw [decide_eq_false_iff_not, NFmt.slots] at h
  rw [NFmt.cbits]
  split at h <;> simp_all <;> omega

/-! ## The rows -/

section
variable {k : StrandKey} {sp : WordForm} {s : State}

theorem runPack {f : Fmt} {t : Tag} (width : f.eb + f.mb + 1 = 16) {m0 m1 e0 e1 : Vals → FRes} (fits : ∀ v, Fits f (e0 v))
    (h0 : ∀ v, m0 v = e0 v) (h1 : ∀ v, m1 v = e1 v) :
    runWord k (valueWord sp fun v => pack2 t (m0 v) (m1 v)) s = runWord k (valueWord sp fun v => pack t (e0 v) (e1 v)) s :=
  runValue_congr fun v => by rw [h0, h1, pack2_eq_pack (width ▸ fits v)]

end

section
variable (x y z : List TVal)

theorem dot_i8 : low32 (nval z + ((List.range 4).map fun i => sext (byteOf (v32 x) i) 8 * sext (byteOf (v32 y) i) 8).sum) =
    w32 z + (h8 (w32 x) 0).signExtend 32 * (h8 (w32 y) 0).signExtend 32 + (h8 (w32 x) 1).signExtend 32 * (h8 (w32 y) 1).signExtend 32 +
      (h8 (w32 x) 2).signExtend 32 * (h8 (w32 y) 2).signExtend 32 + (h8 (w32 x) 3).signExtend 32 * (h8 (w32 y) 3).signExtend 32 := by
  simp only [v32_eq_toNat, byteOf_eq_h8, List.range_succ, List.range_zero, List.nil_append, List.cons_append, List.map_cons, List.map_nil,
    List.sum_cons, List.sum_nil, add_zero, low32_add, low32_nval, low32_mul_sext _ _ (by decide : 0 < 8), add_assoc]

theorem dot_n8 : low32 (nval z + ((List.range 4).map fun i => (byteOf (v32 x) i * byteOf (v32 y) i : Nat)).sum) =
    w32 z + (h8 (w32 x) 0).setWidth 32 * (h8 (w32 y) 0).setWidth 32 + (h8 (w32 x) 1).setWidth 32 * (h8 (w32 y) 1).setWidth 32 +
      (h8 (w32 x) 2).setWidth 32 * (h8 (w32 y) 2).setWidth 32 + (h8 (w32 x) 3).setWidth 32 * (h8 (w32 y) 3).setWidth 32 := by
  have product (p q : BitVec 8) : BitVec.ofNat 32 (p.toNat * q.toNat) = p.setWidth 32 * q.setWidth 32 := by
    rw [BitVec.ofNat_mul, BitVec.ofNat_toNat, BitVec.ofNat_toNat]
  simp only [v32_eq_toNat, byteOf_eq_h8, List.range_succ, List.range_zero, List.nil_append, List.cons_append, List.map_cons, List.map_nil,
    List.sum_cons, List.sum_nil, add_zero, low32_add, low32_nval, low32_nat, BitVec.ofNat_add, product, add_assoc]

theorem dot_i16 : low32 (nval z + ((List.range 2).map fun i => sext (half (v32 x) i) 16 * sext (half (v32 y) i) 16).sum) =
    w32 z + (h16 (w32 x) 0).signExtend 32 * (h16 (w32 y) 0).signExtend 32 +
      (h16 (w32 x) 1).signExtend 32 * (h16 (w32 y) 1).signExtend 32 := by
  simp only [v32_eq_toNat, half_eq_h16, List.range_succ, List.range_zero, List.nil_append, List.cons_append, List.map_cons, List.map_nil,
    List.sum_cons, List.sum_nil, add_zero, low32_add, low32_nval, low32_mul_sext _ _ (by decide : 0 < 16), add_assoc]

theorem scale_byte : v32 x % 256 = (h8 (w32 x) 0).toNat := by
  rw [v32_eq_toNat, ← byteOf_eq_h8, byteOf]
  simp

theorem scale_nan : ((h8 (w32 x) 0).toNat == 255) = true ↔ h8 (w32 x) 0 = 0xFF#8 := by
  rw [beq_iff_eq, ← BitVec.toNat_inj]
  rfl

theorem nscl_result : (if v32 y % 256 == 255 then fres (f32.nanRes false) else fres (f32.conv .rn (scaleVal (fval x) (v32 y % 256)))) =
    if h8 (w32 y) 0 = 0xFF#8 then oneF (f32.nanRes false) else oneF (f32.conv .rn (scaleVal (fl x) (h8 (w32 y) 0).toNat)) := by
  rw [scale_byte]
  exact if_congr (scale_nan y) rfl rfl

theorem nunp_code (n c : Nat) : v32 x / 2 ^ n % 2 ^ c = (w32 x >>> n).toNat % 2 ^ c := by
  rw [BitVec.toNat_ushiftRight, Nat.shiftRight_eq_div_pow, v32_eq_toNat]

end

section
variable {s : State} {d a b : RegNo} {sp : WordForm} {f : Vals → List TVal × Log}

theorem exec_half {t : Tag} {fm : Fmt} {g : FVal → FVal → FRes} (width : fm.eb + fm.mb + 1 = 16) (fits : ∀ x y, Fits fm (g x y)) :
    hh fm t d a b g = some (sp, f) → half3 fm t d a b g s = runWord s.cur (valueWord sp f) s := by
  rintro ⟨⟩
  have element (i : Nat) (v : Vals) : g (fm.dec (half (v32 v.a) i)) (fm.dec (half (v32 v.b) i)) =
      g (fm.dec (h16 (w32 v.a) i).toNat) (fm.dec (h16 (w32 v.b) i).toNat) := by
    rw [v32_eq_toNat, v32_eq_toNat, half_eq_h16, half_eq_h16]
  exact runPack width (fun v => fits _ _) (element 0) (element 1)

theorem exec_halfFma {t : Tag} {fm : Fmt} (width : fm.eb + fm.mb + 1 = 16) (hm : 0 < fm.mb) :
    hfma fm t d a b = some (sp, f) → halfFma fm t d a b s = runWord s.cur (valueWord sp f) s := by
  rintro ⟨⟩
  have element (i : Nat) (v : Vals) :
      fm.fma .rn (fm.dec (half (v32 v.a) i)) (fm.dec (half (v32 v.b) i)) (fm.dec (half (v32 v.d) i)) =
        fm.fma .rn (fm.dec (h16 (w32 v.a) i).toNat) (fm.dec (h16 (w32 v.b) i).toNat) (fm.dec (h16 (w32 v.d) i).toNat) := by
    rw [v32_eq_toNat, v32_eq_toNat, v32_eq_toNat, half_eq_h16, half_eq_h16, half_eq_h16]
  exact runPack width (fun v => fits_fma hm) (element 0) (element 1)

theorem exec_unpack {t : Tag} {fm : Fmt} {i : Nat} :
    unpack fm t i d a = some (sp, f) → unpackHalf fm t i d a s = runWord s.cur (valueWord sp f) s := by
  rintro ⟨⟩
  exact runF fun v => by rw [v32_eq_toNat, half_eq_h16]

theorem exec_narrow {fm : NFmt} {k i : Nat} {m : RMode} (hf : s.curFmt k = fm) (used : sp.rsv = false) :
    narrow fm k i m d a = some (sp, f) → ncvt m d a k i s = runWord s.cur (valueWord sp f) s := by
  rintro ⟨⟩
  subst hf
  have place := container_le used
  exact runOne fun v => insertField_eq_container (w32 v.d) _ place

end

/-- The instruction of a row runs the value word that the row describes, where no field is out of its range. -/
theorem exec_of_packedRow {s : State} {i : Instr} {sp : WordForm} {f : Vals → List TVal × Log} (h : packedRow s i = some (sp, f))
    (used : sp.rsv = false) : exec i s = runWord s.cur (valueWord sp f) s := by
  unfold packedRow at h
  split at h
  case h_1 => /- HADD2 of f16 -/ exact exec_half rfl (fun _ _ => fits_add (by decide)) h
  case h_2 => /- HADD2 of bf16 -/ exact exec_half rfl (fun _ _ => fits_add (by decide)) h
  case h_3 => /- HMUL2 of f16 -/ exact exec_half rfl (fun _ _ => fits_mul (by decide)) h
  case h_4 => /- HMUL2 of bf16 -/ exact exec_half rfl (fun _ _ => fits_mul (by decide)) h
  case h_5 => /- HFMA2 of f16 -/ exact exec_halfFma rfl (by decide) h
  case h_6 => /- HFMA2 of bf16 -/ exact exec_halfFma rfl (by decide) h
  case h_7 => /- PKH of f16 -/ cases h; exact runPack (f := f16) rfl (fun _ => fits_conv (by decide)) (fun _ => rfl) fun _ => rfl
  case h_8 => /- PKH of bf16 -/ cases h; exact runPack (f := bf16) rfl (fun _ => fits_conv (by decide)) (fun _ => rfl) fun _ => rfl
  case h_9 => /- UNPKH of f16, low -/ exact exec_unpack h
  case h_10 => /- UNPKH of f16, high -/ exact exec_unpack h
  case h_11 => /- UNPKH of bf16, low -/ exact exec_unpack h
  case h_12 => /- UNPKH of bf16, high -/ exact exec_unpack h
  case h_13 => /- IDP4 of i8 -/ cases h; exact runOne fun v => dot_i8 v.a v.b v.d
  case h_14 => /- IDP4 of n8 -/ cases h; exact runOne fun v => dot_n8 v.a v.b v.d
  case h_15 => /- IDP2 of i16 -/ cases h; exact runOne fun v => dot_i16 v.a v.b v.d
  case h_16 => /- NCVT to nearest -/ exact exec_narrow rfl used h
  case h_17 => /- NCVT toward zero -/ exact exec_narrow rfl used h
  case h_18 => /- NUNP -/ cases h; exact runF fun v => by rw [nunp_code]
  case h_19 => /- NSCL -/ cases h; exact runValue_congr fun v => nscl_result v.a v.b
  case h_20 => /- SCX -/ cases h; exact runF fun v => by rw [v32_eq_toNat, byteOf_eq_h8]
  case h_21 => cases h

/-- Settles O6: each word of the table is the value word of its row. -/
theorem packedWords : Obligations.PackedWords := by
  intro i sp f s s1 s2 v hrow hread hput
  rw [exec_of_packedRow hrow (MoveRows.rsv_of_readWord hread)]
  exact runWord_ok (valueWord_ok hread hput)

end Sys2Proof.PackedRows

/-! What the device changes when it translates, reads, writes and logs on a context's behalf (R112 to R115, R237 to R247, R289, R390):
memory with its loft keys and failed lines, the cached entries, the counter of free values, and the physical function's log. -/

namespace Sys2Proof.DeviceFrame

open Sys2Proof Sys2Proof.Machine

/-! ## Translation -/

/-- Two states that differ at most in the cached translation entries and the counter of free values. -/
def Walked (s t : State) : Prop := { t with tlb := s.tlb, free := s.free } = s

theorem Walked.refl (s : State) : Walked s s := rfl

theorem Walked.trans {s t u : State} (h : Walked s t) (g : Walked t u) : Walked s u := by
  unfold Walked at *
  rw [← h, ← g]

/-- Caching an entry, or not. -/
theorem walked_cache {s t : State} (h : Walked s t) (b : Bool) (e : TlbEnt) :
    Walked s (if b then { t with tlb := e :: t.tlb } else t) := by
  cases b <;> exact h

theorem readEnt_walked (s : State) (st2 : Bool) (lvl vmid asid spa gpa lo hi : Nat) :
    Walked s (s.readEnt st2 lvl vmid asid spa gpa lo hi).2 := by
  unfold State.readEnt
  dsimp only
  have picked : Walked s (match s.entVals st2 vmid asid spa with
      | [v] => (v, s)
      | _ => (lget (s.entVals st2 vmid asid spa) (Config.freeNat s.free % (s.entVals st2 vmid asid spa).length) none,
          s.setFree (s.free + 1))).2 := by
    split <;> rfl
  split
  · exact picked
  · exact walked_cache picked _ _

section
variable (d : CtxDesc)

theorem walk2_walked (vmid root x fuel lvl t : Nat) (s : State) : Walked s (walk2 vmid root x fuel lvl t s).2 := by
  induction fuel generalizing lvl t s with
  | zero => exact .refl s
  | succ n ih =>
    unfold walk2
    dsimp only
    split
    · exact .refl s
    · have read := readEnt_walked s true lvl vmid 0 (t + 8 * lvlIndex lvl x) 0 (x / lvlSize lvl * lvlSize lvl)
        (x / lvlSize lvl * lvlSize lvl + lvlSize lvl)
      split
      · rename_i heq
        rw [heq] at read
        exact read
      · rename_i heq
        rw [heq] at read
        split
        · exact read
        · split
          · exact read
          · split
            · split <;> exact read
            · exact read.trans (ih ..)

theorem stage2_walked (gpa : Nat) (s : State) : Walked s (stage2 d gpa s).2 := by
  unfold stage2
  split
  · exact .refl s
  · exact walk2_walked ..

theorem walk1_walked (x fuel lvl t : Nat) (s : State) : Walked s (walk1 d x fuel lvl t s).2 := by
  induction fuel generalizing lvl t s with
  | zero => exact .refl s
  | succ n ih =>
    unfold walk1
    have table := stage2_walked d (t + 8 * lvlIndex lvl x) s
    dsimp only
    split
    · rename_i heq
      rw [heq] at table
      exact table
    · rename_i e2 a s1 heq
      rw [heq] at table
      split
      · exact table
      · have read := table.trans (readEnt_walked s1 false lvl d.vmid d.asid a (t + 8 * lvlIndex lvl x) (x / lvlSize lvl * lvlSize lvl)
          (x / lvlSize lvl * lvlSize lvl + lvlSize lvl))
        split
        · rename_i heq
          rw [heq] at read
          exact read
        · rename_i heq
          rw [heq] at read
          split
          · exact read
          · split
            · exact read
            · split
              · exact read
              · exact read.trans (ih ..)

theorem xlate_walked (va : Nat) (s : State) : Walked s (xlate d va s).2 := by
  unfold xlate
  have first := walk1_walked d (va57 va) 5 0 d.root1 s
  split
  · rename_i heq
    rw [heq] at first
    exact first
  · rename_i gpa s1 heq
    rw [heq] at first
    have second := first.trans (stage2_walked d gpa s1)
    split <;> rename_i heq <;> rw [heq] at second <;> exact second

theorem devReadE_walked (die va n : Nat) (s : State) : Walked s (devReadE d die va n s).2.2 := by
  unfold devReadE
  have walk := xlate_walked d va s
  split <;> rename_i heq <;> rw [heq] at walk <;> exact walk

theorem devWordE_walked (die va : Nat) (s : State) : Walked s (devWordE d die va s).2.2 := by
  unfold devWordE
  have walk := xlate_walked d va s
  split <;> rename_i heq <;> rw [heq] at walk <;> exact walk

end

/-! ## Memory and logs -/

/-- Two states that differ at most in what the device changes when it writes and logs for a context; memory keeps its canonical form. -/
structure Logged (s t : State) : Prop where
  rest : { t with mem := s.mem, loftKey := s.loftKey, bad := s.bad, tlb := s.tlb, free := s.free, pfLog := s.pfLog, pfDrops := s.pfDrops } = s
  wf : memWf s.mem = true → memWf t.mem = true

theorem Logged.refl (s : State) : Logged s s := ⟨rfl, id⟩

theorem Logged.trans {s t u : State} (h : Logged s t) (g : Logged t u) : Logged s u :=
  ⟨by rw [← h.rest, ← g.rest], fun w => g.wf (h.wf w)⟩

theorem Walked.mem_eq {s t : State} (h : Walked s t) : t.mem = s.mem := by rw [← h]

theorem Walked.logged {s t : State} (h : Walked s t) : Logged s t :=
  ⟨by rw [← h], fun w => h.mem_eq ▸ w⟩

theorem logged_ite {α : Type} {c : Prop} [Decidable c] {a b : α} {s : State} (f : α → State) (ha : Logged s (f a)) (hb : Logged s (f b)) :
    Logged s (f (if c then a else b)) := by
  split <;> assumption

theorem setLoftByte_logged (s : State) (a : Nat) (b : Byte) : Logged s (s.setLoftByte a b) := by
  refine ⟨?_, setLoftByte_wf s a b⟩
  unfold State.setLoftByte
  dsimp only
  split <;> rfl

theorem writeSpa_logged (s : State) (a : Nat) (l : List Byte) : Logged s (s.writeSpa a l) := by
  induction l generalizing s a with
  | nil => exact .refl s
  | cons b l ih =>
    rw [State.writeSpa]
    refine Logged.trans ?_ (ih ..)
    split
    · exact setLoftByte_logged ..
    · exact ⟨rfl, memWf_memSet _ _ _⟩

theorem repair_logged (s : State) (a n : Nat) : Logged s (s.repair a n) := by
  refine ⟨?_, by rw [repair_mem]; exact id⟩
  unfold State.repair
  split <;> rfl

theorem devWriteE_logged (d : CtxDesc) (die va : Nat) (l : List Byte) (s : State) : Logged s (devWriteE d die va l s).2.2 := by
  unfold devWriteE
  have walk := (xlate_walked d va s).logged
  split <;> rename_i heq <;> rw [heq] at walk
  · split
    · exact walk.trans ((writeSpa_logged ..).trans (repair_logged ..))
    · exact walk
  · exact walk

theorem pfEvent_logged (e : LogEnt) (s : State) : Logged s (s.pfEvent e) := ⟨rfl, id⟩

theorem pfDrop_logged (s : State) : Logged s s.pfDrop := ⟨rfl, id⟩

/-- A fold of changes each of which is such a change. -/
theorem logged_foldl {α : Type} {f : State → α → State} (h : ∀ s a, Logged s (f s a)) (l : List α) (s : State) : Logged s (l.foldl f s) := by
  induction l generalizing s with
  | nil => exact .refl s
  | cons a l ih => exact (h s a).trans (ih _)

theorem pfWalk_logged (l : List WalkErr) (s : State) : Logged s (pfWalk l s) :=
  logged_foldl (fun s e => by split <;> [exact pfEvent_logged ..; exact .refl s]) l s

theorem countDrop_logged (d : CtxDesc) (die base : Nat) (s : State) : Logged s (countDrop d die base s).2.2 := by
  unfold countDrop
  have read := (devReadE_walked d die (base + 16) 8 s).logged
  split <;> rename_i heq <;> rw [heq] at read
  · exact read.trans (devWriteE_logged ..)
  · exact read

/-- Appending past the control block: the write of the count, then of the entry. -/
theorem appendEntry_logged (d : CtxDesc) (die base size esz w : Nat) (l : List Byte) (s : State) :
    Logged s (match devWriteE d die base (toBytes 8 (w + 1)) s with
      | (false, e, s) => (Append.noBlock, e, s)
      | (true, _, s) =>
        match devWriteE d die (entryAddr base size esz w) l s with
        | (true, _, s) => (.done w, [], s)
        | (false, e, s) => (.noEntry w (countDrop d die base s).1, e ++ (countDrop d die base s).2.1, (countDrop d die base s).2.2)).2.2 := by
  have count := devWriteE_logged d die base (toBytes 8 (w + 1)) s
  split <;> rename_i heq <;> rw [heq] at count
  · exact count
  · rename_i s1
    have put := count.trans (devWriteE_logged d die (entryAddr base size esz w) l s1)
    split <;> rename_i heq <;> rw [heq] at put
    · exact put
    · exact put.trans (countDrop_logged ..)

theorem appendRing_logged (d : CtxDesc) (die base size esz : Nat) (entry : Nat → List Byte) (s : State) :
    Logged s (appendRing d die base size esz entry s).2.2 := by
  unfold appendRing
  have read := (devReadE_walked d die base 16 s).logged
  split <;> rename_i heq <;> rw [heq] at read
  · exact read
  · exact logged_ite (fun r : Append × List WalkErr × State => r.2.2) (read.trans (appendEntry_logged ..)) (read.trans (countDrop_logged ..))

theorem logEvent_logged (c : Nat) (e : LogEnt) (s : State) : Logged s (logEvent c e s) := by
  unfold logEvent
  split
  · exact .refl s
  · rename_i x _
    split
    · exact .refl s
    · have append := appendRing_logged x.d (s.homeDie x) x.d.evbase x.d.evsize 32 (eventBytes e) s
      split <;> rename_i heq <;> rw [heq] at append
      · exact append
      · exact append
      · exact append.trans ((pfWalk_logged ..).trans ((pfDrop_logged _).trans (pfEvent_logged ..)))
      · rename_i er s1
        have walk := append.trans (pfWalk_logged er s1)
        exact walk.trans ((logged_ite id (.refl _) (pfDrop_logged _)).trans (pfEvent_logged ..))

theorem logPlain_logged (c kind detail launch arg0 arg1 : Nat) (s : State) : Logged s (logPlain c kind detail launch arg0 arg1 s) :=
  logEvent_logged ..

theorem logWalk_logged (c launch va : Nat) (l : List (Bool × Nat)) (s : State) : Logged s (logWalk c launch va l s) := by
  induction l generalizing s with
  | nil => exact .refl s
  | cons e l ih =>
    obtain ⟨_ | _, spa⟩ := e
    · exact (logPlain_logged ..).trans (ih _)
    · exact (pfEvent_logged ..).trans (ih _)

theorem logWalks_logged (c : Nat) (l : List WalkErr) (s : State) : Logged s (logWalks c l s) :=
  logged_foldl (fun _ _ => logWalk_logged ..) l s

theorem logEvents_logged (c : Nat) (l : List LogEnt) (s : State) : Logged s (l.foldl (fun s e => logEvent c e s) s) :=
  logged_foldl (fun _ _ => logEvent_logged ..) l s

theorem devRead_logged (d : CtxDesc) (die va n : Nat) (s : State) : Logged s (devRead d die va n s).2 :=
  (devReadE_walked d die va n s).logged.trans (logWalks_logged ..)

theorem devWrite_logged (d : CtxDesc) (die va : Nat) (l : List Byte) (s : State) : Logged s (devWrite d die va l s).2 :=
  (devWriteE_logged d die va l s).trans (logWalks_logged ..)

theorem appendFor_logged (d : CtxDesc) (die base size esz : Nat) (entry : Nat → List Byte) (s : State) :
    Logged s (appendFor d die base size esz entry s).2 :=
  (appendRing_logged d die base size esz entry s).trans (logWalks_logged ..)

theorem logAll_logged (p : Ctx → Bool) (e : LogEnt) (l : List (Nat × Ctx)) (s : State) : Logged s (logAll p e l s) := by
  induction l generalizing s with
  | nil => exact .refl s
  | cons x l ih =>
    refine Logged.trans ?_ (ih _)
    split <;> [exact logEvent_logged ..; exact .refl s]

theorem logRepl_logged (kind detail arg0 arg1 : Nat) (s : State) : Logged s (logRepl kind detail arg0 arg1 s) := logAll_logged ..

theorem writeForCtx_logged (c va : Nat) (l : List Byte) (s : State) : Logged s (writeForCtx c va l s) := by
  unfold writeForCtx
  split
  · exact .refl s
  · rename_i x _
    have write := devWrite_logged x.d (s.homeDie x) va l s
    split <;> rename_i heq <;> rw [heq] at write
    · exact write
    · exact write.trans (logPlain_logged ..)

theorem alogOne_logged (l : Launch) (die cause bit : Nat) (x : Bool) (tid glin cpc : Nat) (s : State) :
    Logged s (alogOne l die cause bit x tid glin cpc s) := by
  unfold alogOne
  split
  · exact .refl s
  · split
    · exact .refl s
    · rename_i c _
      have append := appendFor_logged c.d die l.rc.alogBase l.rc.alogSize 32 (alogBytes cause x tid glin cpc l.id) s
      split <;> rename_i heq <;> rw [heq] at append
      · exact append
      · exact append
      · exact append.trans ((pfDrop_logged _).trans (logPlain_logged ..))
      · exact append.trans (logPlain_logged ..)

theorem alogList_logged (l : Launch) (die : Nat) (x : Bool) (tid glin cpc : Nat) (t : List (Nat × Nat)) (s : State) :
    Logged s (alogList l die x tid glin cpc t s) := by
  induction t generalizing s with
  | nil => exact .refl s
  | cons e t ih => exact (alogOne_logged ..).trans (ih _)

theorem alogFor_logged (k : StrandKey) (tid : Nat) (cpc : BitVec 57) (lg : Log) (s : State) : Logged s (alogFor k tid cpc lg s) := by
  unfold alogFor
  split
  · exact .refl s
  · split
    · exact alogList_logged ..
    · exact .refl s

/-! ## What stays -/

section
variable {s t : State} (h : Logged s t)
include h

theorem Logged.cur : t.cur = s.cur := by rw [← h.rest]
theorem Logged.cycle : t.cycle = s.cycle := by rw [← h.rest]
theorem Logged.ctxs : t.ctxs = s.ctxs := by rw [← h.rest]
theorem Logged.launches : t.launches = s.launches := by rw [← h.rest]
theorem Logged.groups : t.groups = s.groups := by rw [← h.rest]
theorem Logged.cwins : t.cwins = s.cwins := by rw [← h.rest]
theorem Logged.threads : t.threads = s.threads := by rw [← h.rest]
theorem Logged.strands : t.strands = s.strands := by rw [← h.rest]
theorem Logged.pend : t.pend = s.pend := by rw [← h.rest]
theorem Logged.items : t.items = s.items := by rw [← h.rest]
theorem Logged.dies : t.dies = s.dies := by rw [← h.rest]
theorem Logged.nextId : t.nextId = s.nextId := by rw [← h.rest]
theorem Logged.strand (k : StrandKey) : t.strand k = s.strand k := by rw [State.strand, h.strands]; rfl
theorem Logged.launch (l : Nat) : t.launch l = s.launch l := by rw [State.launch, h.launches]; rfl
theorem Logged.group (g : GroupKey) : t.group g = s.group g := by rw [State.group, h.groups]; rfl
theorem Logged.ctx (c : Nat) : t.ctx c = s.ctx c := by rw [State.ctx, h.ctxs]; rfl

theorem Logged.memsWf (wf : s.memsWf) : t.memsWf := by
  obtain ⟨hm, hg, hc⟩ := wf
  exact ⟨h.wf hm, h.groups ▸ hg, h.cwins ▸ hc⟩

end

end Sys2Proof.DeviceFrame

/-! Control words (R83 to R86, R108, R109, R119): their readings need nothing but the strand's own state, and all but TKILL and EXIT change
nothing but the strand. -/

namespace Sys2Proof.Control

open Sys2Proof Sys2Proof.Machine Sys2Proof.Claims Sys2Proof.Operands

/-! ## What the reading of a word leaves alone -/

section
variable {sp : WordForm} {s s1 : State} {v : Vals} (h : WordRead sp s v s1)
include h

theorem WordRead.cycle : s1.cycle = s.cycle := by rw [← h.frame.1]
theorem WordRead.launch (l : Nat) : s1.launch l = s.launch l := by rw [← h.frame.1]; rfl
theorem WordRead.strand_after : s1.strand v.k = some v.x := by
  have : s1.strand s.cur = s.strand s.cur := by rw [← h.frame.1]; rfl
  rw [h.key, this, h.strand]

/-- A trap met after the reading is taken from the state before the word. -/
theorem WordRead.before : ({ s with tlb := s1.tlb, free := s1.free, dies := s1.dies } : State) = s := by rw [← h.frame.1]

end

/-! ## Masks of flags -/

/-- A sum of distinct powers of two has the bits of its terms. -/
theorem testBit_sumPow (p : Nat → Bool) (n i : Nat) :
    ((List.range n).foldl (fun m i => if p i then m + 2 ^ i else m) 0).testBit i = (decide (i < n) && p i) ∧
      (List.range n).foldl (fun m i => if p i then m + 2 ^ i else m) 0 < 2 ^ n := by
  induction n with
  | zero => simp
  | succ n ih =>
    obtain ⟨bits, below⟩ := ih
    rw [List.range_succ, List.foldl_append, List.foldl_cons, List.foldl_nil]
    generalize (List.range n).foldl (fun m i => if p i then m + 2 ^ i else m) 0 = m at bits below
    cases hp : p n
    · refine ⟨?_, Nat.lt_trans below (Nat.pow_lt_pow_right one_lt_two (Nat.lt_succ_self n))⟩
      simp only [Bool.false_eq_true, if_false, bits]
      rcases Nat.lt_trichotomy i n with h | rfl | h
      · simp [h, Nat.lt_succ_of_lt h]
      · simp [hp]
      · simp [Nat.not_lt.2 h.le, Nat.not_lt.2 h]
    · refine ⟨?_, by simp only [if_true, pow_succ]; omega⟩
      have sum : m + 2 ^ n = 2 ^ n * 1 + m := by omega
      rw [if_pos rfl, sum, Nat.testBit_two_pow_mul_add _ below, bits]
      rcases Nat.lt_trichotomy i n with h | rfl | h
      · simp [h, Nat.lt_succ_of_lt h]
      · simp [hp]
      · have : i - n ≠ 0 := by omega
        have one : Nat.testBit 1 (i - n) = false := Nat.testBit_eq_false_of_lt (Nat.one_lt_two_pow this)
        simp [Nat.not_lt.2 h.le, Nat.not_lt.2 (Nat.succ_le_of_lt h), one]

section
variable {x : Strand}

theorem testBit_pendingMask (i : Nat) : x.pendingMask.testBit i = (decide (i < 12) && lget x.flags i 0 != 0) :=
  (testBit_sumPow (fun i => lget x.flags i 0 != 0) 12 i).1

theorem mask_eq_zero {im : BitVec 12} :
    (x.pendingMask &&& im.toNat == 0) = true ↔ ∀ n, n < 12 → im.getLsbD n = true → lget x.flags n 0 = 0 := by
  have bits (n : Nat) : (x.pendingMask &&& im.toNat).testBit n = ((decide (n < 12) && lget x.flags n 0 != 0) && im.getLsbD n) := by
    rw [Nat.testBit_and, testBit_pendingMask, BitVec.testBit_toNat]
  rw [beq_iff_eq]
  constructor
  · intro h n hn set
    have bit := bits n
    rw [h, Nat.zero_testBit, set, decide_eq_true hn] at bit
    simpa using bit
  · intro h
    refine Nat.eq_of_testBit_eq fun n => ?_
    rw [bits, Nat.zero_testBit, Bool.eq_false_iff]
    intro set
    simp only [Bool.and_eq_true, decide_eq_true_eq, bne_iff_ne] at set
    exact set.1.2 (h n set.1.1 set.2)

theorem pendingMask_eq_zero (h : ∀ n, n < 12 → lget x.flags n 0 = 0) : (x.pendingMask == 0) = true := by
  rw [beq_iff_eq]
  refine Nat.eq_of_testBit_eq fun n => ?_
  rw [testBit_pendingMask, Nat.zero_testBit]
  by_cases hn : n < 12
  · simp [h n hn]
  · simp [hn]

end

theorem waits_eq_stays (b : Block) (now : Nat) : Strand.waits b now = stays b now := by
  funext x
  simp only [Strand.waits, stays, Bool.or_eq_true, Bool.and_eq_true, beq_iff_eq]

/-! ## Words without operands -/

section
variable {s s1 : State} {v : Vals} (h : readWord { cls := 4 } s = .ok (v, s1))
include h

theorem exec_nop : exec .nop s = .next (s1.modStrand v.k (·.advance 1)) :=
  runWord_ok (by rw [Exec.bind_ok h]; rfl)

theorem exec_rgn_again (again : v.x.again = true) : exec .rgn s = .next (s1.modStrand v.k (·.advance 1)) :=
  runWord_ok (by rw [Exec.bind_ok h, if_pos again]; rfl)

theorem exec_rgn_commits (again : v.x.again = false) (free : s1.barWaiting v.k = false) :
    exec .rgn s = .next ((commitAt v.k (v.x.cpc, v.x.pc) none s1).modStrand v.k (·.advance 1)) := by
  refine runWord_ok ?_
  have hold : holdForBar v.k s1 = .ok ((), s1) := by simp [holdForBar, free]
  rw [Exec.bind_ok h, if_neg (by simp [again]), Exec.bind_ok hold]
  rfl

theorem exec_yield :
    exec .yield s = .next ((s1.modStrand v.k (·.advance 1)).modStrand v.k fun x => { x with blk := .yield, blkAt := s1.cycle }) := by
  refine runWord_ok ?_
  rw [Exec.bind_ok h, WordRead.cycle (wordRead_of_ok h)]
  rfl

section
variable {im : BitVec 12}

theorem exec_waitf_clear (clear : ∀ n, n < 12 → im.getLsbD n = true → lget v.x.flags n 0 = 0) :
    exec (.waitf im) s = .next (s1.modStrand v.k (·.advance 1)) :=
  runWord_ok (by rw [Exec.bind_ok h, if_pos (mask_eq_zero.2 clear)]; rfl)

theorem exec_waitf_pending (pending : ∃ n, n < 12 ∧ im.getLsbD n = true ∧ lget v.x.flags n 0 ≠ 0) :
    exec (.waitf im) s = .next (s.modStrand s.cur (stays .flag s.cycle)) := by
  obtain ⟨n, hn, set, hv⟩ := pending
  rw [← waits_eq_stays]
  exact runWord_block (by rw [Exec.bind_ok h, if_neg (fun clear => hv (mask_eq_zero.1 clear n hn set))]; rfl)

end

end

/-! ## The last words of a clause -/

section
variable {s s1 : State} {v : Vals} (h : readWord { cls := 4, transfer := true } s = .ok (v, s1))
include h

theorem exec_tret_inside {m : BitVec 1} (inside : v.x.inHandler = true) : exec (.tret m) s = .next (s1.modStrand v.k (·.tret (m == 1#1))) :=
  runWord_ok (by rw [Exec.bind_ok h, inside]; rfl)

theorem exec_tret_outside {m : BitVec 1} (outside : v.x.inHandler = false) :
    exec (.tret m) s = .next (takeTrap s.cur .word { cause := .ilop } s) := by
  have := runWord_trap (k := s.cur) (m := do
    let v ← readWord { cls := 4, transfer := true }
    check v.x.inHandler .ilop
    act (·.modStrand v.k (·.tret (m == 1#1)))) (s := s) (u := s1) (t := { cause := .ilop }) (by rw [Exec.bind_ok h, outside]; rfl)
  rwa [WordRead.before (wordRead_of_ok h)] at this

theorem exec_exit (clear : ∀ n, n < 12 → lget v.x.flags n 0 = 0) : exec .exit s = .next (endStrand v.k s1) :=
  runWord_ok (by rw [Exec.bind_ok h, if_pos (pendingMask_eq_zero clear)]; rfl)

theorem exec_trap {im : BitVec 7} : exec (.trap im) s =
    .next (takeTrap s.cur .word { cause := .trap, code := im.toNat } { s with tlb := s1.tlb, free := s1.free, dies := s1.dies }) :=
  runWord_trap (by rw [Exec.bind_ok h]; rfl)

section
variable {l : Launch} (hl : s1.launch v.k.grp.launch = some l)
include hl

theorem need_launch : (need (s.launch v.k.grp.launch) : Exec Launch) = pure l := by
  rw [← WordRead.launch (wordRead_of_ok h), hl]
  rfl

theorem exec_tkill_group :
    exec (.tkill 0#1) s = .next (endGroup v.k.grp false (logPlain l.ctx 0x04 0 l.id v.k.grp.glin 0 s1)) :=
  runWord_ok (by rw [Exec.bind_ok h, need_launch h hl]; rfl)

theorem exec_tkill_launch : exec (.tkill 1#1) s = .next (killLaunch l.id (logPlain l.ctx 0x04 1 l.id v.k.grp.glin 0 s1)) :=
  runWord_ok (by rw [Exec.bind_ok h, need_launch h hl]; rfl)

end

end

/-- Settles O9: one lemma for each word. -/
theorem controlWords : Obligations.ControlWords := by
  intro s s1 v
  refine ⟨fun h => ⟨exec_nop h, exec_rgn_again h, exec_rgn_commits h, exec_yield h, fun im => ⟨exec_waitf_clear h, exec_waitf_pending h⟩⟩,
    fun h => ⟨fun m => exec_tret_inside h, exec_exit h, fun l hl => ⟨exec_tkill_group h hl, exec_tkill_launch h hl⟩, fun im => exec_trap h⟩⟩

/-! ## Where TRET resumes -/

section
variable (x : Strand) (skip : Bool)

theorem tret_keeps : (x.tret skip).inHandler = false ∧ (x.tret skip).wb = x.hWb ∧ (x.tret skip).regs = x.regs ∧
    (x.tret skip).preds = x.preds ∧ (x.tret skip).flags = x.flags ∧ (x.tret skip).phase = .header := by
  unfold Strand.tret
  cases x.hAt <;> cases skip <;> cases x.hSkipIn <;> exact ⟨rfl, rfl, rfl, rfl, rfl, rfl⟩

theorem tret_retry (h : skip = false ∨ x.hAt = .fetch) :
    (x.tret skip).cpc = x.hCpc ∧ (x.tret skip).pc = if x.hAt = .word then x.hFpc else x.hCpc := by
  unfold Strand.tret
  rcases h with rfl | h
  · cases x.hAt <;> exact ⟨rfl, rfl⟩
  · rw [h]; exact ⟨rfl, rfl⟩

theorem tret_retry_word (h : x.hAt = .word) : (x.tret false).inside = (x.hCpc != x.hFpc) := by
  unfold Strand.tret
  rw [h]
  rfl

theorem tret_skip_header (h : x.hAt = .header) :
    (x.tret true).cpc = x.hSkip ∧ (x.tret true).pc = x.hSkip ∧ (x.tret true).inside = false := by
  unfold Strand.tret
  rw [h]
  exact ⟨rfl, rfl, rfl⟩

theorem tret_skip_word (h : x.hAt = .word) :
    (x.tret true).pc = x.hSkip ∧ (x.tret true).cpc = if x.hSkipIn then x.hCpc else x.hSkip := by
  unfold Strand.tret
  rw [h]
  cases x.hSkipIn <;> exact ⟨rfl, rfl⟩

end

/-- Settles O17: outside a handler the trap, inside it the strand that `Strand.tret` gives. -/
theorem tretResumes : Obligations.TretResumes := by
  intro m s s1 v h
  have read := wordRead_of_ok h
  refine ⟨exec_tret_outside h, fun inside => ⟨_, v.x.tret (m == 1#1), exec_tret_inside h inside, ?_, ?_⟩⟩
  · rw [read.key, State.strand, State.modStrand, tget_tmod_self, ← State.strand, ← read.key, WordRead.strand_after read]
    rfl
  · obtain ⟨handler, wb, regs, preds, flags, phase⟩ := tret_keeps v.x (m == 1#1)
    refine ⟨handler, wb, regs, preds, flags, phase, fun hm => tret_retry _ _ (hm.imp_left fun e => by rw [e]; rfl), ?_, ?_, ?_⟩
    · rintro rfl; exact tret_retry_word v.x
    · rintro rfl; exact tret_skip_header v.x
    · rintro rfl; exact tret_skip_word v.x

end Sys2Proof.Control

/-! Words of the register classes whose operands cannot be read (R51, R71, R119): each of them begins with the reading of its row's form. -/

namespace Sys2Proof.FaultingReads

open Sys2Proof Sys2Proof.Machine Sys2Proof.Claims

/-- An instruction is a word that ends as the reading of its form ends, where that fails. -/
def ReadsFirst (i : Instr) (sp : WordForm) (s : State) : Prop :=
  ∃ m, exec i s = runWord s.cur m s ∧ ∀ e, readWord sp s = .error e → m s = .error e

section
variable {i : Instr} {sp : WordForm} {s : State}

theorem readsFirst_value {f : Vals → List TVal × Log} (h : exec i s = runWord s.cur (valueWord sp f) s) : ReadsFirst i sp s :=
  ⟨_, h, fun _ => valueWord_error⟩

theorem readsFirst_move {f : Vals → List TVal × Log} (h : moveRow s i = some (sp, f)) : ReadsFirst i sp s := by
  unfold moveRow at h
  split at h <;> cases h <;> exact readsFirst_value rfl

theorem readsFirst_packed {f : Vals → List TVal × Log} (h : packedRow s i = some (sp, f)) : ReadsFirst i sp s := by
  unfold packedRow at h
  split at h <;> cases h <;> exact readsFirst_value rfl

theorem readsFirst_transfer {f : Vals → List TVal × BitVec 57} (h : xferRow i = some (sp, f)) : ReadsFirst i sp s :=
  ⟨_, Transfers.exec_of_xferRow h s, fun _ fault => Exec.bind_error (by rwa [Transfers.xferRow_form h])⟩

theorem orElse_eq_some {α : Type} {a : Option α} {b : Unit → Option α} {v : α} (h : a.orElse b = some v) : a = some v ∨ b () = some v := by
  cases a with
  | none => exact .inr h
  | some _ => exact .inl h

theorem map_eq_some {α : Type} {a : Option α} {g : α → WordForm} (h : a.map g = some sp) : ∃ r, a = some r ∧ g r = sp :=
  Option.map_eq_some_iff.1 h

/-- Every form is that of a row. -/
theorem readsFirst_of_formOf (h : formOf s i = some sp) : ReadsFirst i sp s := by
  unfold formOf at h
  rcases orElse_eq_some h with h | h
  · obtain ⟨r, row, rfl⟩ := map_eq_some h
    exact readsFirst_value (IntegerRows.exec_of_intRow row s)
  rcases orElse_eq_some h with h | h
  · obtain ⟨r, row, rfl⟩ := map_eq_some h
    exact readsFirst_value (LogicRows.exec_of_logicRow row s)
  rcases orElse_eq_some h with h | h
  · obtain ⟨r, row, rfl⟩ := map_eq_some h
    exact ⟨_, CompareRows.exec_of_predRow row s, fun _ => predWord_error⟩
  rcases orElse_eq_some h with h | h
  · obtain ⟨r, row, rfl⟩ := map_eq_some h
    exact readsFirst_move row
  rcases orElse_eq_some h with h | h
  · obtain ⟨r, row, rfl⟩ := map_eq_some h
    exact readsFirst_value (FloatRows.exec_of_floatRow s row)
  rcases orElse_eq_some h with h | h
  · obtain ⟨r, row, rfl⟩ := map_eq_some h
    exact readsFirst_packed row
  rcases orElse_eq_some h with h | h
  · obtain ⟨⟨fb, r⟩, row, rfl⟩ := Option.map_eq_some_iff.1 h
    exact ⟨_, MathRows.exec_of_mathRow s row, fun _ => mathWord_error⟩
  · obtain ⟨r, row, rfl⟩ := Option.map_eq_some_iff.1 h
    exact readsFirst_transfer row

end

/-- Settles O13: a word ends as its reading does, and a word that waits notes it. -/
theorem faultingWords : Obligations.FaultingWords := by
  intro i sp s s1 h
  obtain ⟨m, run, fails⟩ := readsFirst_of_formOf h
  refine ⟨fun t fault => ?_, fun b fault => ?_⟩
  · rw [run, runWord_trap (fails _ fault)]
  · rw [run, runWord_block (fails _ fault), Control.waits_eq_stays]

end Sys2Proof.FaultingReads

/-! Taking a precise trap (R104 to R107, R109, R110): the record and its way to FAULT_AREA, the entry to the handler, and the kill of the
launch. -/

namespace Sys2Proof.TrapTaking

open Sys2Proof Sys2Proof.Machine Sys2Proof.Claims Sys2Proof.DeviceFrame

/-! ## The record (Table 5.2) -/

theorem or_shift16 {m n : Nat} (hm : m < 2 ^ 16) : BitVec.ofNat 32 m ||| BitVec.ofNat 32 n <<< 16 = BitVec.ofNat 32 (m + 65536 * n) := by
  apply BitVec.eq_of_toNat_eq
  have low : m % 2 ^ 32 = m := Nat.mod_eq_of_lt (by omega)
  have high : (BitVec.ofNat 32 n <<< 16).toNat = (n % 2 ^ 16) <<< 16 := by
    simp only [BitVec.toNat_shiftLeft, BitVec.toNat_ofNat, Nat.shiftLeft_eq]
    omega
  rw [BitVec.toNat_or, high, BitVec.toNat_ofNat, BitVec.toNat_ofNat, low, Nat.or_comm, ← Nat.shiftLeft_add_eq_or_of_lt hm, Nat.shiftLeft_eq]
  omega

/-- The flags of word 0 beside a cause. -/
theorem recordFlags (c : Cause) (x h : Bool) :
    lo c.code ||| flagBit x 8 ||| flagBit h 9 = BitVec.ofNat 32 (c.code + 256 * b2n x + 512 * b2n h) ∧
      c.code + 256 * b2n x + 512 * b2n h < 2 ^ 16 := by
  cases c <;> cases x <;> cases h <;> decide

theorem slotWord (sl e : Nat) (slv : Bool) :
    lo sl + (if slv then 256#32 else 0#32) + (lo (e / 2 ^ 32 % 256) <<< 16) =
      BitVec.ofNat 32 (256 * b2n slv + sl + 65536 * (e / 2 ^ 32 % 256)) := by
  apply BitVec.eq_of_toNat_eq
  cases slv <;> simp [lo, b2n, Nat.shiftLeft_eq] <;> omega

theorem faultWords_eq_record (k : StrandKey) (x : Strand) (fa : FaultAt) (t : TrapInfo) : faultWords k x fa t = record k x fa t := by
  obtain ⟨flags, small⟩ := recordFlags t.cause (k.kind == .x) x.inHandler
  have word0 : lo t.cause.code ||| flagBit (k.kind == .x) 8 ||| flagBit x.inHandler 9 ||| (lo t.code <<< 16) =
      BitVec.ofNat 32 (t.cause.code + 256 * b2n (k.kind == .x) + 512 * b2n x.inHandler + 65536 * t.code) := by
    rw [flags]; exact or_shift16 small
  have word (v : Word) : BitVec.ofNat 32 v.toNat = v := by simp
  have literal (v : Word) :
      BitVec.ofNat 32 (if isXForm v then (x.litWord.getD 0#32).toNat else 0) = if isXForm v then x.litWord.getD 0#32 else 0#32 := by
    split <;> simp
  unfold faultWords record faultInsn
  rw [word0]
  cases fa <;> cases x.word <;> cases t.slot <;> simp only [word, literal, slotWord] <;> rfl

/-! ## The way of the record to memory -/

section
variable {k : StrandKey} {x : Strand} {l : Launch} {fa : FaultAt} {t : TrapInfo} {s : State} {r : List Word}

/-- One more dropped fault of a launch. -/
def dropFault (l : Nat) (s : State) : State := s.modLaunch l fun y => { y with dfc := y.dfc + 1 }

/-- Writing a record is writing for the device, after which the launch may count a dropped fault. -/
theorem writeFault_cases (k : StrandKey) (l : Launch) (r : List Word) (s : State) :
    ∃ u, Logged s u ∧ (writeFault k l r s = u ∨ writeFault k l r s = dropFault l.id u) := by
  have fails {u : State} (e : List WalkErr) (a : Nat) (h : Logged s u) :
      Logged s (logPlain l.ctx evLogFail 2 l.id a 0 (logWalks l.ctx e u)) := h.trans ((logWalks_logged ..).trans (logPlain_logged ..))
  unfold writeFault
  split
  · exact ⟨s, .refl s, .inl rfl⟩
  split
  · exact ⟨s, .refl s, .inl rfl⟩
  rename_i c _
  dsimp only
  generalize ((s.group k.grp).map (·.die)).getD (s.homeDie c) = die
  generalize l.rc.faultArea + 128 * k.tid + 64 * b2n (k.kind == .x) = a
  have word := (devWordE_walked c.d die a s).logged
  split <;> rename_i h0 <;> rw [h0] at word
  · exact ⟨_, fails _ a word, .inr rfl⟩
  split
  · exact ⟨_, word, .inr rfl⟩
  rename_i s1 _
  have first := word.trans (devWriteE_logged c.d die a (faultLine r 0) s1)
  split <;> rename_i h1 <;> rw [h1] at first
  · exact ⟨_, fails _ a first, .inr rfl⟩
  rename_i s2
  have second := first.trans (devWriteE_logged c.d die (a + 32) (faultLine r 1) s2)
  split <;> rename_i h2 <;> rw [h2] at second
  · exact ⟨_, fails _ a second, .inr rfl⟩
  rename_i s3
  have last := second.trans (devWriteE_logged c.d die a (toBytes 4 (lget r 0 0#32).toNat) s3)
  split <;> rename_i h3 <;> rw [h3] at last
  · exact ⟨_, fails _ a last, .inr rfl⟩
  · exact ⟨_, last, .inl rfl⟩

theorem recordTrap_eq (hx : s.strand k = some x) (hl : s.launch k.grp.launch = some l) :
    recordTrap k fa t s = writeFault k l (record k x fa t)
      ((t.evs.foldl (fun s e => logEvent l.ctx e s) (logWalk l.ctx l.id t.va t.errs s)).modStrand k
        fun y => { y with fault := record k x fa t }) := by
  unfold recordTrap
  rw [hx, hl, ← faultWords_eq_record]

/-- What a record leaves: the strand with it, and the launch, which may count one more dropped fault. -/
structure Recorded (k : StrandKey) (l : Launch) (r : List Word) (s u : State) : Prop where
  strands : u.strands = tmod s.strands k fun y => { y with fault := r }
  threads : u.threads = s.threads
  groups : u.groups = s.groups
  launch : ∃ m, u.launch k.grp.launch = some m ∧ m.rc = l.rc ∧ m.id = l.id ∧ m.ctx = l.ctx

theorem launch_dropFault {n : Nat} {u : State} (h : u.launch n = some l) :
    ∃ m, (dropFault l.id u).launch n = some m ∧ m.rc = l.rc ∧ m.id = l.id ∧ m.ctx = l.ctx := by
  rcases eq_or_ne l.id n with rfl | hn
  · refine ⟨{ l with dfc := l.dfc + 1 }, ?_, rfl, rfl, rfl⟩
    rw [dropFault, State.launch, State.modLaunch, tget_tmod_self, ← State.launch, h]
    rfl
  · refine ⟨l, ?_, rfl, rfl, rfl⟩
    rw [dropFault, State.launch, State.modLaunch, tget_tmod_ne _ _ _ _ hn, ← State.launch, h]

section
variable (hx : s.strand k = some x) (hl : s.launch k.grp.launch = some l)
include hx hl

theorem recordTrap_recorded : Recorded k l (record k x fa t) s (recordTrap k fa t s) := by
  rw [recordTrap_eq hx hl]
  have logs := (logWalk_logged l.ctx l.id t.va t.errs s).trans (logEvents_logged l.ctx t.evs _)
  generalize t.evs.foldl (fun s e => logEvent l.ctx e s) (logWalk l.ctx l.id t.va t.errs s) = s0 at logs
  obtain ⟨u, written, which⟩ := writeFault_cases k l (record k x fa t) (s0.modStrand k fun y => { y with fault := record k x fa t })
  have strands : u.strands = tmod s.strands k fun y => { y with fault := record k x fa t } := by
    rw [written.strands, State.modStrand, logs.strands]
  have launch : u.launch k.grp.launch = some l := by
    rw [written.launch, ← hl, ← logs.launch]
    rfl
  rcases which with e | e <;> rw [e]
  · exact ⟨strands, written.threads.trans logs.threads, written.groups.trans logs.groups, l, launch, rfl, rfl, rfl⟩
  · exact ⟨strands, written.threads.trans logs.threads, written.groups.trans logs.groups, launch_dropFault launch⟩

end

theorem Recorded.strand {u : State} (h : Recorded k l r s u) (hx : s.strand k = some x) : u.strand k = some { x with fault := r } := by
  rw [State.strand, h.strands, tget_tmod_self, ← State.strand, hx]
  rfl

theorem Recorded.others {u : State} (h : Recorded k l r s u) {j : StrandKey} (hj : j ≠ k) : u.strand j = s.strand j := by
  rw [State.strand, h.strands, tget_tmod_ne _ _ _ _ (Ne.symm hj)]
  rfl

/-! ## The entry to a handler -/

theorem enterTrap_handler {code : Nat} (hx : s.strand k = some x) (hl : s.launch k.grp.launch = some l) (h : handlerOf k l ≠ 0)
    (out : x.inHandler = false) :
    enterTrap k fa code s = s.modStrand k fun y => { y with
      inHandler := true, hWb := y.wb, hCpc := y.cpc, hFpc := y.pc, hAt := fa, hSkip := (x.skipPoint fa).1, hSkipIn := (x.skipPoint fa).2,
      wb := l.rc.handlerWb }.goto (pcOf (handlerOf k l)) := by
  unfold enterTrap
  rw [hx, hl]
  have enters : (handlerOf k l != 0 && !x.inHandler) = true := by simp [h, out]
  exact if_pos enters

/-- Settles O14: the record, then the entry of the strand that it left. -/
theorem trapEntry : Obligations.TrapEntry := by
  intro k fa t s x l hx hl hh out
  have rec_ := recordTrap_recorded (fa := fa) (t := t) hx hl
  obtain ⟨m, hm, rc, -⟩ := rec_.launch
  have handler : handlerOf k m = handlerOf k l := by rw [handlerOf, handlerOf, rc]
  have here := rec_.strand hx
  rw [takeTrap, enterTrap_handler here hm (handler ▸ hh) out, handler, rc]
  refine ⟨?_, rec_.threads, fun j hj => ?_⟩
  · rw [State.strand, State.modStrand, tget_tmod_self, ← State.strand, here]
    have same : ({ x with fault := record k x fa t } : Strand).skipPoint fa = x.skipPoint fa := rfl
    rw [same]
    simp [Strand.goto]
  · rw [State.strand, State.modStrand, tget_tmod_ne _ _ _ _ (Ne.symm hj), ← State.strand, rec_.others hj]

/-! ## The slot in FAULT_AREA (R105) -/

/-- The bytes of words. -/
def wordBytes (l : List (BitVec 32)) : List Byte := l.flatMap fun v => toBytes 4 v.toNat

section
variable (k : StrandKey) (x : Strand) (fa : FaultAt) (t : TrapInfo)

theorem faultLine_first : faultLine (record k x fa t) 0 = wordBytes (0xFFFFFFFF#32 :: ((record k x fa t).take 8).drop 1) := rfl

theorem faultLine_second : faultLine (record k x fa t) 1 = wordBytes ((record k x fa t).drop 8) := rfl

theorem record_head : toBytes 4 (lget (record k x fa t) 0 0#32).toNat = wordBytes ((record k x fa t).take 1) := rfl

end

theorem slot_eq_faultSlot (k : StrandKey) (l : Launch) : l.rc.faultArea + 128 * k.tid + 64 * b2n (k.kind == .x) = faultSlot k l := by
  unfold faultSlot
  cases k.kind <;> rfl

/-- A failed write of the record: the dropped fault and its event. -/
def faultFails (l : Launch) (a : Nat) (u : State) : State := dropFault l.id (logPlain l.ctx 0x06 2 l.id a 0 u)

theorem writeFault_none (h : l.rc.faultArea = 0) : writeFault k l r s = s := by
  unfold writeFault
  rw [h]
  rfl

section
variable {c : Ctx} {die : Nat} {e : List WalkErr} {s1 s2 s3 s4 : State} {first second word0 : List Byte} (area : l.rc.faultArea ≠ 0)
  (live : s.liveCtx l.ctx = some c) (hdie : ((s.group k.grp).map (·.die)).getD (s.homeDie c) = die) (hfirst : faultLine r 0 = first)
  (hsecond : faultLine r 1 = second) (hword0 : toBytes 4 (lget r 0 0#32).toNat = word0)
include area live hdie hfirst hsecond hword0

/-- The steps of writing a record, in terms of the slot and the lines of the record. -/
theorem writeFault_steps : writeFault k l r s =
    match devWordE c.d die (faultSlot k l) s with
    | (none, e, s) => faultFails l (faultSlot k l) (logWalks l.ctx e s)
    | (some w0, _, s) =>
      if w0 != 0 then dropFault l.id s
      else
        match devWriteE c.d die (faultSlot k l) first s with
        | (false, e, s) => faultFails l (faultSlot k l) (logWalks l.ctx e s)
        | (true, _, s) =>
          match devWriteE c.d die (faultSlot k l + 32) second s with
          | (false, e, s) => faultFails l (faultSlot k l) (logWalks l.ctx e s)
          | (true, _, s) =>
            match devWriteE c.d die (faultSlot k l) word0 s with
            | (false, e, s) => faultFails l (faultSlot k l) (logWalks l.ctx e s)
            | (true, _, s) => s := by
  unfold writeFault
  rw [if_neg (by simpa using area), live]
  dsimp only
  rw [slot_eq_faultSlot, hdie, hfirst, hsecond, hword0]
  rfl

theorem writeFault_unreadable (h : devWordE c.d die (faultSlot k l) s = (none, e, s1)) :
    writeFault k l r s = faultFails l (faultSlot k l) (logWalks l.ctx e s1) := by
  rw [writeFault_steps area live hdie hfirst hsecond hword0, h]

theorem writeFault_claimed {w : Nat} (hw : w ≠ 0) (h : devWordE c.d die (faultSlot k l) s = (some w, e, s1)) :
    writeFault k l r s = dropFault l.id s1 := by
  rw [writeFault_steps area live hdie hfirst hsecond hword0, h]
  exact if_pos (by simpa using hw)

section
variable (h0 : devWordE c.d die (faultSlot k l) s = (some 0, e, s1))
include h0

theorem writeFault_first_fails {e1 : List WalkErr} (h : devWriteE c.d die (faultSlot k l) first s1 = (false, e1, s2)) :
    writeFault k l r s = faultFails l (faultSlot k l) (logWalks l.ctx e1 s2) := by
  rw [writeFault_steps area live hdie hfirst hsecond hword0, h0]
  dsimp only
  rw [if_neg (by decide), h]

section
variable {e1 : List WalkErr} (h1 : devWriteE c.d die (faultSlot k l) first s1 = (true, e1, s2))
include h1

theorem writeFault_second_fails {e2 : List WalkErr} (h : devWriteE c.d die (faultSlot k l + 32) second s2 = (false, e2, s3)) :
    writeFault k l r s = faultFails l (faultSlot k l) (logWalks l.ctx e2 s3) := by
  rw [writeFault_steps area live hdie hfirst hsecond hword0, h0]
  dsimp only
  rw [if_neg (by decide), h1]
  dsimp only
  rw [h]

section
variable {e2 e3 : List WalkErr} (h2 : devWriteE c.d die (faultSlot k l + 32) second s2 = (true, e2, s3))
include h2

theorem writeFault_last_fails (h : devWriteE c.d die (faultSlot k l) word0 s3 = (false, e3, s4)) :
    writeFault k l r s = faultFails l (faultSlot k l) (logWalks l.ctx e3 s4) := by
  rw [writeFault_steps area live hdie hfirst hsecond hword0, h0]
  dsimp only
  rw [if_neg (by decide), h1]
  dsimp only
  rw [h2]
  dsimp only
  rw [h]

theorem writeFault_written (h : devWriteE c.d die (faultSlot k l) word0 s3 = (true, e3, s4)) : writeFault k l r s = s4 := by
  rw [writeFault_steps area live hdie hfirst hsecond hword0, h0]
  dsimp only
  rw [if_neg (by decide), h1]
  dsimp only
  rw [h2]
  dsimp only
  rw [h]

end
end
end
end

/-- Settles O15: one lemma for each way in which the writing ends. -/
theorem faultArea : Obligations.FaultArea := by
  intro k fa t s x l hx hl errs evs
  have record_ : recordTrap k fa t s = writeFault k l (record k x fa t) (s.modStrand k fun y => { y with fault := record k x fa t }) := by
    rw [recordTrap_eq hx hl, errs, evs]
    rfl
  have hfirst := faultLine_first k x fa t
  have hsecond := faultLine_second k x fa t
  have hword0 := record_head k x fa t
  generalize record k x fa t = r at *
  refine ⟨fun none_ => record_.trans (writeFault_none none_), fun c area live => ?_⟩
  have live : (s.modStrand k fun y => { y with fault := r }).liveCtx l.ctx = some c := live
  have hdie : (((s.modStrand k fun y => { y with fault := r }).group k.grp).map (·.die)).getD
      ((s.modStrand k fun y => { y with fault := r }).homeDie c) = ((s.group k.grp).map (·.die)).getD (s.homeDie c) := rfl
  dsimp only
  rw [record_]
  generalize (s.modStrand k fun y => { y with fault := r }) = s0 at hdie live
  refine ⟨fun e s1 => writeFault_unreadable area live hdie hfirst hsecond hword0, fun w e s1 hw => writeFault_claimed area live hdie hfirst hsecond hword0 hw, fun e s1 h0 => ?_⟩
  refine ⟨fun e1 s2 => writeFault_first_fails area live hdie hfirst hsecond hword0 h0, fun e1 s2 h1 => ?_⟩
  refine ⟨fun e2 s3 => writeFault_second_fails area live hdie hfirst hsecond hword0 h0 h1, fun e2 s3 h2 => ?_⟩
  exact ⟨fun e3 s4 => writeFault_last_fails area live hdie hfirst hsecond hword0 h0 h1 h2, fun e3 s4 => writeFault_written area live hdie hfirst hsecond hword0 h0 h1 h2⟩

end

end Sys2Proof.TrapTaking

/-! The ends of groups and launches (R85, R109, R277): what ending leaves of strands, lives, launches and bind records. -/

namespace Sys2Proof.Ends

open Sys2Proof Sys2Proof.Machine Sys2Proof.Claims Sys2Proof.DeviceFrame

/-! ## Tables -/

section
variable {α β : Type} [DecidableEq α]

theorem tget_filter_none {t : Table α β} {a : α} (p : α × β → Bool) (h : tget t a = none) : tget (t.filter p) a = none := by
  induction t with
  | nil => rfl
  | cons e t ih =>
    obtain ⟨k, v⟩ := e
    rw [tget] at h
    split at h
    · cases h
    · rw [List.filter_cons]
      split
      · rw [tget, if_neg ‹_›, ih h]
      · exact ih h

/-- An entry that the filter takes out is gone. -/
theorem tget_filter_out {t : Table α β} {a : α} {p : α × β → Bool} (h : ∀ v, p (a, v) = false) : tget (t.filter p) a = none := by
  induction t with
  | nil => rfl
  | cons e t ih =>
    obtain ⟨k, v⟩ := e
    rw [List.filter_cons]
    split
    · rename_i hp
      rw [tget, if_neg, ih]
      rintro rfl
      rw [h] at hp
      cases hp
    · exact ih

theorem tget_mem {t : Table α β} {a : α} {v : β} (h : tget t a = some v) : (a, v) ∈ t := by
  induction t with
  | nil => cases h
  | cons e t ih =>
    obtain ⟨k, w⟩ := e
    rw [tget] at h
    split at h
    · cases h
      subst_vars
      exact List.mem_cons_self
    · exact List.mem_cons_of_mem _ (ih h)

theorem tget_tmod_none {t : Table α β} {a b : α} (f : β → β) (h : tget t a = none) : tget (tmod t b f) a = none := by
  rcases eq_or_ne b a with rfl | hb
  · rw [tget_tmod_self, h]; rfl
  · rw [tget_tmod_ne _ _ _ _ hb, h]

/-- A change that keeps a reading of the values keeps the reading of every key. -/
theorem map_tget_tmod {γ : Type} (t : Table α β) (b : α) {f : β → β} {r : β → γ} (h : ∀ v, r (f v) = r v) (a : α) :
    (tget (tmod t b f) a).map r = (tget t a).map r := by
  rcases eq_or_ne b a with rfl | hb
  · rw [tget_tmod_self, Option.map_map]
    exact congrArg (fun g => Option.map g _) (funext h)
  · rw [tget_tmod_ne _ _ _ _ hb]

end

theorem mem_lmod {γ : Type} {l : List γ} {n : Nat} {f : γ → γ} {x : γ} (h : x ∈ lmod l n f) : x ∈ l ∨ ∃ y ∈ l, x = f y := by
  induction l generalizing n with
  | nil => cases h
  | cons y l ih =>
    cases n with
    | zero =>
      rcases List.mem_cons.1 h with rfl | h
      · exact .inr ⟨y, List.mem_cons_self, rfl⟩
      · exact .inl (List.mem_cons_of_mem _ h)
    | succ n =>
      rcases List.mem_cons.1 h with rfl | h
      · exact .inl List.mem_cons_self
      · rcases ih h with h | ⟨z, hz, rfl⟩
        · exact .inl (List.mem_cons_of_mem _ h)
        · exact .inr ⟨z, List.mem_cons_of_mem _ hz, rfl⟩

theorem mem_tmod {α β : Type} [DecidableEq α] {t : Table α β} {a : α} {f : β → β} {e : α × β} (h : e ∈ tmod t a f) :
    e ∈ t ∨ ∃ v, (a, v) ∈ t ∧ e = (a, f v) := by
  induction t with
  | nil => cases h
  | cons x t ih =>
    obtain ⟨k, v⟩ := x
    rw [tmod] at h
    split at h
    · subst_vars
      rcases List.mem_cons.1 h with rfl | h
      · exact .inr ⟨v, List.mem_cons_self, rfl⟩
      · exact .inl (List.mem_cons_of_mem _ h)
    · rcases List.mem_cons.1 h with rfl | h
      · exact .inl List.mem_cons_self
      · rcases ih h with h | ⟨w, hw, rfl⟩
        · exact .inl (List.mem_cons_of_mem _ h)
        · exact .inr ⟨w, List.mem_cons_of_mem _ hw, rfl⟩

/-! ## What an end of groups can do -/

/-- No bind record of a launch is valid. -/
def Unbound (n : Nat) (s : State) : Prop := ∀ d ∈ s.dies, ∀ e ∈ d.binds, e.2.launch = n → e.2.valid = false

/-- No strand appears, no launch changes its mark, and no bind record becomes valid. -/
structure Winds (s t : State) : Prop where
  strands : ∀ j, s.strand j = none → t.strand j = none
  killed : ∀ n, (t.launch n).map (·.killed) = (s.launch n).map (·.killed)
  binds : ∀ n, Unbound n s → Unbound n t

theorem Winds.refl (s : State) : Winds s s := ⟨fun _ => id, fun _ => rfl, fun _ => id⟩

theorem Winds.trans {s t u : State} (h : Winds s t) (g : Winds t u) : Winds s u :=
  ⟨fun j hj => g.strands j (h.strands j hj), fun n => (g.killed n).trans (h.killed n), fun n hn => g.binds n (h.binds n hn)⟩

theorem winds_foldl {α : Type} {f : State → α → State} (h : ∀ s a, Winds s (f s a)) (l : List α) (s : State) : Winds s (l.foldl f s) := by
  induction l generalizing s with
  | nil => exact .refl s
  | cons a l ih => exact (h s a).trans (ih _)

/-- The lives of all groups but one stay. -/
def KeepsLives (g : GroupKey) (s t : State) : Prop := ∀ j, j ≠ g → (t.group j).map (·.life) = (s.group j).map (·.life)

theorem keepsLives_of_groups {g : GroupKey} {s t : State} (h : t.groups = s.groups) : KeepsLives g s t := fun j _ => by
  rw [State.group, h]; rfl

theorem winds_of_logged {s t : State} (h : Logged s t) : Winds s t :=
  ⟨fun j hj => (h.strand j).trans hj, fun n => by rw [h.launch], fun n hn => by unfold Unbound; rw [h.dies]; exact hn⟩

theorem winds_of_eq {s t : State} (hs : t.strands = s.strands) (hl : t.launches = s.launches) (hd : t.dies = s.dies) : Winds s t :=
  ⟨fun j hj => by rw [State.strand, hs]; exact hj, fun n => by rw [State.launch, hl]; rfl, fun n hn => by unfold Unbound; rw [hd]; exact hn⟩

/-! ## The parts of a group's end -/

theorem winds_modStrand (k : StrandKey) (f : Strand → Strand) (s : State) : Winds s (s.modStrand k f) :=
  ⟨fun _ hj => tget_tmod_none f hj, fun _ => rfl, fun _ hn => hn⟩

theorem winds_modLaunch (n : Nat) {f : Launch → Launch} (h : ∀ l, (f l).killed = l.killed) (s : State) : Winds s (s.modLaunch n f) :=
  ⟨fun _ hj => hj, fun m => map_tget_tmod s.launches n h m, fun _ hn => hn⟩

theorem winds_modDie (n : Nat) {f : Die → Die} (h : ∀ d, (f d).binds = d.binds) (s : State) : Winds s (s.modDie n f) := by
  refine ⟨fun _ hj => hj, fun _ => rfl, fun m hm d hd e he => ?_⟩
  rcases mem_lmod hd with hd | ⟨d', hd', rfl⟩
  · exact hm d hd e he
  · exact hm d' hd' e (h d' ▸ he)

theorem winds_raiseShed (die : Nat) (e : ShedEvent) (s : State) : Winds s (raiseShed die e s) :=
  winds_modDie die (fun d => by dsimp only; split <;> [rfl; split <;> rfl]) s

/-- Revoking a bind record revokes it. -/
theorem winds_revoke (die n : Nat) (s : State) :
    Winds s (s.modDie die fun d => { d with binds := tmod d.binds n fun b => { b with valid := false } }) := by
  refine ⟨fun _ hj => hj, fun _ => rfl, fun m hm d hd e he => ?_⟩
  rcases mem_lmod hd with hd | ⟨d', hd', rfl⟩
  · exact hm d hd e he
  · rcases mem_tmod he with he | ⟨v, hv, rfl⟩
    · exact hm d' hd' e he
    · exact fun _ => rfl

theorem winds_clearBinds (die : Nat) (l : List (Nat × Bind)) (s : State) : Winds s (clearBinds die l s) := by
  induction l generalizing s with
  | nil => exact .refl s
  | cons e l ih =>
    obtain ⟨n, b⟩ := e
    rw [clearBinds]
    split
    · exact (winds_revoke die n s).trans ((winds_raiseShed ..).trans (ih _))
    · exact ih s

theorem clearBinds_groups (die : Nat) (l : List (Nat × Bind)) (s : State) : (clearBinds die l s).groups = s.groups := by
  induction l generalizing s with
  | nil => rfl
  | cons e l ih =>
    obtain ⟨n, b⟩ := e
    rw [clearBinds]
    split
    · rw [ih]; rfl
    · exact ih s

theorem winds_finishPend (p : Pend) (s : State) : Winds s (finishPend p s) := by
  unfold finishPend
  have dropped : Winds s { s with pend := s.pend.filter (·.id != p.id) } := winds_of_eq rfl rfl rfl
  exact dropped.trans ((winds_of_logged (alogFor_logged ..)).trans (winds_modStrand ..))

theorem finishPend_groups (p : Pend) (s : State) : (finishPend p s).groups = s.groups :=
  (alogFor_logged p.owner p.owner.tid p.cpc ⟨p.invl, p.divz, p.ovfl, p.unfl⟩ { s with pend := s.pend.filter (·.id != p.id) }).groups

theorem winds_wakeBars (s : State) : Winds s (wakeBars s) := winds_foldl (fun s p => winds_finishPend p s) _ s

theorem wakeBars_groups (s : State) : (wakeBars s).groups = s.groups := by
  unfold wakeBars
  generalize s.pend.filter s.barMet = l
  induction l generalizing s with
  | nil => rfl
  | cons p l ih => exact (ih _).trans (finishPend_groups p s)

theorem winds_fireTile (l : Launch) (g : GroupKey) (x : Group) (s : State) : Winds s (fireTile l g x s) := by
  unfold fireTile addColl joinColl
  dsimp only
  have fired : Winds s ({ s with nextId := s.nextId + 2 }.modLaunch l.id fun l => { l with fired := g.glin :: l.fired }) :=
    (winds_of_eq rfl rfl rfl : Winds s { s with nextId := s.nextId + 2 }).trans (winds_modLaunch l.id (by intro _; rfl) _)
  split <;> exact fired.trans (winds_of_eq rfl rfl rfl)

theorem fireTile_groups (l : Launch) (g : GroupKey) (x : Group) (s : State) : (fireTile l g x s).groups = s.groups := by
  unfold fireTile addColl joinColl
  dsimp only
  split <;> rfl

theorem logDebt_logged (g : GroupKey) (x : Group) (s : State) : Logged s (logDebt g x s) := by
  unfold logDebt
  split
  · split
    · exact logPlain_logged ..
    · exact .refl s
  · exact .refl s

/-! ## The end of a group -/

/-- What the end of a group takes away: its strands, threads, pending operations and requests; its items are held no longer. -/
def clearGroup (g : GroupKey) (s : State) : State :=
  let gone := fun (p : Pend) => p.owner.grp == g && !(p.committed && match p.kind with | .gate _ => false | _ => true)
  { s with
    strands := s.strands.filter fun e => e.1.grp != g
    threads := s.threads.filter fun e => e.1.grp != g
    pend := s.pend.filter fun p => !gone p
    globs := s.globs.filter fun (r : GlobReq) => !s.reqOf gone r
    held := s.held.filter fun (h : Held) => h.owner.grp != g || h.committed
    items := s.items.map fun (w : Item) => if w.owner.grp == g then { w with held := false } else w }

/-- The life of a group after its end. -/
def markEnded (g : GroupKey) (s : State) : State := (dropGates (·.owner.grp == g) s).modGroup g fun y => { y with life := .ended, circ := [] }

/-- The end of a group as a chain of changes. -/
theorem endGroup_eq {g : GroupKey} {fires : Bool} {s : State} {x : Group} (hx : s.group g = some x) (hlife : x.life ≠ .ended) :
    endGroup g fires s =
      let s := s.modLaunch g.launch fun l => { l with outs := joinOuts g l.outs s.strands, ended := l.ended + 1 }
      let s := markEnded g (clearGroup g (logDebt g x s))
      let s := if x.gang then wakeBars (gangLeave g (x.ownerKey g) s) else s
      let s := clearBinds x.die (s.die x.die).binds s
      match s.launch g.launch with
      | some l => if fires && l.rc.collComm != 0 && !l.killed then fireTile l g x s else s
      | none => s := by
  unfold endGroup
  rw [hx]
  exact if_neg (by simpa using hlife)

theorem winds_clearGroup (g : GroupKey) (s : State) : Winds s (clearGroup g s) :=
  ⟨fun _ hj => tget_filter_none _ hj, fun _ => rfl, fun _ hn => hn⟩

theorem clearGroup_strand {g : GroupKey} {s : State} {j : StrandKey} (h : j.grp = g) : (clearGroup g s).strand j = none :=
  tget_filter_out fun _ => by simp [h]

theorem winds_markEnded (g : GroupKey) (s : State) : Winds s (markEnded g s) := winds_of_eq rfl rfl rfl

theorem markEnded_lives (g : GroupKey) (s : State) : KeepsLives g s (markEnded g s) := fun _ hj => by
  rw [markEnded, State.group, State.modGroup, tget_tmod_ne _ _ _ _ (Ne.symm hj)]
  rfl

/-- The last steps of a group's end: its gang, its bind record, its tile. -/
def leaveGroup (g : GroupKey) (fires : Bool) (x : Group) (s : State) : State :=
  let s := if x.gang then wakeBars (gangLeave g (x.ownerKey g) s) else s
  let s := clearBinds x.die (s.die x.die).binds s
  match s.launch g.launch with
  | some l => if fires && l.rc.collComm != 0 && !l.killed then fireTile l g x s else s
  | none => s

theorem winds_leaveGroup (g : GroupKey) (fires : Bool) (x : Group) (s : State) : Winds s (leaveGroup g fires x s) := by
  have gang : Winds s (if x.gang then wakeBars (gangLeave g (x.ownerKey g) s) else s) := by
    split
    · exact (winds_of_eq rfl rfl rfl : Winds s (gangLeave g (x.ownerKey g) s)).trans (winds_wakeBars _)
    · exact .refl s
  unfold leaveGroup
  dsimp only
  generalize (if x.gang then wakeBars (gangLeave g (x.ownerKey g) s) else s) = s1 at gang
  have bound := gang.trans (winds_clearBinds x.die (s1.die x.die).binds s1)
  split
  · split
    · exact bound.trans (winds_fireTile ..)
    · exact bound
  · exact bound

theorem leaveGroup_groups (g : GroupKey) (fires : Bool) (x : Group) (s : State) : (leaveGroup g fires x s).groups = s.groups := by
  have gang : (if x.gang then wakeBars (gangLeave g (x.ownerKey g) s) else s).groups = s.groups := by
    split
    · exact wakeBars_groups _
    · rfl
  unfold leaveGroup
  dsimp only
  generalize (if x.gang then wakeBars (gangLeave g (x.ownerKey g) s) else s) = s1 at gang
  rw [← gang, ← clearBinds_groups x.die (s1.die x.die).binds s1]
  split
  · split
    · exact fireTile_groups ..
    · rfl
  · rfl

/-- A launch counts the end of a group. -/
def countEnd (g : GroupKey) (s : State) : State :=
  s.modLaunch g.launch fun l => { l with outs := joinOuts g l.outs s.strands, ended := l.ended + 1 }

theorem winds_countEnd (g : GroupKey) (s : State) : Winds s (countEnd g s) := winds_modLaunch g.launch (by intro _; rfl) s

section
variable {g : GroupKey} {s : State} {x : Group} (fires : Bool)

theorem endGroup_chain (hx : s.group g = some x) (hlife : x.life ≠ .ended) :
    endGroup g fires s = leaveGroup g fires x (markEnded g (clearGroup g (logDebt g x (countEnd g s)))) := endGroup_eq hx hlife

theorem endGroup_none (hx : s.group g = none) : endGroup g fires s = s := by
  unfold endGroup
  rw [hx]

theorem endGroup_ended (hx : s.group g = some x) (hlife : x.life = .ended) : endGroup g fires s = s := by
  unfold endGroup
  rw [hx]
  exact if_pos (by simpa using hlife)

/-- A group has ended already, or its end is the chain. -/
theorem endGroup_cases (g : GroupKey) (fires : Bool) (s : State) : endGroup g fires s = s ∨
    ∃ x, s.group g = some x ∧ x.life ≠ .ended ∧
      endGroup g fires s = leaveGroup g fires x (markEnded g (clearGroup g (logDebt g x (countEnd g s)))) := by
  cases hx : s.group g with
  | none => exact .inl (endGroup_none fires hx)
  | some x =>
    by_cases hlife : x.life = .ended
    · exact .inl (endGroup_ended fires hx hlife)
    · exact .inr ⟨x, rfl, hlife, endGroup_chain fires hx hlife⟩

theorem winds_endGroup (g : GroupKey) (s : State) : Winds s (endGroup g fires s) := by
  rcases endGroup_cases g fires s with h | ⟨x, -, -, h⟩ <;> rw [h]
  · exact .refl s
  · exact (winds_countEnd g s).trans ((winds_of_logged (logDebt_logged ..)).trans ((winds_clearGroup g _).trans
      ((winds_markEnded g _).trans (winds_leaveGroup ..))))

theorem endGroup_lives (g : GroupKey) (s : State) : KeepsLives g s (endGroup g fires s) := by
  rcases endGroup_cases g fires s with h | ⟨x, -, -, h⟩ <;> rw [h]
  · exact fun _ _ => rfl
  · intro j hj
    have debt : (logDebt g x (countEnd g s)).group j = s.group j := (logDebt_logged g x (countEnd g s)).group j
    rw [State.group, leaveGroup_groups, ← State.group, markEnded_lives g _ j hj, ← debt]
    rfl

theorem endGroup_strand (hx : s.group g = some x) (hlife : x.life ≠ .ended) {j : StrandKey} (hj : j.grp = g) :
    (endGroup g fires s).strand j = none := by
  rw [endGroup_chain fires hx hlife]
  exact (winds_leaveGroup ..).strands j ((winds_markEnded ..).strands j (clearGroup_strand hj))

end

theorem winds_endGroups (fires : Bool) (l : List GroupKey) (s : State) : Winds s (endGroups fires l s) := by
  induction l generalizing s with
  | nil => exact .refl s
  | cons g l ih => exact (winds_endGroup fires g s).trans (ih _)

/-- Of every group among those that are ended no strand is left. -/
theorem endGroups_strand {fires : Bool} {l : List GroupKey} {s : State} {g : GroupKey} (hg : g ∈ l) {x : Group} (hx : s.group g = some x)
    (hlife : x.life ≠ .ended) {j : StrandKey} (hj : j.grp = g) : (endGroups fires l s).strand j = none := by
  induction l generalizing s x with
  | nil => cases hg
  | cons h l ih =>
    rw [endGroups]
    rcases eq_or_ne g h with rfl | hne
    · exact (winds_endGroups fires l _).strands j (endGroup_strand fires hx hlife hj)
    · have life := endGroup_lives fires h s g hne
      rw [hx] at life
      obtain ⟨y, hy, same⟩ := Option.map_eq_some_iff.1 life
      exact ih ((List.mem_cons.1 hg).resolve_left hne) hy (same ▸ hlife)

/-! ## The kill of a launch (R109) -/

/-- Every bind record of the launch is revoked, whatever was bound. -/
theorem revokeBinds_unbound (n : Nat) (s : State) : Unbound n (revokeBinds (·.launch == n) s) := by
  intro d hd e he hn
  obtain ⟨d', -, rfl⟩ := List.mem_map.1 hd
  obtain ⟨e', -, rfl⟩ := List.mem_map.1 he
  by_cases of_ : e'.2.launch = n
  · rw [if_pos (by simp [of_])]
  · rw [if_neg (by simpa using of_)] at hn
    exact absurd hn of_

theorem mem_live {s : State} {g : GroupKey} {x : Group} {n : Nat} (hx : s.group g = some x) (hn : g.launch = n) (hlife : x.life ≠ .ended) :
    g ∈ ((s.groups.filter fun e => e.1.launch == n && e.2.life != .ended).map (·.1)) :=
  List.mem_map.2 ⟨(g, x), List.mem_filter.2 ⟨tget_mem hx, by simp [hn, hlife]⟩, rfl⟩

/-- The state in which the groups of a killed launch are ended. -/
def markKilled (n : Nat) (s : State) : State := revokeBinds (·.launch == n) (s.modLaunch n fun x => { x with killed := true })

theorem killLaunch_eq (n : Nat) (s : State) : killLaunch n s =
    endGroups false (((markKilled n s).groups.filter fun e => e.1.launch == n && e.2.life != .ended).map (·.1)) (markKilled n s) := rfl

theorem killLaunch_strand {n : Nat} {s : State} {g : GroupKey} {x : Group} (hx : s.group g = some x) (hn : g.launch = n)
    (hlife : x.life ≠ .ended) {j : StrandKey} (hj : j.grp = g) : (killLaunch n s).strand j = none := by
  have hx' : (markKilled n s).group g = some x := hx
  rw [killLaunch_eq]
  exact endGroups_strand (mem_live hx' hn hlife) hx' hlife hj

theorem killLaunch_killed {n : Nat} {s : State} {m : Launch} (h : (killLaunch n s).launch n = some m) : m.killed = true := by
  have kept := (winds_endGroups false (((markKilled n s).groups.filter fun e => e.1.launch == n && e.2.life != .ended).map (·.1))
    (markKilled n s)).killed n
  have marked : (markKilled n s).launch n = (s.launch n).map fun x => { x with killed := true } := tget_tmod_self ..
  rw [← killLaunch_eq, h, marked, Option.map_map] at kept
  obtain ⟨y, -, same⟩ := Option.map_eq_some_iff.1 kept.symm
  exact same.symm

theorem killLaunch_unbound (n : Nat) (s : State) : Unbound n (killLaunch n s) :=
  (winds_endGroups ..).binds n (revokeBinds_unbound n _)

/-! ## The trap that kills (R107, R109) -/

/-- What kills where there is no handler to enter. -/
theorem enterTrap_kills {k : StrandKey} {fa : FaultAt} {code : Nat} {s : State} {x : Strand} {l : Launch} (hx : s.strand k = some x)
    (hl : s.launch k.grp.launch = some l) (h : handlerOf k l = 0 ∨ x.inHandler = true) :
    ∃ u, Logged s u ∧ enterTrap k fa code s = killLaunch l.id u := by
  have outside : ¬ (handlerOf k l != 0 && !x.inHandler) = true := by rcases h with h | h <;> simp [h]
  have kills : enterTrap k fa code s = killLaunch l.id (logPlain l.ctx evFaultKill code l.id
      ((lget x.fault 0 0#32).toNat + 2 ^ 32 * (lget x.fault 1 0#32).toNat)
      ((lget x.fault 6 0#32).toNat + 2 ^ 32 * (lget x.fault 7 0#32).toNat) s) := by
    unfold enterTrap
    rw [hx, hl]
    exact if_neg outside
  exact ⟨_, logPlain_logged .., kills⟩

/-- Settles O16: the record leaves the groups and the launch, and the kill is `killLaunch`. -/
theorem trapKills : Obligations.TrapKills := by
  intro k fa t s x l hx hl hid hk
  have rec_ := TrapTaking.recordTrap_recorded (fa := fa) (t := t) hx hl
  obtain ⟨m, hm, rc, id_, -⟩ := rec_.launch
  have same : handlerOf k m = handlerOf k l := by rw [handlerOf, handlerOf, rc]
  obtain ⟨u, logged, kill⟩ := enterTrap_kills (fa := fa) (code := t.cause.code) (rec_.strand hx) hm (hk.imp_left same.trans)
  rw [id_, hid] at kill
  dsimp only
  rw [takeTrap, kill]
  refine ⟨fun g y hg hy hlife j hj => killLaunch_strand (x := y) ?_ hg hlife hj, fun m => killLaunch_killed, fun d hd e he => killLaunch_unbound _ _ d hd e he⟩
  rw [logged.group, State.group, rec_.groups]
  exact hy

end Sys2Proof.Ends

/-! What a word of the register classes leaves alone (R44, R71): its result has the width of its destination, and it touches the strand and
the queues of its thread only. -/

namespace Sys2Proof.RegisterFrame

open Sys2Proof Sys2Proof.Machine Sys2Proof.Claims Sys2Proof.Operands

/-! ## Widths -/

/-- The result of a word is no wider than its destination. -/
def WidthOk (sp : WordForm) (l : List TVal) : Prop := ∀ o, sp.out = some o → l.length ≤ o.2

section
variable {i : Instr} {sp : WordForm} {f : Vals → List TVal × Log}

theorem width_intRow (h : intRow i = some (sp, f)) (v : Vals) : WidthOk sp (f v).1 := by
  unfold intRow at h
  split at h <;> cases h <;> rintro o ⟨⟩ <;> first | exact le_rfl | (dsimp only; split <;> exact le_rfl)

theorem width_logicRow (h : logicRow i = some (sp, f)) (v : Vals) : WidthOk sp (f v).1 := by
  unfold logicRow at h
  split at h <;> cases h <;> rintro o ⟨⟩ <;> exact le_rfl

theorem width_floatRow (h : floatRow i = some (sp, f)) (v : Vals) : WidthOk sp (f v).1 := by
  unfold floatRow at h
  split at h <;> cases h <;> rintro o ⟨⟩ <;> exact le_rfl

theorem width_packedRow {s : State} (h : packedRow s i = some (sp, f)) (v : Vals) : WidthOk sp (f v).1 := by
  unfold packedRow at h
  split at h <;> cases h <;> rintro o ⟨⟩ <;> first | exact le_rfl | (dsimp only; split <;> exact le_rfl)

/-- The words that move registers give as many values as they have read. -/
theorem width_moveRow {s : State} (h : moveRow s i = some (sp, f)) {v : Vals} (read : ∀ p, sp.a = some p → v.a.length = p.w) :
    WidthOk sp (f v).1 := by
  unfold moveRow at h
  split at h <;> cases h <;> rintro o ⟨⟩
  case h_2.refl => /- MOV -/ exact (read _ rfl).le
  case h_3.refl => /- CMOV -/
    dsimp only
    split
    · exact (read _ rfl).le
    · exact Nat.zero_le _
  case h_12.refl => /- MOV64 -/ exact (read _ rfl).le
  all_goals exact le_rfl

end

/-! ## Reading -/

section
variable {k : StrandKey} {x : Strand} {s t : State} {l : List TVal} {o : Opnd}

theorem popVals_length {q : QName} {w : Nat} (h : popVals k q w s = .ok (l, t)) : l.length = w := by
  unfold popVals at h
  split at h
  · cases h
  · dsimp only at h
    split at h
    · cases h
      simp
    · split at h
      · split at h <;> cases h
      · cases h

theorem readOpnd_length (h : readOpnd k x o s = .ok (l, t)) : l.length = o.w := by
  unfold readOpnd at h
  rcases Nat.lt_or_ge o.n.toNat 120 with hn | hn
  · rw [if_pos hn] at h
    cases h
    simp [Strand.regsAt]
  · rw [if_neg (Nat.not_lt.2 hn)] at h
    cases hq : popPort k.kind o.n.toNat with
    | some q => exact popVals_length (by simpa only [hq] using h)
    | none =>
      rw [hq] at h
      cases h
      simp

theorem readOpt_state_plain {p : Option Opnd} (plain_ : isPlain p) (h : readOpt k x p s = .ok (l, t)) : t = s := by
  rw [readOpt_plain plain_] at h
  cases h
  rfl

end

section
variable {sp : WordForm} {s s1 : State} {v : Vals} (h : WordRead sp s v s1)
include h

theorem length_a {p : Opnd} (hp : sp.a = some p) : v.a.length = p.w := by
  obtain ⟨t, u, ha, -, -⟩ := h.reads
  rw [hp] at ha
  exact readOpnd_length ha

theorem state_plain (ha : isPlain sp.a) (hb : isPlain sp.b) (hd : isPlain sp.d) : s1 = s := by
  obtain ⟨t, u, ra, rb, rd⟩ := h.reads
  rw [readOpt_state_plain hd rd, readOpt_state_plain hb rb, readOpt_state_plain ha ra]

end

/-! ## Writing -/

/-- What writing a destination can do: registers of the strand from a place on, or its thread's queues. -/
structure Written (k : StrandKey) (x : Strand) (o : Option (RegNo × Nat)) (s t : State) (y : Strand) : Prop where
  rest : { t with strands := s.strands, threads := s.threads } = s
  strand : t.strand k = some y
  others : ∀ j, j ≠ k → t.strand j = s.strand j
  threads : ∀ j, j ≠ k.thread → t.thread j = s.thread j
  quiet : (∀ p, o = some p → p.1.toNat < 120 ∨ p.1 = 126#7) → t.threads = s.threads
  frame : { y with regs := x.regs, prov := x.prov } = x
  length : y.regs.length = x.regs.length
  regs : ∀ j, (∀ p, o = some p → p.1.toNat < 120 → j < x.wb + p.1.toNat ∨ x.wb + p.1.toNat + p.2 ≤ j) → y.regs[j]? = x.regs[j]?

theorem setRegs_length (x : Strand) (n : Nat) (l : List TVal) : (x.setRegs n l).regs.length = x.regs.length := by
  induction l generalizing x n with
  | nil => rfl
  | cons v l ih => rw [Strand.setRegs, ih, Strand.setPhys, lset_length]

section
variable {k : StrandKey} {x : Strand} {s t : State} {l : List TVal}

theorem pushVals_frame {q : QName} (h : pushVals k q l s = .ok ((), t)) : OnlyQueues k.thread s t := by
  unfold pushVals at h
  split at h
  · cases h
  · split at h
    · cases h; exact .refl ..
    · split at h
      · cases h; exact onlyQueues_modQ ..
      · cases h

theorem strand_of_onlyQueues {κ : ThreadKey} {j : StrandKey} (h : OnlyQueues κ s t) : t.strand j = s.strand j := by
  rw [← h.1]; rfl

theorem written_of_queues {o : Option (RegNo × Nat)} (hx : s.strand k = some x) (h : OnlyQueues k.thread s t)
    (quiet : (∀ p, o = some p → p.1.toNat < 120 ∨ p.1 = 126#7) → t.threads = s.threads) : Written k x o s t x where
  rest := by rw [← h.1]
  strand := (strand_of_onlyQueues h).trans hx
  others _ _ := strand_of_onlyQueues h
  threads := h.2
  quiet := quiet
  frame := rfl
  length := rfl
  regs _ _ := rfl

theorem writeVals_written {o : RegNo × Nat} (hx : s.strand k = some x) (hl : l.length ≤ o.2) (h : writeVals k x o.1 l s = .ok ((), t)) :
    ∃ y, Written k x (some o) s t y := by
  rcases Nat.lt_or_ge o.1.toNat 120 with hn | hn
  · rw [writeVals_window hn] at h
    cases h
    refine ⟨x.setRegs (x.wb + o.1.toNat) l, rfl, ?_, fun j hj => tget_tmod_ne _ _ _ _ (Ne.symm hj), fun _ _ => rfl, fun _ => rfl,
      setRegs_frame .., setRegs_length .., fun j hj => ?_⟩
    · rw [State.strand, State.modStrand, tget_tmod_self, ← State.strand, hx]
      rfl
    · have out := hj o rfl hn
      rw [setRegs_getElem?, if_neg (by omega)]
  · cases hq : pushPort k.kind o.1.toNat with
    | some q =>
      rw [writeVals_port hq] at h
      refine ⟨x, written_of_queues hx (pushVals_frame h) fun quiet => ?_⟩
      rcases quiet o rfl with small | zr
      · exact absurd small (Nat.not_lt.2 hn)
      · have := (port_of_pushPort hq).2
        rw [zr] at this
        exact absurd this (by decide)
    | none =>
      unfold writeVals at h
      rw [if_neg (Nat.not_lt.2 hn), hq] at h
      cases h
      exact ⟨x, written_of_queues hx (.refl ..) fun _ => rfl⟩

theorem putOut_written {sp : WordForm} {v : Vals} (hx : s.strand v.k = some v.x) (hl : WidthOk sp l) (h : putOut sp v l s = .ok ((), t)) :
    ∃ y, Written v.k v.x sp.out s t y := by
  unfold putOut at h
  cases ho : sp.out with
  | none =>
    rw [ho] at h
    cases h
    exact ⟨v.x, written_of_queues hx (.refl ..) fun _ => rfl⟩
  | some o =>
    rw [ho] at h
    exact writeVals_written hx (hl o ho) h

end

/-! ## Going on -/

/-- Going on changes nothing of a strand but its place in the program and what it waits for. -/
theorem advance_keeps (x : Strand) (n : Nat) : (x.advance n).preds = x.preds ∧ (x.advance n).flags = x.flags ∧ (x.advance n).wb = x.wb ∧
    (x.advance n).fault = x.fault ∧ (x.advance n).inHandler = x.inHandler ∧ (x.advance n).hWb = x.hWb ∧ (x.advance n).hCpc = x.hCpc ∧
    (x.advance n).hFpc = x.hFpc ∧ (x.advance n).rgn = x.rgn ∧ (x.advance n).seqCopy = x.seqCopy ∧ (x.advance n).seqFab = x.seqFab ∧
    (x.advance n).replOut = x.replOut ∧ (x.advance n).regs = x.regs := by
  unfold Strand.advance
  split <;> exact ⟨rfl, rfl, rfl, rfl, rfl, rfl, rfl, rfl, rfl, rfl, rfl, rfl, rfl⟩

theorem rest_trans {s t u : State} (h : { t with threads := s.threads } = s) (g : { u with strands := t.strands, threads := t.threads } = t) :
    { u with strands := s.strands, threads := s.threads } = s := by rw [← h, ← g]

/-- States that differ in strands and threads only read the same memory. -/
theorem sameMemory_of_rest {s t : State} (h : { t with strands := s.strands, threads := s.threads } = s) : SameMemory s t := by
  refine ⟨fun a => ?_, fun g a => ?_, fun g a => ?_⟩ <;> rw [← h] <;> rfl

/-- A value word that logs nothing, from its row. -/
theorem exec_of_row {i : Instr} {sp : WordForm} {f : Vals → List TVal × Log} {s s1 s2 : State} {v : Vals}
    (row : intRow i = some (sp, f) ∨ logicRow i = some (sp, f) ∨ moveRow s i = some (sp, f) ∨ floatRow i = some (sp, f) ∨
      packedRow s i = some (sp, f)) (hread : readWord sp s = .ok (v, s1)) (hput : putOut sp v (f v).1 s1 = .ok ((), s2)) :
    exec i s = .next (onward v sp.len (f v).2 s2) := by
  rcases row with row | row | row | row | row
  · exact IntegerRows.integerWords _ _ _ _ _ _ _ row hread hput
  · exact LogicRows.logicWords _ _ _ _ _ _ _ row hread hput
  · exact MoveRows.gives_moveRow _ _ _ _ _ _ _ row hread hput
  · exact FloatRows.floatWords _ _ _ _ _ _ _ row hread hput
  · exact PackedRows.packedWords _ _ _ _ _ _ _ row hread hput

theorem width_of_row {i : Instr} {sp : WordForm} {f : Vals → List TVal × Log} {s : State} {v : Vals}
    (row : intRow i = some (sp, f) ∨ logicRow i = some (sp, f) ∨ moveRow s i = some (sp, f) ∨ floatRow i = some (sp, f) ∨
      packedRow s i = some (sp, f)) (read : ∀ p, sp.a = some p → v.a.length = p.w) : WidthOk sp (f v).1 := by
  rcases row with row | row | row | row | row
  · exact width_intRow row v
  · exact width_logicRow row v
  · exact width_moveRow row read
  · exact width_floatRow row v
  · exact width_packedRow row v

/-- Settles O27: what reading, writing and going on leave alone, together. -/
theorem registerWordFrame : Obligations.RegisterWordFrame := by
  intro i sp f s s1 s2 v row hread hput quiet
  have read := wordRead_of_ok hread
  obtain ⟨y, wr⟩ := putOut_written (Control.WordRead.strand_after read) (width_of_row row fun p => length_a read) hput
  have run := exec_of_row row hread hput
  rw [quiet] at run
  have key : v.k = s.cur := read.key
  have rest : { s2.modStrand v.k (·.advance sp.len) with strands := s.strands, threads := s.threads } = s :=
    (rest_trans read.frame.1 wr.rest : { s2 with strands := s.strands, threads := s.threads } = s)
  have here : (s2.modStrand v.k (·.advance sp.len)).strand s.cur = some (y.advance sp.len) := by
    rw [← key, State.strand, State.modStrand, tget_tmod_self, ← State.strand, wr.strand]
    rfl
  refine ⟨s2.modStrand v.k (·.advance sp.len), y.advance sp.len, run, rest, sameMemory_of_rest rest, fun j hj => ?_, fun j hj => ?_,
    fun ha hb hd hout => ?_, here, ?_⟩
  · rw [State.strand, State.modStrand, tget_tmod_ne _ _ _ _ (key ▸ Ne.symm hj), ← State.strand, wr.others j (key ▸ hj),
      strand_of_onlyQueues read.frame]
  · exact (wr.threads j (key ▸ hj)).trans (read.frame.2 j hj)
  · exact (wr.quiet hout).trans (congrArg State.threads (state_plain read ha hb hd))
  · obtain ⟨preds, flags, wb, fault, handler, hWb, hCpc, hFpc, rgn, seqCopy, seqFab, replOut, regs⟩ := advance_keeps y sp.len
    rw [preds, flags, wb, fault, handler, hWb, hCpc, hFpc, rgn, seqCopy, seqFab, replOut, regs]
    have same {α : Type} (g : Strand → α) : g { y with regs := v.x.regs, prov := v.x.prov } = g v.x := congrArg g wr.frame
    exact ⟨same (·.preds), same (·.flags), same (·.wb), same (·.fault), same (·.inHandler), same (·.hWb), same (·.hCpc), same (·.hFpc),
      same (·.rgn), same (·.seqCopy), same (·.seqFab), same (·.replOut), wr.length, wr.regs⟩

end Sys2Proof.RegisterFrame

/-! Steps and their inputs (R14, R18, R34, R119, log 1), and the state after a module reset (R306, R307, R382, R384). -/

namespace Sys2Proof.Steps

open Sys2Proof Sys2Proof.Machine Sys2Proof.Claims Sys2Proof.DeviceFrame

/-! ## A word that is tried -/

section
variable {s : State}

theorem issued_eq_wordIssued (t : State) (k : StrandKey) : t.issued k = wordIssued t k := by
  unfold State.issued wordIssued
  cases t.strand k with
  | none => rfl
  | some x => dsimp only; cases x.phase <;> rfl

/-- What follows a word, as the claim states it: a strand of the core that has yielded is the last choice no longer. -/
theorem chosen_eq (s t : State) : chosen s t = { t with
    strands := t.strands.map fun e => if wordIssued t s.cur = true ∧ coreMate s s.cur e ∧ e.2.blk = .yield then (e.1, { e.2 with blk := .none }) else e } := by
  unfold chosen
  rw [issued_eq_wordIssued]
  cases wordIssued t s.cur
  · simp
  · have same (e : StrandKey × Strand) : (e.1 != s.cur && e.2.blk == .yield && s.coreOf e.1 == s.coreOf s.cur) = true ↔
        true = true ∧ coreMate s s.cur e ∧ e.2.blk = .yield := by
      simp only [coreMate, State.coreOf, Bool.and_eq_true, bne_iff_ne, beq_iff_eq]
      tauto
    have entries := List.map_congr_left (l := t.strands) fun e _ =>
      if_congr (same e) (rfl : (e.1, { e.2 with blk := Block.none }) = _) (rfl : e = _)
    exact congrArg (fun l => { t with strands := l }) entries

theorem tries_tryWord (i : Instr) (s : State) : Tries s i (tryWord i s) := by
  unfold tryWord
  refine ⟨fun t h => ?_, fun f h => ?_, fun f h => ?_⟩ <;> rw [h]
  exact congrArg Host.Outcome.next (chosen_eq s t)

theorem issue_word {x : Strand} {w : Word} {i : Instr} (hx : s.strand s.cur = some x) (body : x.phase = .body) (hw : x.word = some w)
    (hi : decode w x.litWord = .ok i) : issue s = tryWord i s := by
  unfold issue
  rw [hx]
  dsimp only
  rw [body]
  dsimp only
  rw [hw]
  dsimp only
  rw [hi]

end

/-- A change of every entry that keeps its key and a reading of its value keeps that reading of every key. -/
theorem map_tget_map {α β γ : Type} [DecidableEq α] {t : Table α β} {f : α × β → α × β} {r : β → γ}
    (h : ∀ e, (f e).1 = e.1 ∧ r (f e).2 = r e.2) (a : α) : (tget (t.map f) a).map r = (tget t a).map r := by
  induction t with
  | nil => rfl
  | cons e t ih =>
    obtain ⟨key, val⟩ := h e
    have split_ (t : Table α β) (e : α × β) : tget (e :: t) a = if e.1 = a then some e.2 else tget t a := rfl
    rw [List.map_cons, split_, split_, key]
    split
    · exact congrArg some val
    · exact ih

/-! ## The refutation of O40

The claim takes the literal of a word at the program counter from the place (PC − clause PC) / 4 of the body, the model from the place after
the word's index. A strand whose program counter stands at its clause header has index 0 by truncation, and then the two places differ: the
claim's literal is the word itself. -/

/-- An LDW to `zr`. -/
def loneWord : Word := 0x083F8000#32

/-- A strand inside a clause of one word with its program counter at the header. -/
def headStrand : Strand := { Strand.fresh 0#57 8 with body := [loneWord], phase := .body }

/-- A module with that strand and its group. -/
def headState : State :=
  { State.reset with strands := [(noStrandKey, headStrand)], groups := [(noStrandKey.grp, Group.fresh LaunchRec.blank 1 0 0 0 0 false)] }

theorem headState_stands : standsAt headState headStrand loneWord := by
  refine ⟨rfl, by decide, rfl, rfl, rfl, .inl rfl, rfl⟩

theorem headState_decodes : decode loneWord (nextWord headStrand) = .ok (.ldw 126#7 loneWord) := by rfl

/-- With the literal that the claim takes, the word completes. -/
theorem headState_ldw : ∃ t, exec (.ldw 126#7 loneWord) { headState with ran := headState.ran + 1 } = .next t ∧
    (t.strand noStrandKey).map (·.phase) = some .header := ⟨_, rfl, rfl⟩

/-- The step takes a trap instead and leaves the strand at its word, since no launch has a handler. -/
theorem headState_step : ∃ t, step headState = .next t ∧ (t.strand noStrandKey).map (·.phase) = some .body := ⟨_, rfl, rfl⟩

/-- Refutes O40: a strand at its clause header inside the body, where the word has no literal after it. -/
theorem not_stepRunsWord : ¬ Obligations.StepRunsWord := by
  intro h
  obtain ⟨tries, -⟩ := h headState headStrand loneWord headState_stands
  obtain ⟨t, ht, phase⟩ := headState_ldw
  obtain ⟨u, hu, stays_⟩ := headState_step
  have run := (tries _ headState_decodes).1 t ht
  rw [hu] at run
  injection run with run
  rw [run] at stays_
  have same := map_tget_map (t := t.strands) (r := (·.phase)) (f := fun e => if wordIssued t noStrandKey = true ∧
      coreMate { headState with ran := headState.ran + 1 } noStrandKey e ∧ e.2.blk = .yield then (e.1, { e.2 with blk := .none }) else e)
    (fun e => by split <;> exact ⟨rfl, rfl⟩) noStrandKey
  exact absurd (stays_.symm.trans (same.trans phase)) (by decide)

/-! ## Inputs -/

section
variable {s : State} {rest : List Input}

theorem step_input {i : Input} (h : s.agenda = i :: rest) : step s = runInput i { s with agenda := rest } := by
  unfold step
  rw [h]

theorem passedOver_eq_false {k : StrandKey} {x : Strand} (hx : s.strand k = some x)
    (h : x.blk ≠ .yield ∨ ∀ e ∈ s.strands, coreMate s k e → s.strandReady e.1 e.2 = false) : s.passedOver k = false := by
  unfold State.passedOver
  rw [hx]
  rcases h with h | h
  · simp [h]
  · simp only [Bool.and_eq_false_iff, List.any_eq_false, Bool.and_eq_true, bne_iff_ne, beq_iff_eq, State.coreOf]
    exact .inr fun e he ⟨⟨other, core⟩, ready⟩ => by simp [h e he ⟨other, core⟩] at ready

theorem passedOver_eq_true {k : StrandKey} {x : Strand} (hx : s.strand k = some x) (yield_ : x.blk = .yield)
    (h : ∃ e ∈ s.strands, coreMate s k e ∧ s.strandReady e.1 e.2 = true) : s.passedOver k = true := by
  unfold State.passedOver
  rw [hx]
  obtain ⟨e, he, ⟨other, core⟩, ready⟩ := h
  have mate : (e.1 != k && s.coreOf e.1 == s.coreOf k && s.strandReady e.1 e.2) = true := by
    simp only [Bool.and_eq_true, bne_iff_ne, beq_iff_eq]
    exact ⟨⟨other, core⟩, ready⟩
  simp only [yield_, beq_self_eq_true, Bool.true_and]
  exact List.any_eq_true.2 ⟨e, he, mate⟩

section
variable {k : StrandKey} {x : Strand} (h : s.agenda = .run k :: rest) (hx : s.strand k = some x) (issues : s.groupIssues k.grp = true)
include h hx issues

theorem step_run {w : Word} {i : Instr} (body : x.phase = .body) (hw : x.word = some w) (hi : decode w x.litWord = .ok i)
    (turn : s.passedOver k = false) : step s = tryWord i { s with agenda := rest, cur := k } := by
  have go : (s.groupIssues k.grp && !s.passedOver k) = true := by simp [issues, turn]
  rw [step_input h]
  exact (if_pos go).trans (issue_word (s := { s with agenda := rest, cur := k }) hx body hw hi)

omit hx issues in
theorem step_run_passed (turn : s.passedOver k = true) : step s = .next { s with agenda := rest } := by
  have skip : ¬ (s.groupIssues k.grp && !s.passedOver k) = true := by simp [turn]
  rw [step_input h]
  exact if_neg skip

end

end

/-! ## The passing of time -/

/-- States that agree on the clock, the agenda, the strands and memory. -/
structure SameClock (s t : State) : Prop where
  cycle : t.cycle = s.cycle
  agenda : t.agenda = s.agenda
  strands : t.strands = s.strands
  mem : t.mem = s.mem

theorem SameClock.refl (s : State) : SameClock s s := ⟨rfl, rfl, rfl, rfl⟩

theorem SameClock.trans {s t u : State} (h : SameClock s t) (g : SameClock t u) : SameClock s u :=
  ⟨g.cycle.trans h.cycle, g.agenda.trans h.agenda, g.strands.trans h.strands, g.mem.trans h.mem⟩

theorem sameClock_foldl {α : Type} {f : State → α → State} (h : ∀ s a, SameClock s (f s a)) (l : List α) (s : State) :
    SameClock s (l.foldl f s) := by
  induction l generalizing s with
  | nil => exact .refl s
  | cons a l ih => exact (h s a).trans (ih _)

theorem sameClock_spend (die n : Nat) (f : Acct → Acct) (s : State) : SameClock s (s.spend die n f) := by
  unfold State.spend
  dsimp only
  split <;> exact ⟨rfl, rfl, rfl, rfl⟩

theorem sameClock_tickGroup (n : Nat) (s : State) (e : GroupKey × Group) : SameClock s (tickGroup n s e) := by
  unfold tickGroup
  split
  · exact sameClock_spend ..
  · exact .refl s

theorem sameClock_modDie (s : State) (die : Nat) (f : Die → Die) : SameClock s (s.modDie die f) := ⟨rfl, rfl, rfl, rfl⟩

theorem sameClock_sampleDie (s : State) (die : Nat) : SameClock s (sampleDie s die) := by
  have draw (s : State) : SameClock s s.drawNat.2 := ⟨rfl, rfl, rfl, rfl⟩
  have four := (draw s).trans ((draw _).trans ((draw _).trans (draw _)))
  exact four.trans ((sameClock_modDie ..).trans (sameClock_modDie ..))

theorem sameClock_elapse (n : Nat) (s : State) : SameClock { s with cycle := s.cycle + n } (elapse n s) := by
  unfold elapse tick
  exact (sameClock_foldl (sameClock_tickGroup n) s.groups _).trans (sameClock_foldl sameClock_sampleDie _ _)

/-- Settles O41: an event, a strand that has its turn or is passed over, and the passing of time. -/
theorem stepTakesInputs : Obligations.StepTakesInputs := by
  intro s rest
  refine ⟨fun e a h => step_input h, fun k x w i h hx issues body hw hi => ⟨fun turn => ?_, fun yield_ ready => ?_⟩, fun n h => ?_⟩
  · rw [step_run h hx issues body hw hi (passedOver_eq_false hx turn)]
    exact tries_tryWord i _
  · exact step_run_passed h (passedOver_eq_true hx yield_ ready)
  · obtain ⟨cycle, agenda, strands, mem⟩ := sameClock_elapse n { s with agenda := rest }
    exact ⟨_, step_input h, cycle, agenda, strands, mem⟩

/-! ## After a reset -/

/-- Settles O42: every part of the reset state is written out. -/
theorem resetState : Obligations.ResetState := by
  refine ⟨⟨rfl, by simp [State.reset], by simp [State.reset]⟩, rfl, rfl, rfl, rfl, rfl, rfl, rfl, rfl, rfl, rfl, rfl, rfl, rfl, rfl,
    rfl, fun d hd => ?_⟩
  have die : State.reset.die d = Die.zero := by
    interval_cases d <;> rfl
  have repl : State.reset.repl d = Repl.zero := by rw [State.repl, die]; rfl
  rw [repl, die]
  refine ⟨rfl, rfl, rfl, rfl, rfl, rfl, rfl, fun f => ?_, fun k hk => ?_⟩
  · rw [State.frame, die]; rfl
  · rw [List.eq_of_mem_replicate hk]; rfl

end Sys2Proof.Steps

/-! Named barriers and gang barriers (R130 to R135, R224, R225): when a generation completes, and what the barrier words do. -/

namespace Sys2Proof.BarrierRows

open Sys2Proof Sys2Proof.Machine Sys2Proof.Claims Sys2Proof.ValueWords Sys2Proof.Operands Sys2Proof.Control Sys2Proof.MathRows

/-! ## Generations -/

section
variable {b : Bar} {n m : Nat}

/-- Fewer arrivals than the count leave an idle barrier collecting. -/
theorem arrivals_collects (idle : b.collecting = false) (h : m + 1 < n) :
    arrivals b n (m + 1) = { b with collecting := true, exp := n, arr := m + 1 } := by
  induction m with
  | zero =>
    have more : (1 == n) = false := by simp; omega
    simp [arrivals, Bar.arrive, idle, more]
  | succ m ih =>
    have more : (m + 1 + 1 == n) = false := by simp; omega
    rw [arrivals, ih (by omega)]
    simp [Bar.arrive, more]

/-- The arrival that brings the count completes the generation. -/
theorem arrivals_completes (idle : b.collecting = false) :
    (arrivals b (m + 1) (m + 1)).gen = (b.gen + 1) % 65536 ∧ (arrivals b (m + 1) (m + 1)).collecting = false ∧
      (arrivals b (m + 1) (m + 1)).arr = 0 := by
  cases m with
  | zero => simp [arrivals, Bar.arrive, idle]
  | succ m =>
    rw [arrivals, arrivals_collects idle (Nat.lt_succ_self (m + 1))]
    simp [Bar.arrive]

end

/-- Settles O20: the arrivals before the last, by induction, and the last. -/
theorem barrierGeneration : Obligations.BarrierGeneration := by
  intro b n m idle pos
  refine ⟨fun hm hn => ?_, ?_⟩
  · obtain ⟨m, rfl⟩ := Nat.exists_eq_succ_of_ne_zero (Nat.ne_of_gt hm)
    exact arrivals_collects idle hn
  · obtain ⟨n, rfl⟩ := Nat.exists_eq_succ_of_ne_zero (Nat.ne_of_gt pos)
    exact arrivals_completes idle

/-! ## The query -/

/-- Two fields of a word that do not meet: their sum is their union. -/
theorem ofNat_fields (g a : Nat) (c : Bool) :
    BitVec.ofNat 32 (g * 65536 + b2n c * 32768 + a % 4096) =
      (BitVec.ofNat 32 g <<< 16) ||| flagBit c 15 ||| (BitVec.ofNat 32 a &&& 0xFFF#32) := by
  apply BitVec.eq_of_toNat_eq
  have low : (BitVec.ofNat 32 a &&& 0xFFF#32).toNat = a % 4096 := by
    rw [BitVec.toNat_and, BitVec.toNat_ofNat, BitVec.toNat_ofNat, show 0xFFF % 2 ^ 32 = 2 ^ 12 - 1 from rfl, Nat.and_two_pow_sub_one_eq_mod]
    omega
  have mid : (flagBit c 15).toNat = 32768 * b2n c := by cases c <;> rfl
  have high : (BitVec.ofNat 32 g <<< 16).toNat = 2 ^ 16 * (g % 2 ^ 16) := by
    rw [BitVec.toNat_shiftLeft, BitVec.toNat_ofNat, Nat.shiftLeft_eq]
    omega
  have bit : b2n c ≤ 1 := by cases c <;> decide
  rw [BitVec.toNat_or, BitVec.toNat_or, low, mid, high, ← Nat.two_pow_add_eq_or_of_lt (by omega), BitVec.toNat_ofNat]
  have cut : 2 ^ 16 * (g % 2 ^ 16) + 32768 * b2n c = 2 ^ 15 * (2 * (g % 2 ^ 16) + b2n c) := by omega
  rw [cut, ← Nat.two_pow_add_eq_or_of_lt (by omega)]
  omega

theorem exec_of_bqryRow {s : State} {i : Instr} {sp : WordForm} {f : Vals → List TVal × Log} (h : bqryRow s i = some (sp, f)) :
    exec i s = runWord s.cur (valueWord sp f) s := by
  unfold bqryRow at h
  split at h <;> cases h
  refine runValue_congr fun w => congrArg (one 2#5) ?_
  cases s.group w.k.grp with
  | none => rfl
  | some g => exact ofNat_fields _ _ _

theorem gives_bqryRow : Gives bqryRow := fun _ _ _ s _ _ _ hrow hread hput =>
  (exec_of_bqryRow hrow).trans (runWord_ok (valueWord_ok hread hput))

/-! ## Arrivals and waits -/

/-- What the wait of a barrier word leaves: the next word, or a wait for the generation. -/
theorem barWait_over (k : StrandKey) (x : Strand) (fb : Bool) {wf gang : Bool} {num gen : Nat} {s : State}
    (h : wf = false ∨ s.barGen k.grp gang num ≠ gen) : barWait k x fb wf gang num gen s = .ok ((), s.modStrand k (·.advance 1)) := by
  refine if_neg ?_
  rw [Bool.and_eq_true, beq_iff_eq]
  rintro ⟨waits, same⟩
  rcases h with h | h
  · rw [h] at waits; cases waits
  · exact h same

theorem barWait_waits (v : Vals) (fb : Bool) {gang : Bool} {num gen : Nat} {s : State} (h : s.barGen v.k.grp gang num = gen) :
    barWait v.k v.x fb true gang num gen s = .ok ((), awaits v fb gang num gen s) :=
  if_pos (by simp [h])

section
variable {i : Instr} {fb wf gang : Bool} {a : RegNo} {im : BitVec 7} (h : barRow i = some (fb, wf, gang, a, im)) (s : State)
include h

/-- The instruction of a row runs the barrier word that the row describes. -/
theorem exec_of_barRow :
    exec i s = runWord s.cur (barrierWord fb wf gang a im.toNat (barLimit gang) (barNumOk s gang im)) s := by
  unfold barRow at h
  split at h <;> cases h <;> rfl

end

section
variable {fb wf gang : Bool} {a : RegNo} {num lim : Nat} {ok : Bool} {s s1 : State} {v : Vals}

theorem barrierWord_again {x : Strand} {t : Token} (hx : s.strand s.cur = some x) (ht : x.tokenHere = some t)
    (room : wf = true → FlagRoom x fb) :
    barrierWord fb wf gang a num lim ok s = barWait s.cur x fb wf gang num t.gen s := by
  unfold barrierWord
  rw [Exec.bind_ok (curStrand_some hx)]
  simp only [ht]
  cases wf with
  | false => rfl
  | true => rw [if_pos rfl, flagRoom_of_room x (room rfl)]; rfl

section
variable (hread : readWord (barForm ok a) s = .ok (v, s1)) (first : v.x.tokenHere = none)
  (count : a = 126#7 ∨ (1 ≤ (w32 v.a).toNat ∧ (w32 v.a).toNat ≤ lim)) (room : wf = true → FlagRoom v.x fb)
  (free : s1.barWaiting v.k = false)
include hread first count room free

/-- A barrier word whose checks are passed comes to its release. -/
theorem barrierWord_release : barrierWord fb wf gang a num lim ok s = (do
    holdForRelease v.k (if gang then 2 else 1) false
    let s ← get
    let gen := s.barGen v.k.grp gang num
    act (barArrive v.k.grp gang num (if a == 126#7 then none else some (w32 v.a).toNat))
    act (commitAt v.k (v.x.cpc, v.x.pc) (some ⟨gang, num, gen⟩))
    act wakeBars
    barWait v.k v.x fb wf gang num gen) s1 := by
  have read := wordRead_of_ok hread
  have checked : check (a == 126#7 || (decide (1 ≤ v32 v.a) && decide (v32 v.a ≤ lim))) .irsv = pure () := by
    refine if_pos ?_
    rw [Bool.or_eq_true, Bool.and_eq_true, beq_iff_eq, decide_eq_true_eq, decide_eq_true_eq]
    exact count
  have hold : holdForBar v.k s1 = .ok ((), s1) := by simp [holdForBar, free]
  unfold barrierWord
  rw [Exec.bind_ok (curStrand_some read.strand)]
  simp only [first]
  unfold barArrival
  rw [Exec.bind_ok (show readWord { cls := 8, rsv := !ok, a := some { n := a, acc := .int } } s = _ from hread)]
  simp only [checked, pure_bind]
  simp only [v32_eq_toNat]
  cases wf with
  | false => exact Exec.bind_ok hold
  | true =>
    simp only [if_true, flagRoom_of_room v.x (room rfl), pure_bind]
    exact Exec.bind_ok hold

theorem barrierWord_held (early : s1.released v.k s1.nextId (if gang then 2 else 1) false = false) :
    barrierWord fb wf gang a num lim ok s = .error (.block .room) := by
  rw [barrierWord_release hread first count room free]
  have hold : holdForRelease v.k (if gang then 2 else 1) false s1 = .error (.block .room) := by simp [holdForRelease, early]
  exact Exec.bind_error hold

/-- The arrival, and then the wait for the generation that it joined. -/
theorem barrierWord_arrives (done : s1.released v.k s1.nextId (if gang then 2 else 1) false = true) :
    barrierWord fb wf gang a num lim ok s = barWait v.k v.x fb wf gang num (s1.barGen v.k.grp gang num)
      (wakeBars (commitAt v.k (v.x.cpc, v.x.pc) (some ⟨gang, num, s1.barGen v.k.grp gang num⟩)
        (barArrive v.k.grp gang num (if a = 126#7 then none else some (w32 v.a).toNat) s1))) := by
  rw [barrierWord_release hread first count room free]
  have hold : holdForRelease v.k (if gang then 2 else 1) false s1 = .ok ((), s1) := by simp [holdForRelease, done]
  rw [Exec.bind_ok hold]
  simp only [beq_iff_eq]
  rfl

end

end

/-- Settles O19: the query is a value word; a barrier word waits as a release, arrives and waits, or only waits on for its token. -/
theorem barrierWords : Obligations.BarrierWords := by
  refine ⟨gives_bqryRow, fun i fb wf gang a im s hrow => ⟨fun s1 v hread first count room free => ⟨fun early => ?_, fun done => ?_⟩,
    fun x t hx ht room => ⟨fun past => ?_, fun waits same => ?_⟩⟩⟩
  all_goals rw [exec_of_barRow hrow]
  · rw [← waits_eq_stays]
    exact runWord_block (barrierWord_held hread first count room free early)
  · refine ⟨fun past => ?_, fun waits same => ?_⟩ <;>
      refine runWord_ok ((barrierWord_arrives hread first count room free done).trans ?_)
    · exact barWait_over _ _ _ past
    · subst waits
      exact barWait_waits v fb same
  · exact runWord_ok ((barrierWord_again hx ht room).trans (barWait_over _ _ _ past))
  · subst waits
    exact runWord_ok ((barrierWord_again hx ht room).trans (barWait_waits ⟨s.cur, x, [], [], []⟩ fb same))

end Sys2Proof.BarrierRows

/-! The circle words (R125 to R129): the model's results are those of Table 6.1, and a word arrives, is held, and completes its rendezvous
where it is the last. -/

namespace Sys2Proof.CircleRows

open Sys2Proof Sys2Proof.Machine Sys2Proof.Claims Sys2Proof.ValueWords Sys2Proof.Operands Sys2Proof.MathRows

/-! ## The readings of a rendezvous -/

section
variable (x : CircIn)

theorem pick_eq_shuffle (i : Nat) : x.pick i = shuffle x i := by
  unfold CircIn.pick shuffle
  cases x.at_ i <;> rfl

theorem bits_eq_place (ident : BitVec 32) (i : Nat) : x.bits ident.toNat i = (place x ident i).toNat := by
  unfold CircIn.bits place
  cases x.at_ i <;> rfl

theorem preds_eq_vote (ident : Bool) : x.preds ident = (List.range 32).map (vote x ident) := by
  refine List.map_congr_left fun i _ => ?_
  unfold vote
  cases x.at_ i <;> rfl

theorem f32s_eq : x.f32s = (List.range 32).map (f32At x) :=
  List.map_congr_left fun i _ => by rw [f32At, ← bits_eq_place]; rfl

end

theorem lget_map_range {α : Type} (f : Nat → α) (d : α) {n i : Nat} (h : i < n) : lget ((List.range n).map f) i d = f i := by
  simp [MoveRows.lget_eq_getD, h]

/-! ## Words of bits, sums, minima and maxima -/

/-- The bits chosen below `n`: a sum of distinct powers of two is their union. -/
theorem bits_below (f : Nat → Bool) {n : Nat} (hn : n ≤ 32) :
    ((List.range n).foldl (fun w i => if f i then w ||| (1#32 <<< i) else w) 0#32).toNat =
      ((List.range n).map fun i => b2n (f i) * 2 ^ i).sum ∧ ((List.range n).map fun i => b2n (f i) * 2 ^ i).sum < 2 ^ n := by
  induction n with
  | zero => exact ⟨rfl, Nat.one_pos⟩
  | succ n ih =>
    obtain ⟨same, below⟩ := ih (by omega)
    have one : (1#32 <<< n).toNat = 2 ^ n := by
      rw [BitVec.toNat_shiftLeft, Nat.shiftLeft_eq]
      simpa using Nat.mod_eq_of_lt (Nat.pow_lt_pow_right one_lt_two hn)
    simp only [List.range_succ, List.foldl_append, List.map_append, List.sum_append, List.foldl_cons, List.foldl_nil, List.map_cons,
      List.map_nil, List.sum_cons, List.sum_nil, pow_succ]
    generalize ((List.range n).map fun i => b2n (f i) * 2 ^ i).sum = m at same below
    cases f n
    · simpa [b2n, same] using Nat.lt_of_lt_of_le below (by omega)
    · have union := Nat.two_pow_add_eq_or_of_lt below 1
      rw [mul_one] at union
      simp only [if_true, b2n, BitVec.toNat_or, same, one, Nat.or_comm m, ← union]
      omega

theorem ballot_eq_mask32 (f : Nat → Bool) : ballot f = mask32 f := by
  apply BitVec.eq_of_toNat_eq
  obtain ⟨same, below⟩ := bits_below f le_rfl
  rw [ballot, mask32, same, BitVec.toNat_ofNat, Nat.mod_eq_of_lt below]

theorem mask32_congr {f g : Nat → Bool} (h : ∀ i, i < 32 → f i = g i) : mask32 f = mask32 g := by
  unfold mask32
  refine List.foldl_ext _ _ _ fun w i hi => ?_
  rw [h i (List.mem_range.1 hi)]

theorem ofNat_sum_eq_sumTo (f : Nat → BitVec 32) (n : Nat) :
    BitVec.ofNat 32 ((List.range n).map fun i => (f i).toNat).sum = sumTo f n := by
  unfold sumTo
  induction n with
  | zero => rfl
  | succ n ih =>
    simp only [List.range_succ, List.map_append, List.sum_append, List.foldl_append, List.map_cons, List.map_nil, List.foldl_cons,
      List.foldl_nil, ← ih]
    simp [BitVec.ofNat_add]

section
variable (f : Nat → BitVec 32) (l : List Nat) (m : BitVec 32)

theorem foldl_min_eq : (l.map fun i => sext (f i).toNat 32).foldl min m.toInt =
    (l.foldl (fun m i => if (f i).slt m then f i else m) m).toInt := by
  induction l generalizing m with
  | nil => rfl
  | cons i l ih =>
    rw [List.map_cons, List.foldl_cons, List.foldl_cons, ← ih, sext_eq_toInt _ (by decide), ofNat_toNat_self, BitVec.slt_eq_decide]
    congr 1
    rw [min_def]
    split <;> split <;> simp_all
    omega

theorem foldl_max_eq : (l.map fun i => sext (f i).toNat 32).foldl max m.toInt =
    (l.foldl (fun m i => if m.slt (f i) then f i else m) m).toInt := by
  induction l generalizing m with
  | nil => rfl
  | cons i l ih =>
    rw [List.map_cons, List.foldl_cons, List.foldl_cons, ← ih, sext_eq_toInt _ (by decide), ofNat_toNat_self, BitVec.slt_eq_decide]
    congr 1
    rw [max_def]
    split <;> split <;> simp_all
    all_goals omega

end

theorem low32_min_eq_leastOf (f : Nat → BitVec 32) :
    low32 (((List.range 32).map fun i => sext (f i).toNat 32).foldl min (2 ^ 31 - 1)) = leastOf f := by
  have start : ((2 : Int) ^ 31 - 1) = (0x7FFFFFFF#32).toInt := by decide
  rw [start, foldl_min_eq]
  exact BitVec.ofInt_toInt

theorem low32_max_eq_greatestOf (f : Nat → BitVec 32) :
    low32 (((List.range 32).map fun i => sext (f i).toNat 32).foldl max (-(2 ^ 31))) = greatestOf f := by
  have start : (-((2 : Int) ^ 31)) = (0x80000000#32).toInt := by decide
  rw [start, foldl_max_eq]
  exact BitVec.ofInt_toInt

/-! ## Sums of f32 (R129) -/

section
variable (f : Nat → FRes)

theorem pairSums_range (n : Nat) :
    pairSums ((List.range (2 * n)).map f) = (List.range n).map fun i => plus (f (2 * i)) (f (2 * i + 1)) := by
  induction n generalizing f with
  | zero => rfl
  | succ n ih =>
    have twice : 2 * (n + 1) = 2 * n + 1 + 1 := by omega
    rw [twice, List.range_succ_eq_map, List.range_succ_eq_map, List.range_succ_eq_map]
    simp only [List.map_cons, List.map_map, pairSums]
    exact congrArg (addPart (f 0) (f 1) :: ·) (ih fun i => f (i + 1 + 1))

/-- Each level of sums is a level of the tree. -/
theorem pairSums_tree (k n : Nat) : pairSums ((List.range (2 * n)).map (tree f k)) = (List.range n).map (tree f (k + 1)) :=
  pairSums_range _ _

theorem treeSum_eq : treeSum ((List.range 32).map f) = tree f 5 0 := by
  unfold treeSum
  rw [show f = tree f 0 from rfl, show (32 : Nat) = 2 * (2 * (2 * (2 * (2 * 1)))) from rfl]
  simp only [pairSums_tree]
  rfl

/-- Each level of the scan adds the partial sum that stands its distance below. -/
theorem scanLevel_scan (k : Nat) : scanLevel (2 ^ k) ((List.range 32).map (scan f k)) = (List.range 32).map (scan f (k + 1)) := by
  unfold scanLevel
  rw [List.length_map, List.length_range]
  refine List.map_congr_left fun i hi => ?_
  have hi := List.mem_range.1 hi
  rw [lget_map_range _ _ hi, lget_map_range _ _ (Nat.lt_of_le_of_lt (Nat.sub_le i (2 ^ k)) hi)]
  rfl

theorem scanSum_eq : scanSum ((List.range 32).map f) = (List.range 32).map (scan f 5) := by
  have l0 := scanLevel_scan f 0
  have l1 := scanLevel_scan f 1
  have l2 := scanLevel_scan f 2
  have l3 := scanLevel_scan f 3
  have l4 := scanLevel_scan f 4
  unfold scanSum
  rw [show f = scan f 0 from rfl]
  simp only [Nat.reducePow, Nat.reduceAdd] at l0 l1 l2 l3 l4
  rw [l0, l1, l2, l3, l4]
  rfl

end

/-! ## Table 6.1 -/

/-- What a circle word of the model gives each participant is what its row states. -/
theorem circEffect_of_circRow {i : Instr} {fb : Bool} {sp : WordForm} {pa : Option RegNo} {f : CircIn → CircRes}
    (h : circRow i = some (fb, sp, pa, f)) (x : CircIn) : (circEffect i).2 x = f x := by
  unfold circRow at h
  split at h <;> cases h
  case h_1 => /- XSHF -/
    refine (pick_eq_shuffle x _).trans (congrArg _ ?_)
    rw [BitVec.toNat_setWidth]
  case h_2 => /- XBFLY -/
    refine (pick_eq_shuffle x _).trans (congrArg _ ?_)
    rw [BitVec.toNat_xor, BitVec.toNat_ofNat]
    rfl
  case h_3 => /- XBCST -/ exact pick_eq_shuffle x _
  case h_4 => /- XVOTE.any -/
    show CircRes.pred _ = _
    rw [preds_eq_vote, List.any_map]
    rfl
  case h_5 => /- XVOTE.all -/
    show CircRes.pred _ = _
    rw [preds_eq_vote, List.all_map]
    rfl
  case h_6 => /- XBALLOT -/
    show CircRes.vals _ _ = _
    rw [ballot_eq_mask32, mask32_congr fun i hi => by rw [preds_eq_vote, lget_map_range _ _ hi]]
    rfl
  case h_7 => /- XRED.add of integers -/
    refine Eq.trans (congrArg (fun w => vals [⟨w, x.own.a.tag⟩]) ?_) rfl
    rw [← ofNat_sum_eq_sumTo]
    exact congrArg (fun l => BitVec.ofNat 32 (List.sum l)) (List.map_congr_left fun i _ => bits_eq_place x 0#32 i)
  case h_8 => /- XRED.add of f32 -/
    show f32Part (treeSum x.f32s) = _
    rw [f32s_eq, treeSum_eq]
    rfl
  case h_9 => /- XRED.min -/
    refine Eq.trans ?_ (congrArg (fun w => vals [⟨w, 1#5⟩]) (low32_min_eq_leastOf (place x 0x7FFFFFFF#32)))
    simp only [← bits_eq_place]
    rfl
  case h_10 => /- XRED.max -/
    refine Eq.trans ?_ (congrArg (fun w => vals [⟨w, 1#5⟩]) (low32_max_eq_greatestOf (place x 0x80000000#32)))
    simp only [← bits_eq_place]
    rfl
  case h_11 => /- XSCAN.add of integers -/
    refine Eq.trans (congrArg (fun w => vals [⟨w, x.own.a.tag⟩]) ?_) rfl
    rw [← ofNat_sum_eq_sumTo]
    exact congrArg (fun l => BitVec.ofNat 32 (List.sum l)) (List.map_congr_left fun i _ => bits_eq_place x 0#32 i)
  case h_12 => /- XSCAN.add of f32 -/
    show f32Part (lget (scanSum x.f32s) x.place (0, {})) = _
    rw [f32s_eq, scanSum_eq, lget_map_range _ _ (show x.place < 32 from Nat.mod_lt _ (by decide))]
    rfl
  case h_13 => /- XMATCH -/
    show CircRes.vals _ _ = _
    rw [ballot_eq_mask32]
    refine congrArg (fun w => vals [⟨w, 2#5⟩]) (mask32_congr fun i _ => ?_)
    cases x.at_ i <;> rfl

theorem exec_of_circRow (s : State) {i : Instr} {fb : Bool} {sp : WordForm} {pa : Option RegNo} {f : CircIn → CircRes}
    (h : circRow i = some (fb, sp, pa, f)) : exec i s = runWord s.cur (rvWord fb sp pa) s := by
  unfold circRow at h
  split at h <;> cases h <;> rfl

/-! ## Arrival and completion -/

theorem placesRoom_of_resultRoom {s : State} {k : StrandKey} {sp : WordForm} (h : resultRoom s k sp) {o : RegNo × Nat} (ho : sp.out = some o) :
    placesRoom k o.1 o.2 s = .ok ((), s) := by
  unfold placesRoom
  cases hq : pushPort k.kind o.1.toNat with
  | none => rfl
  | some q =>
    obtain ⟨t, ht, room⟩ := h o q ho hq
    have enough : (o.1.toNat < 120 || s.deadPort k q || (t.q q).room o.2) = true := by
      rcases room with room | room <;> simp [room]
    simp only [ht, enough, if_true]

section
variable {s s1 : State} {v : Vals} {g : Group} {sp : WordForm} {pa : Option RegNo} {w : BitVec 32}
  (hg : s.group v.k.grp = some g) {a : Arrival}
include hg

/-- An arrival that agrees with those before it is held. -/
theorem arrive_held (agree : ((tgetD g.circ (v.k.tid / 32, seqOf v.k.kind) ⟨s.cycle, []⟩).arr.all (rvAgree a)) = true) :
    arrive v.k (seqOf v.k.kind) rvAgree a s = held v (tgetD g.circ (v.k.tid / 32, seqOf v.k.kind) ⟨s.cycle, []⟩) a s := by
  unfold arrive
  simp only [hg, agree, if_true]
  rfl

/-- The rendezvous of a group in which an arrival has been held. -/
theorem settle_held (ci : Machine.Circle) :
    let u := held v ci a s
    let q := seqOf v.k.kind
    settleRendezvous v.k.grp (v.k.tid / 32) q u =
      if u.instFull v.k.grp g.size (v.k.tid / 32) q (ci.arr ++ [a]) then
        (inTidOrder (ci.arr ++ [a]) (v.k.tid / 32)).foldl (fun s b =>
          circDone (seqStrand v.k.grp q b.tid) q (fun n => (ci.arr ++ [a]).find? (·.tid == 32 * (v.k.tid / 32) + n)) b s)
          (clearCircle v.k.grp (v.k.tid / 32, q) u)
      else u := by
  intro u q
  have group : u.group v.k.grp = some { g with circ := tset g.circ (v.k.tid / 32, q) { ci with arr := ci.arr ++ [a] } } := by
    show tget (tmod s.groups v.k.grp _) v.k.grp = _
    rw [tget_tmod_self, show tget s.groups v.k.grp = some g from hg]
    rfl
  unfold settleRendezvous
  simp only [group, tgetD, tget_tset_self, Option.getD_some]

end

section
variable {fb : Bool} {sp : WordForm} {pa : Option RegNo} {s s1 : State} {v : Vals} {w : BitVec 32}

/-- A circle word whose checks are passed comes to its arrival, in the state before the word. -/
theorem rvWord_arrives (hread : readWord sp s = .ok (v, s1)) (flag : FlagRoom v.x fb) (free : s.barWaiting v.k = false)
    (room : resultRoom s v.k sp) (hw : v.x.word = some w) :
    rvWord fb sp pa s =
      .ok ((), settleRendezvous v.k.grp (v.k.tid / 32) (seqOf v.k.kind) (arrive v.k (seqOf v.k.kind) rvAgree (arrivalOf v sp pa w) s)) := by
  have hold : holdForBar v.k s = .ok ((), s) := by simp [holdForBar, free]
  unfold rvWord
  rw [Exec.bind_ok (show (get : Exec State) s = .ok (s, s) from rfl), Exec.bind_ok hread,
    Exec.bind_ok (show (set s : Exec Unit) s1 = .ok ((), s) from rfl)]
  rw [flagRoom_of_room v.x flag, pure_bind, Exec.bind_ok hold, hw]
  cases ho : sp.out with
  | none => rfl
  | some o => exact Exec.bind_ok (placesRoom_of_resultRoom room ho)

end

/-- Settles O18: the table of results, and the arrival that is held or completes the rendezvous. -/
theorem circleWords : Obligations.CircleWords := by
  intro i fb sp pa f hrow
  refine ⟨circEffect_of_circRow hrow, ?_⟩
  intro s s1 v w g hread flag free room hw hg q ci a u agree
  rw [exec_of_circRow s hrow]
  have agree : ci.arr.all (rvAgree a) = true := by
    rw [List.all_eq_true] at agree ⊢
    exact fun b hb => beq_iff_eq.2 (beq_iff_eq.1 (agree b hb)).symm
  have run := rvWord_arrives (pa := pa) hread flag free room hw
  rw [arrive_held hg agree, settle_held hg] at run
  refine ⟨fun short => ?_, fun full => ?_⟩ <;> refine runWord_ok (run.trans ?_)
  · rw [if_neg (by rw [Bool.not_eq_true]; exact short)]
  · rw [if_pos full]

end Sys2Proof.CircleRows

/-! The accesses of a strand as they issue (R143 to R168): the access procedure for a core window, and how loads, stores and atomics are
performed, answered, asked of another module or held. -/

namespace Sys2Proof.Accesses

open Sys2Proof Sys2Proof.Machine Sys2Proof.Claims Sys2Proof.ValueWords Sys2Proof.Operands Sys2Proof.MathRows

/-! ## Bytes -/

@[simp] theorem length_toBytes (n x : Nat) : (toBytes n x).length = n := by
  induction n generalizing x with
  | zero => rfl
  | succ n ih => simp [toBytes, ih]

@[simp] theorem length_memRead (m : List Host.Cell) (a n : Nat) : (memRead m a n).length = n := by
  induction n generalizing a with
  | zero => rfl
  | succ n ih => simp [memRead, ih]

@[simp] theorem length_readSpa (s : State) (a n : Nat) : (s.readSpa a n).length = n := by
  induction n generalizing a with
  | zero => rfl
  | succ n ih => simp [State.readSpa, ih]

@[simp] theorem length_readLoc (k : StrandKey) (loc : Loc) (n : Nat) (s : State) : (readLoc k loc n s).length = n := by
  cases loc with
  | core g off =>
    show (s.readCore g off n).length = n
    unfold State.readCore
    split <;> simp
  | clus g off => exact length_memRead _ _ _
  | spa a => exact length_readSpa _ _ _
  | glob m d spa => exact length_readSpa _ _ _
  | repl die off => simp [readLoc, State.replSeen]

theorem ofBytes_lt (l : List Byte) : ofBytes l < 2 ^ (8 * l.length) := by
  induction l with
  | nil => exact Nat.one_pos
  | cons b l ih =>
    have byte := b.isLt
    have grow : 2 ^ (8 * (l.length + 1)) = 256 * 2 ^ (8 * l.length) := by rw [Nat.mul_succ, pow_add]; ring
    rw [ofBytes, List.length_cons, grow]
    omega

/-- The bytes of a number are those of its low bits. -/
theorem toBytes_mod {n k : Nat} (h : 8 * n ≤ k) (x : Nat) : toBytes n (x % 2 ^ k) = toBytes n x := by
  induction n generalizing x k with
  | zero => rfl
  | succ n ih =>
    obtain ⟨j, rfl⟩ : ∃ j, k = 8 + j := ⟨k - 8, by omega⟩
    have low : BitVec.ofNat 8 (x % 2 ^ (8 + j)) = BitVec.ofNat 8 x := by
      apply BitVec.eq_of_toNat_eq
      rw [BitVec.toNat_ofNat, BitVec.toNat_ofNat, pow_add, Nat.mod_mul_right_mod]
    have high : x % 2 ^ (8 + j) / 256 = x / 256 % 2 ^ j := by
      rw [pow_add]
      exact Nat.mod_mul_right_div_self x (2 ^ 8) (2 ^ j)
    rw [toBytes, toBytes, low, high, ih (by omega)]

/-! ## The ends of an access -/

section
variable {w : Who} {fb : Bool} {len : Nat}

theorem deliverOrPend_eq (sync com : Bool) (ds : List Dest) (lg : Log) (s : State) :
    deliverOrPend w fb len sync com ds lg s = .ok ((), give w fb len sync com ds lg s) := by
  unfold deliverOrPend give
  cases hf : (if sync then none else w.x.selFlag fb) with
  | none => rfl
  | some f =>
    have flag : w.x.selFlag fb = some f := by
      cases sync
      · exact hf
      · cases hf
    refine congrArg (fun t => Except.ok ((), t)) ?_
    simp only [issuePend, Pend.withLog, Pend.blank, flag]
    rfl

theorem waitFor_eq (h : Held) (kind : PendKind) (pl : List Place) (s : State) : waitFor w fb len h kind pl s = waits w fb len h kind pl s := rfl

section
variable {pl : List Place} {h : Held} {s u : State} (free : waitAccess h s = .ok ((), s))
include free

/-- An access that has waited ends as its performing ends. -/
theorem makeNow_vals {l : List TVal} {lg : Log} (hp : perform h (numbered s) = (.vals l lg, u)) :
    makeNow w fb len pl h s = .ok ((), give w fb len h.sc h.committed (destsOf pl l) lg u) := by
  unfold makeNow
  rw [Exec.bind_ok free, Exec.bind_ok (show (get : Exec State) s = .ok (s, s) from rfl), show perform h { s with nextId := s.nextId + 2 } = _ from hp,
    Exec.bind_ok (show (set u : Exec Unit) s = .ok ((), u) from rfl)]
  exact deliverOrPend_eq ..

theorem makeNow_stored (hp : perform h (numbered s) = (.stored, u)) (ready : storedKind h u = .ready) :
    makeNow w fb len pl h s = .ok ((), give w fb len h.sc h.committed [] {} u) := by
  unfold makeNow
  rw [Exec.bind_ok free, Exec.bind_ok (show (get : Exec State) s = .ok (s, s) from rfl), show perform h { s with nextId := s.nextId + 2 } = _ from hp,
    Exec.bind_ok (show (set u : Exec Unit) s = .ok ((), u) from rfl), ready]
  exact deliverOrPend_eq ..

theorem makeNow_storedRepl {die sq : Nat} (hp : perform h (numbered s) = (.stored, u)) (kind : storedKind h u = .replStore die sq) :
    makeNow w fb len pl h s = .ok ((), waits w fb len h (.replStore die sq) [] u) := by
  unfold makeNow
  rw [Exec.bind_ok free, Exec.bind_ok (show (get : Exec State) s = .ok (s, s) from rfl), show perform h { s with nextId := s.nextId + 2 } = _ from hp,
    Exec.bind_ok (show (set u : Exec Unit) s = .ok ((), u) from rfl), kind]
  rfl

theorem makeNow_asked (hp : perform h (numbered s) = (.asked, u)) :
    makeNow w fb len pl h s = .ok ((), if h.waits then waits w fb len h (.glob h.id) pl u else give w fb len false h.committed [] {} u) := by
  unfold makeNow
  rw [Exec.bind_ok free, Exec.bind_ok (show (get : Exec State) s = .ok (s, s) from rfl), show perform h { s with nextId := s.nextId + 2 } = _ from hp,
    Exec.bind_ok (show (set u : Exec Unit) s = .ok ((), u) from rfl)]
  cases hw : h.waits
  · simp only [Bool.false_eq_true, if_false]
    exact deliverOrPend_eq ..
  · simp only [if_true]
    rfl

end

section
variable {pl : List Place} {h : Held} {s : State}

theorem makeAccess_now (hn : now h s) : makeAccess w fb len pl h s = makeNow w fb len pl h s := by
  obtain ⟨turn, late⟩ := hn
  unfold makeAccess
  rw [Exec.bind_ok (show (get : Exec State) s = .ok (s, s) from rfl), turn, late]
  rfl

theorem makeAccess_later (hn : ¬now h s) : makeAccess w fb len pl h s = makeLater w fb len pl h s := by
  have later : ¬(s.inTurn h && !s.late) = true := by
    rw [Bool.and_eq_true, Bool.not_eq_true']
    exact hn
  unfold makeAccess
  rw [Exec.bind_ok (show (get : Exec State) s = .ok (s, s) from rfl), if_neg later]

theorem makeLater_waits (hw : h.waits = true) :
    makeLater w fb len pl h s = .ok ((), waits w fb len h .held pl { numbered s with held := s.held ++ [h] }) := by
  unfold makeLater
  rw [Exec.bind_ok (show (get : Exec State) s = .ok (s, s) from rfl), hw]
  rfl

/-- A store off SC pages that is put off: its data are read as it issues, or its operation waits until they have been read. -/
theorem makeLater_store (hw : h.waits = false) : makeLater w fb len pl h s =
    .ok ((), if h.regs = [] ∨ w.x.selFlag fb = none then
        give w fb len false h.committed [] {} { numbered s with held := s.held ++ [{ h with regs := [] }] }
      else waits w fb len h (.data h.id) [] { numbered s with held := s.held ++ [{ h with pend := some (h.id + 1) }] }) := by
  unfold makeLater
  rw [Exec.bind_ok (show (get : Exec State) s = .ok (s, s) from rfl), hw]
  simp only [Bool.false_eq_true, if_false]
  have same : (h.regs.isEmpty || (w.x.selFlag fb).isNone) = true ↔ h.regs = [] ∨ w.x.selFlag fb = none := by
    rw [Bool.or_eq_true, List.isEmpty_iff, Option.isNone_iff_eq_none]
  by_cases now : h.regs = [] ∨ w.x.selFlag fb = none
  · rw [if_pos now, if_pos (same.2 now)]
    exact deliverOrPend_eq ..
  · rw [if_neg now, if_neg fun b => now (same.1 b)]
    rfl

end

end

/-! ## Performing -/

section
variable {h : Held} {s : State}

/-- Only a request to another module and a glob atomic send a packet. -/
theorem sendAccess_here (here : reachOf h s = .here) (plain : h.ask.isAtomic = false) : sendAccess h s = s := by
  have stays : s.leavesBy h = none := by
    unfold State.leavesBy
    unfold reachOf at here
    cases hl : h.loc with
    | glob m d spa =>
      simp only [hl, plain] at here ⊢
      split at here
      · cases here
      · split at here
        · split at here <;> cases here
        · rename_i own
          simp [own]
    | _ => rfl
  unfold sendAccess
  rw [stays]

theorem plus_zero (loc : Loc) : loc.plus 0 = loc := by cases loc <;> rfl

theorem perform_read {n : Nat} (ask : h.ask = .read n) (fresh : h.done = []) (here : reachOf h s = .here) :
    perform h s = (.vals (loadedVals h.etag h.esz (ofBytes (readLoc h.owner h.loc n (chargeHbm h.ctx h.loc n s)))) {},
      chargeHbm h.ctx h.loc n s) := by
  unfold perform
  simp only [here, ask, fresh, sendAccess_here here (by rw [ask]; rfl), List.length_nil, plus_zero, List.nil_append, Nat.sub_zero, GlobAsk.size]

theorem perform_write {l : List Byte} (ask : h.ask = .write l) (fresh : h.done = []) (here : reachOf h s = .here) :
    perform h s = (.stored, writeLoc h.owner h.ctx h.loc l (chargeHbm h.ctx h.loc l.length s)) := by
  unfold perform
  simp only [here, ask, fresh, sendAccess_here here (by rw [ask]; rfl), List.length_nil, plus_zero, List.drop_zero, GlobAsk.size]

theorem perform_away (away : reachOf h s = .away) : perform h s = (.asked, askAway h s) := by
  unfold perform
  rw [away]

end

end Sys2Proof.Accesses

/-! The loads and the stores (R160 to R165, R168, R310, Table 7.6). -/

namespace Sys2Proof.LoadStoreRows

open Sys2Proof Sys2Proof.Machine Sys2Proof.Claims Sys2Proof.ValueWords Sys2Proof.Operands Sys2Proof.MathRows Sys2Proof.Accesses

theorem litStrm_eq (lit : Word) : litStrm lit = (lit.extractLsb' 3 4).toNat := (toNat_field lit 3 4).symm
theorem litScope_eq (lit : Word) : litScope lit = (lit.extractLsb' 0 3).toNat := (toNat_field lit 0 3).symm

/-! ## Loads -/

section
variable {i : Instr} {fb : Bool} {sp : WordForm} {sl : BitVec 5} {esz : List Nat} {d : RegNo} {q : Option Nat} {s s1 s2 : State} {a : Acc}
  {pl : List Place}

theorem exec_of_loadRow (s : State) (h : loadRow i = some (fb, sp, sl, esz, d, q)) :
    exec i s = runWord s.cur (accessWord sp sl { ak := .read, esz := esz, bits := (·.pr) } (fun _ => .any) >>= fun a =>
      issueLoad a fb sp.len d q.isSome (q.getD a.r.ostrm)) s := by
  unfold loadRow at h
  split at h <;> cases h
  case h_4 => rw [← litStrm_eq]; rfl
  all_goals rfl

theorem issueLoad_eq {len : Nat} (room : FlagRoom a.w.x fb) (hpl : places a.w.k a.w.x d (regsOf (2 ^ a.r.esz)) s1 = .ok (pl, s2)) :
    issueLoad a fb len d q.isSome (q.getD a.r.ostrm) s1 = makeAccess a.w fb len pl (loadAsk a q s2) s2 := by
  unfold issueLoad
  rw [flagRoom_of_room _ room, pure_bind,
    Exec.bind_ok (show places _ _ _ (if 2 ^ a.r.esz ≤ 4 then 1 else 2 ^ a.r.esz / 4) s1 = _ from hpl), Exec.bind_ok (show (get : Exec State) s2 = .ok (s2, s2) from rfl)]
  rfl

section
variable (hrow : loadRow i = some (fb, sp, sl, esz, d, q))
  (hacc : accessWord sp sl { ak := .read, esz := esz, bits := (·.pr) } (fun _ => .any) s = .ok (a, s1)) (room : FlagRoom a.w.x fb)
  (hpl : places a.w.k a.w.x d (regsOf (2 ^ a.r.esz)) s1 = .ok (pl, s2))
include hrow hacc room hpl

theorem exec_load {t : State} (h : makeAccess a.w fb sp.len pl (loadAsk a q s2) s2 = .ok ((), t)) : exec i s = .next t := by
  rw [exec_of_loadRow s hrow]
  exact runWord_ok (by rw [Exec.bind_ok hacc, issueLoad_eq room hpl, h])

section
variable (hn : now (loadAsk a q s2) s2) (free : waitAccess (loadAsk a q s2) s2 = .ok ((), s2))
include hn free

theorem exec_load_here (here : reachOf (loadAsk a q s2) (numbered s2) = .here) :
    exec i s = .next (give a.w fb sp.len a.t.sc false (destsOf pl (loadedVals a.r.etag a.r.esz
      (ofBytes (readLoc a.w.k a.t.loc (2 ^ a.r.esz) (chargeHbm a.w.l.ctx a.t.loc (2 ^ a.r.esz) (numbered s2)))))) {}
      (chargeHbm a.w.l.ctx a.t.loc (2 ^ a.r.esz) (numbered s2))) :=
  exec_load hrow hacc room hpl ((makeAccess_now hn).trans (makeNow_vals free (perform_read rfl rfl here)))

theorem exec_load_error (error : reachOf (loadAsk a q s2) (numbered s2) = .error) :
    exec i s = .next (give a.w fb sp.len a.t.sc false (destsOf pl (allOnes a)) {} (errorEvent (loadAsk a q s2) (numbered s2))) :=
  exec_load hrow hacc room hpl ((makeAccess_now hn).trans (makeNow_vals free (by unfold perform; rw [error]; rfl)))

theorem exec_load_away (away : reachOf (loadAsk a q s2) (numbered s2) = .away) :
    exec i s = .next (waits a.w fb sp.len (loadAsk a q s2) (.glob s2.nextId) pl (askAway (loadAsk a q s2) (numbered s2))) := by
  refine exec_load hrow hacc room hpl ((makeAccess_now hn).trans ((makeNow_asked free (perform_away away)).trans ?_))
  rw [if_pos (show (loadAsk a q s2).waits = true from Bool.or_true _)]
  rfl

end

theorem exec_load_later (hn : ¬now (loadAsk a q s2) s2) :
    exec i s = .next (waits a.w fb sp.len (loadAsk a q s2) .held pl { numbered s2 with held := s2.held ++ [loadAsk a q s2] }) :=
  exec_load hrow hacc room hpl ((makeAccess_later hn).trans (makeLater_waits (Bool.or_true _)))

end

end

/-- Settles O22: one lemma for each end of a load. -/
theorem loadWords : Obligations.LoadWords := by
  intro i fb sp sl esz d q s s1 s2 a pl hrow hacc room hpl
  exact ⟨fun hn free => ⟨exec_load_here hrow hacc room hpl hn free, exec_load_error hrow hacc room hpl hn free,
    exec_load_away hrow hacc room hpl hn free⟩, exec_load_later hrow hacc room hpl⟩

/-! ## Stores -/

/-- A check of the access procedure that did not trap has passed. -/
theorem check_inv {β : Type} {c : Prop} [Decidable c] {i : TrapInfo} {k : Unit → Exec β} {s t : State} {b : β}
    (h : (if c then (trapWith i : Exec Unit) >>= k else k ()) s = .ok (b, t)) :
    ¬c ∧ k () s = .ok (b, t) := by
  by_cases hc : c
  · rw [if_pos hc, Exec.bind_error (trapWith_run i s)] at h
    nomatch h
  · rw [if_neg hc] at h
    exact ⟨hc, h⟩

theorem holdForBad_inv {own n : Nat} {loc : Loc} {reads : Bool} {s t : State} {a : Unit} (h : holdForBad own loc n reads s = .ok (a, t)) :
    t = s := by
  unfold holdForBad at h
  split at h <;> cases h
  rfl

/-- An access to the replicated region has passed the check that its die is a member. -/
theorem member_of_accessAt {w : Who} {r : BufRec} {sl i : Nat} {ak : AKind} {need : BufRec → Bool} {s s1 : State} {t : Target}
    (h : accessAt w r sl i ak need s = .ok (t, s1)) {die off : Nat} (hl : t.loc = .repl die off) : s1.isMember die = true := by
  unfold accessAt at h
  obtain ⟨_, h⟩ := check_inv h
  obtain ⟨_, h⟩ := check_inv h
  cases hs : r.seg <;> rw [hs] at h
  case core =>
    obtain ⟨_, h⟩ := check_inv h
    obtain ⟨_, h⟩ := check_inv h
    cases h
    cases hl
  case clus =>
    obtain ⟨_, h⟩ := check_inv h
    obtain ⟨_, h⟩ := check_inv h
    cases h
    cases hl
  all_goals
    obtain ⟨x, u, _, h⟩ := Exec.bind_inv h
    obtain ⟨_, _, hu, h⟩ := Exec.bind_inv h
    cases hu
    rcases x with e | p
    · obtain ⟨_, h⟩ := check_inv h
      nomatch h
    obtain ⟨_, h⟩ := check_inv h
    obtain ⟨_, h⟩ := check_inv h
    obtain ⟨member, h⟩ := check_inv h
    obtain ⟨_, _, hb, h⟩ := Exec.bind_inv h
    cases holdForBad_inv hb
    cases h
    cases hl
  cases hm : s1.isMember w.g.die with
  | true => rfl
  | false => exact absurd (by rw [hm]; rfl) member

theorem member_of_accessWord {sp : WordForm} {sl : BitVec 5} {need : RecNeed} {acc : Nat → Accept} {s s1 : State} {a : Acc}
    (h : accessWord sp sl need acc s = .ok (a, s1)) {die off : Nat} (hl : a.t.loc = .repl die off) : s1.isMember die = true := by
  unfold accessWord at h
  obtain ⟨⟨k, x⟩, u, _, h⟩ := Exec.bind_inv h
  dsimp only at h
  cases hf : sp.encFault k.kind x with
  | some c =>
    rw [hf] at h
    nomatch h
  | none =>
  rw [hf] at h
  obtain ⟨img, _, _, h⟩ := Exec.bind_inv h
  obtain ⟨b, _, _, h⟩ := Exec.bind_inv h
  obtain ⟨d, _, _, h⟩ := Exec.bind_inv h
  obtain ⟨_, h⟩ := check_inv h
  obtain ⟨_, h⟩ := check_inv h
  obtain ⟨w, _, _, h⟩ := Exec.bind_inv h
  obtain ⟨t, _, ht, h⟩ := Exec.bind_inv h
  cases h
  exact member_of_accessAt ht hl

theorem storeBytes_eq_dataOf (n : Nat) (l : List TVal) : storeBytes n l = dataOf l n := by
  unfold storeBytes dataOf
  rw [Transfers.v64_eq_w64, Transfers.v64_eq_w64, Nat.add_comm, Nat.mul_comm]

/-- The commit of a store to an SC page evicts no die. -/
theorem commitWord_isMember (k : StrandKey) (len : Nat) (s : State) (die : Nat) : (commitWord k len s).isMember die = s.isMember die := by
  unfold commitWord commitAt
  split <;> rfl

theorem committed_isMember (a : Acc) (len : Nat) (s : State) (die : Nat) : (committed a len s).isMember die = s.isMember die := by
  unfold committed
  split
  · exact commitWord_isMember ..
  · rfl

/-- Only a store to an SC page of the replicated region waits after its bytes stand in the die's own replica. -/
theorem storedKind_plain {h : Held} (u : State) (plain : h.sc = false ∨ ∀ die off, h.loc ≠ .repl die off) : storedKind h u = .ready := by
  unfold storedKind
  cases hl : h.loc with
  | repl die off =>
    rcases plain with sc | away
    · simp only [sc, Bool.false_eq_true, if_false]
    · exact absurd hl (away die off)
  | _ => rfl

section
variable {i : Instr} {r : SRow} {s s1 : State} {a : Acc}

theorem exec_of_storeRow (s : State) (h : storeRow i = some r) :
    exec i s = runWord s.cur (accessWord r.2.1 r.2.2.1 (storeNeeds r.2.2.2.1) (fun _ => .any) >>= fun a =>
      issueStore a r.1 r.2.1.len (r.2.2.2.2.map (·.1)) ((r.2.2.2.2.map (·.2)).getD a.r.ostrm) r.2.1.d) s := by
  unfold storeRow at h
  split at h <;> cases h
  case h_4 => simp only [← litStrm_eq, ← litScope_eq]; rfl
  all_goals rfl

/-- A store whose checks are passed issues its access in the state that its commit leaves. -/
theorem issueStore_eq (ready : storeReady r a s1) :
    issueStore a r.1 r.2.1.len (r.2.2.2.2.map (·.1)) ((r.2.2.2.2.map (·.2)).getD a.r.ostrm) r.2.1.d s1 =
      makeAccess a.w r.1 r.2.1.len [] (storeAsk r a s1) (committed a r.2.1.len s1) := by
  obtain ⟨room, free, takes⟩ := ready
  have hold : a.t.sc = true → holdForBar a.w.k s1 = .ok ((), s1) := fun sc => by simp [holdForBar, free sc]
  unfold issueStore committed storeAsk asked
  rw [flagRoom_of_room _ room, pure_bind, ← storeBytes_eq_dataOf]
  cases hsc : a.t.sc <;> rw [hsc] at hold
  · simp only [Bool.false_eq_true, if_false]
    rw [Exec.bind_ok (show (get : Exec State) s1 = .ok (s1, s1) from rfl)]
    cases hl : a.t.loc with
    | repl die off =>
      simp only [takes die off hl, Bool.false_eq_true, if_false]
      simp only [accessOf, hsc, hl, Bool.false_eq_true, if_false]
    | _ => simp only [accessOf, hsc, hl, Bool.false_eq_true, if_false]
  · simp only [if_true]
    rw [Exec.bind_ok (hold rfl), Exec.bind_ok (show (get : Exec State) s1 = .ok (s1, s1) from rfl)]
    cases hl : a.t.loc with
    | repl die off =>
      simp only [takes die off hl, Bool.false_eq_true, if_false]
      rw [Exec.bind_ok (act_run _ s1)]
      simp only [accessOf, hsc, hl, if_true]
    | _ =>
      refine (Exec.bind_ok (act_run _ s1)).trans ?_
      simp only [accessOf, hsc, hl, if_true]

/-- An access to the replicated region is not refused, since its die has been found a member. -/
theorem store_error_plain (hacc : accessWord r.2.1 r.2.2.1 (storeNeeds r.2.2.2.1) (fun _ => .any) s = .ok (a, s1))
    (error : reachOf (storeAsk r a s1) (numbered (committed a r.2.1.len s1)) = .error) (die off : Nat) : a.t.loc ≠ .repl die off := by
  intro hl
  have member := member_of_accessWord hacc hl
  rw [← committed_isMember a r.2.1.len] at member
  unfold reachOf at error
  rw [show (storeAsk r a s1).loc = .repl die off from hl] at error
  simp only [show (numbered (committed a r.2.1.len s1)).isMember die = true from member, if_true] at error
  cases error

theorem storeAsk_waits : (storeAsk r a s1).waits = a.t.sc := Bool.or_false _

section
variable (hrow : storeRow i = some r)
  (hacc : accessWord r.2.1 r.2.2.1 (storeNeeds r.2.2.2.1) (fun _ => .any) s = .ok (a, s1)) (ready : storeReady r a s1)
include hrow hacc ready

theorem exec_store {t : State}
    (h : makeAccess a.w r.1 r.2.1.len [] (storeAsk r a s1) (committed a r.2.1.len s1) = .ok ((), t)) : exec i s = .next t := by
  rw [exec_of_storeRow s hrow]
  exact runWord_ok (by rw [Exec.bind_ok hacc, issueStore_eq ready, h])

section
variable (hn : now (storeAsk r a s1) (committed a r.2.1.len s1))
  (free : waitAccess (storeAsk r a s1) (committed a r.2.1.len s1) = .ok ((), committed a r.2.1.len s1))
include hn free

theorem exec_store_here (here : reachOf (storeAsk r a s1) (numbered (committed a r.2.1.len s1)) = .here) :
    exec i s = .next (stored r a s1) := by
  have write := perform_write (l := dataOf a.data (2 ^ a.r.esz)) rfl rfl here
  rw [show (dataOf a.data (2 ^ a.r.esz)).length = 2 ^ a.r.esz from length_toBytes ..] at write
  refine exec_store hrow hacc ready ((makeAccess_now hn).trans ?_)
  by_cases plain : a.t.sc = false ∨ ∀ die off, a.t.loc ≠ .repl die off
  · refine (makeNow_stored free write (storedKind_plain _ plain)).trans ?_
    unfold stored
    split
    · rename_i sc hl
      rcases plain with plain | plain
      · rw [plain] at sc; cases sc
      · exact absurd hl (plain _ _)
    · rfl
  · simp only [not_or, not_forall, not_not, Bool.not_eq_false] at plain
    obtain ⟨sc, die, off, hl⟩ := plain
    have kind (u : State) : storedKind (storeAsk r a s1) u = .replStore die (u.repl die).issued := by
      unfold storedKind
      simp only [show (storeAsk r a s1).loc = .repl die off from hl, show (storeAsk r a s1).sc = true from sc, if_true]
    refine (makeNow_storedRepl free write (kind _)).trans ?_
    unfold stored
    simp only [sc, hl, show (storeAsk r a s1).loc = .repl die off from hl]
    rfl

theorem exec_store_error (error : reachOf (storeAsk r a s1) (numbered (committed a r.2.1.len s1)) = .error) :
    exec i s = .next (give a.w r.1 r.2.1.len a.t.sc a.t.sc [] {} (errorEvent (storeAsk r a s1) (numbered (committed a r.2.1.len s1)))) :=
  exec_store hrow hacc ready ((makeAccess_now hn).trans (makeNow_stored free (by unfold perform; rw [error]; rfl)
    (storedKind_plain _ (.inr (store_error_plain hacc error)))))

theorem exec_store_away (away : reachOf (storeAsk r a s1) (numbered (committed a r.2.1.len s1)) = .away) :
    let u := askAway (storeAsk r a s1) (numbered (committed a r.2.1.len s1))
    (a.t.sc = false → exec i s = .next (give a.w r.1 r.2.1.len false false [] {} u)) ∧
    (a.t.sc = true → exec i s = .next (waits a.w r.1 r.2.1.len (storeAsk r a s1) (.glob s1.nextId) [] u)) := by
  refine ⟨fun sc => ?_, fun sc => ?_⟩ <;>
    refine exec_store hrow hacc ready ((makeAccess_now hn).trans ((makeNow_asked free (perform_away away)).trans ?_))
  all_goals rw [storeAsk_waits]
  · simp only [show (storeAsk r a s1).committed = a.t.sc from rfl, sc, Bool.false_eq_true, if_false]
  · simp only [sc, if_true]
    rfl

end

theorem exec_store_later (hn : ¬now (storeAsk r a s1) (committed a r.2.1.len s1)) : exec i s = .next (storeHeld r a s1) := by
  refine exec_store hrow hacc ready ((makeAccess_later hn).trans ?_)
  have waiting := storeAsk_waits (r := r) (a := a) (s1 := s1)
  unfold storeHeld
  cases hsc : a.t.sc <;> rw [hsc] at waiting
  · refine (makeLater_store waiting).trans ?_
    simp only [Bool.false_eq_true, if_false]
    rw [show (storeAsk r a s1).committed = a.t.sc from rfl, hsc]
    rfl
  · exact makeLater_waits waiting

end

end

/-- Settles O23: one lemma for each end of a store. -/
theorem storeWords : Obligations.StoreWords := by
  intro i r s s1 a hrow hacc ready
  exact ⟨fun hn free => ⟨exec_store_here hrow hacc ready hn free, exec_store_error hrow hacc ready hn free,
    exec_store_away hrow hacc ready hn free⟩, exec_store_later hrow hacc ready⟩

end Sys2Proof.LoadStoreRows

/-! The atomics (R158, R166 to R168, R346, R349, Table 7.7). -/

namespace Sys2Proof.AtomicRows

open Sys2Proof Sys2Proof.Machine Sys2Proof.Claims Sys2Proof.ValueWords Sys2Proof.Operands Sys2Proof.MathRows Sys2Proof.Accesses
  Sys2Proof.LoadStoreRows

/-! ## New values (Table 7.7) -/

theorem wide_eq (op : AOp) : op.wide = isWide op := by cases op <;> rfl

/-- The bytes of an element. -/
def width (op : AOp) : Nat := if isWide op then 8 else 4

section
variable {m d : BitVec 64}

theorem sext_narrow (x : BitVec 64) : sext x.toNat 32 = (x.setWidth 32).toInt := by
  rw [sext_eq_toInt _ (by decide), BitVec.ofNat_toNat]

theorem sext_le_iff : sext m.toNat 32 ≤ sext d.toNat 32 ↔ (d.setWidth 32).slt (m.setWidth 32) = false := by
  rw [sext_narrow, sext_narrow, BitVec.slt_eq_decide, decide_eq_false_iff_not, not_lt]

/-- Two narrow values of one two's-complement reading are one. -/
theorem eq_of_not_slt (hm : m.toNat < 2 ^ 32) (hd : d.toNat < 2 ^ 32) (h : (d.setWidth 32).slt (m.setWidth 32) = false)
    (g : (m.setWidth 32).slt (d.setWidth 32) = false) : m = d := by
  rw [BitVec.slt_eq_decide, decide_eq_false_iff_not, not_lt] at h g
  have low := congrArg BitVec.toNat (BitVec.eq_of_toInt_eq (le_antisymm h g))
  rw [BitVec.toNat_setWidth, BitVec.toNat_setWidth, Nat.mod_eq_of_lt hm, Nat.mod_eq_of_lt hd] at low
  exact BitVec.eq_of_toNat_eq low

end

section
variable {op : AOp} {m d e : BitVec 64} (hm : isWide op = false → m.toNat < 2 ^ 32) (hd : isWide op = false → d.toNat < 2 ^ 32)
include hm hd

/-- The new value of the model, and what it logs, are the table's. -/
theorem atomNew_eq : let r := atomNew op m.toNat d.toNat (if op = .add64 then 0 else e.toNat)
    toBytes (width op) r.1 = toBytes (width op) (newValue op m d e).1.toNat ∧ r.2 = (newValue op m d e).2 := by
  cases op
  case addI =>
    refine ⟨congrArg _ ?_, rfl⟩
    simp [atomNew, newValue]
    omega
  case addF =>
    simp only [atomNew, newValue, BitVec.toNat_setWidth, Nat.mod_eq_of_lt (hm rfl), Nat.mod_eq_of_lt (hd rfl), and_true]
    exact (toBytes_mod (by decide) _).symm
  case minI =>
    refine ⟨congrArg _ ?_, rfl⟩
    simp only [atomNew, newValue, sext_le_iff]
    cases (d.setWidth 32).slt (m.setWidth 32) <;> rfl
  case maxI =>
    refine ⟨congrArg _ ?_, rfl⟩
    simp only [atomNew, newValue, sext_le_iff]
    cases less : (d.setWidth 32).slt (m.setWidth 32) <;> cases more : (m.setWidth 32).slt (d.setWidth 32)
    · rw [eq_of_not_slt (hm rfl) (hd rfl) less more]; rfl
    · rfl
    · rfl
    · rw [BitVec.slt_eq_decide, decide_eq_true_iff] at less more
      omega
  case minN =>
    refine ⟨congrArg _ ?_, rfl⟩
    simp only [atomNew, newValue, BitVec.ult, decide_eq_true_eq]
    split <;> omega
  case maxN =>
    refine ⟨congrArg _ ?_, rfl⟩
    simp only [atomNew, newValue, BitVec.ult, decide_eq_true_eq]
    split <;> omega
  case inc =>
    have next := hm rfl
    refine ⟨congrArg _ ?_, rfl⟩
    simp only [atomNew, newValue, BitVec.ult, decide_eq_true_eq, reduceCtorEq, if_false]
    by_cases below : m.toNat < e.toNat
    · rw [if_neg (Nat.not_le.2 below), if_pos below, BitVec.toNat_add]
      exact (Nat.mod_eq_of_lt (by omega)).symm
    · rw [if_pos (Nat.not_lt.1 below), if_neg below]
      rfl
  case cas | cas64 =>
    refine ⟨congrArg _ ?_, rfl⟩
    simp only [atomNew, newValue, reduceCtorEq, if_false, beq_iff_eq, BitVec.toNat_inj]
    split <;> rfl
  case and => exact ⟨congrArg _ (BitVec.toNat_and ..).symm, rfl⟩
  case or => exact ⟨congrArg _ (BitVec.toNat_or ..).symm, rfl⟩
  case xor => exact ⟨congrArg _ (BitVec.toNat_xor ..).symm, rfl⟩
  case xchg => exact ⟨rfl, rfl⟩
  case add64 => exact ⟨congrArg _ (BitVec.toNat_add ..).symm, rfl⟩

end

/-! ## The element and its registers -/

/-- An access whose word asks for one element size has it. -/
theorem size_of_accessWord {sp : WordForm} {sl : BitVec 5} {need : RecNeed} {acc : Nat → Accept} {s s1 : State} {a : Acc}
    (h : accessWord sp sl need acc s = .ok (a, s1)) : a.r.esz ∈ need.esz := by
  unfold accessWord at h
  obtain ⟨⟨k, x⟩, u, _, h⟩ := Exec.bind_inv h
  dsimp only at h
  cases hf : sp.encFault k.kind x with
  | some c =>
    rw [hf] at h
    nomatch h
  | none =>
  rw [hf] at h
  obtain ⟨img, _, _, h⟩ := Exec.bind_inv h
  obtain ⟨b, _, _, h⟩ := Exec.bind_inv h
  obtain ⟨d, _, _, h⟩ := Exec.bind_inv h
  obtain ⟨tags, h⟩ := check_inv h
  obtain ⟨segs, h⟩ := check_inv h
  obtain ⟨w, _, _, h⟩ := Exec.bind_inv h
  obtain ⟨t, _, _, h⟩ := Exec.bind_inv h
  cases h
  simp only [Bool.or_eq_true, not_or, Bool.not_eq_true, Bool.not_eq_false', Bool.and_eq_true] at tags segs
  obtain ⟨_, typed⟩ := tags
  rcases typed with empty | ⟨⟨size, _⟩, _⟩
  · rw [segs.1] at empty
    cases empty
  · exact List.contains_iff_mem.1 size

theorem wide_register (l : List TVal) : ((w32 l).setWidth 64).toNat = (w32 l).toNat := by
  rw [BitVec.toNat_setWidth, Nat.mod_eq_of_lt (Nat.lt_trans (BitVec.isLt _) (by decide))]

theorem operands_eq (op : AOp) (l : List TVal) :
    op.operands l = ((amoOperands op l).1.toNat, if op = .add64 then 0 else (amoOperands op l).2.toNat) := by
  cases op
  case add64 | cas64 => simp [AOp.operands, amoOperands, Transfers.v64_eq_w64]
  all_goals simp only [AOp.operands, amoOperands, wide_register, v32_eq_toNat, reduceCtorEq, if_false]

theorem operand_narrow (op : AOp) (l : List TVal) (narrow : isWide op = false) : (amoOperands op l).1.toNat < 2 ^ 32 := by
  have small : ((w32 l).setWidth 64).toNat < 2 ^ 32 := by
    rw [wide_register]
    exact BitVec.isLt _
  cases op
  case add64 | cas64 => cases narrow
  all_goals exact small

section
variable {i : Instr} {op : AOp} {fb : Bool} {d : RegNo} {sl : BitVec 5} {b : RegNo} {s s1 s2 : State} {a : Acc} {pl : List Place}

theorem exec_of_amoRow (s : State) (h : amoRow i = some (op, fb, d, sl, b)) :
    exec i s = runWord s.cur (accessWord (amoForm op d b) sl (amoNeed op) op.accepts >>= fun a => issueAtomic a fb d op) s := by
  have word : exec i s = atomicWord op fb d sl b s := by
    unfold amoRow at h
    split at h <;> cases h <;> rfl
  rw [word, atomicWord, wide_eq]
  rfl

/-- An atomic whose checks are passed commits and issues its access. -/
theorem issueAtomic_eq (room : FlagRoom a.w.x fb) (free : s1.barWaiting a.w.k = false)
    (hpl : places a.w.k a.w.x d (if isWide op then 2 else 1) s1 = .ok (pl, s2)) :
    issueAtomic a fb d op s1 = makeAccess a.w fb 1 pl (amoAsk op d a (commitWord a.w.k 1 s2)) (commitWord a.w.k 1 s2) := by
  have hold : holdForBar a.w.k s1 = .ok ((), s1) := by simp [holdForBar, free]
  unfold issueAtomic
  rw [flagRoom_of_room _ room, pure_bind, Exec.bind_ok hold, wide_eq, Exec.bind_ok hpl, Exec.bind_ok (act_run _ s2),
    Exec.bind_ok (show (get : Exec State) (commitWord a.w.k 1 s2) = .ok (commitWord a.w.k 1 s2, commitWord a.w.k 1 s2) from rfl),
    operands_eq]
  rfl

section
variable (hacc : accessWord (amoForm op d b) sl (amoNeed op) op.accepts s = .ok (a, s1))
include hacc

theorem element_size : a.r.esz = if isWide op then 3 else 2 := by
  simpa [amoNeed] using size_of_accessWord hacc

theorem element_bytes : 2 ^ a.r.esz = width op := by
  rw [element_size hacc, width]
  cases isWide op <;> rfl

theorem ask_size (u : State) : (amoAsk op d a u).ask.size = 2 ^ a.r.esz := by
  rw [element_bytes hacc]
  cases op <;> rfl

/-- The old value in registers. -/
theorem oldVals_eq (m : Nat) : op.oldVals a.r.etag m = loadedVals a.r.etag a.r.esz m := by
  rw [AOp.oldVals, wide_eq, element_size hacc]

/-- An error response is all ones in every register. -/
theorem oldVals_ones : op.oldVals a.r.etag (2 ^ (8 * 2 ^ a.r.esz) - 1) = allOnes a := by
  rw [oldVals_eq hacc, allOnes, element_size hacc]
  cases isWide op <;> rfl

/-- Where its element is held by this module an atomic gives the old value and puts the table's new value in its place. -/
theorem perform_atomic {u : State} (k : State) (here : reachOf (amoAsk op d a k) u = .here) :
    let y := chargeHbm a.w.l.ctx a.t.loc (2 ^ a.r.esz) (sendAccess (amoAsk op d a k) u)
    let m := ofBytes (readLoc a.w.k a.t.loc (2 ^ a.r.esz) y)
    let o := amoOperands op a.data
    let v := newValue op (BitVec.ofNat 64 m) o.1 o.2
    perform (amoAsk op d a k) u = (.vals (loadedVals a.r.etag a.r.esz m) v.2,
      writeLoc a.w.k a.w.l.ctx a.t.loc (toBytes (2 ^ a.r.esz) v.1.toNat) y) := by
  intro y m o v
  have below : m < 2 ^ (8 * 2 ^ a.r.esz) := by
    have := ofBytes_lt (readLoc a.w.k a.t.loc (2 ^ a.r.esz) y)
    rwa [length_readLoc] at this
  rw [element_bytes hacc] at below
  have value : (BitVec.ofNat 64 m).toNat = m := by
    rw [BitVec.toNat_ofNat, Nat.mod_eq_of_lt (Nat.lt_of_lt_of_le below ?_)]
    unfold width
    cases isWide op <;> decide
  have narrow : isWide op = false → (BitVec.ofNat 64 m).toNat < 2 ^ 32 := fun h => by
    rw [value]
    rwa [width, h] at below
  obtain ⟨bytes, log⟩ := atomNew_eq (e := o.2) narrow (operand_narrow op a.data)
  rw [value, ← element_bytes hacc] at bytes
  rw [value] at log
  unfold perform
  rw [here]
  simp only [ask_size hacc]
  refine Prod.ext (congrArg₂ Done.vals (oldVals_eq hacc m) log) ?_
  exact congrArg (fun l => writeLoc a.w.k a.w.l.ctx a.t.loc l y) bytes

section
variable (hrow : amoRow i = some (op, fb, d, sl, b)) (room : FlagRoom a.w.x fb) (free : s1.barWaiting a.w.k = false)
  (hpl : places a.w.k a.w.x d (if isWide op then 2 else 1) s1 = .ok (pl, s2))
include hrow room free hpl

theorem exec_amo {t : State}
    (h : makeAccess a.w fb 1 pl (amoAsk op d a (commitWord a.w.k 1 s2)) (commitWord a.w.k 1 s2) = .ok ((), t)) : exec i s = .next t := by
  rw [exec_of_amoRow s hrow]
  exact runWord_ok (by rw [Exec.bind_ok hacc, issueAtomic_eq room free hpl, h])

end

end

end

/-- Settles O25: an atomic commits, and its access is performed, answered with an error, asked of another module, or held. -/
theorem atomicWords : Obligations.AtomicWords := by
  intro i op fb d sl b s s1 s2 a pl hrow hacc room free hpl n s3 o h u
  have run {t : State} := exec_amo (t := t) hacc hrow room free hpl
  refine ⟨fun hn wait => ⟨fun here => ?_, fun error => ?_, fun away => ?_⟩, fun hn => ?_⟩
  · exact run ((makeAccess_now hn).trans (makeNow_vals wait (perform_atomic hacc s3 here)))
  · refine run ((makeAccess_now hn).trans (makeNow_vals wait ?_))
    have ones := oldVals_ones hacc
    rw [← ask_size hacc s3] at ones
    unfold perform
    rw [show reachOf (amoAsk op d a (commitWord a.w.k 1 s2)) _ = _ from error]
    exact congrArg (fun l => (Done.vals l {}, errorEvent h u)) ones
  · refine run ((makeAccess_now hn).trans ((makeNow_asked wait (perform_away away)).trans ?_))
    rw [if_pos (show h.waits = true from Bool.or_true _)]
  · exact run ((makeAccess_later hn).trans (makeLater_waits (Bool.or_true _)))

end Sys2Proof.AtomicRows

/-! The access procedure for a core window, in the order of its checks (R148 to R153, R155). -/

namespace Sys2Proof.CoreAccesses

open Sys2Proof Sys2Proof.Machine Sys2Proof.Claims Sys2Proof.ValueWords Sys2Proof.Operands

section
variable {sp : WordForm} {sl : BitVec 5} {need : RecNeed} {acc : Nat → Accept} {s : State} {x : Strand} {g : Group} {l : Launch} {c : Ctx}
  (hx : s.strand s.cur = some x) (hg : s.group s.cur.grp = some g) (idle : s.pend = []) (fits : sp.encFault s.cur.kind x = none)
  (hb : isPlain sp.b) (hd : isPlain sp.d)

/-- What the registers of a word and the record of its slot must carry (R148). -/
def Typed (sp : WordForm) (need : RecNeed) (acc : Nat → Accept) (img : BitVec 256) (data : List TVal) : Prop :=
  need.esz.contains (bufRec img).esz = true ∧ need.etag (bufRec img).etag = true ∧
    ((∃ o, sp.d = some o ∧ o.n = 126#7) ∨ dataTagsOk (bufRec img) acc 0 data = true)

/-- The check of FTAG as the model makes it. -/
def tagged (sp : WordForm) (need : RecNeed) (acc : Nat → Accept) (img : BitVec 256) (b data : List TVal) : Bool :=
  tagsOk sp.b b && (img == 0#256 || need.esz.contains (bufRec img).esz && need.etag (bufRec img).etag &&
    (sp.d.any (fun o => o.n == 126#7) || dataTagsOk (bufRec img) acc 0 data))

theorem tagged_iff {img : BitVec 256} {b data : List TVal} :
    tagged sp need acc img b data = true ↔ carries sp.b b ∧ (img = 0#256 ∨ Typed sp need acc img data) := by
  have zr : sp.d.any (fun o => o.n == 126#7) = true ↔ ∃ o, sp.d = some o ∧ o.n = 126#7 := by
    rw [Option.any_eq_true]
    simp only [beq_iff_eq]
  unfold tagged Typed
  rw [Bool.and_eq_true, Bool.or_eq_true, Bool.and_eq_true, Bool.and_eq_true, Bool.or_eq_true, beq_iff_eq, zr, tagsOk_iff_carries, and_assoc]

include hx hg idle fits hb hd

/-- The procedure as far as the record and the operands: what follows is its checks. -/
theorem accessWord_reads : accessWord sp sl need acc s = (do
    let img := lget g.slots sl.toNat 0#256
    let i := (w32 (plainOpt x sp.b)).toNat
    if !tagged sp need acc img (plainOpt x sp.b) (plainOpt x sp.d) then
      trapWith { cause := .ftag, slot := some (sl.toNat, i), slv := false }
    if img == 0#256 || !need.seg (bufRec img).seg then trapSlot .aseg sl.toNat i 0
    let w ← who s.cur x
    let t ← accessAt w (bufRec img) sl.toNat i need.ak need.bits
    pure ⟨w, bufRec img, t, plainOpt x sp.d⟩ : Exec Acc) s := by
  have slot : slotRec s.cur sl.toNat s = .ok (lget g.slots sl.toNat 0#256, s) := by
    unfold slotRec
    rw [idle, hg]
    rfl
  unfold accessWord
  rw [Exec.bind_ok (curStrand_some hx)]
  simp only [fits]
  rw [Exec.bind_ok slot, Exec.bind_ok (readOpt_plain hb), Exec.bind_ok (readOpt_plain hd)]
  rfl

section
variable {img : BitVec 256} (himg : lget g.slots sl.toNat 0#256 = img)
include himg

theorem accessWord_ftag (bad : ¬(carries sp.b (plainOpt x sp.b) ∧ (img = 0#256 ∨ Typed sp need acc img (plainOpt x sp.d)))) :
    accessWord sp sl need acc s =
      .error (.trap { cause := .ftag, slot := some (sl.toNat, (w32 (plainOpt x sp.b)).toNat), slv := false } s) := by
  rw [accessWord_reads hx hg idle fits hb hd]
  simp only [himg]
  rw [← tagged_iff, Bool.not_eq_true, ← Bool.not_eq_true'] at bad
  rw [if_pos bad, Exec.bind_error (trapWith_run _ s)]

section
variable (hc : carries sp.b (plainOpt x sp.b))
include hc

theorem accessWord_aseg (typed : img = 0#256 ∨ Typed sp need acc img (plainOpt x sp.d)) (bad : img = 0#256 ∨ need.seg (bufRec img).seg = false) :
    accessWord sp sl need acc s =
      .error (.trap { cause := .aseg, va := 0, slot := some (sl.toNat, (w32 (plainOpt x sp.b)).toNat) } s) := by
  rw [accessWord_reads hx hg idle fits hb hd]
  simp only [himg]
  have ok : ¬(!tagged sp need acc img (plainOpt x sp.b) (plainOpt x sp.d)) = true := by
    rw [tagged_iff.2 ⟨hc, typed⟩]; exact Bool.false_ne_true
  have seg : (img == 0#256 || !need.seg (bufRec img).seg) = true := by
    rw [Bool.or_eq_true, beq_iff_eq, Bool.not_eq_true']; exact bad
  rw [if_neg ok, if_pos seg]
  exact Exec.bind_error (trapWith_run _ s)

theorem accessWord_goes (nz : img ≠ 0#256) (typed : Typed sp need acc img (plainOpt x sp.d)) (seg : need.seg (bufRec img).seg = true)
    (hl : s.launch s.cur.grp.launch = some l) (hctx : s.ctx l.ctx = some c) :
    accessWord sp sl need acc s = (do
      let t ← accessAt ⟨s.cur, x, g, l, c.d⟩ (bufRec img) sl.toNat (w32 (plainOpt x sp.b)).toNat need.ak need.bits
      pure ⟨⟨s.cur, x, g, l, c.d⟩, bufRec img, t, plainOpt x sp.d⟩ : Exec Acc) s := by
  have found : who s.cur x s = .ok (⟨s.cur, x, g, l, c.d⟩, s) := by
    unfold who
    simp only [hg, hl, hctx]
  rw [accessWord_reads hx hg idle fits hb hd]
  simp only [himg]
  have ok : ¬(!tagged sp need acc img (plainOpt x sp.b) (plainOpt x sp.d)) = true := by
    rw [tagged_iff.2 ⟨hc, .inr typed⟩]; exact Bool.false_ne_true
  have pass : ¬(img == 0#256 || !need.seg (bufRec img).seg) = true := by
    rw [Bool.or_eq_true, beq_iff_eq, Bool.not_eq_true', seg]; exact fun h => h.elim nz Bool.noConfusion
  rw [if_neg ok, if_neg pass, Exec.bind_ok found]

end

end

end

/-! ## From ABND on -/

section
variable {β : Type} {c : Prop} [Decidable c] {i : TrapInfo} {k : Unit → Exec β} {s : State}

theorem check_traps (h : c) : (if c then (trapWith i : Exec Unit) >>= k else k ()) s = .error (.trap i s) := by
  rw [if_pos h, Exec.bind_error (trapWith_run i s)]

theorem check_passes (h : ¬c) : (if c then (trapWith i : Exec Unit) >>= k else k ()) s = k () s := by
  rw [if_neg h]

end

section
variable {w : Who} {r : BufRec} {sl i : Nat} {ak : AKind} {need : BufRec → Bool} {s : State}

/-- The address of the element. -/
def addressOf (w : Who) (r : BufRec) (i : Nat) : Nat := r.form i (w.k.grp.glin * w.g.size + w.k.tid)

/-- A trap at the element. -/
def elementTrap (c : Cause) (w : Who) (r : BufRec) (sl i : Nat) (s : State) : Except Stop (Target × State) :=
  .error (.trap { cause := c, va := addressOf w r i, slot := some (sl, i) } s)

theorem accessAt_abnd (h : r.extent ≤ i) : accessAt w r sl i ak need s = elementTrap .abnd w r sl i s := by
  unfold accessAt
  exact check_traps h

section
variable (inside : i < r.extent) (core : r.seg = .core)
include inside core

theorem accessAt_aprm (h : need r = false ∨ w.l.rc.scratch < addressOf w r i + 2 ^ r.esz) :
    accessAt w r sl i ak need s = elementTrap .aprm w r sl i s := by
  unfold accessAt
  refine (check_passes (Nat.not_le.2 inside)).trans ?_
  cases bits : need r with
  | false => exact check_traps rfl
  | true =>
    refine (check_passes Bool.false_ne_true).trans ?_
    rw [core]
    exact check_traps (h.resolve_left (by rw [bits]; exact Bool.noConfusion))

section
variable (bits : need r = true) (near : addressOf w r i + 2 ^ r.esz ≤ w.l.rc.scratch)
include bits near

theorem accessAt_aaln (h : addressOf w r i % 2 ^ r.esz ≠ 0) : accessAt w r sl i ak need s = elementTrap .aaln w r sl i s := by
  unfold accessAt
  refine (check_passes (Nat.not_le.2 inside)).trans ?_
  rw [bits, core]
  refine (check_passes Bool.false_ne_true).trans ((check_passes (Nat.not_lt.2 near)).trans ?_)
  exact check_traps (bne_iff_ne.2 h)

theorem accessAt_core (h : addressOf w r i % 2 ^ r.esz = 0) :
    accessAt w r sl i ak need s = .ok (⟨.core w.k.grp (r.swizzle (addressOf w r i)), false, addressOf w r i⟩, s) := by
  unfold accessAt
  refine (check_passes (Nat.not_le.2 inside)).trans ?_
  rw [bits, core]
  refine (check_passes Bool.false_ne_true).trans ((check_passes (Nat.not_lt.2 near)).trans ?_)
  exact check_passes fun b => bne_iff_ne.1 b h

end

end

end

/-- Settles O21: the checks before the address, and those at it. -/
theorem coreAccess : Obligations.CoreAccess := by
  intro sp sl need acc s x g l c img hx hg hl hctx fits _ hb hd idle himg k b data r i va n typed at_ answer
  refine ⟨fun bad => ?_, fun hc bad => ?_, fun hc nz ht seg core => ?_⟩
  · refine accessWord_ftag hx hg idle fits hb hd himg fun ok => ?_
    rcases bad with bad | ⟨nz, bad⟩
    · exact bad ok.1
    · exact ok.2.elim nz bad
  · exact accessWord_aseg hx hg idle fits hb hd himg hc (bad.imp_right And.left) (bad.imp_right And.right)
  · have goes := accessWord_goes hx hg idle fits hb hd himg hc nz ht seg hl hctx
    refine ⟨fun out => ?_, fun ins bad => ?_, fun ins bits near odd => ?_, fun ins bits near even => ?_⟩ <;> refine goes.trans ?_
    · exact Exec.bind_error (accessAt_abnd out)
    · exact Exec.bind_error (accessAt_aprm ins core bad)
    · exact Exec.bind_error (accessAt_aaln ins core bits near odd)
    · exact Exec.bind_ok (accessAt_core ins core bits near even)

end Sys2Proof.CoreAccesses

/-! The slot words and FENCE (R143 to R147, R165, R169). -/

namespace Sys2Proof.SlotRows

open Sys2Proof Sys2Proof.Machine Sys2Proof.Claims Sys2Proof.ValueWords Sys2Proof.Operands Sys2Proof.MathRows Sys2Proof.Accesses
  Sys2Proof.LoadStoreRows Sys2Proof.Control

/-! ## The address pair -/

theorem va57_eq_addr57 (l : List TVal) : va57 (v64 l) = addr57 l := by
  rw [va57, addr57, Transfers.v64_eq_w64, BitVec.toNat_setWidth]

/-- A word that is read is read alike whatever address its FTAG would record. -/
theorem readWordAt_ok {sp : WordForm} {s s1 : State} {v : Vals} (va : Vals → Nat) (h : readWord sp s = .ok (v, s1)) :
    readWordAt sp va s = .ok (v, s1) := by
  obtain ⟨key, strand, fits, _, tags, t, u, ha, hb, hd⟩ := wordRead_of_ok h
  obtain ⟨k, x, a, b, d⟩ := v
  cases key
  unfold readWordAt
  rw [Exec.bind_ok (curStrand_some strand)]
  simp only [fits]
  rw [Exec.bind_ok ha, Exec.bind_ok hb, Exec.bind_ok hd, if_pos tags]
  rfl

/-! ## The record that was read -/

theorem holdForOrder_inv {k : StrandKey} {loc : Loc} {ask : GlobAsk} {s t : State} {a : Unit} (h : holdForOrder k loc ask s = .ok (a, t)) :
    t = s := by
  unfold holdForOrder at h
  split at h <;> cases h
  rfl

theorem length_readRecord {w : Who} {va n al : Nat} {s t : State} {r : RecRead} (h : readRecord w va n al s = .ok (r, t)) :
    r.bytes.length = n := by
  unfold readRecord at h
  obtain ⟨_, h⟩ := check_inv h
  obtain ⟨x, u, _, h⟩ := Exec.bind_inv h
  obtain ⟨v, _, hv, h⟩ := Exec.bind_inv h
  cases hv
  rcases x with e | p
  · nomatch h
  dsimp only at h
  obtain ⟨_, h⟩ := check_inv h
  obtain ⟨_, h⟩ := check_inv h
  obtain ⟨_, _, ho, h⟩ := Exec.bind_inv h
  cases holdForOrder_inv ho
  split at h
  · cases h
    exact List.length_replicate
  · obtain ⟨_, _, _, h⟩ := Exec.bind_inv h
    obtain ⟨_, _, _, h⟩ := Exec.bind_inv h
    cases h
    exact length_readLoc _ _ _ _

/-- The number of a record is 0 where its image is. -/
theorem image_eq_zero {m : Nat} {l : List Byte} (h : 8 * l.length ≤ m) : BitVec.ofNat m (ofBytes l) = 0#m ↔ ofBytes l = 0 := by
  have below : ofBytes l < 2 ^ m := Nat.lt_of_lt_of_le (ofBytes_lt l) (Nat.pow_le_pow_right Nat.two_pos h)
  rw [← BitVec.toNat_inj, BitVec.toNat_ofNat, Nat.mod_eq_of_lt below]
  rfl

/-! ## BLOAD and LLOAD -/

section
variable {fb : Bool} {a : RegNo} {n : Nat} {wait : Vals → Exec Unit} {good : Who → Nat → State → Bool} {dest : Nat → Dest} {s s1 s2 : State}
  {v : Vals} {w : Who} {l : RecRead}

/-- A slot word as far as its record: then its ASEG, its flag and its delivery. -/
theorem slotLoad_reads (hread : readWord (slotWordForm a) s = .ok (v, s1)) (hwait : wait v s1 = .ok ((), s1))
    (hwho : who v.k v.x s1 = .ok (w, s1)) (hrec : readRecord w (addr57 v.a) n n s1 = .ok (l, s2)) :
    slotLoad fb a n wait good dest s = (do
      if ofBytes l.bytes != 0 && !good w (ofBytes l.bytes) s2 then
        trapWith { cause := .aseg, va := addr57 v.a, evs := l.evs }
      flagRoom v.x fb
      l.log w.l.ctx
      deliverOrPend w fb 1 l.sc false [dest (ofBytes l.bytes)] {} : Exec Unit) s2 := by
  have read : readWordAt (slotForm a) (fun v => va57 (v64 v.a)) s = .ok (v, s1) := readWordAt_ok _ hread
  unfold slotLoad
  rw [Exec.bind_ok read, Exec.bind_ok hwait, Exec.bind_ok hwho]
  simp only [va57_eq_addr57]
  rw [Exec.bind_ok hrec]
  rfl

section
variable (hread : readWord (slotWordForm a) s = .ok (v, s1)) (hwait : wait v s1 = .ok ((), s1))
    (hwho : who v.k v.x s1 = .ok (w, s1)) (hrec : readRecord w (addr57 v.a) n n s1 = .ok (l, s2))
include hread hwait hwho hrec

theorem slotLoad_good (ok : ofBytes l.bytes = 0 ∨ good w (ofBytes l.bytes) s2 = true) (room : FlagRoom v.x fb) :
    slotLoad fb a n wait good dest s =
      .ok ((), give w fb 1 l.sc false [dest (ofBytes l.bytes)] {} (l.evs.foldl (fun t e => logEvent w.l.ctx e t) s2)) := by
  have pass : ¬(ofBytes l.bytes != 0 && !good w (ofBytes l.bytes) s2) = true := by
    rw [Bool.and_eq_true, bne_iff_ne, Bool.not_eq_true']
    rintro ⟨nz, bad⟩
    rcases ok with z | ok
    · exact nz z
    · rw [ok] at bad; cases bad
  rw [slotLoad_reads hread hwait hwho hrec, if_neg pass, flagRoom_of_room _ room, pure_bind]
  refine (Exec.bind_ok (act_run _ s2)).trans ?_
  exact deliverOrPend_eq ..

theorem slotLoad_bad (nz : ofBytes l.bytes ≠ 0) (bad : good w (ofBytes l.bytes) s2 = false) :
    slotLoad fb a n wait good dest s = .error (.trap { cause := .aseg, va := addr57 v.a, evs := l.evs } s2) := by
  rw [slotLoad_reads hread hwait hwho hrec, if_pos (by rw [Bool.and_eq_true, bne_iff_ne, bad]; exact ⟨nz, rfl⟩)]
  exact Exec.bind_error (trapWith_run _ s2)

end

/-- The FTAG of a slot word records the address that the pair holds. -/
theorem slotLoad_ftag {x : Strand} (hx : s.strand s.cur = some x) (hn : a.toNat < 120)
    (fits : (slotWordForm a).encFault s.cur.kind x = none) (bad : ¬carries (slotWordForm a).a (window x a 2)) :
    slotLoad fb a n wait good dest s = .error (.trap { cause := .ftag, va := addr57 (window x a 2) } s) := by
  rw [← tagsOk_iff_carries, Bool.not_eq_true] at bad
  have read : readWordAt (slotForm a) (fun v => va57 (v64 v.a)) s = .error (.trap { cause := .ftag, va := addr57 (window x a 2) } s) := by
    unfold readWordAt
    rw [Exec.bind_ok (curStrand_some hx)]
    simp only [show (slotForm a).encFault s.cur.kind x = none from fits]
    rw [Exec.bind_ok (show readOpt s.cur x (slotForm a).a s = .ok (window x a 2, s) from readOpnd_window hn),
      Exec.bind_ok (show readOpt s.cur x (slotForm a).b s = .ok ([], s) from rfl),
      Exec.bind_ok (show readOpt s.cur x (slotForm a).d s = .ok ([], s) from rfl), if_neg, ← va57_eq_addr57]
    · rfl
    · rw [show tagsOk (slotForm a).a (window x a 2) = false from bad]
      exact Bool.false_ne_true
  unfold slotLoad
  exact Exec.bind_error read

end

section
variable {fb : Bool} {a : RegNo} {s s1 s2 : State} {v : Vals} {w : Who} {l : RecRead}
  (hread : readWord (slotWordForm a) s = .ok (v, s1)) (hwho : who v.k v.x s1 = .ok (w, s1))
include hread hwho

theorem bload_ends {sl : BitVec 5} {img0 : BitVec 256} (hslot : slotRec v.k sl.toNat s1 = .ok (img0, s1))
    (hrec : readRecord w (addr57 v.a) 32 32 s1 = .ok (l, s2)) :
    let img := BitVec.ofNat 256 (ofBytes l.bytes)
    let r := bufRec img
    let good := img = 0#256 ∨ (recWellFormed img = true ∧ s2.usable w.g.die w.d w.l.rc r.seg r.epmod = true)
    (good → FlagRoom v.x fb → exec (.bload fb sl a) s =
      .next (give w fb 1 l.sc false [.slot sl.toNat img] {} (l.evs.foldl (fun t e => logEvent w.l.ctx e t) s2))) ∧
    (¬good → exec (.bload fb sl a) s = .next (takeTrap s.cur .word { cause := .aseg, va := addr57 v.a, evs := l.evs }
      { s with tlb := s2.tlb, free := s2.free, dies := s2.dies })) := by
  intro img r good
  have zero := image_eq_zero (m := 256) (l := l.bytes) (by rw [length_readRecord hrec])
  have wait : (do let _ ← slotRec v.k sl.toNat : Exec Unit) s1 = .ok ((), s1) := Exec.bind_ok hslot
  refine ⟨fun ok room => ?_, fun bad => ?_⟩
  · refine runWord_ok (slotLoad_good hread wait hwho hrec ?_ room)
    exact ok.imp zero.1 fun h => by rw [Bool.and_eq_true]; exact h
  · simp only [good, not_or, not_and_or, Bool.not_eq_true] at bad
    refine runWord_trap (slotLoad_bad hread wait hwho hrec (fun h => bad.1 (zero.2 h)) ?_)
    rw [Bool.and_eq_false_iff]
    exact bad.2

theorem lload_ends {sl : BitVec 3} (hrec : readRecord w (addr57 v.a) 64 64 s1 = .ok (l, s2)) :
    let img := BitVec.ofNat 512 (ofBytes l.bytes)
    let r := layRec img
    let good := img = 0#512 ∨ (layValid img = true ∧ s2.usable w.g.die w.d w.l.rc r.seg r.epmod = true)
    (good → FlagRoom v.x fb → exec (.lload fb sl a) s =
      .next (give w fb 1 l.sc false [.lslot sl.toNat img] {} (l.evs.foldl (fun t e => logEvent w.l.ctx e t) s2))) ∧
    (¬good → exec (.lload fb sl a) s = .next (takeTrap s.cur .word { cause := .aseg, va := addr57 v.a, evs := l.evs }
      { s with tlb := s2.tlb, free := s2.free, dies := s2.dies })) := by
  intro img r good
  have zero := image_eq_zero (m := 512) (l := l.bytes) (by rw [length_readRecord hrec])
  refine ⟨fun ok room => ?_, fun bad => ?_⟩
  · refine runWord_ok (slotLoad_good hread rfl hwho hrec ?_ room)
    exact ok.imp zero.1 fun h => by rw [Bool.and_eq_true]; exact h
  · simp only [good, not_or, not_and_or, Bool.not_eq_true] at bad
    refine runWord_trap (slotLoad_bad hread rfl hwho hrec (fun h => bad.1 (zero.2 h)) ?_)
    rw [Bool.and_eq_false_iff]
    exact bad.2

end

/-! ## BQRY of a slot -/

theorem slotWord_eq (img : BitVec 256) (im : BitVec 7) : BitVec.ofNat 32 (slotWord img im.toNat) =
    if im = 8#7 then (if img = 0#256 then 0#32 else 1#32) else img.extractLsb' (32 * im.toNat) 32 := by
  have last : im.toNat = 8 ↔ im = 8#7 := by rw [← BitVec.toNat_inj]; rfl
  unfold slotWord
  by_cases h8 : im = 8#7
  · rw [if_pos (beq_iff_eq.2 (last.2 h8)), if_pos h8]
    by_cases hz : img = 0#256
    · rw [if_pos hz, hz]; rfl
    · rw [if_neg hz, bne_iff_ne.2 hz]; rfl
  · rw [if_neg (fun b => h8 (last.1 (beq_iff_eq.1 b))), if_neg h8]
    apply BitVec.eq_of_toNat_eq
    rw [toNat_field, BitVec.toNat_ofNat, bitsOf, show 32 * im.toNat + 31 + 1 - 32 * im.toNat = 32 by omega, Nat.mod_mod]

theorem exec_bqrySlot {d : RegNo} {sl : BitVec 5} {im : BitVec 7} {img : BitVec 256} {s s1 s2 : State} {v : Vals}
    (hread : readWord { cls := 9, rsv := decide (9 ≤ im.toNat), out := some (d, 1) } s = .ok (v, s1))
    (hslot : slotRec v.k sl.toNat s1 = .ok (img, s1))
    (hput : writeVals v.k v.x d [⟨if im = 8#7 then (if img = 0#256 then 0#32 else 1#32) else img.extractLsb' (32 * im.toNat) 32, 2#5⟩] s1 =
      .ok ((), s2)) :
    exec (.bqrySlot d sl im) s = .next (s2.modStrand v.k (·.advance 1)) := by
  rw [← slotWord_eq] at hput
  refine runWord_ok ?_
  rw [Exec.bind_ok hread, Exec.bind_ok hslot]
  exact Exec.bind_ok hput

/-! ## FENCE -/

theorem fenceMet_iff (s : State) (k : StrandKey) (x : Strand) (kd : BitVec 2) (scope : Nat) :
    s.fenceMet k x kd.toNat scope = true ↔
      if kd = 0#2 then ∀ y ∈ s.openOf k, y.ask.reads = false else s.openOf k = [] ∧ s.replDoneAt k x scope = true := by
  have acquire : kd.toNat = 0 ↔ kd = 0#2 := by rw [← BitVec.toNat_inj]; rfl
  unfold State.fenceMet
  by_cases h : kd = 0#2
  · rw [if_pos h, if_pos (beq_iff_eq.2 (acquire.2 h)), List.all_eq_true]
    simp only [Bool.not_eq_true']
  · rw [if_neg h, if_neg (fun b => h (acquire.1 (beq_iff_eq.1 b))), Bool.and_eq_true, List.isEmpty_iff]

section
variable {s s1 : State} {v : Vals} (hread : readWord { cls := 10 } s = .ok (v, s1)) {kd : BitVec 2} {sc : BitVec 3}
include hread

theorem exec_fence_met (met : s1.fenceMet v.k v.x kd.toNat sc.toNat = true) :
    exec (.fence kd sc) s = .next (s1.modStrand v.k (·.advance 1)) := by
  refine runWord_ok ?_
  rw [Exec.bind_ok hread, Exec.bind_ok (show (get : Exec State) s1 = .ok (s1, s1) from rfl), if_pos met]
  rfl

theorem exec_fence_waits (met : ¬s1.fenceMet v.k v.x kd.toNat sc.toNat = true) :
    exec (.fence kd sc) s = .next (s.modStrand s.cur (stays .room s.cycle)) := by
  rw [← waits_eq_stays]
  refine runWord_block ?_
  rw [Exec.bind_ok hread, Exec.bind_ok (show (get : Exec State) s1 = .ok (s1, s1) from rfl), if_neg met]
  rfl

end

/-- Settles O26: the two slot loads, their FTAG, the query, and the fence. -/
theorem slotAndFenceWords : Obligations.SlotAndFenceWords := by
  intro s s1 v
  refine ⟨fun fb sl a img0 w l s2 hread hslot hwho hrec => bload_ends hread hwho hslot hrec,
    fun fb sl a w l s2 hread hwho hrec => lload_ends hread hwho hrec, fun fb sl sl3 a x hx hn fits bad => ?_,
    fun d sl im img s2 hread hslot hput => exec_bqrySlot hread hslot hput, fun kd sc hread => ?_⟩
  · exact ⟨runWord_trap (slotLoad_ftag hx hn fits bad), runWord_trap (slotLoad_ftag hx hn fits bad)⟩
  · have iff := fenceMet_iff s1 v.k v.x kd sc.toNat
    exact ⟨fun h => exec_fence_met hread (iff.2 h), fun h => exec_fence_waits hread fun m => h (iff.1 m)⟩

end Sys2Proof.SlotRows

/-! The refutation of O24. The address of a store to the replicated region is that of its die's replica, SPA (0, die, offset). The model
writes it without the loft's key engine, and the claim says nothing of the die's number: the replica of a die 8 lies at the SPAs of the
loft of die 0. There a unit whose keys have changed since its last write is read through the cipher (R234), so that a raw write to its
first bytes changes how the others read. -/

namespace Sys2Proof.StoreFrame

open Sys2Proof Sys2Proof.Machine Sys2Proof.Claims

/-! ## One unit of the loft under other keys than those of its last write -/

def oneUnit : List Byte := 1#8 :: List.replicate 63 0#8
def zeroUnit : List Byte := List.replicate 64 0#8

theorem rekey_oneUnit : lget (rekey 1 0 (2 ^ 43) oneUnit) 8 0#8 = 247#8 := by decide +kernel
theorem rekey_zeroUnit : lget (rekey 1 0 (2 ^ 43) zeroUnit) 8 0#8 = 42#8 := by decide +kernel

/-- Byte 8 of the unit, as it reads in a state that holds the unit so. -/
theorem byteAt_unit {s : State} {l : List Byte} (hmem : memRead s.mem (2 ^ 49) 64 = l) (hkey : tgetD s.loftKey (2 ^ 43) 0 = 1)
    (hframe : s.frameKey 0 0 = 0) : byteAt s (2 ^ 49 + 8) = [lget (rekey 1 0 (2 ^ 43) l) 8 0#8] := by
  have unit : (2 ^ 49 + 8) / 64 = 2 ^ 43 := by norm_num
  have byte : (2 ^ 49 + 8) % 64 = 8 := by norm_num
  have frame : s.frameKey (spaDie (2 ^ 49 + 8)) (frameOfOff (spaOff (2 ^ 49 + 8))) = 0 := hframe
  have frame' : s.frameKey (spaDie (64 * 2 ^ 43)) (frameOfOff (spaOff (64 * 2 ^ 43))) = 0 := hframe
  have loft : (spaSpace (2 ^ 49 + 8) == 1) = true := by decide
  unfold byteAt State.readSpa
  rw [if_pos loft]
  unfold State.loftByte State.loftUnit
  rw [unit, byte, frame, frame', hkey]
  rw [show 64 * 2 ^ 43 = 2 ^ 49 by norm_num, hmem]
  rfl

/-! ## The state -/

/-- Both stages in one set of tables from 0x1000 on: gigabyte 0 maps at itself, page 2 of stage 1 to gigabyte 1, and gigabyte 1 to the
replicated region at OFFSET 0. The unit in the loft holds a byte 1. -/
def pages : List Host.Cell :=
  [(0x1000, 0x01#8), (0x1001, 0x20#8), (0x2000, 0x01#8), (0x2001, 0x30#8), (0x3000, 0x0F#8), (0x3008, 0x4F#8), (0x3010, 0x0F#8),
   (0x3013, 0x40#8), (2 ^ 49, 1#8)]

/-- A record of 32-bit elements of the repl segment at 0x80000000, which may be read and written. -/
def replRecord : BitVec 256 := BitVec.ofNat 256 (0x80000000 + 5 * 2 ^ 57 + 3 * 2 ^ 60 + 4 * 2 ^ 64 + 16 * 2 ^ 96 + 2 * 2 ^ 136 + 2 * 2 ^ 141)

def launch0 : Launch :=
  { id := 0, ctx := 0, rc := LaunchRec.blank, recAddr := 0, killed := false, dfc := 0, origin := .queue 0 0, first := 0, total := 1,
    placed := 1, ended := 0, bound := 0, fired := [], outs := [], silent := true, code := [], codeKey := [], lslot := none }

def ctx0 : Ctx :=
  { d := { CtxDesc.blank with root1 := 0x1000, root2 := 0x1000 }, valid := true, dying := false, count := 0, queues := [], rings := [],
    reqs := [], nextReq := 0 }

def richDie : Die := { Die.zero with accts := [{ Acct.zero with hbm := 16 }] }

/-- A strand of a group on a die 8 that is a member. -/
def storing : State :=
  { State.reset with
    mem := pages, loftKey := [(2 ^ 43, 1)], ctxs := [(0, ctx0)], launches := [(0, launch0)], dies := List.replicate 9 richDie, memb := 0x1FF,
    replSize := 0x10000, strands := [(noStrandKey, Strand.fresh 0#57 8)],
    groups := [(noStrandKey.grp, { Group.fresh LaunchRec.blank 1 8 0 0 0 false with slots := [replRecord] })] }

/-- A store of `zr` at element 0. -/
def zeroStore : Instr := .st false 126#7 0#5 126#7
def zeroRow : SRow := (false, stForm 126#7 126#7 1, 0#5, [0, 1, 2], none)

/-- What the store's access has found, and that it is performed as it issues. -/
def performsAt (a : Acc) (s1 : State) : Bool :=
  let h := storeAsk zeroRow a s1
  a.t.loc == .repl 8 0 && a.r.esz == 2 && !a.t.sc && !s1.replHeld 8 &&
    (a.w.x.selFlag false).all (fun f => decide (lget a.w.x.flags f 0 < 15)) && s1.inTurn h && !s1.late && (waitAccess h s1).isOk &&
    decide (reachOf h (numbered s1) = .here)

theorem storing_accesses : (accessWord zeroRow.2.1 zeroRow.2.2.1 (storeNeeds zeroRow.2.2.2.1) (fun _ => .any) storing).toOption.any
    (fun r => performsAt r.1 r.2) = true := by decide +kernel

theorem exists_of_toOption_any {α : Type} {m : Except Stop (α × State)} {p : α × State → Bool} (h : m.toOption.any p = true) :
    ∃ a t, m = .ok (a, t) ∧ p (a, t) = true := by
  cases m with
  | error e => cases h
  | ok r => exact ⟨r.1, r.2, rfl, h⟩

/-- An access that waits for nothing leaves the state as it is. -/
theorem waitAccess_isOk {h : Held} {s : State} (ok : (waitAccess h s).isOk = true) : waitAccess h s = .ok ((), s) := by
  cases hw : waitAccess h s with
  | error e => rw [hw] at ok; cases ok
  | ok r =>
    unfold waitAccess at hw
    dsimp only at hw
    split at hw
    · cases hw
    · cases hw
    · split at hw
      · cases hw
      · split at hw <;> split at hw <;> cases hw <;> rfl

/-- The state after the store, as far as the unit goes. -/
theorem storing_exec : ∃ t, exec zeroStore storing = .next t ∧ memRead t.mem (2 ^ 49) 64 = zeroUnit ∧ tgetD t.loftKey (2 ^ 43) 0 = 1 ∧
    t.frameKey 0 0 = 0 := by
  have run : (match exec zeroStore storing with
      | .next t => memRead t.mem (2 ^ 49) 64 == zeroUnit && tgetD t.loftKey (2 ^ 43) 0 == 1 && t.frameKey 0 0 == 0
      | _ => false) = true := by decide +kernel
  split at run
  · rename_i t ht
    rw [Bool.and_eq_true, Bool.and_eq_true, beq_iff_eq, beq_iff_eq, beq_iff_eq] at run
    exact ⟨t, ht, run.1.1, run.1.2, run.2⟩
  · cases run

theorem storing_wf : storing.memsWf := by
  refine ⟨by decide, fun e he => ?_, fun e he => nomatch he⟩
  rw [List.mem_singleton.1 he]
  rfl

/-- Refutes O24: after the store at SPA 2^49, byte 8 of the unit reads 42 and no longer 247. -/
theorem not_storeFrame : ¬ Obligations.StoreFrame := by
  intro claim
  obtain ⟨a, s1, access, found⟩ := exists_of_toOption_any storing_accesses
  simp only [performsAt, Bool.and_eq_true, beq_iff_eq, Bool.not_eq_true', decide_eq_true_eq] at found
  obtain ⟨⟨⟨⟨⟨⟨⟨⟨loc, size⟩, plain⟩, takes⟩, room⟩, turn⟩, punctual⟩, free⟩, here⟩ := found
  have ready : storeReady zeroRow a s1 := by
    refine ⟨fun f hf => ?_, fun sc => ?_, fun d o hl => ?_⟩
    · rw [show a.w.x.selFlag false = some f from hf] at room
      exact of_decide_eq_true room
    · rw [plain] at sc; cases sc
    · rw [loc] at hl; cases hl; exact takes
  have same : committed a zeroRow.2.1.len s1 = s1 := if_neg (by rw [plain]; exact Bool.false_ne_true)
  obtain ⟨-, performed⟩ := claim.1 zeroStore zeroRow storing s1 a storing_wf rfl access ready
  rw [same] at performed
  obtain ⟨t, ht, frame⟩ := (performed ⟨turn, punctual⟩ (waitAccess_isOk free)).1 here
  obtain ⟨u, hu, mem, key, keys⟩ := storing_exec
  rw [hu] at ht
  cases ht
  unfold OnlyAt at frame
  rw [loc, size] at frame
  have outside := frame.1 (2 ^ 49 + 8) (.inr (by decide))
  rw [byteAt_unit mem key keys, rekey_zeroUnit, byteAt_unit (l := oneUnit) rfl rfl rfl, rekey_oneUnit] at outside
  exact absurd outside (by decide)

end Sys2Proof.StoreFrame

/-! Handle words (R202 to R207, R217 to R221): HQ, HSET, HWAIT and HREL. -/

namespace Sys2Proof.HandleRows

open Sys2Proof Sys2Proof.Machine Sys2Proof.Claims Sys2Proof.ValueWords Sys2Proof.Operands Sys2Proof.Control Sys2Proof.MathRows
  Sys2Proof.LoadStoreRows Sys2Proof.CoreAccesses

/-! ## HQ -/

theorem state_beq {p q : HState} : (p == q) = true ↔ p = q := by cases p <;> cases q <;> decide

/-- Word 0 of an entry: its state in bits 1:0 and one bit for each of its flags. -/
theorem word0_eq (h : Handle) : BitVec.ofNat 32 h.word0 = handleValue h 0 := by
  have held : (h.nout != 0) = decide (0 < h.nout) := by cases h.nout <;> simp
  simp only [Handle.word0, handleValue, held]
  generalize decide (0 < h.nout) = d
  cases h.state <;> cases h.psn <;> cases h.bound <;> cases h.heldIn <;> cases d <;> rfl

theorem query_eq (h : Handle) (sel : Nat) : BitVec.ofNat 32 (h.query sel) = handleValue h sel := by
  match sel with
  | 0 => exact word0_eq h
  | 1 => exact BitVec.ofNat_toNat ..
  | 2 => exact BitVec.ofNat_toNat ..
  | 3 => cases hb : h.bound <;> simp [Handle.query, handleValue, hb]
  | 4 => cases hb : h.bound <;> simp [Handle.query, handleValue, hb]
  | 5 => cases hb : h.bound <;> simp [Handle.query, handleValue, hb]
  | n + 6 => cases hb : h.bound <;> simp [Handle.query, handleValue, hb]

theorem exec_of_hqRow {s : State} {i : Instr} {sp : WordForm} {f : Vals → List TVal × Log} (h : hqRow s i = some (sp, f)) :
    exec i s = runWord s.cur (valueWord sp f) s := by
  unfold hqRow at h
  split at h <;> cases h
  exact runValue_congr fun w => congrArg (one 2#5) (query_eq _ _)

theorem gives_hqRow : Gives hqRow := fun _ _ _ _ _ _ _ hrow hread hput =>
  (exec_of_hqRow hrow).trans (runWord_ok (valueWord_ok hread hput))

/-! ## HSET -/

section
variable {hn : BitVec 7} {a b : RegNo} {s s1 : State} {v : Vals} {x : Group} {l : Launch}
  (hread : readWord { cls := 12, a := some { n := a, acc := .int }, b := some { n := b, acc := .int } } s = .ok (v, s1))
  (hgroup : s1.group v.k.grp = some x) (hlaunch : s1.launch v.k.grp.launch = some l)
include hread hgroup hlaunch

theorem exec_hset_fault {ca : Cause}
    (fault : hsetFault (w32 v.a) (w32 v.b) hn.toNat v.k.grp x l.rc (s1.yardOf l.ctx) s1 = some ca) :
    exec (.hset hn a b) s = .next (takeTrap s.cur .word { cause := ca } { s with tlb := s1.tlb, free := s1.free, dies := s1.dies }) := by
  refine runWord_trap ?_
  rw [Exec.bind_ok hread, Exec.bind_ok (show (get : Exec State) s1 = .ok (s1, s1) from rfl)]
  simp only [hgroup, hlaunch, need_some, pure_bind, ofNat_v32, fault]
  rfl

variable (sound : hsetFault (w32 v.a) (w32 v.b) hn.toNat v.k.grp x l.rc (s1.yardOf l.ctx) s1 = none)
include sound

theorem exec_hset_free (free : (s1.handle v.k.grp hn.toNat).state = .free)
    (target : fieldAt (s1.syncAt v.k.grp x (w32 v.b)) 0 4 ≠ 0) :
    let e := s1.handle v.k.grp hn.toNat
    let m := s1.syncAt v.k.grp x (w32 v.b)
    let e' := { e with bound := true, buf := w32 v.a, sync := w32 v.b, target := fieldAt m 0 4, count := 0, gen := fieldAt m 8 4,
                       psn := false, ovr := false, fcause := 0 }
    exec (.hset hn a b) s = .next (State.modStrand
      (handleEvent v.k.grp hn.toNat id (syncWrite v.k.grp e' (setHandle v.k.grp hn.toNat e' s1))) v.k (·.advance 1)) := by
  refine runWord_ok ?_
  rw [Exec.bind_ok hread, Exec.bind_ok (show (get : Exec State) s1 = .ok (s1, s1) from rfl)]
  simp only [hgroup, hlaunch, need_some, pure_bind, ofNat_v32, sound]
  rw [if_pos (show ((s1.handle v.k.grp hn.toNat).state == HState.free) = true by rw [free]; rfl), bne_iff_ne.2 target]
  rfl

theorem exec_hset_bound (held : (s1.handle v.k.grp hn.toNat).state ≠ .free) (buf : (s1.handle v.k.grp hn.toNat).buf = w32 v.a)
    (sync : (s1.handle v.k.grp hn.toNat).sync = w32 v.b) : exec (.hset hn a b) s = .next (s1.modStrand v.k (·.advance 1)) := by
  refine runWord_ok ?_
  rw [Exec.bind_ok hread, Exec.bind_ok (show (get : Exec State) s1 = .ok (s1, s1) from rfl)]
  simp only [hgroup, hlaunch, need_some, pure_bind, ofNat_v32, sound, buf, sync, beq_self_eq_true, Bool.and_self]
  rw [if_neg (show ¬((s1.handle v.k.grp hn.toNat).state == HState.free) = true from fun t => held (state_beq.1 t))]
  rfl

end

/-! ## HWAIT -/

/-- The state that a handle wait waits for. -/
def wanted (m : BitVec 1) : HState := if m = 1#1 then .free else .full

theorem wanted_eq (m : BitVec 1) : (if m == 1#1 then HState.free else HState.full) = wanted m := by
  simp [wanted]

/-- What a handle wait does once its operands are read and its flag has room. -/
def hwaitEnd (fb : Bool) (d : RegNo) (m : BitVec 1) (v : Vals) (h : Handle) : Exec Unit :=
  if h.state == wanted m then do
    if m == 0#1 && h.psn then trapWith { cause := .hpsn, va := descOff h.sync }
    match v.x.selFlag fb with
    | none => do
      writeVals v.k v.x d [⟨BitVec.ofNat 32 h.gen, 2#5⟩]
      done v 1 {}
    | some _ => do
      let pl ← places v.k v.x d 1
      let id ← freshId
      act (issuePend { Pend.blank id v.k v.x fb 1 with dests := destsOf pl [⟨BitVec.ofNat 32 h.gen, 2#5⟩] })
  else block .handle

section
variable {fb : Bool} {d : RegNo} {m : BitVec 1} {v : Vals} {h : Handle} {s s2 : State}

theorem hwaitEnd_waits (other : h.state ≠ wanted m) : hwaitEnd fb d m v h s = .error (.block .handle) := by
  unfold hwaitEnd
  rw [if_neg fun t => other (state_beq.1 t)]
  rfl

theorem hwaitEnd_poisoned (reached : h.state = wanted m) (full : m = 0#1) (psn : h.psn = true) :
    hwaitEnd fb d m v h s = .error (.trap { cause := .hpsn, va := descOff h.sync } s) := by
  unfold hwaitEnd
  rw [if_pos (state_beq.2 reached), full, psn]
  exact Exec.bind_error (trapWith_run _ s)

section
variable (reached : h.state = wanted m) (sound : m = 1#1 ∨ h.psn = false)
include reached sound

theorem hwaitEnd_sync (hf : v.x.selFlag fb = none) (hput : writeVals v.k v.x d [⟨BitVec.ofNat 32 h.gen, 2#5⟩] s = .ok ((), s2)) :
    hwaitEnd fb d m v h s = .ok ((), s2.modStrand v.k (·.advance 1)) := by
  have pass : (m == 0#1 && h.psn) = false := by rcases sound with r | r <;> rw [r] <;> simp
  unfold hwaitEnd
  rw [if_pos (state_beq.2 reached), pass]
  simp only [Bool.false_eq_true, if_false, hf]
  exact Exec.bind_ok hput

theorem hwaitEnd_async {f : Nat} {pl : List Place} (hf : v.x.selFlag fb = some f) (hplaces : places v.k v.x d 1 s = .ok (pl, s2)) :
    hwaitEnd fb d m v h s =
      .ok ((), leave (pendOf s2 v.k v.x f 1 (destsOf pl [⟨BitVec.ofNat 32 h.gen, 2#5⟩]) {} false) f s2) := by
  have pass : (m == 0#1 && h.psn) = false := by rcases sound with r | r <;> rw [r] <;> simp
  unfold hwaitEnd
  rw [if_pos (state_beq.2 reached), pass]
  simp only [Bool.false_eq_true, if_false, hf]
  refine (Exec.bind_ok hplaces).trans ?_
  show Except.ok ((), issuePend _ _) = _
  simp only [issuePend, Pend.blank, hf]
  rfl

end

end

section
variable {fb : Bool} {d : RegNo} {hn : BitVec 7} {m : BitVec 1} {s s1 : State} {v : Vals}
  (hread : readWord { cls := 12, rsv := !s.handleOk s.cur.grp hn.toNat, out := some (d, 1) } s = .ok (v, s1)) (room : FlagRoom v.x fb)
include hread room

theorem hwait_reads : hwait fb d hn m s = hwaitEnd fb d m v (s1.handle v.k.grp hn.toNat) s1 := by
  unfold hwait
  rw [Exec.bind_ok (show (get : Exec State) s = .ok (s, s) from rfl), Exec.bind_ok hread, flagRoom_of_room v.x room]
  simp only [wanted_eq]
  rfl

end

/-! ## HREL -/

theorem release_eq : Handle.release = fun h => if h.nout = 0 then h.reachFree else { h with state := .draining } := by
  funext h
  simp [Handle.release]

section
variable {hn : BitVec 7} {b : RegNo} {s s1 : State} {v : Vals}
  (hread : readWord { cls := 12, rsv := !s.handleOk s.cur.grp hn.toNat, b := some { n := b, acc := .int } } s = .ok (v, s1))
include hread

theorem exec_hrel_releases (full : (s1.handle v.k.grp hn.toNat).state = .full)
    (gen : (s1.handle v.k.grp hn.toNat).gen = (w32 v.b).toNat) :
    exec (.hrel hn b) s = .next (handleEvent v.k.grp hn.toNat (fun h =>
      if h.nout = 0 then h.reachFree else { h with state := .draining }) (s1.modStrand v.k (·.advance 1))) := by
  refine runWord_ok ?_
  rw [Exec.bind_ok hread, Exec.bind_ok (show (get : Exec State) s1 = .ok (s1, s1) from rfl)]
  refine (Exec.bind_ok (show done v 1 {} s1 = .ok ((), s1.modStrand v.k (·.advance 1)) from rfl)).trans ?_
  rw [if_pos, release_eq]
  · rfl
  · rw [Bool.and_eq_true, state_beq, beq_iff_eq, v32_eq_toNat]
    exact ⟨full, gen⟩

theorem exec_hrel_passes (other : (s1.handle v.k.grp hn.toNat).state ≠ .full ∨ (s1.handle v.k.grp hn.toNat).gen ≠ (w32 v.b).toNat) :
    exec (.hrel hn b) s = .next (s1.modStrand v.k (·.advance 1)) := by
  refine runWord_ok ?_
  rw [Exec.bind_ok hread, Exec.bind_ok (show (get : Exec State) s1 = .ok (s1, s1) from rfl)]
  refine (Exec.bind_ok (show done v 1 {} s1 = .ok ((), s1.modStrand v.k (·.advance 1)) from rfl)).trans ?_
  rw [if_neg]
  · rfl
  · rw [Bool.and_eq_true, state_beq, beq_iff_eq, v32_eq_toNat]
    rintro ⟨full, gen⟩
    exact other.elim (fun h => h full) fun h => h gen

end

/-- Settles O31: the query is a value word; HSET by its checks, HWAIT by the state that it meets, HREL by the generation it names. -/
theorem handleWords : Obligations.HandleWords := by
  refine ⟨gives_hqRow, fun hn a b s s1 v x l hread hgroup hlaunch => ⟨fun sound => ⟨fun free target => ?_, fun held buf sync => ?_⟩,
      fun ca fault => ?_⟩, fun fb d hn m s s1 v hread room => ⟨fun reached sound => ⟨fun s2 hf hput => ?_, fun f pl s2 hf hplaces => ?_⟩,
      fun full m0 psn => ?_, fun other => ?_⟩, fun hn b s s1 v hread => ⟨fun full gen => ?_, fun other => ?_⟩⟩
  · exact exec_hset_free hread hgroup hlaunch sound free target
  · exact exec_hset_bound hread hgroup hlaunch sound held buf sync
  · exact exec_hset_fault hread hgroup hlaunch fault
  · exact runWord_ok ((hwait_reads hread room).trans (hwaitEnd_sync reached sound hf hput))
  · exact runWord_ok ((hwait_reads hread room).trans (hwaitEnd_async reached sound hf hplaces))
  · have reached : (s1.handle v.k.grp hn.toNat).state = wanted m := by rw [full, m0]; rfl
    exact runWord_trap ((hwait_reads hread room).trans (hwaitEnd_poisoned reached m0 psn))
  · rw [← waits_eq_stays]
    exact runWord_block ((hwait_reads hread room).trans (hwaitEnd_waits other))
  · exact exec_hrel_releases hread full gen
  · exact exec_hrel_passes hread other

end Sys2Proof.HandleRows

/-! The states of a handle (Table 10.3): one lemma per operation and state. -/

namespace Sys2Proof.HandleTable

open Sys2Proof Sys2Proof.Machine Sys2Proof.Claims Sys2Proof.HandleRows

variable {h : Handle} {n : Nat}

/-! ## Arrivals -/

theorem arrive_filling (st : h.state = .filling) (short : h.count + n < h.target) : h.arrive n = { h with count := h.count + n } := by
  simp [Handle.arrive, st, short]

theorem arrive_complete (st : h.state = .filling) (enough : h.target ≤ h.count + n) : h.arrive n = h.complete (h.count + n) := by
  simp [Handle.arrive, st, Nat.not_lt.2 enough]

/-- A generation that ends with its target exactly is full and sound; nothing is carried. -/
theorem complete_exact : h.complete h.target = { h with state := .full, gen := (h.gen + 1) % 2 ^ 32, count := 0 } := by
  simp [Handle.complete]

theorem complete_excess {c : Nat} (more : h.target < c) :
    h.complete c = { h with state := .full, gen := (h.gen + 1) % 2 ^ 32, count := c - h.target, psn := true, ovr := true } := by
  simp [Handle.complete, more]

theorem arrive_past (st : h.state = .full ∨ h.state = .draining) :
    h.arrive n = { h with count := (h.count + n) % 2 ^ 32, ovr := true } := by
  rcases st with st | st <;> simp [Handle.arrive, st]

theorem arrive_free (st : h.state = .free) : h.arrive n = { h with count := (h.count + n) % 2 ^ 32 } := by
  simp [Handle.arrive, st]

/-! ## Reaching free -/

theorem reachFree_eq : h.reachFree = carriedOn h := by
  unfold Handle.reachFree carriedOn
  by_cases none : h.count = 0
  · simp [none]
  · by_cases short : h.count < h.target
    · simp [none, short]
    · simp [none, short, Handle.complete]

theorem release_drains (out : h.nout ≠ 0) : h.release = { h with state := .draining } := by simp [Handle.release, out]

theorem release_frees (out : h.nout = 0) : h.release = carriedOn h := by simp [Handle.release, out, reachFree_eq]

/-- The end of the last outbound item frees a draining handle. -/
theorem itemDone_frees (st : h.state = .draining) (last : h.nout = 1) : h.itemDone false = carriedOn { h with nout := 0 } := by
  have drained : (h.state == HState.draining && h.nout - 1 == 0) = true := by rw [st, last]; rfl
  simp only [Handle.itemDone, Bool.false_eq_true, if_false]
  rw [if_pos drained, reachFree_eq, last]

theorem itemDone_counts (st : h.state ≠ .draining ∨ 1 < h.nout) : h.itemDone false = { h with nout := h.nout - 1 } := by
  have stays : ¬(h.state == HState.draining && h.nout - 1 == 0) = true := by
    rw [Bool.and_eq_true, state_beq, beq_iff_eq]
    rintro ⟨draining, zero⟩
    exact st.elim (fun other => other draining) fun more => by omega
  simp only [Handle.itemDone, Bool.false_eq_true, if_false]
  rw [if_neg stays]

/-! ## Items -/

theorem takeOut_free (st : h.state = .free) : h.takeOut = (false, { h with nout := h.nout + 1, state := .draining }) := by
  simp [Handle.takeOut, st]

theorem takeOut_past (st : h.state = .full ∨ h.state = .draining) : h.takeOut = (false, { h with nout := h.nout + 1 }) := by
  rcases st with st | st <;> simp [Handle.takeOut, st]

theorem takeOut_filling (st : h.state = .filling) : h.takeOut = (true, { h with nout := h.nout + 1 }) := by simp [Handle.takeOut, st]

theorem unhold_starts (st : h.state = .free ∨ h.state = .filling) (held : h.heldIn = true) :
    h.unhold = { h with state := .filling, heldIn := false } := by
  rcases st with st | st <;> simp [Handle.unhold, st, held]

theorem takeIn_starts (st : h.state = .free ∨ h.state = .filling) :
    h.takeIn = (false, { h with nin := h.nin + 1, state := .filling }) := by
  rcases st with st | st <;> simp [Handle.takeIn, st]

theorem takeIn_held (st : h.state = .full ∨ h.state = .draining) : h.takeIn = (true, { h with nin := h.nin + 1, heldIn := true }) := by
  rcases st with st | st <;> simp [Handle.takeIn, st]

/-- The first cause of a generation stays. -/
theorem poison_fcause (c : Cause) : (h.poison c).psn = true ∧ (h.fcause = 0 → (h.poison c).fcause = c.code) ∧
    (h.fcause ≠ 0 → (h.poison c).fcause = h.fcause) :=
  ⟨rfl, fun z => by simp [Handle.poison, z], fun nz => by simp [Handle.poison, nz]⟩

/-- Settles O46: the rows of Table 10.3 in their order. -/
theorem handleStates : Obligations.HandleStates := fun _ _ =>
  ⟨arrive_filling, fun st e => by rw [arrive_complete st (Nat.le_of_eq e.symm), e, complete_exact],
    fun st more => by rw [arrive_complete st (Nat.le_of_lt more), complete_excess more], arrive_past, arrive_free, release_drains,
    release_frees, itemDone_frees, itemDone_counts, rfl, takeOut_free, takeOut_past, takeOut_filling, unhold_starts, takeIn_starts,
    takeIn_held, poison_fcause⟩

end Sys2Proof.HandleTable

/-! The arrival of class 0xB words (R178 to R180, R186, R188), and the issue of an array command (R178 to R183). -/

namespace Sys2Proof.MatrixRows

open Sys2Proof Sys2Proof.Machine Sys2Proof.Claims Sys2Proof.ValueWords Sys2Proof.Operands Sys2Proof.MathRows Sys2Proof.CircleRows
  Sys2Proof.LoadStoreRows Sys2Proof.CoreAccesses

/-! ## Arrivals -/

section
variable {s s1 : State} {v : Vals} {g : Group} (hg : s.group v.k.grp = some g) {a : Arrival}
include hg

theorem arrive_mmHeld (agree : ((tgetD g.circ (v.k.tid / 32, .matrix) ⟨s.cycle, []⟩).arr.all (mmAgree a)) = true) :
    arrive v.k .matrix mmAgree a s = mmHeld v (tgetD g.circ (v.k.tid / 32, .matrix) ⟨s.cycle, []⟩) a s := by
  unfold arrive
  simp only [hg, agree, if_true]
  rfl

/-- A rendezvous that is not full waits. -/
theorem settleMatrix_short (ci : Machine.Circle)
    (short : (mmHeld v ci a s).instFull v.k.grp g.size (v.k.tid / 32) .matrix (ci.arr ++ [a]) = false) :
    settleMatrix v.k.grp (v.k.tid / 32) (mmHeld v ci a s) = mmHeld v ci a s := by
  have group : (mmHeld v ci a s).group v.k.grp =
      some { g with circ := tset g.circ (v.k.tid / 32, .matrix) { ci with arr := ci.arr ++ [a] } } := by
    show tget (tmod s.groups v.k.grp _) v.k.grp = _
    rw [tget_tmod_self, show tget s.groups v.k.grp = some g from hg]
    rfl
  unfold settleMatrix
  cases hl : (mmHeld v ci a s).launch v.k.grp.launch with
  | none => simp only [group]
  | some l =>
    simp only [group, tgetD, tget_tset_self, Option.getD_some]
    exact if_neg (by rw [short]; exact Bool.false_ne_true)

end

/-- The last steps of a class 0xB word: the room in `mq`, and the arrival in the state before the word. -/
def mmLast (sp : WordForm) (room : Nat) (s0 : State) (v : Vals) (w : BitVec 32) (ql : Bool) : Exec Unit := do
  let t ← need (s0.thread v.k.thread)
  if t.mqIn.room room then pure () else block .queue
  set s0
  let iw ← need v.x.word
  act fun s => settleMatrix v.k.grp (v.k.tid / 32) (arrive v.k .matrix mmAgree (mmArrival sp v iw w ql) s)

/-- Before them, the wait of a flagged barrier and the room for the result. -/
def mmHold (sp : WordForm) (room : Nat) (s0 : State) (v : Vals) (w : BitVec 32) (ql : Bool) : Exec Unit := do
  holdForBar v.k
  match sp.out with
  | some o => do
    placesRoom v.k o.1 o.2
    mmLast sp room s0 v w ql
  | none => mmLast sp room s0 v w ql

/-- What a class 0xB word does once its operands and its command are read. -/
def mmEnd (fb : Option Bool) (sp : WordForm) (ok : Vals → Bool) (room : Nat) (s0 : State) (v : Vals) (w : BitVec 32) (ql : Bool) :
    Exec Unit := do
  check (ok v) .irsv
  match fb with
  | some b => do
    flagRoom v.x b
    mmHold sp room s0 v w ql
  | none => mmHold sp room s0 v w ql

section
variable {fb : Option Bool} {sp : WordForm} {room : Nat} {s s1 s2 : State} {v : Vals} {w : BitVec 32} {ql : Bool}

section
variable {th : Thread} {iw : BitVec 32} (hth : s.thread v.k.thread = some th) (enough : th.mqIn.room room = true)
  (hw : v.x.word = some iw)
include hth enough hw

theorem mmLast_run : mmLast sp room s v w ql s2 =
    .ok ((), settleMatrix v.k.grp (v.k.tid / 32) (arrive v.k .matrix mmAgree (mmArrival sp v iw w ql) s)) := by
  unfold mmLast
  simp only [hth, need_some, pure_bind, enough, if_true, hw]
  rfl

variable (free : s2.barWaiting v.k = false) (hroom : resultRoom s2 v.k sp)
include free hroom

theorem mmHold_run : mmHold sp room s v w ql s2 =
    .ok ((), settleMatrix v.k.grp (v.k.tid / 32) (arrive v.k .matrix mmAgree (mmArrival sp v iw w ql) s)) := by
  have hold : holdForBar v.k s2 = .ok ((), s2) := by simp [holdForBar, free]
  unfold mmHold
  rw [Exec.bind_ok hold]
  cases ho : sp.out with
  | none => exact mmLast_run hth enough hw
  | some o => exact (Exec.bind_ok (placesRoom_of_resultRoom hroom ho)).trans (mmLast_run hth enough hw)

theorem mmEnd_run {ok : Vals → Bool} (good : ok v = true) (flag : ∀ b, fb = some b → FlagRoom v.x b) :
    mmEnd fb sp ok room s v w ql s2 =
      .ok ((), settleMatrix v.k.grp (v.k.tid / 32) (arrive v.k .matrix mmAgree (mmArrival sp v iw w ql) s)) := by
  unfold mmEnd
  rw [good, check_true, pure_bind]
  cases fb with
  | none => exact mmHold_run hth enough hw free hroom
  | some b =>
    simp only [flagRoom_of_room v.x (flag b rfl), pure_bind]
    exact mmHold_run hth enough hw free hroom

end

/-- What a form without a d operand reads, and its tags. -/
theorem reads_ab (nod : sp.d = none) (hread : readWord sp s = .ok (v, s2)) :
    v.k = s.cur ∧ s.strand s.cur = some v.x ∧ sp.encFault s.cur.kind v.x = none ∧ v.d = [] ∧
      (tagsOk sp.a v.a && tagsOk sp.b v.b) = true ∧
      ∃ t, readOpt s.cur v.x sp.a s = .ok (v.a, t) ∧ readOpt s.cur v.x sp.b t = .ok (v.b, s2) := by
  have read := wordRead_of_ok hread
  obtain ⟨t, u, ha, hb, hd⟩ := read.reads
  rw [nod] at hd
  obtain ⟨none_, rfl⟩ := Prod.mk.inj (Except.ok.inj hd)
  have tags := read.tags
  rw [nod, Bool.and_eq_true] at tags
  exact ⟨read.key, read.strand, read.fits, none_.symm, tags.1, t, ha, hb⟩

/-- The scale registers of a place that supplies scales carry the scale tag, as the model tests them. -/
theorem scales_all (h : scalesTagged v w) :
    (((if mmSupplies w (v.k.tid % 32) then some (mmSreg w, mmScaleRegs w) else none).map
      fun (o : RegNo × Nat) => v.x.regsAt o.1 o.2).getD []).all (·.tag == 9#5) = true := by
  cases supplies : mmSupplies w (v.k.tid % 32) with
  | false => rfl
  | true =>
    rw [if_pos rfl, Option.map_some, Option.getD_some, List.all_eq_true]
    exact fun y hy => beq_iff_eq.2 (h supplies y hy)

variable (ok : Vals → Bool) {l : Launch} (hl : s.launch s.cur.grp.launch = some l) (nod : sp.d = none)
include hl nod

/-- A word without a literal. -/
theorem mmWord_plain (hread : readWord sp s = .ok (v, s2)) : mmWord fb sp none ok room s = mmEnd fb sp ok room s v 0#32 false s2 := by
  obtain ⟨key, strand, fits, hd, tags, t, ha, hb⟩ := reads_ab nod hread
  obtain ⟨k, x, a, b, d⟩ := v
  obtain rfl : k = s.cur := key
  obtain rfl : d = [] := hd
  unfold mmWord
  rw [Exec.bind_ok (show (get : Exec State) s = .ok (s, s) from rfl), Exec.bind_ok (curStrand_some strand)]
  simp only [hl, need_some, pure_bind, Option.map_none, Option.getD_none, fits]
  rw [Exec.bind_ok ha, Exec.bind_ok hb]
  simp only [Bool.false_eq_true, if_false, tags, List.all_nil, Bool.and_true, check_true, pure_bind]
  rfl

/-- A word whose literal is its command. -/
theorem mmWord_literal (notPopped : litQl w = false) (tagged : scalesTagged v w)
    (hread : readWord { sp with
      rsv := sp.rsv || !(!litQl w && mmLitOk w && mmClassOk l.rc.fmt w), more := if mmSupplies w (s.cur.tid % 32) then some (mmSreg w, mmScaleRegs w) else none } s = .ok (v, s2)) :
    mmWord fb sp (some w) ok room s = mmEnd fb sp ok room s v w false s2 := by
  obtain ⟨key, strand, fits, hd, tags, t, ha, hb⟩ := reads_ab (sp := { sp with
    rsv := sp.rsv || !(!litQl w && mmLitOk w && mmClassOk l.rc.fmt w), more :=
      if mmSupplies w (s.cur.tid % 32) then some (mmSreg w, mmScaleRegs w) else none }) nod hread
  have scales := scales_all tagged
  obtain ⟨k, x, a, b, d⟩ := v
  obtain rfl : k = s.cur := key
  obtain rfl : d = [] := hd
  unfold mmWord
  rw [Exec.bind_ok (show (get : Exec State) s = .ok (s, s) from rfl), Exec.bind_ok (curStrand_some strand)]
  simp only [hl, need_some, pure_bind, Option.map_some, Option.getD_some, notPopped, Bool.false_eq_true, if_false, Bool.not_false,
    Bool.true_and]
  rw [notPopped] at fits
  simp only [Bool.not_false, Bool.true_and] at fits
  simp only [fits]
  rw [Exec.bind_ok ha, Exec.bind_ok hb]
  simp only [scales, tags, Bool.and_true, check_true, pure_bind]
  rfl

/-- A word with QL set: its command is popped from `mq`. -/
theorem mmWord_popped {lit : BitVec 32} {c : TVal} (popped : litQl lit = true)
    (hread : readWord { sp with rsv := sp.rsv || !mmLitOk lit } s = .ok (v, s1)) (hpop : popVals v.k .mqOut 1 s1 = .ok ([c], s2))
    (good : (!litQl c.bits && mmLitOk c.bits && mmClassOk l.rc.fmt c.bits) = true)
    (fit : mmSupplies c.bits (v.k.tid % 32) = true → v.x.inWindow (mmSreg c.bits) (mmScaleRegs c.bits) = true)
    (tagged : scalesTagged v c.bits) :
    mmWord fb sp (some lit) ok room s = mmEnd fb sp ok room s v c.bits true s2 := by
  obtain ⟨key, strand, fits, hd, tags, t, ha, hb⟩ := reads_ab (sp := { sp with rsv := sp.rsv || !mmLitOk lit }) nod hread
  have scales := scales_all tagged
  have word : BitVec.ofNat 32 (v32 [c]) = c.bits := ofNat_v32 [c]
  have inside : (if mmSupplies c.bits (v.k.tid % 32) then some (mmSreg c.bits, mmScaleRegs c.bits) else none).all
      (fun (o : RegNo × Nat) => v.x.inWindow o.1 o.2) = true := by
    cases supplies : mmSupplies c.bits (v.k.tid % 32) with
    | false => rfl
    | true => exact fit supplies
  obtain ⟨k, x, a, b, d⟩ := v
  obtain rfl : k = s.cur := key
  obtain rfl : d = [] := hd
  unfold mmWord
  rw [Exec.bind_ok (show (get : Exec State) s = .ok (s, s) from rfl), Exec.bind_ok (curStrand_some strand)]
  simp only [hl, need_some, pure_bind, Option.map_some, Option.getD_some, popped, if_true, fits]
  rw [Exec.bind_ok ha, Exec.bind_ok hb, Exec.bind_ok hpop]
  simp only [word, good, inside, scales, tags, Bool.and_true, check_true, pure_bind]
  rfl

end

/-- The word of a row whose operands and command have been read comes to its last steps. -/
theorem exec_of_mmRow {i : Instr} {fb : Option Bool} {sp : WordForm} {ok : Vals → Prop} {room : Nat} {s s2 : State} {v : Vals}
    {w : BitVec 32} {ql : Bool} {l : Launch} (hrow : mmRow s i = some (fb, sp, ok, room)) (hl : s.launch s.cur.grp.launch = some l)
    (hread : mmReads s l.rc.fmt i sp v w ql s2) :
    ∃ test : Vals → Bool, (∀ v, ok v → test v = true) ∧
      ∀ t, mmEnd fb sp test room s v w ql s2 = .ok ((), t) → exec i s = .next t := by
  unfold mmRow at hrow
  split at hrow <;> cases hrow
  case h_1 fb' tile a => /- MMINIT -/
    obtain ⟨rfl, rfl, hread⟩ := hread
    refine ⟨_, fun v hv => ?_, fun t run => runWord_ok ((mmWord_plain _ hl rfl hread).trans run)⟩
    simp only [ival_eq_toInt, Bool.and_eq_true, decide_eq_true_eq]
    exact hv
  case h_2 fb' tile a b lit => /- MMLOOP -/
    refine ⟨fun _ => true, fun _ _ => rfl, fun t run => ?_⟩
    cases hq : litQl lit with
    | true =>
      simp only [mmReads, hq, if_true] at hread
      obtain ⟨rfl, s1, c, hread, hpop, rfl, good, fit, tagged⟩ := hread
      exact runWord_ok ((mmWord_popped (fun _ => true) hl rfl hq hread hpop good fit tagged).trans run)
    | false =>
      simp only [mmReads, hq, Bool.false_eq_true, if_false] at hread
      obtain ⟨rfl, rfl, tagged, hread⟩ := hread
      refine runWord_ok ((mmWord_literal (fun _ => true) hl rfl hq tagged ?_).trans run)
      rw [hq]
      exact hread
  case h_3 fb' tile a => /- MMNORM -/
    obtain ⟨rfl, rfl, hread⟩ := hread
    refine ⟨_, fun v hv => ?_, fun t run => runWord_ok ((mmWord_plain _ hl rfl hread).trans run)⟩
    simp only [v32_eq_toNat, Bool.and_eq_true]
    exact ⟨decide_eq_true hv.1, decide_eq_true hv.2⟩
  case h_4 fb' tile m => /- MMDRAIN -/
    obtain ⟨rfl, rfl, hread⟩ := hread
    refine ⟨fun _ => true, fun _ _ => rfl, fun t run => runWord_ok ((mmWord_plain _ hl rfl hread).trans (Eq.trans ?_ run))⟩
    simp only [beq_iff_eq]
  case h_5 d tile im => /- MMQ -/
    obtain ⟨rfl, rfl, hread⟩ := hread
    exact ⟨fun _ => true, fun _ _ => rfl, fun t run => runWord_ok ((mmWord_plain _ hl rfl hread).trans run)⟩

/-- Settles O28: the arrival of each row, and the wait of a rendezvous that is not full. -/
theorem matrixWords : Obligations.MatrixWords := by
  intro i fb sp ok room s s2 v w iw ql l g th hrow hl hread hok flag free hroom hth enough hw hg ci a u agree
  obtain ⟨test, tested, run⟩ := exec_of_mmRow hrow hl hread
  have agree : ci.arr.all (mmAgree a) = true := by
    rw [List.all_eq_true]
    intro b hb
    obtain ⟨word, lit, va, vb, popped⟩ := agree b hb
    simp [mmAgree, word, lit, va, vb, popped, a, mmArrival]
  have next := run _ (mmEnd_run hth enough hw free hroom (tested v hok) flag)
  rw [arrive_mmHeld hg agree] at next
  exact ⟨next, fun short => next.trans (congrArg _ (settleMatrix_short hg ci short))⟩

/-! ## Issue -/

theorem arrOp_of_mmCommand {i : Instr} {a : Arrival} {rows cols : List (List Byte)} {c : Nat × ArrOp}
    (h : mmCommand i a rows cols = some c) : arrOp i a rows cols = c := by
  unfold mmCommand at h
  split at h <;> cases h
  case h_1 => /- MMINIT -/
    show (_, ArrOp.init _) = _
    rw [sext_eq_toInt _ (by decide), ofNat_toNat_self]
  case h_2 => /- MMLOOP -/ rfl
  case h_3 => /- MMNORM -/ rfl
  case h_4 => /- MMDRAIN -/ rfl
  case h_5 => /- MMQ -/ rfl

section
variable {s : State} {g : GroupKey} {c : Nat} {x : Group} {l : Launch} {ci : Machine.Circle} {a : Arrival} {rest : List Arrival} {i : Instr}
  {tile : Nat} {op : ArrOp} (hg : s.group g = some x) (hl : s.launch g.launch = some l) (hci : tget x.circ (c, .matrix) = some ci)
  (full : s.instFull g x.size c .matrix ci.arr = true) (order : inTidOrder ci.arr c = a :: rest) (hi : decode a.word (some a.lit) = .ok i)
  (hop : mmCommand i a (s.scales g c 0 8 a.lit) (s.scales g c 8 16 a.lit) = some (tile, op))
include hg hl hci full order hi hop

/-- The completion of a full rendezvous, up to the checks of its command. -/
theorem settleMatrix_full : settleMatrix g c s =
    let u := clearCircle g (c, .matrix) s
    match op.fault x l.rc.scratch (u.yardOf l.ctx) u with
    | some (ca, va) => takeTraps ((a :: rest).map fun a => seqStrand g .matrix a.tid) { cause := ca, va := va } u
    | none =>
      match op.fencedB x u with
      | some f => blastUse g.launch x.die f.1 f.2 u
      | none =>
        let cpc := match u.strand (seqStrand g .matrix a.tid) with
          | some y => y.cpc
          | none => 0#57
        let v := (a :: rest).foldl (fun s a => arrIssue i u.nextId (seqStrand g .matrix a.tid) a s) { u with nextId := u.nextId + 1 }
        tryArray u.nextId (v.accept { Item.blank u.nextId x.die l.ctx (seqStrand g .matrix a.tid) .array with
          regions := op.regions g x, arr := some ⟨c, tile, op, (a :: rest).map (·.tid), cpc⟩ }) := by
  unfold settleMatrix
  simp only [hg, hl, tgetD, hci, Option.getD_some, full, if_true, order, hi, arrOp_of_mmCommand hop] <;> rfl

end

/-- Settles O29: the three ways in which a full rendezvous ends. -/
theorem matrixIssue : Obligations.MatrixIssue := by
  intro s g c x l ci a rest i tile op y hg hl hci full order hi hop s0 hy
  rw [settleMatrix_full hg hl hci full order hi hop]
  refine ⟨fun sound open_ => ?_, fun f sound fenced => ?_, fun ca va fault => ?_⟩
  · have sound : op.fault x l.rc.scratch (s0.yardOf l.ctx) s0 = none := sound
    have hy : s0.strand (seqStrand g .matrix a.tid) = some y := hy
    simp only [show clearCircle g (c, .matrix) s = s0 from rfl, sound, open_, hy]
    rfl
  · have sound : op.fault x l.rc.scratch (s0.yardOf l.ctx) s0 = none := sound
    simp only [show clearCircle g (c, .matrix) s = s0 from rfl, sound, fenced]
  · have fault : op.fault x l.rc.scratch (s0.yardOf l.ctx) s0 = some (ca, va) := fault
    simp only [show clearCircle g (c, .matrix) s = s0 from rfl, fault]
    rfl

end Sys2Proof.MatrixRows

/-! Tile arithmetic (R175 to R177, R185, R188 to R190): rounding to a shared exponent, the least exponent at which a list of values fits, steps,
normalisation, and what drains and queries deliver. -/

namespace Sys2Proof.TileSums

open Sys2Proof Sys2Proof.Claims Sys2Proof.ValueWords
open Sys2Proof.Machine hiding rneShift

/-! ## Rounding an integer at a power of two -/

section
variable {m f r : Int} {k : Nat}

/-- The rounding of a value that is given by quotient and remainder. -/
theorem rneShift_of_parts (h : m = 2 ^ k * f + r) (lo : 0 ≤ r) (hi : r < 2 ^ k) :
    rneShift m k = if 2 * r < 2 ^ k then f else if 2 ^ k < 2 * r then f + 1 else if f % 2 = 0 then f else f + 1 := by
  obtain ⟨quot, rem⟩ := (Int.ediv_emod_unique (a := m) (q := f) (show (0 : Int) < 2 ^ k by positivity)).2 ⟨by rw [h, add_comm], lo, hi⟩
  unfold rneShift
  simp only [quot, rem]

theorem rneShift_neg (m : Int) (k : Nat) : rneShift (-m) k = -rneShift m k := by
  have pos : (0 : Int) < 2 ^ k := by positivity
  have parts := (Int.mul_ediv_add_emod m (2 ^ k)).symm
  have lo := Int.emod_nonneg m (Int.ne_of_gt pos)
  have hi := Int.emod_lt_of_pos m pos
  generalize m / 2 ^ k = f at parts
  generalize m % 2 ^ k = r at parts lo hi
  rw [rneShift_of_parts parts lo hi]
  by_cases zero : r = 0
  · subst zero
    rw [rneShift_of_parts (f := -f) (r := 0) (by rw [parts]; ring) le_rfl pos]
    simp [pos]
  · rw [rneShift_of_parts (f := -f - 1) (r := 2 ^ k - r) (by rw [parts]; ring) (by omega) (by omega)]
    split_ifs <;> omega

/-- A multiple of the power loses nothing. -/
theorem rneShift_exact (m : Int) (k : Nat) : rneShift (m * 2 ^ k) k = m := by
  rw [rneShift_of_parts (f := m) (r := 0) (by ring) le_rfl (by positivity)]
  simp

@[simp] theorem rneShift_zero (m : Int) : rneShift m 0 = m := by simpa using rneShift_exact m 0

/-- A factor that value and power share does not matter. -/
theorem rneShift_scale (m : Int) (k d : Nat) : rneShift (m * 2 ^ d) (k + d) = rneShift m k := by
  have pos : (0 : Int) < 2 ^ k := by positivity
  have posd : (0 : Int) < 2 ^ d := by positivity
  have parts := (Int.mul_ediv_add_emod m (2 ^ k)).symm
  have lo := Int.emod_nonneg m (Int.ne_of_gt pos)
  have hi := Int.emod_lt_of_pos m pos
  generalize m / 2 ^ k = f at parts
  generalize m % 2 ^ k = r at parts lo hi
  rw [rneShift_of_parts parts lo hi, rneShift_of_parts (f := f) (r := r * 2 ^ d) (by rw [parts]; ring) (by positivity)
    (by rw [pow_add]; exact Int.mul_lt_mul_of_pos_right hi posd)]
  have below : 2 * (r * 2 ^ d) < 2 ^ (k + d) ↔ 2 * r < 2 ^ k := by
    rw [pow_add, ← mul_assoc]
    exact mul_lt_mul_iff_left₀ posd
  have above : 2 ^ (k + d) < 2 * (r * 2 ^ d) ↔ 2 ^ k < 2 * r := by
    rw [pow_add, ← mul_assoc]
    exact mul_lt_mul_iff_left₀ posd
  simp only [below, above]

end

/-- A natural number rounded as the model rounds it. -/
theorem round_eq_rneShift (n k : Nat) (neg : Bool) (e : Int) (pos : 0 < k) :
    (Mag.round ⟨n, e, false⟩ .rn neg (e + k) : Int) = rneShift n k := by
  have parts : (n : Int) = 2 ^ k * (n / 2 ^ k : Nat) + (n % 2 ^ k : Nat) := by exact_mod_cast (Nat.div_add_mod n (2 ^ k)).symm
  have below := Nat.mod_lt n (Nat.two_pow_pos k)
  have shift : (e + (k : Int) - e).toNat = k := by omega
  rw [rneShift_of_parts parts (by positivity) (by exact_mod_cast below)]
  unfold Mag.round
  rw [if_neg (show ¬e + (k : Int) ≤ e by omega)]
  simp only [shift, Bool.false_or]
  generalize n / 2 ^ k = f
  generalize hr : n % 2 ^ k = r at below
  have cast : ((2 : Int) ^ k) = ((2 ^ k : Nat) : Int) := by norm_cast
  rw [cast]
  generalize 2 ^ k = p at below
  by_cases more : p < 2 * r
  · simp [more]; omega
  · by_cases tie : 2 * r = p
    · by_cases even : f % 2 = 0 <;> simp [tie, even] <;> omega
    · simp [more, tie]; omega

/-- The model's rounding of an exact real is the rounding of the claim. -/
theorem rne_eq_scaled (m e q : Int) : Dy.rne ⟨m, e⟩ q = scaled m e q := by
  have sign : (if m < 0 then -(m.natAbs : Int) else m.natAbs) = m := by split <;> omega
  unfold Dy.rne scaled
  by_cases down : q ≤ e
  · have exact_ : (Mag.round ⟨m.natAbs, e, false⟩ .rn (decide (m < 0)) q : Int) = m.natAbs * 2 ^ (e - q).toNat := by
      unfold Mag.round
      rw [if_pos down]
      push_cast
      rfl
    simp only [exact_]
    have shift : (if m < 0 then -((m.natAbs : Int) * 2 ^ (e - q).toNat) else m.natAbs * 2 ^ (e - q).toNat) = m * 2 ^ (e - q).toNat := by
      split <;> [rw [← neg_mul]; skip] <;> congr 1 <;> omega
    rw [shift]
    by_cases same : e ≤ q
    · obtain rfl : e = q := le_antisymm same down
      simp
    · rw [if_neg same]
  · obtain ⟨k, rfl⟩ : ∃ k : Nat, q = e + k := ⟨(q - e).toNat, by omega⟩
    rw [if_pos (show e ≤ e + (k : Int) by omega), show (e + (k : Int) - e).toNat = k by omega]
    simp only [round_eq_rneShift _ _ _ _ (show 0 < k by omega)]
    split
    · rw [← rneShift_neg]
      congr 1
      omega
    · congr 1
      omega

/-! ## The least exponent at which values fit -/

theorem scaled_zero (e q : Int) : scaled 0 e q = 0 := by
  have exact_ := rneShift_exact 0 (q - e).toNat
  unfold scaled
  split <;> simp_all

/-- The magnitude of a rounded value. -/
theorem natAbs_rne (x : Dy) (q : Int) : (x.rne q).natAbs = Mag.round ⟨x.m.natAbs, x.e, false⟩ .rn (decide (x.m < 0)) q := by
  unfold Dy.rne
  split <;> simp

section
variable {n j : Nat} {e q : Int} {neg : Bool}

theorem round_le (h : Nat.log2 n + 1 + e ≤ j + q) : Mag.round ⟨n, e, false⟩ .rn neg q ≤ 2 ^ j := by
  have below : n < 2 ^ (Nat.log2 n + 1) := Nat.lt_log2_self
  unfold Mag.round
  split
  · next down =>
    have down : q ≤ e := down
    calc n * 2 ^ (e - q).toNat ≤ 2 ^ (Nat.log2 n + 1) * 2 ^ (e - q).toNat := Nat.mul_le_mul_right _ below.le
      _ = 2 ^ (Nat.log2 n + 1 + (e - q).toNat) := (pow_add ..).symm
      _ ≤ 2 ^ j := Nat.pow_le_pow_right two_pos (by omega)
  · next up =>
    have up : ¬q ≤ e := up
    have quot : n / 2 ^ (q - e).toNat < 2 ^ j := by
      rw [Nat.div_lt_iff_lt_mul (Nat.two_pow_pos _), ← pow_add]
      exact below.trans_le (Nat.pow_le_pow_right two_pos (by omega))
    dsimp only
    split
    · exact quot
    · exact quot.le

theorem le_round (nz : n ≠ 0) (h : j + q ≤ Nat.log2 n + e) : 2 ^ j ≤ Mag.round ⟨n, e, false⟩ .rn neg q := by
  have above : 2 ^ Nat.log2 n ≤ n := Nat.log2_self_le nz
  unfold Mag.round
  split
  · next down =>
    have down : q ≤ e := down
    calc 2 ^ j ≤ 2 ^ (Nat.log2 n + (e - q).toNat) := Nat.pow_le_pow_right two_pos (by omega)
      _ = 2 ^ Nat.log2 n * 2 ^ (e - q).toNat := pow_add ..
      _ ≤ n * 2 ^ (e - q).toNat := Nat.mul_le_mul_right _ above
  · next up =>
    have up : ¬q ≤ e := up
    have quot : 2 ^ j ≤ n / 2 ^ (q - e).toNat := by
      rw [Nat.le_div_iff_mul_le (Nat.two_pow_pos _), ← pow_add]
      exact (Nat.pow_le_pow_right two_pos (by omega)).trans above
    dsimp only
    split
    · exact quot.trans (Nat.le_succ _)
    · exact quot

end

/-- The exponents at which a value fits are those from its threshold on. -/
theorem fits_le_iff {b : Nat} (pos : 1 ≤ b) {x : Dy} (nz : x.m ≠ 0) (q : Int) : x.fits b ≤ q ↔ (x.rne q).natAbs < 2 ^ b := by
  have nz : x.m.natAbs ≠ 0 := Int.natAbs_ne_zero.2 nz
  have small (p : Int) (h : Nat.log2 x.m.natAbs + 1 + x.e ≤ (b - 1 : Nat) + p) : (x.rne p).natAbs < 2 ^ b := by
    rw [natAbs_rne]
    exact (round_le h).trans_lt (Nat.pow_lt_pow_right one_lt_two (by omega))
  have large (p : Int) (h : b + p ≤ Nat.log2 x.m.natAbs + x.e) : 2 ^ b ≤ (x.rne p).natAbs := by
    rw [natAbs_rne]
    exact le_round nz h
  unfold Dy.fits Mag.top
  dsimp only
  generalize ht : (Nat.log2 x.m.natAbs : Int) + x.e = t at *
  rcases lt_trichotomy q (t - (b - 1)) with h | h | h
  · have := large q (by omega)
    split <;> omega
  · subst h
    split <;> omega
  · have := small q (by omega)
    split <;> omega

theorem foldl_max_le {α : Type} (f : α → Int) (l : List α) (lo q : Int) :
    l.foldl (fun p x => max p (f x)) lo ≤ q ↔ lo ≤ q ∧ ∀ x ∈ l, f x ≤ q := by
  induction l generalizing lo with
  | nil => simp
  | cons x l ih => rw [List.foldl_cons, ih, max_le_iff, List.forall_mem_cons, and_assoc]

/-- The least exponent is at most one at which every value fits. -/
theorem leastExp_le_iff {b : Nat} (pos : 1 ≤ b) (lo : Int) (l : List Dy) (q : Int) :
    leastExp b lo l ≤ q ↔ lo ≤ q ∧ ∀ x ∈ l, (x.rne q).natAbs < 2 ^ b := by
  unfold leastExp
  rw [foldl_max_le]
  refine and_congr_right fun _ => ⟨fun h x hx => ?_, fun h x hx => ?_⟩
  · by_cases nz : x.m = 0
    · obtain ⟨m, e⟩ := x
      obtain rfl : m = 0 := nz
      simp [rne_eq_scaled, scaled_zero]
    · exact (fits_le_iff pos nz q).1 (h x (List.mem_filter.2 ⟨hx, bne_iff_ne.2 nz⟩))
  · obtain ⟨hx, nz⟩ := List.mem_filter.1 hx
    exact (fits_le_iff pos (bne_iff_ne.1 nz) q).2 (h x hx)

/-- It is the exponent at which every value fits and below which one does not. -/
theorem leastExp_eq {b : Nat} (pos : 1 ≤ b) {lo q : Int} {l : List Dy} (bound : lo ≤ q) (fit : ∀ x ∈ l, (x.rne q).natAbs < 2 ^ b)
    (least : q = lo ∨ ∃ x ∈ l, 2 ^ b ≤ (x.rne (q - 1)).natAbs) : leastExp b lo l = q := by
  have le := (leastExp_le_iff pos lo l q).2 ⟨bound, fit⟩
  have ge : ¬leastExp b lo l ≤ q - 1 := by
    rw [leastExp_le_iff pos]
    rintro ⟨low, all⟩
    rcases least with rfl | ⟨x, hx, past⟩
    · omega
    · exact absurd (all x hx) (Nat.not_lt.2 past)
  omega

/-! ## MMNORM -/

section
variable {t : Tile} {h : Nat} {q : Int}

/-- A tile whose integers are held at another exponent. -/
def rescaled (t : Tile) (q : Int) : Tile :=
  { t with m := t.m.map fun m => scaled m t.e q, e := q, rcnt := if t.e < q then min (t.rcnt + 1) 0xFFFF else t.rcnt }

theorem norm_zero (zero : ∀ m ∈ t.m, m = 0) : t.norm h = t := by
  have all : ((t.m.map fun m => (⟨m, t.e⟩ : Dy)).all (·.m == 0)) = true := by
    rw [List.all_map, List.all_eq_true]
    exact fun m hm => beq_iff_eq.2 (zero m hm)
  exact if_pos all

theorem norm_least (some_ : ∃ m ∈ t.m, m ≠ 0) : t.norm h =
    let p := leastExp (47 - h) (-32768) (t.m.map fun m => ⟨m, t.e⟩)
    { rescaled t (min p 32767) with esat := t.esat || decide (32767 < p) } := by
  have notAll : ¬((t.m.map fun m => (⟨m, t.e⟩ : Dy)).all (·.m == 0)) = true := by
    rw [List.all_map, List.all_eq_true]
    obtain ⟨m, hm, nz⟩ := some_
    exact fun all => nz (beq_iff_eq.1 (all m hm))
  refine (if_neg notAll).trans ?_
  simp only [rescaled, List.map_map, Function.comp_def, rne_eq_scaled]

variable (pos : 1 ≤ 47 - h) (some_ : ∃ m ∈ t.m, m ≠ 0)
include pos some_

theorem norm_fits (lo : -32768 ≤ q) (hi : q ≤ 32767) (fit : ∀ m ∈ t.m, (scaled m t.e q).natAbs < 2 ^ (47 - h))
    (least : q = -32768 ∨ ∃ m ∈ t.m, 2 ^ (47 - h) ≤ (scaled m t.e (q - 1)).natAbs) : t.norm h = rescaled t q := by
  have exp : leastExp (47 - h) (-32768) (t.m.map fun m => ⟨m, t.e⟩) = q := by
    refine leastExp_eq pos lo ?_ (least.imp_right fun ⟨m, hm, past⟩ => ⟨_, List.mem_map_of_mem hm, by rwa [rne_eq_scaled]⟩)
    rw [List.forall_mem_map]
    exact fun m hm => by rw [rne_eq_scaled]; exact fit m hm
  rw [norm_least some_, exp]
  simp [rescaled, min_eq_left hi, Int.not_lt.2 hi]

/-- No exponent leaves the headroom: the greatest, with ESAT. -/
theorem norm_saturates (past : ∃ m ∈ t.m, 2 ^ (47 - h) ≤ (scaled m t.e 32767).natAbs) :
    t.norm h = { rescaled t 32767 with esat := true } := by
  have exp : 32767 < leastExp (47 - h) (-32768) (t.m.map fun m => ⟨m, t.e⟩) := by
    rw [← Int.not_le, leastExp_le_iff pos]
    rintro ⟨-, all⟩
    obtain ⟨m, hm, big⟩ := past
    have small := all _ (List.mem_map_of_mem hm)
    rw [rne_eq_scaled] at small
    exact absurd small (Nat.not_lt.2 big)
  rw [norm_least some_]
  simp [min_eq_right exp.le, exp]

end

/-! ## Steps -/

/-- Between two exponents at or above its own a real rounds as the integer that it is at its own. -/
theorem scaled_shift {m e e' q : Int} (h : e ≤ e') (hq : e ≤ q) : scaled m e' q = rneShift (m * 2 ^ (e' - e).toNat) (q - e).toNat := by
  unfold scaled
  split
  · next up =>
    rw [show (q - e).toNat = (q - e').toNat + (e' - e).toNat by omega, rneShift_scale]
  · next down =>
    rw [show (e' - e).toNat = (e' - q).toNat + (q - e).toNat by omega, pow_add, ← mul_assoc, rneShift_exact]

/-- An element and the sum that a step brings to it, rounded together. -/
theorem rne_add {m e q : Int} {y : Dy} (h : y.m = 0 ∨ e ≤ y.e) (hq : e ≤ q) :
    (Dy.add ⟨m, e⟩ y).rne q = rneShift (m + y.m * 2 ^ (y.e - e).toNat) (q - e).toNat := by
  have own (n : Int) : scaled n e q = rneShift n (q - e).toNat := if_pos hq
  obtain ⟨n, e'⟩ := y
  unfold Dy.add
  by_cases hm : m = 0
  · subst hm
    rw [if_pos (by rfl), rne_eq_scaled, zero_add]
    rcases h with h | h
    · obtain rfl : n = 0 := h
      rw [scaled_zero, zero_mul, ← own, scaled_zero]
    · exact scaled_shift h hq
  · rw [if_neg (by simpa using hm)]
    by_cases hn : n = 0
    · subst hn
      rw [if_pos (by rfl), rne_eq_scaled, own, zero_mul, add_zero]
    · rw [if_neg (by simpa using hn)]
      have le : e ≤ e' := h.resolve_left hn
      simp only [min_eq_left le, sub_self, Int.toNat_zero, pow_zero, mul_one]
      rw [rne_eq_scaled, own]

theorem zip_replicate_map {α β γ : Type} (l : List α) (y : β) (f : α × β → γ) :
    (l.zip (List.replicate l.length y)).map f = l.map fun x => f (x, y) := by
  induction l with
  | nil => rfl
  | cons x l ih => rw [List.length_cons, List.replicate_succ, List.zip_cons_cons, List.map_cons, List.map_cons, ih]

/-- The exact values of the elements after a step of finite sums, and the integers that they are at the tile's exponent. -/
def stepVals (t : Tile) (st : List StepVal) : List Dy := (t.m.zip st).map fun p => Dy.add ⟨p.1, t.e⟩ p.2.s
def stepSums (t : Tile) (st : List StepVal) : List Int := (List.range t.m.length).map fun i => sumAt t i st

section
variable {t : Tile} {st : List StepVal} (len : st.length = t.m.length)
  (fin : ∀ y ∈ st, y.sp = .fin ∧ y.invl = false ∧ (y.s.m = 0 ∨ t.e ≤ y.s.e))
include len fin

theorem rne_stepVals {q : Int} (hq : t.e ≤ q) :
    (stepVals t st).map (·.rne q) = (stepSums t st).map fun v => rneShift v (q - t.e).toNat := by
  refine List.ext_getElem (by simp [stepVals, stepSums, len]) fun i hi _ => ?_
  have hi : i < t.m.length := by simpa [stepVals, len] using hi
  have hs : i < st.length := by omega
  obtain ⟨-, -, exps⟩ := fin st[i] (List.getElem_mem hs)
  simp only [stepVals, stepSums, List.getElem_map, List.getElem_zip, List.getElem_range, sumAt, MoveRows.lget_eq_getD,
    List.getElem?_eq_getElem hi, List.getElem?_eq_getElem hs, Option.getD_some]
  exact rne_add exps hq

theorem any_stepVals {q : Int} (hq : t.e ≤ q) (p : Int → Bool) :
    (stepVals t st).any (fun v => p (v.rne q)) = (stepSums t st).any fun v => p (rneShift v (q - t.e).toNat) := by
  have same := congrArg (List.any · p) (rne_stepVals len fin hq)
  simp only [List.any_map] at same
  exact same

theorem forall_stepVals {q : Int} (hq : t.e ≤ q) (p : Int → Prop) :
    (∀ v ∈ stepVals t st, p (v.rne q)) ↔ ∀ v ∈ stepSums t st, p (rneShift v (q - t.e).toNat) := by
  rw [← List.forall_mem_map (f := fun v : Dy => v.rne q), ← List.forall_mem_map (f := fun v => rneShift v (q - t.e).toNat),
    rne_stepVals len fin hq]

/-- The exponent at which a step rounds its sums. -/
theorem leastExp_step {k : Nat} (pos : 1 ≤ k) (fit : ∀ v ∈ stepSums t st, (rneShift v k).natAbs < 2 ^ 46)
    (least : k = 1 ∨ ∃ v ∈ stepSums t st, 2 ^ 46 ≤ (rneShift v (k - 1)).natAbs) :
    leastExp 46 (t.e + 1) (stepVals t st) = t.e + k := by
  refine leastExp_eq (by decide) (by omega) ?_ (least.imp (fun one => by omega) fun least => ?_)
  · rw [forall_stepVals len fin (by omega) fun v => v.natAbs < 2 ^ 46, show (t.e + (k : Int) - t.e).toNat = k by omega]
    exact fit
  · by_contra none_
    push Not at none_
    rw [forall_stepVals len fin (by omega) fun v => v.natAbs < 2 ^ 46, show (t.e + (k : Int) - 1 - t.e).toNat = k - 1 by omega] at none_
    obtain ⟨v, hv, big⟩ := least
    exact absurd (none_ v hv) (Nat.not_lt.2 big)

variable (lensp : t.sp.length = t.m.length) (plain : ∀ y ∈ t.sp, y = .fin)
include lensp plain

theorem joinSpec_fin : (t.sp.zip st).map (fun p => joinSpec p.1 p.2.sp) = List.replicate t.m.length (.fin, false) := by
  refine List.eq_replicate_iff.2 ⟨by simp [len, lensp], fun y hy => ?_⟩
  obtain ⟨p, hp, rfl⟩ := List.mem_map.1 hy
  obtain ⟨h1, h2⟩ := List.of_mem_zip hp
  rw [plain _ h1, (fin _ h2).1]
  rfl

/-- A step of finite sums, with no element special. -/
theorem step_fin (le : t.e ≤ 32767) : t.step st =
    let past := (stepSums t st).any fun v => decide (2 ^ 47 ≤ v.natAbs)
    let q := if past then leastExp 46 (t.e + 1) (stepVals t st) else t.e
    let ms := (stepSums t st).map fun v => rneShift v (min q 32767 - t.e).toNat
    let big := fun (m : Int) => decide (2 ^ 47 ≤ m.natAbs)
    ({ m := ms.map fun m => if big m then 0 else m, sp := ms.map fun m => if big m then (if m < 0 then .ninf else .pinf) else .fin,
       e := min q 32767, rcnt := if past then min (t.rcnt + 1) 0xFFFF else t.rcnt, esat := t.esat || (past && decide (32767 < q)) },
     { ovfl := ms.any big }) := by
  have joined := joinSpec_fin len fin lensp plain
  have vals : ((t.m.zip st).zip (List.replicate t.m.length ((Spec.fin, false) : Spec × Bool))).map (fun p =>
      if p.2.1 == .fin then Dy.add ⟨p.1.1, t.e⟩ p.1.2.s else ⟨0, 0⟩) = stepVals t st := by
    have n : t.m.length = (t.m.zip st).length := by simp [len]
    rw [n, zip_replicate_map]
    rfl
  have past : (stepVals t st).any (fun v => decide (2 ^ 47 ≤ (v.rne t.e).natAbs)) =
      (stepSums t st).any fun v => decide (2 ^ 47 ≤ v.natAbs) := by
    rw [any_stepVals len fin le_rfl fun v => decide (2 ^ 47 ≤ v.natAbs)]
    simp
  have sound : (st.any (·.invl) || (List.replicate t.m.length ((Spec.fin, false) : Spec × Bool)).any (·.2)) = false := by
    rw [Bool.or_eq_false_iff, List.any_eq_false, List.any_eq_false]
    exact ⟨fun y hy => by rw [(fin y hy).2.1]; exact Bool.false_ne_true, fun y hy => by rw [List.eq_of_mem_replicate hy]; exact Bool.false_ne_true⟩
  unfold Tile.step
  simp only [joined, vals, past, sound]
  generalize hq : (if ((stepSums t st).any fun v => decide (2 ^ 47 ≤ v.natAbs)) = true then leastExp 46 (t.e + 1) (stepVals t st) else t.e) = q
  have ge : t.e ≤ q := by
    rw [← hq]
    split
    · exact (Int.le_add_one le_rfl).trans ((leastExp_le_iff (by decide) _ _ _).1 le_rfl).1
    · exact le_rfl
  have cut : (if decide (32767 < q) = true then 32767 else q) = min q 32767 := by
    by_cases h : 32767 < q
    · simp [h, h.le]
    · simp [h, not_lt.1 h]
  have ms := rne_stepVals len fin (le_min ge le)
  simp only [cut, ms]
  have n : t.m.length = ((stepSums t st).map fun v => rneShift v (min q 32767 - t.e).toNat).length := by simp [stepSums]
  rw [n]
  simp only [zip_replicate_map]

variable (le : t.e ≤ 32767)
include le

theorem step_exact (small : ∀ v ∈ stepSums t st, v.natAbs < 2 ^ 47) : t.step st = ({ t with m := stepSums t st }, {}) := by
  have no (v : Int) (hv : v ∈ stepSums t st) : ¬decide (2 ^ 47 ≤ v.natAbs) = true := fun h =>
    absurd (small v hv) (Nat.not_lt.2 (of_decide_eq_true h))
  have past : ((stepSums t st).any fun v => decide (2 ^ 47 ≤ v.natAbs)) = false := List.any_eq_false.2 no
  have m : ((stepSums t st).map fun m => if decide (2 ^ 47 ≤ m.natAbs) then 0 else m) = stepSums t st :=
    (List.map_congr_left fun v hv => if_neg (no v hv)).trans (List.map_id' _)
  have sp : ((stepSums t st).map fun m => if decide (2 ^ 47 ≤ m.natAbs) then (if m < 0 then Spec.ninf else .pinf) else .fin) = t.sp := by
    rw [List.map_congr_left fun v hv => if_neg (no v hv), List.map_const', List.eq_replicate_iff.2 ⟨lensp, plain⟩]
    simp [stepSums]
  rw [step_fin len fin lensp plain le]
  simp only [past, Bool.false_eq_true, if_false, min_eq_left le, sub_self, Int.toNat_zero, rneShift_zero, List.map_id', m, sp,
    Bool.false_and, Bool.or_false]

section
variable {k : Nat} (past : ∃ v ∈ stepSums t st, 2 ^ 47 ≤ v.natAbs) (pos : 1 ≤ k)
  (fit : ∀ v ∈ stepSums t st, (rneShift v k).natAbs < 2 ^ 46)
  (least : k = 1 ∨ ∃ v ∈ stepSums t st, 2 ^ 46 ≤ (rneShift v (k - 1)).natAbs)
include past pos fit least

theorem step_rises (room : t.e + k ≤ 32767) : t.step st =
    ({ t with m := (stepSums t st).map fun v => rneShift v k, e := t.e + k, rcnt := min (t.rcnt + 1) 0xFFFF }, {}) := by
  have no (v : Int) (hv : v ∈ (stepSums t st).map fun v => rneShift v k) : ¬decide (2 ^ 47 ≤ v.natAbs) = true := by
    obtain ⟨u, hu, rfl⟩ := List.mem_map.1 hv
    have := fit u hu
    rw [decide_eq_true_eq]
    omega
  have some_ : ((stepSums t st).any fun v => decide (2 ^ 47 ≤ v.natAbs)) = true := by
    obtain ⟨v, hv, big⟩ := past
    exact List.any_eq_true.2 ⟨v, hv, decide_eq_true big⟩
  have m : (((stepSums t st).map fun v => rneShift v k).map fun m => if decide (2 ^ 47 ≤ m.natAbs) then 0 else m) =
      (stepSums t st).map fun v => rneShift v k := (List.map_congr_left fun v hv => if_neg (no v hv)).trans (List.map_id' _)
  have sp : (((stepSums t st).map fun v => rneShift v k).map fun m =>
      if decide (2 ^ 47 ≤ m.natAbs) then (if m < 0 then Spec.ninf else .pinf) else .fin) = t.sp := by
    rw [List.map_congr_left fun v hv => if_neg (no v hv), List.map_const', List.eq_replicate_iff.2 ⟨lensp, plain⟩]
    simp [stepSums]
  rw [step_fin len fin lensp plain le]
  simp only [leastExp_step len fin pos fit least, min_eq_left room, show (t.e + (k : Int) - t.e).toNat = k by omega,
    m, sp, some_, if_true, Int.not_lt.2 room, decide_false, Bool.and_false, Bool.or_false, List.any_eq_false.2 no]

theorem step_saturates (room : 32767 < t.e + k) : t.step st =
    let l := (stepSums t st).map fun v => rneShift v (32767 - t.e).toNat
    let big := fun (v : Int) => decide (2 ^ 47 ≤ v.natAbs)
    ({ m := l.map fun v => if big v then 0 else v, e := 32767, rcnt := min (t.rcnt + 1) 0xFFFF, esat := true
       sp := l.map fun v => if big v then (if 0 < v then .pinf else .ninf) else .fin }, { ovfl := l.any big }) := by
  have some_ : ((stepSums t st).any fun v => decide (2 ^ 47 ≤ v.natAbs)) = true := by
    obtain ⟨v, hv, big⟩ := past
    exact List.any_eq_true.2 ⟨v, hv, decide_eq_true big⟩
  have sign (v : Int) : (if decide (2 ^ 47 ≤ v.natAbs) then (if v < 0 then Spec.ninf else .pinf) else .fin) =
      if decide (2 ^ 47 ≤ v.natAbs) then (if 0 < v then .pinf else .ninf) else .fin := by
    by_cases big : 2 ^ 47 ≤ v.natAbs
    · simp only [big, decide_true, if_true]
      by_cases pos : 0 < v
      · rw [if_neg (by omega), if_pos pos]
      · rw [if_pos (by omega), if_neg pos]
    · rw [if_neg (by rwa [decide_eq_true_eq]), if_neg (by rwa [decide_eq_true_eq])]
  rw [step_fin len fin lensp plain le]
  simp only [leastExp_step len fin pos fit least, min_eq_right room.le, some_, if_true, room, decide_true, Bool.and_true,
    Bool.or_true, sign]

end

end

/-! ## Queries -/

theorem status_eq (n : Nat) (a b c d : Bool) : BitVec.ofNat 32 (n * 65536 + b2n a * 8 + b2n b * 4 + b2n c * 2 + b2n d) =
    (BitVec.ofNat 32 n <<< 16) ||| flagBit a 3 ||| flagBit b 2 ||| flagBit c 1 ||| flagBit d 0 := by
  apply BitVec.eq_of_toNat_eq
  have low : (flagBit a 3 ||| flagBit b 2 ||| flagBit c 1 ||| flagBit d 0).toNat = b2n a * 8 + b2n b * 4 + b2n c * 2 + b2n d := by
    cases a <;> cases b <;> cases c <;> cases d <;> rfl
  have small : b2n a * 8 + b2n b * 4 + b2n c * 2 + b2n d < 2 ^ 16 := by cases a <;> cases b <;> cases c <;> cases d <;> decide
  have high : (BitVec.ofNat 32 n <<< 16).toNat = 2 ^ 16 * (n % 2 ^ 16) := by
    rw [BitVec.toNat_shiftLeft, BitVec.toNat_ofNat, Nat.shiftLeft_eq]
    omega
  have assoc : (BitVec.ofNat 32 n <<< 16) ||| flagBit a 3 ||| flagBit b 2 ||| flagBit c 1 ||| flagBit d 0 =
      (BitVec.ofNat 32 n <<< 16) ||| (flagBit a 3 ||| flagBit b 2 ||| flagBit c 1 ||| flagBit d 0) := by
    simp only [BitVec.or_assoc]
  rw [assoc, BitVec.toNat_or, high, low, ← Nat.two_pow_add_eq_or_of_lt small, BitVec.toNat_ofNat]
  omega

/-- The greatest of a list of numbers is above all of them, and is 0 or one of them. -/
theorem foldl_max_spec (l : List Nat) (lo : Nat) : (∀ n ∈ l, n ≤ l.foldl max lo) ∧ lo ≤ l.foldl max lo ∧
    (l.foldl max lo = lo ∨ l.foldl max lo ∈ l) := by
  induction l generalizing lo with
  | nil => simp
  | cons n l ih =>
    obtain ⟨all, start, one⟩ := ih (max lo n)
    rw [List.foldl_cons]
    refine ⟨List.forall_mem_cons.2 ⟨(le_max_right _ _).trans start, all⟩, (le_max_left _ _).trans start, ?_⟩
    rcases one with one | one
    · rcases max_choice lo n with h | h
      · exact .inl (one.trans h)
      · exact .inr (by rw [one, h]; exact List.mem_cons_self)
    · exact .inr (List.mem_cons_of_mem _ one)

theorem bitLen_spec (t : Tile) : (∀ m ∈ t.m, m.natAbs < 2 ^ t.bitLen) ∧ (t.bitLen = 0 ∨ ∃ m ∈ t.m, 2 ^ (t.bitLen - 1) ≤ m.natAbs) := by
  obtain ⟨all, -, one⟩ := foldl_max_spec (t.m.map fun m => if m == 0 then 0 else Nat.log2 m.natAbs + 1) 0
  refine ⟨fun m hm => ?_, or_iff_not_imp_left.2 fun pos => ?_⟩
  · have bound := all _ (List.mem_map_of_mem hm)
    by_cases z : m = 0
    · subst z
      exact Nat.two_pow_pos _
    · rw [if_neg (by simpa using z)] at bound
      exact Nat.lt_log2_self.trans_le (Nat.pow_le_pow_right two_pos bound)
  · obtain ⟨m, hm, same⟩ := List.mem_map.1 (one.resolve_left pos)
    have same : t.bitLen = if m == 0 then 0 else Nat.log2 m.natAbs + 1 := same.symm
    by_cases z : m = 0
    · exact absurd (same.trans (if_pos (by simpa using z))) pos
    · rw [if_neg (by simpa using z)] at same
      refine ⟨m, hm, ?_⟩
      rw [same, Nat.add_sub_cancel]
      exact Nat.log2_self_le (Int.natAbs_ne_zero.2 z)

theorem isInf_eq : Spec.isInf = fun y => y == .pinf || y == .ninf := by
  funext y
  cases y <;> rfl

/-- Settles O30: the commands that change nothing, the deliveries, normalisation, and the steps of finite sums. -/
theorem tileArithmetic : Obligations.TileArithmetic := by
  intro g x fmt t s
  refine ⟨fun _ => rfl, fun _ => rfl, fun _ => rfl, fun _ _ => rfl, fun _ _ => rfl, fun p => ⟨rfl, ?_, t.bitLen, rfl, bitLen_spec t⟩,
    fun h => ⟨fun zero => congrArg (·, _) (norm_zero zero), fun lo hi _ some_ => ⟨fun q low high fit least => ?_, fun past => ?_⟩⟩,
    fun st len lensp plain fin le => ⟨fun small => step_exact len fin lensp plain le small,
      fun k past pos fit least => ⟨fun room => step_rises len fin lensp plain le past pos fit least room,
        fun room => step_saturates len fin lensp plain le past pos fit least room⟩⟩⟩
  · refine congrArg (fun w => [(⟨w, 2#5⟩ : TVal)]) ((status_eq ..).trans ?_)
    rw [isInf_eq, show (t.rcnt != 0) = decide (t.rcnt ≠ 0) by cases t.rcnt <;> rfl]
  · exact congrArg (·, _) (norm_fits (by omega) some_ low high fit least)
  · exact congrArg (·, _) (norm_saturates (by omega) some_ past)

end Sys2Proof.TileSums

/-! The submission of items (R197 to R201), and the words of class 0xC that submit one: copies, tile moves and jobs (R208 to R216, R222,
R223). -/

namespace Sys2Proof.CopyRows

open Sys2Proof Sys2Proof.Machine Sys2Proof.Claims Sys2Proof.ValueWords Sys2Proof.Operands Sys2Proof.MathRows
  Sys2Proof.LoadStoreRows Sys2Proof.CoreAccesses Sys2Proof.Accesses

/-! ## Submission -/

/-- The steps of a submission from its token on: the commit, the acceptance, the next SEQ, and the operation of its flag. -/
def submitTake (w : Who) (fb : Bool) (len : Nat) (fab : Bool) (it : Item) (id : Nat) (t : Option Nat) : Exec Nat := do
  act (commitWord w.k len)
  let sq := if fab then w.x.seqFab else w.x.seqCopy
  act fun s => acceptItem { it with tok := t, sq := sq, cpc := w.x.cpc } { s with nextId := id + 1 }
  act (·.modStrand w.k fun x =>
    if fab then { x with seqFab := (x.seqFab + 1) % 65536 } else { x with seqCopy := (x.seqCopy + 1) % 65536 })
  deliverOrPend w fb len false true [] {}
  pure id

/-- The steps from the room in the engine on. -/
def submitEnter (w : Who) (fb : Bool) (len : Nat) (tok fab : Bool) (it : Item) (id : Nat) : Exec Nat :=
  if tok then do
    let t ← reserveTok w.k
    submitTake w fb len fab it id t
  else do
    let t ← pure none
    submitTake w fb len fab it id t

section
variable {w : Who} {fb tok fab : Bool} {len scope : Nat} {item : Nat → Item} {s : State}

theorem submitEnter_run {it : Item} (room : tok = true → ∃ t, s.thread w.k.thread = some t ∧ t.cqIn.room 1 = true) :
    submitEnter w fb len tok fab it s.nextId s = .ok (s.nextId, submitted w fb len tok fab it s) := by
  have take (r : Option Nat × State) (hr : tokened w.k tok s = r) :
      submitTake w fb len fab it s.nextId r.1 r.2 = .ok (s.nextId, submitted w fb len tok fab it s) := by
    subst hr
    unfold submitTake
    refine (Exec.bind_ok (act_run _ _)).trans <| (Exec.bind_ok (act_run _ _)).trans <| (Exec.bind_ok (act_run _ _)).trans ?_
    exact Exec.bind_ok (deliverOrPend_eq ..)
  cases tok with
  | false => exact take (none, s) rfl
  | true =>
    obtain ⟨t, ht, enough⟩ := room rfl
    have reserve : reserveTok w.k s = .ok (tokened w.k true s) := by simp only [reserveTok, tokened, ht, enough, if_true]
    exact (Exec.bind_ok reserve).trans (take _ rfl)

/-- An item for which everything is ready is accepted. -/
theorem submitWord_accepts (ready : submitReady w fb scope tok (item s.nextId) s) :
    submitWord w fb len scope tok fab item s = .ok (s.nextId, submitted w fb len tok fab (item s.nextId) s) := by
  obtain ⟨flag, free, released, open_, engine, room⟩ := ready
  have hold : holdForBar w.k s = .ok ((), s) := by simp [holdForBar, free]
  have release : holdForRelease w.k scope false s = .ok ((), s) := by simp [holdForRelease, released]
  unfold submitWord
  rw [flagRoom_of_room w.x flag, pure_bind, Exec.bind_ok hold, Exec.bind_ok release,
    Exec.bind_ok (show (get : Exec State) s = .ok (s, s) from rfl)]
  dsimp only
  have enter := submitEnter_run (fb := fb) (len := len) (fab := fab) (it := item s.nextId) room
  cases hu : s.unitOf (item s.nextId) with
  | none =>
    dsimp only
    rw [if_pos engine]
    exact enter
  | some u =>
    dsimp only
    rw [if_neg (by rw [open_ u hu]; exact Bool.false_ne_true), if_pos engine]
    exact enter

end

/-! ## The literal (Table 10.6) -/

theorem bitsOf_eq_field (l : BitVec 32) {hi lo n : Nat} (h : hi + 1 - lo = n) : bitsOf l.toNat hi lo = (l.extractLsb' lo n).toNat := by
  rw [toNat_field, bitsOf, h]

section
variable (l : BitVec 32)

theorem copyHandle_eq : copyHandle l = (l.extractLsb' 0 7).toNat := bitsOf_eq_field l rfl
theorem copyMode_eq : copyMode l = (l.extractLsb' 10 2).toNat := bitsOf_eq_field l rfl
theorem copyCsz_eq : copyCsz l = (l.extractLsb' 12 2).toNat := bitsOf_eq_field l rfl
theorem copyScope_eq : copyScope l = (l.extractLsb' 16 3).toNat := bitsOf_eq_field l rfl

theorem copyDir_eq : (copyDir l == 1) = l.getLsbD 8 := by
  rw [← LogicRows.bitOf_toNat]
  rfl

end

theorem check_pass {ok : Bool} {c : Cause} (h : ok = true) : check ok c = pure () := if_pos h

theorem checkAt_pass {ok : Bool} {c : Cause} {r : Option (Nat × Nat)} (h : ok = true) : checkAt ok c r = pure () := if_pos h

/-! ## CPT and CPS -/

section
variable {fb : Bool} {a b : RegNo} {lit : BitVec 32} {s s1 : State} {q : Sub}

theorem cpt_submits {ls : BitVec 3} {img : BitVec 512}
    (hsub : subWord { cls := 12, len := 2, a := some { n := a, w := 4, acc := .int }, b := some { n := b, acc := .int } } lit
      (copyLitOk false) (some ls.toNat) false s = .ok (q, s1))
    (hlay : layoutRec q.v.k ls.toNat s1 = .ok (img, s1)) :
    let hn := (q.lit.extractLsb' 0 7).toNat
    let out := q.lit.getLsbD 8
    let h := s1.handle q.w.k.grp hn
    let c := q.v.a.map fun v => v.bits.toInt
    let off := (w32 q.v.b).toNat
    let it := cptItem q.w hn h img c off out s1
    s1.handleOk q.w.k.grp hn = true → cptOk q.w h img off out s1 →
      submitReady q.w fb (q.lit.extractLsb' 16 3).toNat (q.lit.getLsbD 9) it s1 →
      exec (.cpt fb ls a b lit) s = .next (submitted q.w fb 2 (q.lit.getLsbD 9) false it s1) := by
  intro hn out h c off it hok ok ready
  obtain ⟨nz, usable, noRepl, perm, inside, listed, aligned⟩ := ok
  refine runWord_ok ?_
  rw [Exec.bind_ok hsub, Exec.bind_ok hlay, Exec.bind_ok (show (get : Exec State) s1 = .ok (s1, s1) from rfl)]
  simp only [copyHandle_eq, copyDir_eq, copyScope_eq, v32_eq_toNat]
  rw [checkAt_pass hok, pure_bind, checkAt_pass, pure_bind, checkAt_pass, pure_bind, checkAt_pass, pure_bind]
  · exact Exec.bind_ok (submitWord_accepts (fab := false) ready)
  · exact beq_iff_eq.2 aligned
  · simp only [Bool.and_eq_true, Bool.or_eq_true, Bool.not_eq_true']
    refine ⟨⟨perm, inside⟩, ?_⟩
    cases hg : (layRec img).gather with
    | false => exact .inl rfl
    | true => exact .inr (decide_eq_true (listed hg))
  · simp only [Bool.and_eq_true, Bool.not_eq_true']
    exact ⟨⟨bne_iff_ne.2 nz, usable⟩, Bool.eq_false_iff.2 fun both => noRepl (by
      rw [Bool.and_eq_true, beq_iff_eq] at both
      exact both)⟩

theorem cps_submits {sl : BitVec 5} {img : BitVec 256}
    (hsub : subWord { cls := 12, len := 2, a := some { n := a, w := 2, acc := .int }, b := some { n := b, acc := .int } } lit
      (copyLitOk false) (some sl.toNat) true s = .ok (q, s1))
    (hslot : slotRec q.v.k sl.toNat s1 = .ok (img, s1)) :
    let hn := (q.lit.extractLsb' 0 7).toNat
    let out := q.lit.getLsbD 8
    let h := s1.handle q.w.k.grp hn
    let r := bufRec img
    let i := (w32 q.v.a).toNat
    let n := (w32 (q.v.a.drop 1)).toNat
    let off := (w32 q.v.b).toNat
    let it := cpsItem q.w hn h r i n off out s1
    s1.handleOk q.w.k.grp hn = true → 1 ≤ n → n ≤ 2 ^ 23 → img ≠ 0#256 → r.seg ≠ .priv →
      s1.usable q.w.g.die q.w.d q.w.l.rc r.seg r.epmod = true → ¬(out = true ∧ r.seg = .repl) →
      spanFault q.w r i n (if out then r.pw else r.pr) (s1.descIn q.w.g q.w.l.rc q.w.d.yard h.buf off n) (off % 2 ^ r.esz == 0) = none →
      submitReady q.w fb (q.lit.extractLsb' 16 3).toNat (q.lit.getLsbD 9) it s1 →
      exec (.cps fb sl a b lit) s = .next (submitted q.w fb 2 (q.lit.getLsbD 9) false it s1) := by
  intro hn out h r i n off it hok low high nz notPriv usable noRepl span ready
  refine runWord_ok ?_
  rw [Exec.bind_ok hsub, Exec.bind_ok hslot, Exec.bind_ok (show (get : Exec State) s1 = .ok (s1, s1) from rfl)]
  simp only [copyHandle_eq, copyDir_eq, copyScope_eq, v32_eq_toNat]
  rw [checkAt_pass, pure_bind, checkAt_pass, pure_bind]
  · simp only [show spanFault q.w (bufRec img) (w32 q.v.a).toNat (w32 (q.v.a.drop 1)).toNat
      (if q.lit.getLsbD 8 = true then (bufRec img).pw else (bufRec img).pr)
      (s1.descIn q.w.g q.w.l.rc q.w.d.yard (s1.handle q.w.k.grp (q.lit.extractLsb' 0 7).toNat).buf (w32 q.v.b).toNat
        (w32 (q.v.a.drop 1)).toNat) ((w32 q.v.b).toNat % 2 ^ (bufRec img).esz == 0) = none from span]
    exact Exec.bind_ok (submitWord_accepts (fab := false) ready)
  · simp only [Bool.and_eq_true, Bool.not_eq_true']
    exact ⟨⟨⟨bne_iff_ne.2 nz, bne_iff_ne.2 notPriv⟩, usable⟩, Bool.eq_false_iff.2 fun both => noRepl (by
      rw [Bool.and_eq_true, beq_iff_eq] at both
      exact both)⟩
  · simp only [Bool.and_eq_true]
    exact ⟨⟨hok, decide_eq_true low⟩, decide_eq_true high⟩

end

/-! ## TMOV -/

theorem overlap_iff {x y : Space} {n so : Nat} {l : List (Nat × Nat)} :
    (x == y && l.any fun e => decide (max so e.1 < min (so + n) (e.1 + e.2))) = false ↔
      (x = y → ∀ e ∈ l, min (so + n) (e.1 + e.2) ≤ max so e.1) := by
  rw [← Bool.not_eq_true, Bool.and_eq_true, beq_iff_eq, not_and, List.any_eq_true]
  refine forall_congr' fun _ => ⟨fun none_ e he => ?_, fun all => ?_⟩
  · exact Nat.not_lt.1 fun meets => none_ ⟨e, he, decide_eq_true meets⟩
  · rintro ⟨e, he, meets⟩
    exact Nat.not_lt.2 (all e he) (of_decide_eq_true meets)

theorem ite_true_of {c : Prop} [Decidable c] {p q : Prop} {x y : Bool} (h : if c then p else q) (hx : p → x = true) (hy : q → y = true) :
    (if c then x else y) = true := by
  by_cases hc : c
  · rw [if_pos hc] at h ⊢
    exact hx h
  · rw [if_neg hc] at h ⊢
    exact hy h

section
variable {fb : Bool} {d a b : RegNo} {lit : BitVec 32} {s s1 : State} {q : Sub}

theorem tmov_submits
    (hsub : subWord { cls := 12, len := 2, a := some { n := a, acc := .int }, b := some { n := b, acc := .int }, d := some { n := d, acc := .int } }
      lit (copyLitOk true) none false s = .ok (q, s1)) :
    let hn := (q.lit.extractLsb' 0 7).toNat
    let mode := (q.lit.extractLsb' 10 2).toNat
    let csz := (q.lit.extractLsb' 12 2).toNat
    let h := s1.handle q.w.k.grp hn
    let src := w32 q.v.d
    let off := (w32 q.v.a).toNat
    let rows := ((w32 q.v.b).extractLsb' 0 16).toNat
    let rowb := ((w32 q.v.b).extractLsb' 16 16).toNat
    let it := tmovItem q.w hn h src off rows rowb (mode == 1) csz s1
    s1.handleOk q.w.k.grp hn = true → tmovOk q.w h src off rows rowb (mode == 1) csz s1 →
      submitReady q.w fb (q.lit.extractLsb' 16 3).toNat (q.lit.getLsbD 9) it s1 →
      exec (.tmov fb d a b lit) s = .next (submitted q.w fb 2 (q.lit.getLsbD 9) false it s1) := by
  intro hn mode csz h src off rows rowb it hok ok ready
  obtain ⟨desc, some_, shape, apart, usable, source, dest, aligned⟩ := ok
  have hrows : (w32 q.v.b).toNat % 65536 = rows := by simp [rows]
  have hrowb : (w32 q.v.b).toNat / 65536 = rowb := by
    have := (w32 q.v.b).isLt
    simp only [rowb, toNat_field]
    omega
  refine runWord_ok ?_
  rw [Exec.bind_ok hsub, Exec.bind_ok (show (get : Exec State) s1 = .ok (s1, s1) from rfl)]
  simp only [ofNat_v32]
  simp only [copyHandle_eq, copyMode_eq, copyCsz_eq, copyScope_eq, v32_eq_toNat, hrows, hrowb, colRowBytes]
  rw [check_pass, pure_bind, check_pass usable, pure_bind, check_pass, pure_bind, check_pass, pure_bind]
  · exact Exec.bind_ok (submitWord_accepts (fab := false) ready)
  · refine ite_true_of aligned beq_iff_eq.2 fun both => ?_
    rw [Bool.and_eq_true, beq_iff_eq, beq_iff_eq]
    exact both
  · rw [Bool.and_eq_true]
    refine ⟨source, ite_true_of dest (fun both => ?_) id⟩
    rw [Bool.and_eq_true, List.all_eq_true]
    exact ⟨decide_eq_true both.1, both.2⟩
  · simp only [Bool.and_eq_true, Bool.not_eq_true']
    refine ⟨⟨⟨⟨hok, desc⟩, decide_eq_true some_⟩, ite_true_of shape (fun col => ?_) fun rows => ?_⟩, overlap_iff.2 apart⟩
    · rw [Bool.and_eq_true, Bool.and_eq_true, Bool.or_eq_true, bne_iff_ne, beq_iff_eq, beq_iff_eq, beq_iff_eq, and_assoc]
      exact col
    · rw [Bool.and_eq_true, beq_iff_eq, decide_eq_true_eq]
      exact rows

end

/-! ## JOBS -/

theorem jobs_submits {fb : Bool} {s s1 : State} {x : Strand} {c : List TVal} {w : Who} (hx : s.strand s.cur = some x)
    (fits : ({ cls := 12 } : WordForm).encFault s.cur.kind x = none) (hpop : popVals s.cur .cqOut 16 s = .ok (c, s1))
    (hwho : who s.cur x s1 = .ok (w, s1)) (ok : jobOk c (s1.handleOk s.cur.grp ((w32 c).extractLsb' 6 7).toNat) = true)
    (usable : ∀ r ∈ ((List.range 4).map (jobReg c)).filter (·.valid), s1.usable w.g.die w.d w.l.rc r.seg 0 = true)
    (ready : submitReady w fb ((w32 c).extractLsb' 16 3).toNat ((w32 c).getLsbD 4) (jobItem w s.cur c s1) s1) :
    exec (.jobs fb) s = .next (submitted w fb 1 ((w32 c).getLsbD 4) false (jobItem w s.cur c s1) s1) := by
  refine runWord_ok ?_
  rw [Exec.bind_ok (curStrand_some hx)]
  simp only [fits]
  rw [Exec.bind_ok hpop, Exec.bind_ok hwho, Exec.bind_ok (show (get : Exec State) s1 = .ok (s1, s1) from rfl)]
  simp only [v32_eq_toNat, LogicRows.bitOf_toNat, bitsOf_eq_field (w32 c) (show 12 + 1 - 6 = 7 from rfl),
    bitsOf_eq_field (w32 c) (show 3 + 1 - 0 = 4 from rfl), bitsOf_eq_field (w32 c) (show 18 + 1 - 16 = 3 from rfl)]
  rw [check_pass ok, pure_bind, check_pass (List.all_eq_true.2 usable), pure_bind]
  exact Exec.bind_ok (submitWord_accepts (fab := false) ready)

/-- Settles O32: the four words, each through its checks to the acceptance of its item. -/
theorem copyWords : Obligations.CopyWords :=
  ⟨fun _ _ _ _ _ _ _ _ _ hsub hlay => cpt_submits hsub hlay, fun _ _ _ _ _ _ _ _ _ hsub hslot => cps_submits hsub hslot,
    fun _ _ _ _ _ _ _ _ hsub => tmov_submits hsub,
    fun _ _ _ _ _ _ hx fits hpop hwho ok usable ready => jobs_submits hx fits hpop hwho ok usable ready⟩

end Sys2Proof.CopyRows

/-! Rules of the dies of the module: what a die holds after one of them has been changed. -/

namespace Sys2Proof.DieRules

open Sys2Proof Sys2Proof.Machine

section
variable {γ : Type} {f : γ → γ}

theorem lget_lmod_self (l : List γ) {n : Nat} (d : γ) (h : n < l.length) : lget (lmod l n f) n d = f (lget l n d) := by
  induction l generalizing n with
  | nil => cases h
  | cons x l ih =>
    cases n with
    | zero => rfl
    | succ n => exact ih (Nat.lt_of_succ_lt_succ h)

theorem lget_lmod_ne (l : List γ) {n m : Nat} (d : γ) (h : n ≠ m) : lget (lmod l n f) m d = lget l m d := by
  induction l generalizing n m with
  | nil => rfl
  | cons x l ih =>
    cases n with
    | zero =>
      cases m with
      | zero => exact absurd rfl h
      | succ m => rfl
    | succ n =>
      cases m with
      | zero => rfl
      | succ m => exact ih fun e => h (congrArg Nat.succ e)

/-- A part that a change keeps, of an element and so of a list. -/
theorem lget_lmod_keeps {δ : Type} {r : γ → δ} (keeps : ∀ x, r (f x) = r x) (l : List γ) (n m : Nat) (d : γ) :
    r (lget (lmod l n f) m d) = r (lget l m d) := by
  by_cases same : n = m
  · subst same
    by_cases inside : n < l.length
    · rw [lget_lmod_self l d inside, keeps]
    · have outside : lmod l n f = l := by
        induction l generalizing n with
        | nil => rfl
        | cons x l ih =>
          cases n with
          | zero => exact absurd (Nat.succ_pos _) inside
          | succ n => exact congrArg (x :: ·) (ih n fun h => inside (Nat.succ_lt_succ h))
      rw [outside]
  · rw [lget_lmod_ne l d same]

end

section
variable (s : State) {d e : Nat} {f : Die → Die} {g : Repl → Repl}

theorem die_modDie_self (h : d < s.dies.length) : (s.modDie d f).die d = f (s.die d) := lget_lmod_self _ _ h
theorem die_modDie_ne (h : d ≠ e) : (s.modDie d f).die e = s.die e := lget_lmod_ne _ _ h

theorem die_modDie_keeps {δ : Type} {r : Die → δ} (keeps : ∀ x, r (f x) = r x) : r ((s.modDie d f).die e) = r (s.die e) :=
  lget_lmod_keeps keeps ..

theorem repl_modRepl_self (h : d < s.dies.length) : (s.modRepl d g).repl d = g (s.repl d) := congrArg Die.repl (die_modDie_self s h)
theorem repl_modRepl_ne (h : d ≠ e) : (s.modRepl d g).repl e = s.repl e := congrArg Die.repl (die_modDie_ne s h)

theorem repl_modRepl_keeps {δ : Type} {r : Repl → δ} (keeps : ∀ x, r (g x) = r x) : r ((s.modRepl d g).repl e) = r (s.repl e) :=
  die_modDie_keeps (r := fun x => r x.repl) s fun x => keeps x.repl

@[simp] theorem modDie_length : (s.modDie d f).dies.length = s.dies.length := lmod_length ..
@[simp] theorem modRepl_length : (s.modRepl d g).dies.length = s.dies.length := lmod_length ..

end

end Sys2Proof.DieRules

/-! Strong operations, RSYNC and RSTAMP (R314 to R320). -/

namespace Sys2Proof.StrongRows

open Sys2Proof Sys2Proof.Machine Sys2Proof.Claims Sys2Proof.ValueWords Sys2Proof.Operands Sys2Proof.Control Sys2Proof.MathRows
  Sys2Proof.LoadStoreRows Sys2Proof.CoreAccesses Sys2Proof.Accesses Sys2Proof.DieRules

/-! ## Leaving -/

/-- The replicated memory of a die whose strong operation has left. -/
def numbered (w : Who) (op : StrongKind) (off n val val2 : Nat) (s : State) (r : Repl) : Repl :=
  { r with issued := (s.repl w.g.die).issued + 1, upds := r.upds ++
    [Upd.mk ((s.repl w.g.die).issued + 1) (some op) w.k w.l.ctx off n val val2 none s.nextId w.x.pc s.cycle] }

theorem repl_congr {s t : State} (h : t.dies = s.dies) (die : Nat) : t.repl die = s.repl die := by
  unfold State.repl State.die
  rw [h]

section
variable (w : Who) (fb sc : Bool) (op : StrongKind) (off n val val2 : Nat) (pl : List Place) (tags : List Tag) (s : State)

theorem issueStrong_repl : (issueStrong w fb sc op off n val val2 pl tags s).repl w.g.die =
    (s.modRepl w.g.die (numbered w op off n val val2 s)).repl w.g.die := repl_congr rfl _

theorem issueStrong_left : StrongLeft w fb sc op off n val val2 pl tags s (issueStrong w fb sc op off n val val2 pl tags s) := by
  refine ⟨fun inside => ?_, ?_, rfl, rfl, fun y hy => ?_⟩
  · rw [issueStrong_repl, repl_modRepl_self s inside]
    exact ⟨rfl, rfl, rfl⟩
  · have clock : ((s.modRepl w.g.die (numbered w op off n val val2 s)).repl w.g.die).clock = (s.repl w.g.die).clock :=
      repl_modRepl_keeps s fun _ => rfl
    exact congrArg (fun c => s.slotReqs ++ [SlotReq.mk w.g.die ((s.repl w.g.die).issued + 1) c]) clock
  · show tget (tmod (tmod s.strands w.k _) w.k _) w.k = _
    rw [tget_tmod_self, tget_tmod_self, show tget s.strands w.k = some y from hy]
    cases sc with
    | true => rfl
    | false => rfl

end

/-! ## The waits before it -/

theorem strongGo_run {w : Who} {fb : Bool} {s : State} (goes : strongGoes w fb s) : strongGo w fb s = .ok ((), s) := by
  obtain ⟨flag, free, released, open_⟩ := goes
  have hold : holdForBar w.k s = .ok ((), s) := by simp [holdForBar, free]
  have release : holdForRelease w.k 4 true s = .ok ((), s) := by simp [holdForRelease, released]
  unfold strongGo
  rw [flagRoom_of_room w.x flag, pure_bind, Exec.bind_ok hold, Exec.bind_ok release,
    Exec.bind_ok (show (get : Exec State) s = .ok (s, s) from rfl), if_neg (by rw [open_]; exact Bool.false_ne_true)]
  rfl

/-! ## SST and SATM -/

section
variable {i : Instr} {op : StrongKind} {fb : Bool} {d : RegNo} {sl : BitVec 5} {b : RegNo} {s s1 s2 : State} {img : BitVec 256} {a : Acc}
  {pl : List Place} {die off : Nat}

/-- The instruction of a row runs the word of its operation, which is none of RSYNC. -/
theorem exec_of_strongRow (s : State) (h : strongRow i = some (op, fb, d, sl, b)) : exec i s = strongWord op fb d sl b s ∧ op ≠ .rsync := by
  unfold strongRow at h
  split at h <;> cases h <;> exact ⟨rfl, StrongKind.noConfusion⟩

theorem strongForm_eq (notSync : op ≠ .rsync) (esz : Nat) : strongForm op esz d b =
    { cls := 13, b := some { n := b, acc := .int }, d := some { n := d, w := op.reads esz },
      out := if op == .sst then none else some (d, if esz == 3 then 2 else 1) } := by
  cases op
  case rsync => exact absurd rfl notSync
  all_goals rfl

theorem strongVals_eq (esz : Nat) (l : List TVal) : strongVals esz l =
    (if esz == 3 then v64 l else v32 l % 2 ^ (8 * 2 ^ esz), if esz == 3 then v64 (l.drop 2) else v32 (l.drop 1)) := by
  by_cases wide : esz = 3
  · simp [strongVals, wide, Transfers.v64_eq_w64]
  · simp [strongVals, wide, v32_eq_toNat]

/-- A strong operation whose checks are passed leaves. -/
theorem strongWord_leaves (notSync : op ≠ .rsync) (hslot : slotRec s.cur sl.toNat s = .ok (img, s))
    (hacc : accessWord (strongForm op (bufRec img).esz d b) sl (strongNeed op (bufRec img).esz) (strongAcc op (bufRec img).esz) s = .ok (a, s1))
    (turn : s1.inTurn (.plain s1.nextId a.w.k a.t.loc (.write (List.replicate (2 ^ (bufRec img).esz) 0#8))) = true)
    (goes : strongGoes a.w fb s1)
    (hpl : if op = .sst then pl = [] ∧ s2 = s1 else places a.w.k a.w.x d (if (bufRec img).esz = 3 then 2 else 1) s1 = .ok (pl, s2))
    (hloc : a.t.loc = .repl die off) :
    strongWord op fb d sl b s = .next (issueStrong a.w fb a.t.sc op off (2 ^ (bufRec img).esz) (strongVals (bufRec img).esz a.data).1
      (strongVals (bufRec img).esz a.data).2 pl (if op = .sst then [] else (List.range pl.length).map (bufRec img).tagAt)
      (commitWord a.w.k 1 s2)) := by
  rw [strongForm_eq notSync] at hacc
  have order : holdForOrder a.w.k a.t.loc (.write (List.replicate (2 ^ (bufRec img).esz) 0#8)) s1 = .ok ((), s1) := if_pos turn
  refine runWord_ok ?_
  rw [Exec.bind_ok hslot]
  refine (Exec.bind_ok hacc).trans ?_
  rw [Exec.bind_ok order, Exec.bind_ok (strongGo_run goes), strongVals_eq]
  by_cases sst : op = .sst
  · subst sst
    obtain ⟨rfl, rfl⟩ : pl = [] ∧ s2 = s1 := hpl
    simp only [hloc]
    rfl
  · have other : (op == StrongKind.sst) = false := beq_false_of_ne sst
    have size : ((bufRec img).esz == 3) = decide ((bufRec img).esz = 3) := rfl
    rw [if_neg sst] at hpl
    simp only [hloc, other, if_neg sst, Bool.false_eq_true, if_false, size, decide_eq_true_eq]
    exact Exec.bind_ok hpl

end

/-! ## RSYNC -/

section
variable {fb : Bool} {d : RegNo} {s s1 s2 : State} {v : Vals} {w : Who} {pl : List Place}
  (hread : readWord { cls := 13, out := some (d, 1) } s = .ok (v, s1)) (hwho : who v.k v.x s1 = .ok (w, s1))
include hread hwho

theorem rsync_outside (out : s1.isMember w.g.die = false) : exec (.rsync fb d) s =
    .next (takeTrap s.cur .word { cause := .rplx } { s with tlb := s1.tlb, free := s1.free, dies := s1.dies }) := by
  refine runWord_trap ?_
  rw [Exec.bind_ok hread, Exec.bind_ok hwho, Exec.bind_ok (show (get : Exec State) s1 = .ok (s1, s1) from rfl), out]
  rfl

theorem rsync_leaves (inside : s1.isMember w.g.die = true) (open_ : s1.isFenced w.g.die 7 0 = false) (goes : strongGoes w fb s1)
    (hpl : places w.k w.x d 1 s1 = .ok (pl, s2)) :
    exec (.rsync fb d) s = .next (issueStrong w fb false .rsync 0 0 0 0 pl [2#5] (commitWord w.k 1 s2)) := by
  refine runWord_ok ?_
  rw [Exec.bind_ok hread, Exec.bind_ok hwho, Exec.bind_ok (show (get : Exec State) s1 = .ok (s1, s1) from rfl), inside, check_true, pure_bind,
    if_neg (by rw [open_]; exact Bool.false_ne_true)]
  exact (Exec.bind_ok (strongGo_run goes)).trans (Exec.bind_ok hpl)

end

/-! ## RSTAMP -/

/-- The two words of a stamp: their fields do not meet. -/
theorem stamp_vals (t : Stamp) : t.vals =
    [⟨BitVec.ofNat 32 t.wseq, 2#5⟩, ⟨BitVec.ofNat 32 (t.rank % 8) ||| (BitVec.ofNat 32 (t.sep % 256) <<< 8), 2#5⟩] := by
  have word : BitVec.ofNat 32 (t.rank % 8 + 256 * (t.sep % 256)) =
      BitVec.ofNat 32 (t.rank % 8) ||| (BitVec.ofNat 32 (t.sep % 256) <<< 8) := by
    apply BitVec.eq_of_toNat_eq
    have high : (BitVec.ofNat 32 (t.sep % 256) <<< 8).toNat = 2 ^ 8 * (t.sep % 256) := by
      rw [BitVec.toNat_shiftLeft, BitVec.toNat_ofNat, Nat.shiftLeft_eq]
      omega
    rw [BitVec.toNat_or, high, Nat.or_comm, BitVec.toNat_ofNat, BitVec.toNat_ofNat, Nat.mod_eq_of_lt (show t.rank % 8 < 2 ^ 32 by omega),
      ← Nat.two_pow_add_eq_or_of_lt (show t.rank % 8 < 2 ^ 8 by omega)]
    omega
  rw [Stamp.vals, word]
  rfl

/-- A commit leaves the stamps. -/
theorem commitWord_stampOf (k : StrandKey) (len : Nat) (s : State) (die line : Nat) :
    (commitWord k len s).stampOf die line = s.stampOf die line := by
  have dies : (commitWord k len s).dies = s.dies := by
    unfold commitWord
    cases s.strand k <;> rfl
  unfold State.stampOf
  rw [repl_congr dies]

section
variable {fb : Bool} {d : RegNo} {sl : BitVec 5} {b : RegNo} {s s1 s2 : State} {a : Acc} {pl : List Place} {die off : Nat}
  (hacc : accessWord { cls := 13, b := some { n := b, acc := .int }, out := some (d, 2) } sl
    { ak := .read, esz := [0, 1, 2, 3, 4], seg := (· == .repl), bits := (·.pr) } (fun _ => .any) s = .ok (a, s1))
  (room : FlagRoom a.w.x fb) (free : s1.barWaiting a.w.k = false) (hloc : a.t.loc = .repl die off)
include hacc room free hloc

theorem rstamp_waits (early : s1.inTurn (.plain s1.nextId a.w.k (.repl die (off / 32 * 32)) (.read 32)) = false) :
    exec (.rstamp fb d sl b) s = .next (s.modStrand s.cur (stays .room s.cycle)) := by
  have hold : holdForBar a.w.k s1 = .ok ((), s1) := by simp [holdForBar, free]
  have order : holdForOrder a.w.k (.repl die (lineOf off)) (.read 32) s1 = .error (.block .room) :=
    if_neg (by rw [show lineOf off = off / 32 * 32 from rfl, early]; exact Bool.false_ne_true)
  rw [← waits_eq_stays]
  refine runWord_block ?_
  rw [Exec.bind_ok hacc, flagRoom_of_room _ room, pure_bind, Exec.bind_ok hold]
  simp only [hloc]
  exact Exec.bind_error order

theorem rstamp_reads (turn : s1.inTurn (.plain s1.nextId a.w.k (.repl die (off / 32 * 32)) (.read 32)) = true)
    (hpl : places a.w.k a.w.x d 2 s1 = .ok (pl, s2)) :
    exec (.rstamp fb d sl b) s = .next (give a.w fb 1 a.t.sc true (destsOf pl (s2.stampOf die (off / 32 * 32)).vals) {}
      (commitWord a.w.k 1 s2)) := by
  have hold : holdForBar a.w.k s1 = .ok ((), s1) := by simp [holdForBar, free]
  have order : holdForOrder a.w.k (.repl die (lineOf off)) (.read 32) s1 = .ok ((), s1) := if_pos turn
  refine runWord_ok ?_
  rw [Exec.bind_ok hacc, flagRoom_of_room _ room, pure_bind, Exec.bind_ok hold]
  simp only [hloc]
  rw [Exec.bind_ok order, Exec.bind_ok hpl, Exec.bind_ok (act_run _ _)]
  refine (deliverOrPend_eq ..).trans ?_
  rw [commitWord_stampOf]
  rfl

end

/-- Settles O33: SST and SATM by their rows, RSYNC by its die's membership, RSTAMP by its turn. -/
theorem strongWords : Obligations.StrongWords := by
  refine ⟨fun i op fb d sl b s s1 s2 img a pl die off hrow hslot hacc turn goes hpl hloc => ?_,
    fun fb d s s1 s2 v w pl hread hwho => ⟨rsync_outside hread hwho, fun inside open_ goes hpl =>
      ⟨_, rsync_leaves hread hwho inside open_ goes hpl, issueStrong_left ..⟩⟩,
    fun fb d sl b s s1 s2 a pl die off hacc room free hpl hloc => ⟨fun turn => ?_, fun early => rstamp_waits hacc room free hloc early⟩⟩
  · obtain ⟨word, notSync⟩ := exec_of_strongRow s hrow
    exact ⟨_, word.trans (strongWord_leaves notSync hslot hacc turn goes hpl hloc), issueStrong_left ..⟩
  · rw [rstamp_reads hacc room free hloc turn hpl, stamp_vals]

end Sys2Proof.StrongRows

/-! Gate words (R265, R332, R333, R336, R337). -/

namespace Sys2Proof.GateRows

open Sys2Proof Sys2Proof.Machine Sys2Proof.Claims Sys2Proof.ValueWords Sys2Proof.Operands Sys2Proof.Control Sys2Proof.MathRows
  Sys2Proof.CircleRows Sys2Proof.CopyRows

/-! ## The request -/

/-- A request leaves for the home of its gate. -/
theorem sendGate_eq (die : Nat) (o : GateOp) (s : State) :
    sendGate die o { s with nextId := s.nextId + 1 } = gateSent die o s := by
  unfold sendGate gateSent State.gateFar
  dsimp only
  cases hg : tget s.gates o.gid with
  | none =>
    by_cases here : bitsOf o.gid 35 16 = s.modId
    · simp [here, gateLock]
    · simp [here]
  | some g =>
    by_cases here : g.home < 8
    · simp [here, gateLock]
    · simp [here, Nat.not_lt.1 here]

theorem gateSent_cycle (die : Nat) (o : GateOp) (s : State) : (gateSent die o s).cycle = s.cycle := by
  unfold gateSent
  dsimp only
  split <;> rfl

/-! ## The word -/

section
variable {i : Instr} {fb : Bool} {sp : WordForm} {ok : Vals → Prop} {ask : Vals → GateAsk} {d : RegNo} {n : Nat}

/-- The instruction of a row runs the word of the gate. -/
theorem exec_of_gateRow (s : State) (h : gateRow i = some (fb, sp, ok, ask, d, n)) :
    sp = { sp with cls := 13 } ∧ ∃ test : Vals → Bool, (∀ v, ok v → test v = true) ∧
      exec i s = runWord s.cur (gateWord sp fb test ask d n) s := by
  unfold gateRow at h
  split at h <;> cases h
  case h_1 a b => /- GSIG -/
    refine ⟨rfl, fun v => v32 v.b != 0, fun v nz => ?_, ?_⟩
    · rw [bne_iff_ne, v32_eq_toNat]
      exact fun zero => nz (BitVec.eq_of_toNat_eq zero)
    · simp only [← v32_eq_toNat]
      rfl
  case h_2 a b => /- GWAIT -/
    refine ⟨rfl, fun _ => true, fun _ _ => rfl, ?_⟩
    simp only [← Transfers.v64_eq_w64]
    rfl
  case h_3 => /- GRD -/ exact ⟨rfl, fun _ => true, fun _ _ => rfl, rfl⟩

/-- The room of the result that a row has. -/
theorem gateRow_room {s : State} {k : StrandKey} (h : gateRow i = some (fb, sp, ok, ask, d, n)) (room : resultRoom s k sp) :
    placesRoom k d n s = .ok ((), s) := by
  unfold gateRow at h
  split at h <;> cases h
  case h_1 a b => /- GSIG -/
    obtain ⟨g, t, kind⟩ := k
    cases kind <;> rfl
  case h_2 a b => /- GWAIT -/ exact placesRoom_of_resultRoom room rfl
  case h_3 => /- GRD -/ exact placesRoom_of_resultRoom room rfl

end

/-- The two registers of an answer. -/
theorem two_eq (val : Nat) : (two 13#5 14#5 (BitVec.ofNat 64 val)).1 = [⟨BitVec.ofNat 32 val, 13#5⟩, ⟨BitVec.ofNat 32 (val / 2 ^ 32), 14#5⟩] := by
  have low : (BitVec.ofNat 64 val).setWidth 32 = BitVec.ofNat 32 val := by
    apply BitVec.eq_of_toNat_eq
    rw [BitVec.toNat_setWidth, BitVec.toNat_ofNat, BitVec.toNat_ofNat]
    omega
  have high : (BitVec.ofNat 64 val >>> 32).setWidth 32 = BitVec.ofNat 32 (val / 2 ^ 32) := by
    apply BitVec.eq_of_toNat_eq
    rw [BitVec.toNat_setWidth, BitVec.toNat_ushiftRight, BitVec.toNat_ofNat, BitVec.toNat_ofNat, Nat.shiftRight_eq_div_pow]
    omega
  rw [two, low, high]

section
variable {sp : WordForm} {fb : Bool} {test : Vals → Bool} {ask : Vals → GateAsk} {d : RegNo} {n : Nat} {s s1 s2 : State} {v : Vals} {w : Who}
  (form : sp = { sp with cls := 13 }) (hread : readWord sp s = .ok (v, s1)) (passes : test v = true) (small : (w64 v.a).toNat < 2 ^ 36)
  (hwho : who v.k v.x s1 = .ok (w, s1)) (flag : FlagRoom v.x fb) (rel : releases v s1)
include form hread passes small hwho flag rel

/-- The first time at a gate word its request leaves, and the strand is held. -/
theorem gateWord_asks (first : s.gateOps.find? (·.owner == v.k) = none) (room : placesRoom v.k d n s1 = .ok ((), s1)) :
    gateWord sp fb test ask d n s =
      .ok ((), (gateSent w.g.die (GateOp.mk s.nextId v.k w.l.ctx w.d.tenant (w64 v.a).toNat (ask v) .sent none false) s).modStrand v.k
        fun x => { x with blk := .gate, blkAt := s.cycle }) := by
  obtain ⟨free, released⟩ := rel
  have hold : holdForBar v.k s1 = .ok ((), s1) := by simp [holdForBar, free]
  have release : holdForRelease v.k 6 false s1 = .ok ((), s1) := by simp [holdForRelease, released]
  have gid : gidOk (w64 v.a).toNat = true := decide_eq_true small
  unfold gateWord
  rw [Exec.bind_ok (show (get : Exec State) s = .ok (s, s) from rfl), ← form, Exec.bind_ok hread]
  simp only [Transfers.v64_eq_w64, gid, passes, Bool.and_self, check_true, pure_bind, flagRoom_of_room v.x flag]
  rw [Exec.bind_ok hwho, Exec.bind_ok hold, Exec.bind_ok release, first]
  dsimp only
  rw [Exec.bind_ok room, Exec.bind_ok (show (set s : Exec Unit) s1 = .ok ((), s) from rfl), Exec.bind_ok (act_run _ _)]
  simp only [sendGate_eq]
  rw [gateWord.block', act_run, gateSent_cycle]

variable {o : GateOp} {val : Nat} {pl : List Place} (held : s.gateOps.find? (·.owner == v.k) = some o) (answered : o.st = .answered val)
  (hpl : if n = 0 then pl = [] ∧ s2 = s1 else places v.k v.x d n s1 = .ok (pl, s2))
include held answered hpl

/-- What a gate word does once its gate has answered. -/
theorem gateWord_answered :
    let s3 := commitWord v.k 1 s2
    let p := { pendOf s3 v.k v.x 0 1 (destsOf pl (two 13#5 14#5 (BitVec.ofNat 64 val)).1) {} true with flag := v.x.selFlag fb }
    gateWord sp fb test ask d n s = (match o.ask with
      | .wait _ => do
        act fun s => { s with gateOps := s.gateOps.filter (·.id != o.id) }
        match v.x.selFlag fb with
        | none => act fun s => pendWhole p (issuePend p s)
        | some _ => act (issuePend p)
      | _ => act fun s =>
        { s with pend := s.pend ++ [{ p with kind := .gate o.id }] }.modStrand v.k fun x => { x with phase := .sync s3.nextId, blk := .none })
      { s3 with nextId := s3.nextId + 1 } := by
  intro s3 p
  obtain ⟨free, released⟩ := rel
  have hold : holdForBar v.k s1 = .ok ((), s1) := by simp [holdForBar, free]
  have release : holdForRelease v.k 6 false s1 = .ok ((), s1) := by simp [holdForRelease, released]
  have gid : gidOk (w64 v.a).toNat = true := decide_eq_true small
  unfold gateWord
  rw [Exec.bind_ok (show (get : Exec State) s = .ok (s, s) from rfl), ← form, Exec.bind_ok hread]
  simp only [Transfers.v64_eq_w64, gid, passes, Bool.and_self, check_true, pure_bind, flagRoom_of_room v.x flag]
  rw [Exec.bind_ok hwho, Exec.bind_ok hold, Exec.bind_ok release, held]
  simp only [answered]
  simp only [p, two_eq]
  by_cases none_ : n = 0
  · rw [if_pos none_] at hpl
    obtain ⟨rfl, rfl⟩ := hpl
    rw [if_pos (beq_iff_eq.2 none_)]
    cases o.ask <;> rfl
  · rw [if_neg none_] at hpl
    rw [if_neg (show ¬(n == 0) = true from fun h => none_ (beq_iff_eq.1 h)), Exec.bind_ok hpl]
    cases o.ask <;> rfl

/-- A wait issues as its answer arrives. -/
theorem gateWord_waited {thr : Nat} (wait : o.ask = .wait thr) :
    let s3 := commitWord v.k 1 s2
    let r := destsOf pl (two 13#5 14#5 (BitVec.ofNat 64 val)).1
    gateWord sp fb test ask d n s = .ok ((), match v.x.selFlag fb with
      | some f => leave (pendOf s3 v.k v.x f 1 r {} true) f { s3 with gateOps := s3.gateOps.filter (·.id != o.id) }
      | none => pendWhole { pendOf s3 v.k v.x 0 1 r {} true with flag := none }
          ({ s3 with nextId := s3.nextId + 1, gateOps := s3.gateOps.filter (·.id != o.id),
                     pend := s3.pend ++ [{ pendOf s3 v.k v.x 0 1 r {} true with flag := none }] }.modStrand v.k fun x =>
            { x with phase := .sync s3.nextId, blk := .none })) := by
  intro s3 r
  rw [gateWord_answered form hread passes small hwho flag rel held answered hpl, wait]
  cases hf : v.x.selFlag fb <;> rfl

/-- Another word goes on waiting, for the arrival of its answer. -/
theorem gateWord_admitted (other : ∀ thr, o.ask ≠ .wait thr) :
    let s3 := commitWord v.k 1 s2
    let r := destsOf pl (two 13#5 14#5 (BitVec.ofNat 64 val)).1
    gateWord sp fb test ask d n s = .ok ((), { s3 with
      nextId := s3.nextId + 1
      pend := s3.pend ++ [{ pendOf s3 v.k v.x 0 1 r {} true with flag := v.x.selFlag fb, kind := .gate o.id }] }.modStrand v.k
        fun x => { x with phase := .sync s3.nextId, blk := .none }) := by
  intro s3 r
  rw [gateWord_answered form hread passes small hwho flag rel held answered hpl]
  cases hask : o.ask with
  | wait thr => exact absurd hask (other thr)
  | sig n => rfl
  | rd => rfl

end

/-- Settles O34: the request that leaves, and what its answer brings. -/
theorem gateWords : Obligations.GateWords := by
  intro i fb sp ok ask d n s s1 v w hrow hread hok small hwho flag rel
  obtain ⟨form, test, tested, word⟩ := exec_of_gateRow s hrow
  rw [word]
  refine ⟨fun first room => runWord_ok ?_, fun o val s2 pl held answered _ hpl => ⟨fun ⟨thr, wait⟩ => runWord_ok ?_,
    fun other => runWord_ok ?_⟩⟩
  · exact gateWord_asks form hread (tested v hok) small hwho flag rel first (gateRow_room hrow room)
  · exact gateWord_waited form hread (tested v hok) small hwho flag rel held answered hpl wait
  · exact gateWord_admitted form hread (tested v hok) small hwho flag rel held answered hpl other

end Sys2Proof.GateRows

/-! Multicasts, collectives and exchanges (R358 to R366, R377, R378). -/

namespace Sys2Proof.CollectiveRows

open Sys2Proof Sys2Proof.Machine Sys2Proof.Claims Sys2Proof.ValueWords Sys2Proof.Operands Sys2Proof.MathRows
  Sys2Proof.LoadStoreRows Sys2Proof.CoreAccesses Sys2Proof.CopyRows Sys2Proof.SlotRows

/-! ## MCST -/

section
variable {fb : Bool} {d : RegNo} {sl : BitVec 5} {o : BitVec 2} {s s1 s2 : State} {v : Vals} {img : BitVec 256} {w : Who} {rd : RecRead}

theorem multicastTags {l : List TVal} (h : d = 126#7 ∨ (tagOf l ∈ [1#5, 2#5] ∧ tagOf (l.drop 1) ∈ [1#5, 2#5] ∧
    tagOf (l.drop 2) = 13#5 ∧ tagOf (l.drop 3) = 14#5)) :
    (d == 126#7 || (Accept.ok .int 0 (vtag (l.drop 0)) && Accept.ok .int 0 (vtag (l.drop 1)) && vtag (l.drop 2) == 13#5 &&
      vtag (l.drop 3) == 14#5)) = true := by
  rw [Bool.or_eq_true, beq_iff_eq]
  refine h.imp_right fun ⟨t0, t1, t2, t3⟩ => ?_
  simp only [Bool.and_eq_true, beq_iff_eq]
  exact ⟨⟨⟨List.contains_iff_mem.2 t0, List.contains_iff_mem.2 t1⟩, t2⟩, t3⟩

theorem mcst_submits (hread : readWord { cls := 13, rsv := o == 3#2, d := some { n := d, w := 4 } } s = .ok (v, s1))
    (hslot : slotRec v.k sl.toNat s1 = .ok (img, s1)) (hwho : who v.k v.x s1 = .ok (w, s1)) :
    let r := bufRec img
    let i := (w32 v.d).toNat
    let n := (w32 (v.d.drop 1)).toNat
    let tg := fun j => tagOf (v.d.drop j)
    (d = 126#7 ∨ (tg 0 ∈ [1#5, 2#5] ∧ tg 1 ∈ [1#5, 2#5] ∧ tg 2 = 13#5 ∧ tg 3 = 14#5)) → img ≠ 0#256 → mcstTagOk o.toNat r.etag = true →
      1 ≤ n → n ≤ 4096 → (o = 0#2 ∨ n % 4 = 0) → r.seg ∈ [Seg.core, .clus, .loft, .chip] →
      s1.usable w.g.die w.d w.l.rc r.seg r.epmod = true → spanFault w r i n r.pr true true = none →
      readList w (((w64 (v.d.drop 2)).setWidth 57).toNat) s1 = .ok (rd, s2) → mcstListOk rd.bytes n = true →
      let s3 := logged w rd s2
      let it := mcstItem w o.toNat n i r rd.bytes s3
      submitReady w fb 6 true it s3 → exec (.mcst fb d sl o) s = .next (submitted w fb 1 true true it s3) := by
  intro r i n tg tags nz etag low high whole seg usable span hlist listOk s3 it ready
  refine runWord_ok ?_
  rw [Exec.bind_ok hread, Exec.bind_ok hslot, Exec.bind_ok hwho]
  simp only [v32_eq_toNat]
  rw [check_pass, pure_bind, check_pass, pure_bind, Exec.bind_ok (show (get : Exec State) s1 = .ok (s1, s1) from rfl), checkAt_pass, pure_bind]
  · simp only [show spanFault w (bufRec img) (w32 v.d).toNat (w32 (v.d.drop 1)).toNat (bufRec img).pr true true = none from span,
      show va57 (v64 (v.d.drop 2)) = ((w64 (v.d.drop 2)).setWidth 57).toNat from va57_eq_addr57 _]
    rw [Exec.bind_ok hlist]
    refine (check_passes (by rw [listOk]; exact Bool.false_ne_true)).trans ?_
    rw [RecRead.log]
    refine (Exec.bind_ok (act_run _ s2)).trans <| (Exec.bind_ok (show (get : Exec State) s3 = .ok (s3, s3) from rfl)).trans ?_
    exact Exec.bind_ok (submitWord_accepts (fab := true) ready)
  · simp only [Bool.and_eq_true, Bool.or_eq_true, beq_iff_eq]
    refine ⟨⟨bne_iff_ne.2 nz, ?_⟩, usable⟩
    simpa [or_assoc] using seg
  · rw [Bool.and_eq_true, Bool.and_eq_true, Bool.or_eq_true, beq_iff_eq, beq_iff_eq]
    exact ⟨⟨decide_eq_true low, decide_eq_true high⟩, whole.imp_left fun z => by rw [z]; rfl⟩
  · rw [Bool.and_eq_true, Bool.or_eq_true (img == 0#256)]
    exact ⟨multicastTags tags, .inr etag⟩

end

/-! ## The order of a communicator -/

/-- The end of a word that submits an item of a collective: its number, its place in the order, and the collective. -/
theorem joins (ctx die comm need item : Nat) (y : Coll) (s : State) :
    (do
      let id ← freshId
      let ord ← actGet (takeOrder die comm)
      act (joinColl ctx { y with id := id, order := ord, need := need, item := item })) s =
    .ok ((), ordered ctx die comm { y with need := need, item := item } s) := rfl

/-! ## COLL -/

theorem coll_submits {fb : Bool} {s s1 s2 s3 : State} {x : Strand} {l : List TVal} {w : Who} (hx : s.strand s.cur = some x)
    (fits : ({ cls := 13 } : WordForm).encFault s.cur.kind x = none) (hpop : popVals s.cur .cqOut 8 s = .ok (l, s1))
    (hwho : who s.cur x s1 = .ok (w, s1)) :
    let c := collCard l
    let cm := s1.comm w.g.die c.comm
    let y := collOf w c s1
    let ns := y.srcBytes cm.nranks cm.myrank
    let nd := y.dstBytes cm.nranks
    s1.commOk w c.comm = true → c.ok cm.nranks (s1.handleOk s.cur.grp c.handle) = true → c.src % dtBytes c.dt = 0 →
      c.dst % dtBytes c.dt = 0 → chipRange w c.src ns false s1 = .ok ((), s2) → chipRange w c.dst nd true s2 = .ok ((), s3) →
      let it := collItem w s.cur c ns nd s3
      submitReady w fb c.scope c.tok it s3 →
      exec (.coll fb) s = .next (ordered w.l.ctx w.g.die c.comm
        { y with need := if c.op = 4 then 1 else nd, item := s3.nextId } (submitted w fb 1 c.tok true it s3)) := by
  intro c cm y ns nd mine ok srcAligned dstAligned hsrc hdst it ready
  refine runWord_ok ?_
  rw [Exec.bind_ok (curStrand_some hx)]
  simp only [fits]
  rw [Exec.bind_ok hpop, Exec.bind_ok hwho, Exec.bind_ok (show (get : Exec State) s1 = .ok (s1, s1) from rfl), check_pass, pure_bind]
  · refine (Exec.bind_ok hsrc).trans <| (Exec.bind_ok hdst).trans ?_
    refine (check_passes (fun h => bne_iff_ne.1 h srcAligned)).trans <| (check_passes (fun h => bne_iff_ne.1 h dstAligned)).trans ?_
    simp only [beq_iff_eq]
    refine (Exec.bind_ok (submitWord_accepts (fab := true) ready)).trans ?_
    exact joins w.l.ctx w.g.die c.comm (if c.op = 4 then 1 else nd) s3.nextId y (submitted w fb 1 c.tok true it s3)
  · rw [Bool.and_eq_true]
    exact ⟨mine, ok⟩

/-! ## A2AT -/

/-- The item of an exchange. -/
def a2atItem (q : Sub) (hn : Nat) (h : Handle) (dmem : Bool) (src dst ns nd : Nat) (s : State) : Item :=
  { Item.blank s.nextId q.w.g.die q.w.l.ctx q.w.k .coll with
    regions := [⟨.mem .chip, src, src + ns, false⟩, if dmem then ⟨.mem .chip, dst, dst + nd, true⟩ else bufRegion q.w h 0 nd true]
    handle := some hn, inbound := true, counts := true, total := nd }

/-- Its exchange. -/
def a2atColl (q : Sub) (cn : Nat) (h : Handle) (dmem : Bool) (src dst scope nd : Nat) (img : BitVec 1024) (now item : Nat) : Coll :=
  { id := 0, die := q.w.g.die, comm := cn, order := 0, op := 5, dt := 2, count := 0, root := 0, src := src,
    dst := if dmem then dst else h.buf.toNat, clog := 0, prio := 0, scope := scope, tile := none, launch := q.w.l.id,
    map := some img, dmem := dmem, pos := 0, sent := [], got := 0, need := nd, since := now, item := item }

/-- The last steps of an exchange: its alignment, its submission, and its place in the order. -/
def a2atEnd (q : Sub) (fb : Bool) (hn cn : Nat) (h : Handle) (dmem : Bool) (src dst scope : Nat) (img : BitVec 1024) (now : Nat) :
    Exec Unit := do
  let m := lmap img
  let ns := m.local_ m.sax * 2 ^ m.esz
  let nd := m.local_ m.dax * 2 ^ m.esz
  if src % 2 ^ m.esz != 0 then trapWith { cause := .aaln, va := src }
  if dmem && dst % 2 ^ m.esz != 0 then trapWith { cause := .aaln, va := dst }
  let item ← submitWord q.w fb 2 scope (a2atTok q.lit) true fun id =>
    { Item.blank id q.w.g.die q.w.l.ctx q.w.k .coll with
      regions := [⟨.mem .chip, src, src + ns, false⟩, if dmem then ⟨.mem .chip, dst, dst + nd, true⟩ else bufRegion q.w h 0 nd true]
      handle := some hn, inbound := true, counts := true, total := nd }
  let id ← freshId
  let ord ← actGet (takeOrder q.w.g.die cn)
  act (joinColl q.w.l.ctx { a2atColl q cn h dmem src dst scope nd img now item with id := id, order := ord })

theorem a2atEnd_run {q : Sub} {fb : Bool} {hn cn : Nat} {h : Handle} {dmem : Bool} {src dst scope : Nat} {img : BitVec 1024} {now : Nat}
    {s : State} (srcAligned : src % 2 ^ (lmap img).esz = 0) (dstAligned : dmem = true → dst % 2 ^ (lmap img).esz = 0) :
    let m := lmap img
    let ns := m.local_ m.sax * 2 ^ m.esz
    let nd := m.local_ m.dax * 2 ^ m.esz
    let it := a2atItem q hn h dmem src dst ns nd s
    submitReady q.w fb scope (q.lit.getLsbD 9) it s →
      a2atEnd q fb hn cn h dmem src dst scope img now s = .ok ((), ordered q.w.l.ctx q.w.g.die cn
        (a2atColl q cn h dmem src dst scope nd img now s.nextId) (submitted q.w fb 2 (q.lit.getLsbD 9) true it s)) := by
  intro m ns nd it ready
  have aligned : ¬(dmem && dst % 2 ^ (lmap img).esz != 0) = true := by
    rw [Bool.and_eq_true, bne_iff_ne]
    exact fun both => both.2 (dstAligned both.1)
  unfold a2atEnd
  refine (check_passes (fun c => bne_iff_ne.1 c srcAligned)).trans ?_
  refine (check_passes aligned).trans ?_
  refine (Exec.bind_ok (submitWord_accepts (fab := true) ready)).trans ?_
  exact joins q.w.l.ctx q.w.g.die cn nd s.nextId (a2atColl q cn h dmem src dst scope nd img now s.nextId)
    (submitted q.w fb 2 (q.lit.getLsbD 9) true it s)

section
variable {fb : Bool} {d a b : RegNo} {lit : BitVec 32} {s s1 s2 s4 s5 : State} {q : Sub} {rd : RecRead}

theorem a2at_submits
    (hsub : subWord { cls := 13, len := 2, a := some (pair a), b := some (pair b), d := some (pair d) } lit a2atLitOk none false
      s = .ok (q, s1)) :
    let hn := (q.lit.extractLsb' 0 7).toNat
    let cn := (q.lit.extractLsb' 20 8).toNat
    let dmem := q.lit.getLsbD 7
    let scope := (q.lit.extractLsb' 16 3).toNat
    let ma := addr57 q.v.a
    let src := addr57 q.v.d
    let dst := addr57 q.v.b
    let h := s1.handle q.w.k.grp hn
    (dmem = true ∨ b = 126#7) → s1.handleOk q.w.k.grp hn = true → s1.commOk q.w cn = true → readRuns q.w ma 2 s1 = .ok (rd, s2) →
      let img := BitVec.ofNat 1024 (ofBytes rd.bytes)
      let m := lmap img
      let ns := m.local_ m.sax * 2 ^ m.esz
      let nd := m.local_ m.dax * 2 ^ m.esz
      mapOk img (s1.comm q.w.g.die cn).nranks = true → src % 2 ^ m.esz = 0 → (dmem = true → dst % 2 ^ m.esz = 0) →
      chipRange q.w src ns false (logged q.w rd s2) = .ok ((), s4) →
      (if dmem then chipRange q.w dst nd true s4 = .ok ((), s5)
        else s5 = s4 ∧ s1.descIn q.w.g q.w.l.rc q.w.d.yard h.buf 0 nd = true) →
      submitReady q.w fb scope (q.lit.getLsbD 9) (a2atItem q hn h dmem src dst ns nd s5) s5 →
      exec (.a2at fb d a b lit) s = .next (ordered q.w.l.ctx q.w.g.die cn (a2atColl q cn h dmem src dst scope nd img s1.cycle s5.nextId)
        (submitted q.w fb 2 (q.lit.getLsbD 9) true (a2atItem q hn h dmem src dst ns nd s5) s5)) := by
  intro hn cn dmem scope ma src dst h place bound mine hmap img m ns nd good srcAligned dstAligned hsrc hdst ready
  refine runWord_ok ?_
  refine (Exec.bind_ok hsub).trans ?_
  rw [Exec.bind_ok (show (get : Exec State) s1 = .ok (s1, s1) from rfl)]
  simp only [copyHandle_eq, va57_eq_addr57, show a2atComm q.lit = (q.lit.extractLsb' 20 8).toNat from bitsOf_eq_field q.lit rfl,
    show a2atScope q.lit = (q.lit.extractLsb' 16 3).toNat from bitsOf_eq_field q.lit rfl]
  rw [check_pass, pure_bind, Exec.bind_ok hmap]
  · refine (check_passes (by rw [show mapOk (BitVec.ofNat 1024 (ofBytes rd.bytes)) _ = true from good]; exact Bool.false_ne_true)).trans ?_
    rw [RecRead.log]
    refine (Exec.bind_ok (act_run _ s2)).trans <| (Exec.bind_ok hsrc).trans ?_
    have rest := a2atEnd_run (cn := cn) (now := s1.cycle) srcAligned dstAligned ready
    cases hd : q.lit.getLsbD 7 with
    | true =>
      rw [if_pos (show dmem = true from hd)] at hdst
      rw [if_pos (show a2atDmem q.lit = true from hd)]
      exact (Exec.bind_ok hdst).trans rest
    | false =>
      rw [if_neg (show ¬dmem = true by rw [show dmem = false from hd]; exact Bool.false_ne_true)] at hdst
      rw [if_neg (show ¬a2atDmem q.lit = true by rw [show a2atDmem q.lit = false from hd]; exact Bool.false_ne_true)]
      obtain ⟨rfl, inside⟩ := hdst
      rw [check_pass inside, pure_bind]
      exact rest
  · rw [Bool.and_eq_true, Bool.and_eq_true, Bool.or_eq_true, beq_iff_eq]
    exact ⟨⟨place, bound⟩, mine⟩

end

/-- Settles O35: the multicast, the collective and the exchange, each through its checks to the acceptance of its item. -/
theorem collectiveWords : Obligations.CollectiveWords :=
  ⟨fun _ _ _ _ _ _ _ _ _ _ _ hread hslot hwho => mcst_submits hread hslot hwho,
    fun _ _ _ _ _ _ _ _ hx fits hpop hwho => coll_submits hx fits hpop hwho, fun _ _ _ _ _ _ _ _ _ _ _ _ hsub => a2at_submits hsub⟩

end Sys2Proof.CollectiveRows

/-! The words of class 0xE (R291 to R299). -/

namespace Sys2Proof.SystemRows

open Sys2Proof Sys2Proof.Machine Sys2Proof.Claims Sys2Proof.ValueWords Sys2Proof.Operands Sys2Proof.MathRows Sys2Proof.DeviceFrame
  Sys2Proof.LoadStoreRows Sys2Proof.CoreAccesses Sys2Proof.CopyRows Sys2Proof.GateRows

/-! ## What the words share -/

theorem commitRelease_run {v : Vals} {s : State} (rel : releases v s) : commitRelease v s = .ok ((), s) := by
  obtain ⟨free, released⟩ := rel
  have hold : holdForBar v.k s = .ok ((), s) := by simp [holdForBar, free]
  have release : holdForRelease v.k 6 false s = .ok ((), s) := by simp [holdForRelease, released]
  unfold commitRelease
  rw [Exec.bind_ok hold, release]

theorem who_ctx {k : StrandKey} {x : Strand} {s t : State} {w : Who} (h : who k x s = .ok (w, t)) : s.ctxOf k.grp = w.l.ctx := by
  unfold who at h
  unfold State.ctxOf
  cases hg : s.group k.grp with
  | none => rw [hg] at h; cases h
  | some g =>
    cases hl : s.launch k.grp.launch with
    | none => rw [hg, hl] at h; cases h
    | some l =>
      rw [hg, hl] at h
      dsimp only at h
      cases hc : s.ctx l.ctx with
      | none => rw [hc] at h; cases h
      | some c => rw [hc] at h; cases h; rfl

/-! ## LAUNCH -/

section
variable {c q addr : Nat} {s s3 s4 : State} {x : Ctx} {e : QDesc}

theorem readQDesc_logged (x : Ctx) (die q : Nat) (s : State) : Logged s (readQDesc x die q s).2 := by
  unfold readQDesc
  have read := devRead_logged x.d die (x.d.qtable + 32 * q) 32 s
  cases h : devRead x.d die (x.d.qtable + 32 * q) 32 s with
  | mk r t =>
    rw [h] at read
    cases r <;> exact read

variable (hx : s.liveCtx c = some x) (hq : readQDesc x (s.homeDie x) q s = (some e, s3))
include hx hq

theorem appendLaunch_unusable (h : e.size = 0 ∨ e.dev = false) : (appendLaunch c q addr s).1 = 2 := by
  have bad : (e.size == 0 || !e.dev) = true := by rcases h with h | h <;> simp [h]
  simp only [appendLaunch, hx, hq, bad, if_true]

variable (sized : e.size ≠ 0) (dev : e.dev = true)
include sized dev

theorem appendLaunch_full (full : e.size ≤ ((x.queue q).tail + 2 ^ 32 - (x.queue q).head) % 2 ^ 32) : (appendLaunch c q addr s).1 = 1 := by
  have good : (e.size == 0 || !e.dev) = false := by simp [sized, dev]
  simp only [appendLaunch, hx, hq, good, Bool.false_eq_true, if_false]
  rw [if_pos (show e.size ≤ (x.queue q).dist from full)]

theorem appendLaunch_appends (room : ((x.queue q).tail + 2 ^ 32 - (x.queue q).head) % 2 ^ 32 < e.size)
    (hw : devWrite x.d (s.homeDie x) (e.ring + 32 * ((x.queue q).tail % e.size)) (launchEntry addr) s3 = (true, s4)) :
    appendLaunch c q addr s = (0, doorbellEvent (s.homeDie x) c q
      (s4.modQueue c q fun r => { r with tail := (r.tail + 1) % 2 ^ 32 })) := by
  have good : (e.size == 0 || !e.dev) = false := by simp [sized, dev]
  have entry : launchBytes addr = launchEntry addr := rfl
  have home : s3.homeDie x = s.homeDie x := by
    have logged := readQDesc_logged x (s.homeDie x) q s
    rw [hq] at logged
    unfold State.homeDie State.yardHome State.yard
    rw [← logged.rest]
  simp only [appendLaunch, hx, hq, good, Bool.false_eq_true, if_false]
  rw [if_neg (show ¬e.size ≤ (x.queue q).dist from Nat.not_le.2 room), home, entry, hw]

end

theorem exec_launch {d a b : RegNo} {s s1 s3 : State} {v : Vals} {w : Who}
    (hread : readWord { cls := 14, a := some (pair a), b := some { n := b, acc := .int }, out := some (d, 1) } s = .ok (v, s1))
    (small : (w32 v.b).toNat ≤ 63) (aligned : (w64 v.a).toNat % 64 = 0) (rel : releases v s1) (hwho : who v.k v.x s1 = .ok (w, s1))
    (open_ : s1.isFenced ((yardDies (s1.yard w.d.yard)).headD 0) 6 0 = false)
    (hput : writeVals v.k v.x d (n32 (appendLaunch w.l.ctx (w32 v.b).toNat (w64 v.a).toNat (commitWord v.k 1 s1)).1)
      (appendLaunch w.l.ctx (w32 v.b).toNat (w64 v.a).toNat (commitWord v.k 1 s1)).2 = .ok ((), s3)) :
    exec (.launch d a b) s = .next (s3.modStrand v.k (·.advance 1)) := by
  refine runWord_ok ?_
  refine (Exec.bind_ok hread).trans ?_
  rw [check_pass (decide_eq_true (show v32 v.b ≤ 63 by rwa [v32_eq_toNat])), pure_bind]
  simp only [v32_eq_toNat, Transfers.v64_eq_w64]
  refine (check_passes (fun h => bne_iff_ne.1 h aligned)).trans ?_
  rw [Exec.bind_ok (commitRelease_run rel), Exec.bind_ok (show (get : Exec State) s1 = .ok (s1, s1) from rfl), Exec.bind_ok hwho,
    if_neg (by rw [open_]; exact Bool.false_ne_true), who_ctx hwho]
  refine (Exec.bind_ok (act_run _ s1)).trans <| (Exec.bind_ok (actGet_run _ _)).trans ?_
  exact Exec.bind_ok hput

/-! ## TRIG -/

section
variable {a : RegNo} {s s1 : State} {v : Vals} {w : Who}
  (hread : readWord { cls := 14, a := some { n := a, acc := .int } } s = .ok (v, s1)) (small : (w32 v.a).toNat ≤ 255)
  (rel : releases v s1) (hwho : who v.k v.x (commitWord v.k 1 s1) = .ok (w, commitWord v.k 1 s1))
  (open_ : (commitWord v.k 1 s1).isFenced w.g.die 6 1 = false)
include hread small rel hwho open_

theorem exec_trig : exec (.trig a) s =
    .next ((if (commitWord v.k 1 s1).holdsGraph w.g.die w.l.ctx (w32 v.a).toNat then
      triggerGraph w.g.die w.l.ctx (w32 v.a).toNat (commitWord v.k 1 s1)
      else logPlain w.l.ctx 0x0B (w32 v.a).toNat w.l.id 0 0xFFFF (commitWord v.k 1 s1)).modStrand v.k (·.advance 1)) := by
  rw [← v32_eq_toNat] at small ⊢
  refine runWord_ok ?_
  rw [Exec.bind_ok hread, check_pass (decide_eq_true small), pure_bind,
    Exec.bind_ok (commitRelease_run rel), Exec.bind_ok (act_run _ s1), Exec.bind_ok hwho,
    Exec.bind_ok (show (get : Exec State) (commitWord v.k 1 s1) = .ok (commitWord v.k 1 s1, commitWord v.k 1 s1) from rfl),
    if_neg (by rw [open_]; exact Bool.false_ne_true)]
  by_cases holds : (commitWord v.k 1 s1).holdsGraph w.g.die w.l.ctx (v32 v.a) = true
  · rw [if_pos holds, if_pos holds]
    rfl
  · rw [if_neg holds, if_neg holds]
    rfl

theorem exec_trig_held {y : Machine.Graph} (hy : tget ((commitWord v.k 1 s1).die w.g.die).graphs (w32 v.a).toNat = some y) (own : y.ctx = w.l.ctx) :
    exec (.trig a) s = .next ((raiseShed w.g.die ⟨.trigger, w.l.ctx, 0, (w32 v.a).toNat, 0, false⟩ (commitWord v.k 1 s1)).modStrand v.k
      (·.advance 1)) := by
  have same : (y.ctx == w.l.ctx) = true := beq_iff_eq.2 own
  rw [exec_trig hread small rel hwho open_]
  simp only [State.holdsGraph, triggerGraph, hy, same, if_true]

theorem exec_trig_none
    (other : ∀ y, tget ((commitWord v.k 1 s1).die w.g.die).graphs (w32 v.a).toNat = some y → y.ctx ≠ w.l.ctx) :
    exec (.trig a) s = .next ((logPlain w.l.ctx 0x0B (w32 v.a).toNat w.l.id 0 0xFFFF (commitWord v.k 1 s1)).modStrand v.k (·.advance 1)) := by
  have none_ : (commitWord v.k 1 s1).holdsGraph w.g.die w.l.ctx (w32 v.a).toNat = false := by
    unfold State.holdsGraph
    cases hy : tget ((commitWord v.k 1 s1).die w.g.die).graphs (w32 v.a).toNat with
    | none => rfl
    | some y => exact beq_false_of_ne (other y hy)
  rw [exec_trig hread small rel hwho open_, none_]
  rfl

end

/-! ## CAPQ, CLK, ELOG and ULOG -/

theorem exec_capq {d a : RegNo} {s s1 s2 : State} {v : Vals} {n : Nat}
    (hread : readWord { cls := 14, a := some { n := a, acc := .int }, out := some (d, 1) } s = .ok (v, s1))
    (hn : capTable[(w32 v.a).toNat]? = some n) (hput : writeVals v.k v.x d (n32 n) s1 = .ok ((), s2)) :
    exec (.capq d a) s = .next (s2.modStrand v.k (·.advance 1)) := by
  obtain ⟨inside, -⟩ := List.getElem?_eq_some_iff.1 hn
  have value : capValue (w32 v.a).toNat = n := (MoveRows.lget_eq_getD capTable _ 0).trans (by rw [hn]; rfl)
  refine runWord_ok ?_
  rw [Exec.bind_ok hread, check_pass (decide_eq_true (show v32 v.a < 14 by rw [v32_eq_toNat]; exact inside)), pure_bind]
  simp only [v32_eq_toNat, value]
  exact Exec.bind_ok hput

theorem exec_clk {d a : RegNo} {s s1 s2 : State} {v : Vals} {n : Nat}
    (hread : readWord { cls := 14, a := some { n := a, acc := .int }, out := some (d, 2) } s = .ok (v, s1))
    (hn : (w32 v.a = 0#32 ∧ n = s1.cycle * 4 / 5) ∨ (w32 v.a = 1#32 ∧ n = s1.cycle))
    (hput : writeVals v.k v.x d (two 13#5 14#5 (BitVec.ofNat 64 n)).1 s1 = .ok ((), s2)) :
    exec (.clk d a) s = .next (s2.modStrand v.k (·.advance 1)) := by
  have small : (w32 v.a).toNat ≤ 1 := by rcases hn with ⟨h, -⟩ | ⟨h, -⟩ <;> rw [h] <;> decide
  have clock : (if v32 v.a == 0 then s1.ns else s1.cycle) = n := by
    rw [v32_eq_toNat]
    rcases hn with ⟨h, hn⟩ | ⟨h, hn⟩ <;> rw [h, hn] <;> rfl
  rw [two_eq] at hput
  refine runWord_ok ?_
  rw [Exec.bind_ok hread, check_pass (decide_eq_true (show v32 v.a ≤ 1 by rwa [v32_eq_toNat])), pure_bind,
    Exec.bind_ok (show (get : Exec State) s1 = .ok (s1, s1) from rfl)]
  simp only [clock]
  exact Exec.bind_ok hput

theorem exec_elog {a b : RegNo} {s s1 : State} {v : Vals} {w : Who}
    (hread : readWord { cls := 14, a := some { n := a }, b := some { n := b } } s = .ok (v, s1)) (hwho : who v.k v.x s1 = .ok (w, s1)) :
    exec (.elog a b) s =
      .next ((logPlain w.l.ctx 0x40 0 w.l.id (w32 v.a).toNat (w32 v.b).toNat s1).modStrand v.k (·.advance 1)) := by
  refine runWord_ok ?_
  rw [Exec.bind_ok hread, Exec.bind_ok hwho]
  simp only [v32_eq_toNat]
  exact Exec.bind_ok (act_run _ s1)

theorem exec_ulog {d a b : RegNo} {s s1 s3 : State} {v : Vals} {w : Who}
    (hread : readWord { cls := 14, a := some { n := a, w := 2 }, b := some { n := b, acc := .int }, out := some (d, 1) } s = .ok (v, s1))
    (small : (w32 v.b).toNat ≤ 7) (rel : releases v s1) (hwho : who v.k v.x (commitWord v.k 1 s1) = .ok (w, commitWord v.k 1 s1)) :
    let r := appendURing w.l.ctx w.l.id w.g.die (w32 v.b).toNat (w64 v.a).toNat v.k.tid (v.k.kind == .x) (commitWord v.k 1 s1)
    writeVals v.k v.x d (n32 r.1) r.2 = .ok ((), s3) → exec (.ulog d a b) s = .next (s3.modStrand v.k (·.advance 1)) := by
  intro r hput
  refine runWord_ok ?_
  rw [Exec.bind_ok hread, check_pass (decide_eq_true (show v32 v.b ≤ 7 by rwa [v32_eq_toNat])), pure_bind]
  simp only [v32_eq_toNat, Transfers.v64_eq_w64]
  rw [Exec.bind_ok (commitRelease_run rel), Exec.bind_ok (act_run _ s1), Exec.bind_ok hwho]
  exact (Exec.bind_ok (actGet_run _ _)).trans (Exec.bind_ok hput)

/-- Settles O36: the words of class 0xE in their order. -/
theorem systemWords : Obligations.SystemWords :=
  ⟨fun _ _ _ _ _ _ _ hread small aligned rel hwho open_ =>
      ⟨fun _ hput => exec_launch hread small aligned rel hwho open_ hput, fun _ _ _ hx hq =>
        ⟨appendLaunch_unusable hx hq, appendLaunch_full hx hq, fun _ sized dev room hw => appendLaunch_appends hx hq sized dev room hw⟩⟩,
    fun _ _ _ _ _ hread small rel hwho open_ => ⟨fun _ hy own => exec_trig_held hread small rel hwho open_ hy own,
      exec_trig_none hread small rel hwho open_⟩,
    fun _ _ _ _ _ _ hread _ hn hput => exec_capq hread hn hput, fun _ _ _ _ _ _ hread _ hn hput => exec_clk hread hn hput,
    fun _ _ _ _ _ _ hread hwho => exec_elog hread hwho, fun _ _ _ _ _ _ _ _ hread small rel hwho hput => exec_ulog hread small rel hwho hput⟩

end Sys2Proof.SystemRows

/-! Waits and time limits of strands (R122, R124, R126, R197). -/

namespace Sys2Proof.Stalls

open Sys2Proof Sys2Proof.Machine

/-- A word that stands blocked for the reason named is tried again. -/
theorem retryWord_retries {why : Block} {k : StrandKey} {x : Strand} {s : State} (hx : s.strand k = some x) (hp : x.phase = .body)
    (hb : x.blk = why) (hg : s.groupIssues k.grp = true) :
    retryWord why k s =
      { s.modStrand k fun y => { y with blk := if why == .queue then .again else .none } with cur := k, ran := 0 } := by
  simp [retryWord, hx, hp, hb, hg]

/-- The threads that RVTO names are those of the circle that have arrived, in thread order. -/
theorem arrived_threads (c : Nat) (arr : List Arrival) :
    ((List.range 32).filterMap fun i => if (arr.map Arrival.tid ++ []).contains (32 * c + i) then some (32 * c + i) else none) =
      ((List.range 32).map (32 * c + ·)).filter fun t => arr.any (·.tid == t) := by
  have hasArrived : ∀ t, (arr.map Arrival.tid ++ []).contains t = arr.any (·.tid == t) := by
    intro t
    rw [Bool.eq_iff_iff]
    simp
  simp only [hasArrived]
  induction List.range 32 with
  | nil => rfl
  | cons i l ih => by_cases h : arr.any (·.tid == 32 * c + i) = true <;>
    simp only [List.filterMap_cons, List.map_cons, List.filter_cons, h, ih, if_true, if_false, Bool.false_eq_true]

/-- RVTO is taken in every thread that has arrived at the rendezvous. -/
theorem rvto_takes {g : GroupKey} {c : Nat} {sq : RvSeq} {x : Group} {ci : Machine.Circle} {s : State} (hg : s.group g = some x)
    (hc : tget x.circ (c, sq) = some ci) :
    rvto g (c, sq) [] s = takeTraps
      ((((List.range 32).map (32 * c + ·)).filter fun t => ci.arr.any (·.tid == t)).map (seqStrand g sq)) { cause := .rvto }
      (clearCircle g (c, sq) s) := by
  have found : tgetD x.circ (c, sq) ⟨0, []⟩ = ci := by simp [tgetD, hc]
  rw [← arrived_threads]
  simp only [rvto, hg, found]

/-- The time limit of a rendezvous decides whether RVTO is taken. -/
theorem execRvtoTimeout_eq {g : GroupKey} {c : Nat} {sq : RvSeq} {x : Group} {ci : Machine.Circle} {s : State}
    (ha : s.arg = .circle g c sq) (hg : s.group g = some x) (hc : tget x.circ (c, sq) = some ci) (hi : s.groupIssues g = true) :
    exec .rvtoTimeout s = .next (if ci.first + 2 ^ 20 ≤ s.cycle then rvto g (c, sq) [] s else s) := by
  show execRvtoTimeout s = _
  simp only [execRvtoTimeout, ha, hg, hc, hi, Bool.true_and, decide_eq_true_eq]
  rfl

/-- A strand that is blocked on a queue, its word being tried again or not, is blocked on it (R124). -/
theorem onQueue_of {b : Block} (h : b = .queue ∨ b = .again) : b.onQueue = true := by
  rcases h with rfl | rfl <;> rfl

end Sys2Proof.Stalls

namespace Sys2Proof

open Sys2Proof.Machine Sys2Proof.Stalls

/-- Settles O44: a blocked word is retried, and the two time limits are compared with the cycle of the first wait. -/
theorem stallEvents : Obligations.StallEvents := by
  refine ⟨fun s k x ha hx hp hg => ⟨fun hb => ?_, fun hb => ?_⟩, fun s g c sq x ci ha hg hc hi => ⟨fun late => ?_, fun early => ?_⟩, ?_⟩
  · show execQueueUnblock s = _
    simp only [execQueueUnblock, ha, retryWord_retries hx hp hb hg]
    rfl
  · show execSubmissionAccept s = _
    simp only [execSubmissionAccept, ha, retryWord_retries hx hp hb hg]
    rfl
  · rw [execRvtoTimeout_eq ha hg hc hi, if_pos late, rvto_takes hg hc]
  · rw [execRvtoTimeout_eq ha hg hc hi, if_neg (by omega)]
  · intro s g t y a x ha hy hsa hsx hpa hpx hba hbx hg late
    have dead : s.deadlocked ⟨g, t⟩ = true := by
      simp only [State.deadlocked, hy, hsa, hsx, hpa, hpx, onQueue_of hba, onQueue_of hbx, hg, beq_self_eq_true, Bool.and_self,
        Bool.true_and, decide_eq_true_eq]
      exact late
    show execQdlkTimeout s = _
    simp only [execQdlkTimeout, ha, dead, if_true]

end Sys2Proof

/-! Clauses and completions (R14, R18, R19, R25, R26, R34, R35, R44, R157, R161). -/

namespace Sys2Proof.Clauses

open Sys2Proof Sys2Proof.Machine Sys2Proof.Claims

/-! ## Entering a clause -/

/-- A change of a strand may be replaced by one that does the same to the strand that stands there. -/
theorem modStrand_congr {s : State} {k : StrandKey} {x : Strand} {f g : Strand → Strand} (hx : s.strand k = some x) (h : f x = g x) :
    s.modStrand k f = s.modStrand k g := by
  unfold State.modStrand
  rw [Operands.tmod_congr hx h]

theorem hdrFault_eq (h : Word) : hdrFault h = headerFault h := by
  have flag (n : Nat) (hn : n < 16) (f : BitVec 4) : (f == BitVec.ofNat 4 n) = (f.toNat == n) := by
    rw [Bool.eq_iff_iff, beq_iff_eq, beq_iff_eq, ← BitVec.toNat_inj, BitVec.toNat_ofNat, Nat.mod_eq_of_lt hn]
  have a : hdrFlagA h = (h.extractLsb' 16 4).toNat := CopyRows.bitsOf_eq_field h rfl
  have b : hdrFlagB h = (h.extractLsb' 12 4).toNat := CopyRows.bitsOf_eq_field h rfl
  simp only [hdrFault, headerFault, a, b, hdrGen, hdrPred, ← flag 12 (by decide), ← flag 13 (by decide), ← flag 14 (by decide), beq_false]
  rfl

section
variable {k : StrandKey} {x : Strand} {h : Word} {body : List Word} {now : Nat}

/-- The strand as it is when its clause has been fetched. -/
def fetched (h : Word) (body : List Word) (x : Strand) : Strand := { x with hdr := h, body := body, phase := .flags }

theorem waits_iff : (x.pendingMask &&& hdrWait h != 0) = true ↔ ¬ waitsClear x h := by
  have field : hdrWait h = (h.extractLsb' 20 12).toNat := CopyRows.bitsOf_eq_field h rfl
  have bit (n : Nat) (hn : n < 12) : (h.extractLsb' 20 12).getLsbD n = h.getLsbD (20 + n) := by
    simp [hn]
  rw [field, bne, Bool.not_eq_true', ← Bool.not_eq_true, Control.mask_eq_zero, waitsClear]
  refine not_congr (forall_congr' fun n => forall_congr' fun hn => ?_)
  rw [bit n hn]

theorem guard_iff : (hdrGen h && !x.pred (hdrPred h)) = true ↔ ¬ guardOpen x h := by
  simp [hdrGen, hdrPred, Strand.pred, guardOpen]

theorem next_fetched : (fetched h body x).goto (fetched h body x).nextHdr =
    atHeader (x.cpc + (4#57 * ((h.extractLsb' 8 4).setWidth 57 + 2#57))) { x with hdr := h, body := body } := by
  have len : (fetched h body x).nextHdr = x.cpc + (4#57 * ((h.extractLsb' 8 4).setWidth 57 + 2#57)) := by
    rw [Strand.nextHdr, show (fetched h body x).hdr = h from rfl, Transfers.hdrLen_eq_extract, BitVec.ofNat_mul, BitVec.ofNat_add, BitVec.ofNat_toNat]
    rfl
  rw [len]
  rfl

/-- The clause whose fetch has ended is entered as R18 and R19 say. -/
theorem enter_entered {s : State} (hx : s.strand k = some x) :
    Entered k x h body now s (s.modStrand k fun y => (fetched h body y).enter now) := by
  refine ⟨fun waits => modStrand_congr hx ?_, fun clear out op => modStrand_congr hx ?_, fun clear out shut => modStrand_congr hx ?_,
    fun clear ins idx => modStrand_congr hx ?_⟩
  · have h1 : ((fetched h body x).pendingMask &&& hdrWait (fetched h body x).hdr != 0) = true := waits_iff.2 waits
    rw [Strand.enter, if_pos h1]
    rfl
  all_goals
    have h1 : ¬ ((fetched h body x).pendingMask &&& hdrWait (fetched h body x).hdr != 0) = true := fun e => waits_iff.1 e clear
    rw [Strand.enter, if_neg h1]
  · have h2 : ¬ (hdrGen (fetched h body x).hdr && !(fetched h body x).pred (hdrPred (fetched h body x).hdr)) = true :=
      fun e => guard_iff.1 e op
    rw [if_neg (show ¬ (fetched h body x).inside = true by rw [show (fetched h body x).inside = x.inside from rfl, out]; decide), if_neg h2]
    rfl
  · have h2 : (hdrGen (fetched h body x).hdr && !(fetched h body x).pred (hdrPred (fetched h body x).hdr)) = true := guard_iff.2 shut
    rw [if_neg (show ¬ (fetched h body x).inside = true by rw [show (fetched h body x).inside = x.inside from rfl, out]; decide), if_pos h2,
      next_fetched]
  · rw [if_pos (show (fetched h body x).inside = true from ins), if_pos (show (fetched h body x).idx < (fetched h body x).body.length from idx)]
    rfl

end

section
variable {s s1 : State} {k : StrandKey} {x : Strand} {g : Group} {l : Launch} {c : Ctx} (hx : s.strand k = some x)
  (hg : s.group k.grp = some g) (hl : s.launch k.grp.launch = some l) (hc : s.ctx l.ctx = some c) (hp : x.phase = .header)
  (hi : g.life.issues = true)
include hx hg hl hc hp hi

theorem clauseEntry_enters {h : Word} {body : List Word} (hf : fetchClause ⟨k, x, g, l, c.d⟩ s = ((h :: body, none), s1)) :
    clauseEntry k s = enterClause ⟨k, x, g, l, c.d⟩ h body s1 := by
  simp only [clauseEntry, hx, hg, hl, hc, hp, hi, hf, beq_self_eq_true, Bool.and_self, if_true]

theorem clauseEntry_faults {ws : List Word} {a : Nat} {f : Cause} {e : List (Bool × Nat)}
    (hf : fetchClause ⟨k, x, g, l, c.d⟩ s = ((ws, some (a, .fault f e)), s1)) :
    clauseEntry k s = takeTrap k .fetch { cause := f, va := a, errs := e } s1 := by
  simp only [clauseEntry, hx, hg, hl, hc, hp, hi, hf, beq_self_eq_true, Bool.and_self, if_true]

end

theorem enterClause_traps (w : Who) {h : Word} (body : List Word) {f : Cause} (s : State) (hf : headerFault h = some f) :
    enterClause w h body s = takeTrap w.k .header { cause := f } (s.modStrand w.k fun x => { x with hdr := h, body := body }) := by
  rw [enterClause, hdrFault_eq, hf]

theorem enterClause_enters (w : Who) {h : Word} (body : List Word) (s : State) (hf : headerFault h = none) :
    enterClause w h body s = s.modStrand w.k fun x => (fetched h body x).enter s.cycle := by
  rw [enterClause, hdrFault_eq, hf]
  rfl

theorem clauseWaitEnd_enters {s : State} {k : StrandKey} {x : Strand} (hx : s.strand k = some x) (hp : x.phase = .flags)
    (hg : s.groupIssues k.grp = true) :
    clauseWaitEnd k s = s.modStrand k fun y => (fetched x.hdr x.body y).enter s.cycle := by
  have same : fetched x.hdr x.body x = x := by
    cases x
    subst hp
    rfl
  simp only [clauseWaitEnd, hx, hp, hg, beq_self_eq_true, Bool.and_self, if_true]
  exact modStrand_congr hx (by rw [same])

/-! ## Words that are no instructions -/

theorem badWord_eq (w : Word) (k : StrandKind) (x : Strand) (e : DecodeError) : badWord w k x e = badWordCause k x w e := by
  have cls : bitsOf w.toNat 31 28 = (w.extractLsb' 28 4).toNat := CopyRows.bitsOf_eq_field w rfl
  cases e with
  | unassigned => rfl
  | noLiteral => rw [badWord, badWordCause, cls]
  | reservedField => simp [badWord, badWordCause, cls]

/-! ## Completions -/

/-- The notes that stay, where the registers of `done` are known to be written again. -/
theorem settleProv_eq (op : Nat) (l : List Prov) : ∀ done, settleProv op done l = (List.range l.length).filterMap fun i => l[i]?.bind fun e =>
    if e.op = op ∨ e.reg ∈ done ∨ (l.take i).any (fun f => f.op == op && f.reg == e.reg) = true then none else some e := by
  induction l with
  | nil => intro done; rfl
  | cons a l ih =>
    intro done
    rw [List.length_cons, List.range_succ_eq_map, List.filterMap_cons, List.filterMap_map]
    have rest (dn : List Nat) (h : ∀ r, r ∈ dn ↔ r ∈ done ∨ (a.op = op ∧ a.reg = r)) : settleProv op dn l =
        (List.range l.length).filterMap ((fun i => (a :: l)[i]?.bind fun e =>
          if e.op = op ∨ e.reg ∈ done ∨ ((a :: l).take i).any (fun f => f.op == op && f.reg == e.reg) = true then none else some e) ∘
            Nat.succ) := by
      rw [ih dn]
      refine List.filterMap_congr fun i _ => ?_
      simp only [Function.comp, List.getElem?_cons_succ, List.take_succ_cons, List.any_cons, h, Bool.or_eq_true, Bool.and_eq_true, beq_iff_eq,
        or_assoc]
    unfold settleProv
    by_cases h1 : a.op = op
    · simp only [h1, beq_self_eq_true, if_true, List.getElem?_cons_zero, Option.bind_some, true_or]
      exact rest _ fun r => by simp [h1, or_comm, eq_comm]
    · have keep : settleProv op done l = _ := rest done fun r => by simp [h1]
      by_cases h2 : a.reg ∈ done
      · simp only [beq_iff_eq, h1, h2, List.contains_eq_mem, decide_true, if_true, if_false, List.getElem?_cons_zero, Option.bind_some,
          false_or, true_or]
        exact keep
      · simp only [beq_iff_eq, h1, h2, List.contains_eq_mem, decide_false, if_false, List.getElem?_cons_zero, Option.bind_some, List.take_zero,
          List.any_nil, Bool.false_eq_true, or_self]
        rw [keep]

theorem settleProv_eq_notesAfter (op : Nat) (l : List Prov) : settleProv op [] l = notesAfter op l := by
  rw [settleProv_eq]
  simp [notesAfter]

/-- The end of an operation that logs nothing and has a flag. -/
theorem finishPend_flag {p : Pend} {s : State} {f : Nat} (h1 : p.invl = false) (h2 : p.divz = false) (h3 : p.ovfl = false)
    (h4 : p.unfl = false) (hf : p.flag = some f) :
    finishPend p s = { s with pend := s.pend.filter (·.id != p.id) }.modStrand p.owner fun x =>
      { x with flags := lmod x.flags f (· - 1), prov := notesAfter p.id x.prov } := by
  have quiet (t : State) : alogFor p.owner p.owner.tid p.cpc ⟨p.invl, p.divz, p.ovfl, p.unfl⟩ t = t := by
    rw [h1, h2, h3, h4]
    rfl
  simp only [finishPend, quiet, hf, settleProv_eq_notesAfter]

theorem deliver_pend (k : StrandKey) (d : Dest) (s : State) : (deliver k d s).pend = s.pend := by
  cases d <;> rfl

theorem deliverPart_eq (p : Pend) (d : Dest) (s : State) : deliverPart p d s = partDone p d s := by
  cases d with
  | reg n v => cases hc : p.committed <;> simp [deliverPart, partDone, hc] <;> rfl
  | port | pred | slot | lslot => rfl

theorem partDone_pend (p : Pend) (d : Dest) (s : State) : (partDone p d s).pend = s.pend := by
  rw [← deliverPart_eq]
  cases d with
  | reg n v => cases hc : p.committed <;> simp [deliverPart, hc] <;> rfl
  | port | pred | slot | lslot => rfl

section
variable {s : State} {id part : Nat} {p : Pend}

theorem id_of_find (hp : s.pend.find? (·.id == id) = some p) : p.id = id := by
  simpa using List.find?_some hp

theorem completePart_ready (hp : s.pend.find? (·.id == id) = some p) (hk : p.kind = .ready) :
    completePart id part s = pendPart p part s := by
  simp only [completePart, State.pendOf, hp, hk, State.pendReady, PendKind.isReady, if_true]

theorem pendPart_last {d : Dest} (hd : p.dests = [d]) : pendPart p 0 s = finishPend { p with dests := [] } (deliver p.owner d s) := by
  simp [pendPart, hd]

theorem pendPart_more {d : Dest} (two : 2 ≤ p.dests.length) (hd : p.dests[part]? = some d) :
    pendPart p part s = (partDone p d s).modPend p.id fun _ => { p with dests := p.dests.eraseIdx part } := by
  have some_left : (p.dests.eraseIdx part).isEmpty = false := by
    have hl := List.length_eraseIdx_of_lt (List.getElem?_eq_some_iff.1 hd).1
    rw [List.isEmpty_eq_false_iff_exists_mem]
    exact List.exists_mem_of_length_pos (by omega)
  simp only [pendPart, hd, some_left, deliverPart_eq]
  rfl

end

/-! ## Accesses that were put off -/

section
variable {s : State} {id part : Nat} {h : Held}

theorem completePart_held (hp : s.pend.find? (·.id == id) = none) (hh : s.held.find? (·.id == id) = some h) :
    completePart id part s = performHeld h s := by
  simp only [completePart, State.pendOf, State.heldOf, hp, hh]

theorem performHeld_waits (ht : s.inTurn h = false) : performHeld h s = s := by
  simp [performHeld, ht]

theorem bindData_bound (hr : h.regs = []) : bindData h s = (h, s) := by
  unfold bindData
  split
  · simp [hr]
  · cases h
    subst hr
    rfl

end

/-- The operations after a held access has been performed: the one that waits for it has changed. -/
def heldEnds (h : Held) (f : Pend → Pend) (u : State) : State :=
  { u with held := u.held.filter (·.id != h.id), pend := u.pend.map fun q => if h.pend = some q.id then f q else q }

theorem heldEnds_eq (h : Held) (f : Pend → Pend) (u : State) :
    (match h.pend with
      | some p => (u.dropHeld h.id).modPend p f
      | none => u.dropHeld h.id) = heldEnds h f u := by
  unfold heldEnds State.dropHeld State.modPend
  cases h.pend with
  | none => simp
  | some p => simp only [Option.some.injEq, beq_iff_eq, @eq_comm _ p]

/-- An access in turn with its data bound is performed whole, unless it is made of two atoms. -/
theorem performHeld_ends {s : State} {h : Held} (ht : s.inTurn h = true) (hr : h.regs = []) (hw : waitAccess h s = .ok ((), s))
    (hh : h.halves = false) :
    performHeld h s = heldEnds h (afterPerform h (perform h s).1 ((perform h s).2.dropHeld h.id)) (perform h s).2 := by
  rw [← heldEnds_eq]
  simp [performHeld, ht, bindData_bound hr, hw, hh] <;> rfl

theorem afterPerform_stored {h : Held} (hl : ∀ d o, h.loc ≠ .repl d o) (u : State) :
    afterPerform h .stored u = fun q => { q with kind := .ready } := by
  funext q
  unfold afterPerform
  cases hq : h.loc with
  | repl d o => exact absurd hq (hl d o)
  | core | clus | spa | glob => rfl

theorem bindData_now {s : State} {h : Held} {x : Strand} {b : List Byte} (hx : s.strand h.owner = some x) (ha : h.ask = .write b)
    (hr : h.regs ≠ []) (now : ∀ r ∈ h.regs, lget x.regs r.1 r.2 = r.2) :
    bindData h s = ({ h with ask := .write (dataOf (h.regs.map fun r => r.2) b.length), regs := [] }, s) := by
  have read (l : List (Nat × TVal)) : (∀ r ∈ l, lget x.regs r.1 r.2 = r.2) → readSources x l s = (l.map fun r => r.2, s) := by
    induction l with
    | nil => intro _; rfl
    | cons r l ih =>
      intro hl
      have one : readSource x r s = (r.2, s) := by simp [readSource, hl r (by simp)]
      simp [readSources, one, ih fun q hq => hl q (by simp [hq])]
  have full : h.regs.isEmpty = false := by simpa using hr
  simp only [bindData, hx, full, read h.regs now, ha, GlobAsk.withData, LoadStoreRows.storeBytes_eq_dataOf]
  rfl

end Sys2Proof.Clauses

namespace Sys2Proof

open Sys2Proof.Machine Sys2Proof.Clauses

/-- Settles O43: the entry of a clause by its header, and each completion by the one part that it does. -/
theorem clauseEvents : Obligations.ClauseEvents := by
  refine ⟨?_, ?_, ?_, ?_, ?_, ?_, ?_⟩
  · intro s s1 k x g l c h body ha hx hg hl hc hp hi hf hx1
    have run : exec .clauseEntry s = .next (enterClause ⟨k, x, g, l, c.d⟩ h body s1) := by
      show execClauseEntry s = _
      simp only [execClauseEntry, ha, clauseEntry_enters hx hg hl hc hp hi hf]
    refine ⟨fun f bad => ?_, fun good => ⟨_, run, ?_⟩⟩
    · rw [run, enterClause_traps _ body s1 bad]
    · rw [enterClause_enters _ body s1 good]
      exact enter_entered hx1
  · intro s s1 k x g l c ws a f e ha hx hg hl hc hp hi hf
    show execClauseEntry s = _
    simp only [execClauseEntry, ha, clauseEntry_faults hx hg hl hc hp hi hf]
  · intro s k x ha hx hp hg
    refine ⟨clauseWaitEnd k s, ?_, ?_⟩
    · show execClauseWaitEnd s = _
      simp only [execClauseWaitEnd, ha]
    · rw [clauseWaitEnd_enters hx hp hg]
      exact enter_entered hx
  · intro s x w lit e ha hx hp hw he
    show execEncodingFault s = _
    have word : x.word = some w := hw
    have bad : decode w (if x.body.length ≤ x.idx + 1 then none else some lit) = .error e := he
    simp only [execEncodingFault, ha, hx, hp, word, bad, bne_self_eq_false, Bool.or_self, Bool.false_eq_true, if_false, ← badWord_eq]
    exact runWord_trap rfl
  · intro s id part p d ha hp hk
    have pid := id_of_find hp
    have run : exec .longLatencyComplete s = .next (pendPart p part s) := by
      show execLongLatencyComplete s = _
      simp only [execLongLatencyComplete, ha, completePart_ready hp hk]
    refine ⟨fun hd h0 h1 h2 h3 h4 f hf => ?_, fun two hd => ?_⟩
    · rw [run, h0, pendPart_last hd, finishPend_flag (p := { p with dests := [] }) h1 h2 h3 h4 hf, deliver_pend, ← pid]
    · rw [run, pendPart_more two hd, State.modPend, partDone_pend, pid]
  · intro s id part h ha hp hh
    have hid : h.id = id := by simpa using List.find?_some hh
    have run : exec .longLatencyComplete s = .next (performHeld h s) := by
      show execLongLatencyComplete s = _
      simp only [execLongLatencyComplete, ha, completePart_held hp hh]
    refine ⟨fun ht => by rw [run, performHeld_waits ht], fun ht hr hd hw here hv => ⟨fun n hn => ?_, fun l hl notRepl => ?_⟩⟩
    · rw [run, performHeld_ends ht hr hw hv, Accesses.perform_read hn hd here, Accesses.sendAccess_here here (by rw [hn]; rfl), hn, ← hid]
      rfl
    · rw [run, performHeld_ends ht hr hw hv, Accesses.perform_write hl hd here, Accesses.sendAccess_here here (by rw [hl]; rfl), hl,
        afterPerform_stored notRepl, ← hid]
      rfl
  · intro s id part f p h x b ha hp hk hh hx hw hr now h1 h2 h3 h4 hf
    have pid := id_of_find hp
    have run : exec .longLatencyComplete s = .next (readData p h.id s) := by
      show execLongLatencyComplete s = _
      simp only [execLongLatencyComplete, ha, completePart, State.pendOf, hp, hk]
    have found : s.heldOf h.id = some h := hh
    rw [run, readData, found]
    dsimp only
    rw [bindData_now hx hw hr now, finishPend_flag h1 h2 h3 h4 hf, pid]
    rfl

end Sys2Proof

/-! The engines (R199, R204 to R206). -/

namespace Sys2Proof.Engines

open Sys2Proof Sys2Proof.Machine

section
variable {s : State} {id n : Nat} {w : Item} {m : Move}

/-- The unit of an item does not stall while no COPYFLT event waits for room. -/
theorem unitStalls_eq_false (quiet : ∀ e ∈ (s.die w.die).waiting, e.kind ≠ .copyflt) : s.unitStalls w = false := by
  unfold State.unitStalls
  rw [Bool.and_eq_false_iff]
  refine .inr (List.any_eq_false.2 fun e he => ?_)
  rw [beq_false_of_ne (quiet e he)]
  simp

section
variable (hw : s.items.find? (·.id == id) = some w) (held : w.held = false) (paused : w.paused = none) (fail : w.fail = none)
  (free : s.itemFree w = true) (quiet : ∀ e ∈ (s.die w.die).waiting, e.kind ≠ .copyflt) (arr : w.arr = none) (box : w.box = none)
  (hm : w.moves[n]? = some m) (undone : m.done = false) (go : w.mayGo n m = true)
include hw held paused fail free quiet arr box hm undone go

theorem itemAccess_read (data : m.data = none) : itemAccess id n s = moveRead w n m s := by
  have item : s.item id = some w := hw
  simp [itemAccess, item, State.itemRuns, held, paused, fail, free, unitStalls_eq_false quiet, arr, box, hm, undone, go, data]

theorem itemAccess_write {b : List Byte} (data : m.data = some b) (whole : w.whole = false) :
    itemAccess id n s = moveWrite w n m b s := by
  have item : s.item id = some w := hw
  simp [itemAccess, item, State.itemRuns, held, paused, fail, free, unitStalls_eq_false quiet, arr, box, hm, undone, go, data, whole]

end

section
variable {s1 : State} {loc : Loc} (near : ∀ a d p, loc ≠ .glob a d p) (funds : s1.hbmOk w.ctx loc m.n = true)
include near funds

theorem moveRead_near (met : meetEnd w m.src m.n false s = (.at_ loc, s1)) :
    moveRead w n m s = (chargeHbm w.ctx loc m.n s1).modItem w.id fun y =>
      { y with moves := lmod y.moves n fun z => { z with data := some (readEnd w m.src loc m.n s1) } } := by
  cases loc with
  | glob a d p => exact absurd rfl (near a d p)
  | core | clus | spa | repl => simp [moveRead, met, funds] <;> rfl

theorem moveWrite_near {b : List Byte} (split : w.split = none) (met : meetEnd w m.dst m.n true s = (.at_ loc, s1)) :
    moveWrite w n m b s = (writeEnd w m.dst loc b (chargeHbm w.ctx loc m.n s1)).modItem w.id fun w =>
      { w with landed := w.landed + (if w.counts then m.n else 0), moves := lmod w.moves n fun y => { y with done := true } } := by
  cases loc with
  | glob a d p => exact absurd rfl (near a d p)
  | core | clus | spa | repl => simp [moveWrite, split, met, funds] <;> rfl

end

theorem itemArrival_arrives {h : Nat} (hw : s.items.find? (·.id == id) = some w) (hh : w.handle = some h) (one : 1 ≤ n)
    (written : n ≤ w.landed - w.arrived) (whole : w.kind = .job 2 → n = w.total) :
    itemArrival id n s =
      handleEvent w.owner.grp h (·.arrive n) (s.modItem id fun w => { w with arrived := w.arrived + n }) := by
  have item : s.item id = some w := hw
  have nonzero : n ≠ 0 := by omega
  have all : ¬ (w.landed - w.arrived < n) := by omega
  simp only [itemArrival, item, hh]
  rw [if_neg]
  simpa [nonzero, all] using whole

theorem itemComplete_eq (hw : s.items.find? (·.id == id) = some w) :
    itemComplete id s = if s.itemDone w then closeItem w s else s := by
  have item : s.item id = some w := hw
  simp only [itemComplete, item]

/-- A copy that has failed with nothing left to write, and with nothing written that has not arrived. -/
theorem itemFail_copy {h : Nat} {c : Cause} (hw : s.items.find? (·.id == id) = some w) (hf : w.fail = some c) (hm : w.moves = [])
    (hh : w.handle = some h) (arrived : w.landed = w.arrived) (copy : w.kind = .cpt ∨ w.kind = .cps ∨ w.kind = .tmov) :
    itemFail id c s = closeItem w (handleEvent w.owner.grp h (fun y =>
      if w.counts = true ∧ w.landed < w.total then (y.poison c).arrive (w.total - w.landed) else y.poison c)
        (logPlain w.ctx 0x08 c.code w.owner.grp.launch h w.sq s)) := by
  have item : s.item id = some w := hw
  rcases copy with kind | kind | kind <;> simp [itemFail, item, hf, failEvent, kind, hm, hh, arrived, evCopyFail]

end

end Sys2Proof.Engines

namespace Sys2Proof

open Sys2Proof.Machine Sys2Proof.Engines

/-- Settles O45: each event of an engine is one equation about its item. -/
theorem engineEvents : Obligations.EngineEvents := by
  refine ⟨?_, ?_, ?_, ?_⟩
  · intro s s1 id n w m loc ha hw held paused fail free quiet arr box hm undone go near
    have run : exec .engineItemAccess s = .next (itemAccess id n s) := by
      show execEngineItemAccess s = _
      simp only [execEngineItemAccess, ha]
    refine ⟨fun data met funds => ?_, fun b data whole split met funds => ?_⟩
    · rw [run, itemAccess_read hw held paused fail free quiet arr box hm undone go data, moveRead_near near funds met]
    · rw [run, itemAccess_write hw held paused fail free quiet arr box hm undone go data whole, moveWrite_near near funds split met]
  · intro s id n h w ha hw hh one written whole
    show execHandleArrival s = _
    simp only [execHandleArrival, ha, itemArrival_arrives hw hh one written whole]
  · intro s id w ha hw
    have run : exec .itemComplete s = .next (if s.itemDone w then closeItem w s else s) := by
      show execItemComplete s = _
      simp only [execItemComplete, ha, itemComplete_eq hw]
    exact ⟨fun done => by rw [run, if_pos done], fun going => by rw [run, going]; rfl⟩
  · intro s id h w c ha hw hf hm hh arrived copy
    show execItemFail s = _
    simp only [execItemFail, ha, itemFail_copy hw hf hm hh arrived copy]

end Sys2Proof

/-! The commands of a queue (R262 to R264, R269, R278). -/

namespace Sys2Proof.CommandRows

open Sys2Proof Sys2Proof.Machine Sys2Proof.Claims

/-! ## Completion words -/

theorem toBytes_add (m n x : Nat) : toBytes (m + n) x = toBytes m x ++ toBytes n (x / 256 ^ m) := by
  induction m generalizing x with
  | zero => simp [toBytes]
  | succ m ih =>
    rw [Nat.succ_add, toBytes, toBytes, ih, Nat.div_div_eq_div_mul, pow_succ, Nat.mul_comm]
    rfl

/-- A completion word is its three fields, one after the other. -/
theorem completion_eq {c caddr dfc status reason : Nat} (h : status < 256) : completion c caddr dfc status reason =
    completed c caddr dfc status reason := by
  have low : (dfc % 2 ^ 32 + 2 ^ 32 * status + 2 ^ 40 * reason) % 2 ^ 32 = dfc % 2 ^ 32 := by omega
  have mid : (dfc % 2 ^ 32 + 2 ^ 32 * status + 2 ^ 40 * reason) / 256 ^ 4 % 2 ^ 8 = status % 2 ^ 8 := by omega
  have high : (dfc % 2 ^ 32 + 2 ^ 32 * status + 2 ^ 40 * reason) / 256 ^ (4 + 1) = reason := by omega
  have word : toBytes 8 (dfc % 2 ^ 32 + 2 ^ 32 * status + 2 ^ 40 * reason) = toBytes 4 dfc ++ toBytes 1 status ++ toBytes 3 reason := by
    rw [show 8 = 4 + 1 + 3 from rfl, toBytes_add (4 + 1), toBytes_add 4 1, high, ← Accesses.toBytes_mod (n := 4) (k := 32) (by decide), low,
      Accesses.toBytes_mod (n := 4) (k := 32) (by decide), ← Accesses.toBytes_mod (n := 1) (k := 8) (by decide), mid,
      Accesses.toBytes_mod (n := 1) (k := 8) (by decide)]
  funext s
  simp only [completion, completed, word, beq_iff_eq]

/-! ## The fields of a command -/

section
variable {m : Cmd}

theorem field_eq (o n : Nat) : m.field o n = (m.words.extractLsb' (8 * o) (8 * n)).toNat := (toNat_field m.words _ _).symm

theorem op_eq : m.op = (cmdOp m).toNat := by
  simp only [Cmd.op, field_eq, bitsOf, toNat_field, cmdOp]
  omega

theorem addr_eq : m.addr_ = cmdAddr m := by
  simp only [Cmd.addr_, va57, field_eq, toNat_field, cmdAddr]
  omega

theorem caddr_eq : m.caddr = cmdCaddr m := by
  simp only [Cmd.caddr, va57, field_eq, toNat_field, cmdCaddr]
  omega

theorem value_eq : m.value = cmdValue m := field_eq 16 8

/-- No field of a command that fits refuses it. -/
theorem reason_of_fits {op : BitVec 4} (fits : cmdFits m) (hop : cmdOp m = op) (known : op.toNat < 5) : m.reason = none := by
  obtain ⟨rsv, nop, value, launch, word⟩ := fits
  have rsv' : m.words.toNat / 2 ^ 4 % 2 ^ 60 = 0 := by rw [← toNat_field, rsv]; rfl
  have four : m.op < 5 := by rwa [op_eq, hop]
  have isOp (n : BitVec 4) : m.op = n.toNat → cmdOp m = n := fun h => BitVec.eq_of_toNat_eq (by rw [← op_eq, h])
  have b31 : bitsOf (m.field 0 4) 31 4 = 0 := by
    simp only [bitsOf, field_eq, toNat_field]
    omega
  have b63 : m.field 4 4 = 0 := by
    simp only [field_eq, toNat_field]
    omega
  have addr0 : m.op = 0 → m.field 8 8 = 0 := fun h => by
    rw [field_eq, nop (isOp 0#4 h)]
    rfl
  have value0 : m.op ≤ 1 → m.value = 0 := fun h => by
    rw [value_eq]
    exact value (by rcases Nat.le_one_iff_eq_zero_or_eq_one.1 h with h | h <;> [exact .inl (isOp 0#4 h); exact .inr (isOp 1#4 h)])
  have aligned64 : m.op = 1 → m.addr_ % 64 = 0 := fun h => by
    rw [addr_eq]
    exact launch (isOp 1#4 h)
  have aligned8 : m.op = 3 ∨ m.op = 4 → m.addr_ % 8 = 0 := fun h => by
    rw [addr_eq]
    exact word (h.imp (isOp 3#4) (isOp 4#4))
  unfold Cmd.reason
  rw [if_neg (by simp [b31, b63]; exact ⟨⟨four, addr0⟩, value0⟩), if_neg (by simp; exact ⟨aligned64, aligned8⟩)]

end

/-! ## Commands in their turn -/

section
variable {s : State} {c q : Nat} {x : Ctx} {m : Cmd} {op : BitVec 4}

theorem cmdOf_at (h : atCommand s c q x m op) : s.cmdOf c q = some (x, m) := by
  obtain ⟨hx, hm, seen, _⟩ := h
  have quiet : s.cmdSeen (s.homeDie x) c q = true := by
    rw [State.cmdSeen, Bool.not_eq_true', List.any_eq_false]
    intro e he
    simpa [and_assoc] using seen e he
  simp only [State.cmdOf, hx, hm, quiet, if_true]

theorem cmdReady_at (h : atCommand s c q x m op) : s.cmdReady c q op.toNat = some (x, m) := by
  have found := cmdOf_at h
  obtain ⟨_, _, _, hop, first, _⟩ := h
  simp [State.cmdReady, found, op_eq, hop, first]

theorem first_at (h : atCommand s c q x m op) : (x.queue q).open_ = [] := by
  obtain ⟨_, _, _, _, first, _⟩ := h
  exact first

theorem reason_at (h : atCommand s c q x m op) (known : op.toNat < 5) : m.reason = none := by
  obtain ⟨_, _, _, hop, _, fits⟩ := h
  exact reason_of_fits fits hop known

/-- A command of the right operation, in its turn, does what its event does. -/
theorem runCmd_at {f : Nat → Nat → Ctx → Cmd → State → State} (ha : s.arg = .n2 c q) (h : atCommand s c q x m op) (known : op.toNat < 5) :
    runCmd op.toNat f s = .next (f c q x m s) := by
  simp only [runCmd, ha, cmdReady_at h, reason_at h known]

theorem endCmd_eq {status : Nat} (hs : status < 256) (reason : Nat) : endCmd c q m status reason = cmdEnds c q m status reason := by
  funext s
  rw [endCmd, completion_eq hs, caddr_eq, cmdEnds]

theorem refuseUnknown_at (ha : s.arg = .n2 c q) (h : atCommand s c q x m op) (known : op.toNat < 5) : refuseUnknown s = s := by
  have found := cmdOf_at h
  obtain ⟨_, _, _, hop, _, _⟩ := h
  have low : ¬ 5 ≤ (cmdOp m).toNat := by rw [hop]; omega
  simp [refuseUnknown, ha, found, op_eq, low]

end

/-! ## Doorbells and reading -/

theorem stopQueue_eq {s : State} {c : Nat} {x : Ctx} (q detail arg0 : Nat) (hx : s.ctx c = some x) :
    stopQueue c q detail arg0 s = queueStops c q detail arg0 x s := by
  simp only [stopQueue, hx]
  rfl

section
variable {s s1 : State} {fn page q c : Nat} {val : BitVec 32} {x : Ctx} {e : QDesc} (hp : s.pageCtx fn page = some (c, x))
  (hd : readQDesc x (s.homeDie x) q s = (some e, s1)) (size : e.size ≠ 0) (host : e.dev = false) (hq : q < 64)
include hp hd size host hq

theorem hostDoorbell_rings (room : ahead val.toNat (x.queue q).head ≤ e.size) : hostDoorbell fn page q val s =
    doorbellEvent (s.homeDie x) c q (s1.modQueue c q fun r => { r with tail := val.toNat }) := by
  have fits : ¬ e.size < (val.toNat + 2 ^ 32 - (x.queue q).head) % 2 ^ 32 := Nat.not_lt.2 room
  simp only [hostDoorbell, hp, hd, host, beq_false_of_ne size, Nat.not_le.2 hq, decide_false, Bool.or_self, Bool.false_eq_true, if_false,
    if_neg fits]

theorem hostDoorbell_stops (far : e.size < ahead val.toNat (x.queue q).head) (hx : s1.ctx c = some x) :
    hostDoorbell fn page q val s = queueStops c q 0 val.toNat x s1 := by
  have beyond : e.size < (val.toNat + 2 ^ 32 - (x.queue q).head) % 2 ^ 32 := far
  simp only [hostDoorbell, hp, hd, host, beq_false_of_ne size, Nat.not_le.2 hq, decide_false, Bool.or_self, Bool.false_eq_true, if_false,
    if_pos beyond, stopQueue_eq q 0 val.toNat hx]

end

theorem readStalls_iff (d : Die) : d.readStalls = true ↔ ∃ e ∈ d.waiting, e.kind = .doorbell ∨ e.kind = .cmdread := by
  simp only [Die.readStalls, Die.stalls, Bool.or_eq_true, List.any_eq_true, beq_iff_eq, ← exists_or, ← and_or_left]

section
variable {s s1 s2 : State} {c q a : Nat} {x : Ctx} {e : QDesc} {l : List Byte} (hd : readQDesc x (s.homeDie x) q s = (some e, s1))
  (size : e.size ≠ 0) (ha : a = va57 (e.ring + 32 * ((x.queue q).head % e.size)))
include hd size ha

theorem readCommand_reads (hr : devRead x.d (s.homeDie x) a 32 s1 = (some l, s2)) : readCommand c q x s =
    raiseShed (s.homeDie x) ⟨.cmdread, c, queueLock c q, q, 0, false⟩
      (writeForCtx c (e.headAddr / 8 * 8) (toBytes 4 (((x.queue q).head + 1) % 2 ^ 32)) (s2.modQueue c q fun r =>
        { r with head := ((x.queue q).head + 1) % 2 ^ 32, cmd := some ⟨BitVec.ofNat 256 (ofBytes l), a, false⟩ })) := by
  subst ha
  simp only [readCommand, hd, beq_false_of_ne size, Bool.false_eq_true, if_false, hr]

theorem readCommand_stops (hr : devRead x.d (s.homeDie x) a 32 s1 = (none, s2)) (hx : s2.ctx c = some x) :
    readCommand c q x s = queueStops c q 1 a x s2 := by
  subst ha
  simp only [readCommand, hd, beq_false_of_ne size, Bool.false_eq_true, if_false, hr, stopQueue_eq q 1 _ hx]

end

/-! ## What each command does -/

theorem tryLaunch_accepts {s t : State} {c q : Nat} {x : Ctx} {m : Cmd} {rc : LaunchRec} (first : (x.queue q).open_ = [])
    (hr : checkRecord x (cmdAddr m) s = (.ok rc, t)) : tryLaunch c q x m s =
      (let r := acceptLaunch x rc (cmdAddr m) (.queue q (cmdCaddr m)) t
       r.2.modQueue c q fun y => { y with cmd := none, open_ := y.open_ ++ [r.1] }) := by
  simp only [tryLaunch, addr_eq, caddr_eq, hr, State.mayBegin, first, List.all_nil, if_true]

theorem tryLaunch_refuses {s t : State} {c q why : Nat} {x : Ctx} {m : Cmd} (first : (x.queue q).open_ = [])
    (hr : checkRecord x (cmdAddr m) s = (.error why, t)) :
    tryLaunch c q x m s = cmdEnds c q m 3 why (logEvent c ⟨0x02, why, q, 0, cmdAddr m, 0⟩ t) := by
  simp only [tryLaunch, addr_eq, hr, first, List.isEmpty_nil, if_true, refuseLaunch, endCmd_eq (show 3 < 256 by decide)]
  rfl

theorem execCmdLaunch_at {s : State} {c q : Nat} {x : Ctx} {m : Cmd} (ha : s.arg = .n2 c q) (h : atCommand s c q x m 1#4) :
    exec .cmdLaunch s = .next (tryLaunch c q x m s) := by
  have found := cmdOf_at h
  have good := reason_at h (by decide)
  obtain ⟨_, _, _, hop, _, _⟩ := h
  show execCmdLaunch s = _
  simp only [execCmdLaunch, ha, found, op_eq, hop, good]
  rfl

end Sys2Proof.CommandRows

namespace Sys2Proof

open Sys2Proof.Machine Sys2Proof.CommandRows

/-- Settles O47: doorbells and reading by their branches, and each command by `runCmd` in its turn. -/
theorem commandEvents : Obligations.CommandEvents := by
  refine ⟨?_, ?_, ?_, ?_⟩
  · intro s s1 fn page q c val x e hp hd size host hq
    refine ⟨fun room ha => ?_, fun far hx ha => ?_⟩
    · show execDoorbellWrite s = _
      simp only [execDoorbellWrite, ha, hostDoorbell_rings hp hd size host hq room]
    · show execDoorbellWrite s = _
      simp only [execDoorbellWrite, ha, hostDoorbell_stops hp hd size host hq far hx]
  · intro s fn page q val hp ha
    have ignored : hostDoorbell fn page q val s = s.pfDrop := by simp only [hostDoorbell, hp]
    show execDoorbellWrite s = .next s.pfDrop
    simp only [execDoorbellWrite, ha, ignored]
  · intro s s1 s2 c q x e l r a h held hx running idle news
    have run (ha : s.arg = .n2 c q) : exec .commandRead s =
        .next (if (s.die (s.homeDie x)).readStalls then s else readCommand c q x s) := by
      show execCommandRead s = _
      simp only [execCommandRead, ha, hx, show (x.queue q).stopped = false from running, show (x.queue q).cmd = none from idle,
        beq_false_of_ne (show (x.queue q).head ≠ (x.queue q).tail from news), Option.isSome_none, Bool.or_self, Bool.false_or]
    have free (calm : ¬ held) : (s.die (s.homeDie x)).readStalls = false :=
      Bool.eq_false_iff.2 fun stalls => calm ((readStalls_iff _).1 stalls)
    refine ⟨fun stalls ha => ?_, fun calm hd size => ⟨fun hr ha => ?_, fun hr hx2 ha => ?_⟩⟩
    · rw [run ha, if_pos ((readStalls_iff _).2 stalls)]
    · rw [run ha, free calm]
      exact congrArg Host.Outcome.next (readCommand_reads hd size rfl hr)
    · rw [run ha, free calm]
      exact congrArg Host.Outcome.next (readCommand_stops hd size rfl hr hx2)
  · intro s c q x m
    refine ⟨fun at_ ha => ?_, fun at_ rc t => ⟨fun hr ha => ?_, fun why hr ha => ?_⟩, fun at_ why t hl ha => ?_, fun at_ t => ?_,
      fun at_ ok t hs ha => ?_⟩
    · show execCmdNop s = _
      rw [execCmdNop, refuseUnknown_at ha at_ (by decide), ← endCmd_eq (by decide)]
      exact runCmd_at ha at_ (by decide)
    · rw [execCmdLaunch_at ha at_, tryLaunch_accepts (first_at at_) hr]
    · rw [execCmdLaunch_at ha at_, tryLaunch_refuses (first_at at_) hr]
    · show execCmdGraphld s = _
      refine (runCmd_at ha at_ (by decide)).trans ?_
      simp only [addr_eq, value_eq, hl, beq_iff_eq]
      rw [endCmd_eq (by split <;> decide)]
    · refine ⟨fun v hv => ⟨fun new ha => ?_, fun old reached ha => ?_, fun old short ha => ?_⟩, fun hv new ha => ?_⟩
      · show execCmdWait s = _
        refine (runCmd_at ha at_ (by decide)).trans ?_
        simp only [new, Bool.false_eq_true, if_false, addr_eq, hv]
      · show execCmdWaitSatisfied s = _
        refine (runCmd_at ha at_ (by decide)).trans ?_
        simp only [old, if_true, waitRead, addr_eq, value_eq, hv, if_pos reached, endCmd_eq (show 1 < 256 by decide)]
      · show execCmdWaitSatisfied s = _
        refine (runCmd_at ha at_ (by decide)).trans ?_
        simp only [old, if_true, waitRead, addr_eq, value_eq, hv, if_neg (Nat.not_le.2 short)]
      · show execCmdWait s = _
        refine (runCmd_at ha at_ (by decide)).trans ?_
        simp only [new, Bool.false_eq_true, if_false, addr_eq, hv, endCmd_eq (show 3 < 256 by decide)]
    · show execCmdSignal s = _
      refine (runCmd_at ha at_ (by decide)).trans ?_
      cases ok <;> simp only [addr_eq, value_eq, hs, endCmd_eq (show 1 < 256 by decide), endCmd_eq (show 3 < 256 by decide)] <;> rfl

end Sys2Proof

/-! Launches from their acceptance to their end (R264, R270, R276, R282). -/

namespace Sys2Proof.LaunchRows

open Sys2Proof Sys2Proof.Machine Sys2Proof.Claims

/-! ## Acceptance -/

/-- What stands of a launch while bind records are written for it. -/
structure SameLaunch (l m : Launch) : Prop where
  rc : m.rc = l.rc
  recAddr : m.recAddr = l.recAddr
  origin : m.origin = l.origin
  ctx : m.ctx = l.ctx
  total : m.total = l.total
  placed : m.placed = l.placed
  ended : m.ended = l.ended
  dfc : m.dfc = l.dfc
  killed : m.killed = l.killed

theorem SameLaunch.refl (l : Launch) : SameLaunch l l := ⟨rfl, rfl, rfl, rfl, rfl, rfl, rfl, rfl, rfl⟩

theorem nextRange_launches (rc : LaunchRec) (dies : List Nat) (total b : Nat) (s : State) :
    (nextRange rc dies total b s).2.launches = s.launches := by
  unfold nextRange
  split <;> rfl

/-- A launch with one more bind record, of `n` groups, written in the state `t`. -/
def bound (n ls : Nat) (t : State) (l : Launch) : Launch :=
  { l with
    bound := l.bound + n
    code := if l.bound == 0 then t.mem else l.code
    codeKey := if l.bound == 0 then t.loftKey else l.codeKey
    lslot := some ls }

theorem SameLaunch.bound {l m : Launch} (h : SameLaunch l m) (n ls : Nat) (t : State) : SameLaunch l (bound n ls t m) :=
  ⟨h.rc, h.recAddr, h.origin, h.ctx, h.total, h.placed, h.ended, h.dfc, h.killed⟩

/-- A further round of writing bind records starts from the launch as it was, or with one record more. -/
theorem bindGo_succ {id prio fuel : Nat} {s r : State} {m : Launch} (hm : s.launch id = some m) (h : bindGo id prio (fuel + 1) s = r) :
    s = r ∨ ∃ u n ls t, bindGo id prio fuel u = r ∧ u.launch id = some (LaunchRows.bound n ls t m) := by
  conv_lhs at h => whnf
  simp only [hm] at h
  have kept (dies : List Nat) := nextRange_launches m.rc dies m.total m.bound s
  split at h
  · exact .inl h
  split at h
  · exact .inl h
  split at h
  · exact .inl h
  · exact .inl h
  · next c _ _ _ _ k ls _ _ =>
    let range := nextRange m.rc (yardDies (s.yard c.d.yard)) m.total m.bound s
    refine .inr ⟨_, range.1.2, ls, range.2, h, (tget_tmod_self _ _ _).trans ?_⟩
    rw [show ∀ (u : State) d f, (u.modDie d f).launches = u.launches from fun _ _ _ => rfl, kept]
    exact congrArg (Option.map _) hm

/-- Writing bind records leaves a launch as it was accepted. -/
theorem bindGo_same {id prio : Nat} {l : Launch} (fuel : Nat) : ∀ {s : State} {m : Launch}, s.launch id = some m → SameLaunch l m →
    ∃ m', (bindGo id prio fuel s).launch id = some m' ∧ SameLaunch l m' := by
  induction fuel with
  | zero => exact fun hm same => ⟨_, hm, same⟩
  | succ fuel ih =>
    intro s m hm same
    rcases bindGo_succ (prio := prio) (fuel := fuel) hm rfl with stop | ⟨u, n, ls, t, go, hu⟩
    · exact ⟨m, by rw [← stop, hm], same⟩
    · rw [← go]
      exact ih hu (same.bound n ls t)

theorem bindLaunch_same {id : Nat} {s : State} {l : Launch} (hl : s.launch id = some l) :
    ∃ m, (bindLaunch id s).launch id = some m ∧ SameLaunch l m := by
  have stays : ∃ m, s.launch id = some m ∧ SameLaunch l m := ⟨l, hl, .refl l⟩
  unfold bindLaunch
  simp only [hl]
  split
  · exact stays
  · exact bindGo_same _ hl (.refl l)

/-- The state in which an accepted launch stands, before its bind records are written (R270). -/
def accepted (c : Ctx) (rc : LaunchRec) (addr : Nat) (o : Origin) (s : State) : State :=
  let id := c.d.ctxid * 2 ^ 48 + c.count
  let die := (launchDies rc (yardDies (s.yard c.d.yard))).headD 0
  let l : Launch :=
    { id := id, ctx := c.d.ctxid, rc := rc, recAddr := addr, killed := false, dfc := 0, origin := o
      first := if rc.fabric then (s.comm die (rc.collComm - 1)).myrank * rc.local_ else 0
      total := rc.local_, placed := 0, ended := 0, bound := 0, fired := [], outs := [], silent := false, code := [], codeKey := []
      lslot := none }
  { s with launches := tset s.launches id l }.modCtx c.d.ctxid fun c => { c with count := c.count + 1 }

theorem acceptLaunch_eq (c : Ctx) (rc : LaunchRec) (addr : Nat) (o : Origin) (s : State) :
    acceptLaunch c rc addr o s = (c.d.ctxid * 2 ^ 48 + c.count, bindLaunch (c.d.ctxid * 2 ^ 48 + c.count) (accepted c rc addr o s)) := rfl

/-! ## The end -/

theorem loseColl_cycle (ctx die comm order : Nat) (tile : Option Nat) (k : Cause) (s : State) :
    (loseColl ctx die comm order tile k s).cycle = s.cycle := rfl

theorem withdrawTiles_cycle (l : Launch) (s : State) : (withdrawTiles l s).cycle = s.cycle := by
  unfold withdrawTiles
  split
  · rfl
  refine List.foldlRecOn (motive := fun t : State => t.cycle = s.cycle) _ _ rfl fun t ht g _ => ?_
  split <;> exact ht

section
variable {s : State} {l : Launch} (loud : l.silent = false)
include loud

theorem launchEnd_queue {q ca : Nat} (origin : l.origin = .queue q ca) :
    launchEnd l s = completed l.ctx ca l.dfc (if l.killed then 2 else 1) 0
      (logEvent l.ctx ⟨0x01, if l.killed then 2 else 1, q, l.id, l.dfc, s.cycle * 4 / 5⟩
        ((dropLaunch l.id (withdrawTiles l s)).modQueue l.ctx q fun r => { r with open_ := r.open_.filter (· != l.id) })) := by
  have now (f : QueueRt → QueueRt) : ((dropLaunch l.id (withdrawTiles l s)).modQueue l.ctx q f).ns = s.cycle * 4 / 5 :=
    congrArg (· * 4 / 5) (withdrawTiles_cycle l s)
  simp only [launchEnd, origin, loud, Bool.false_eq_true, if_false, now,
    CommandRows.completion_eq (show (if l.killed = true then 2 else 1) < 256 by split <;> decide)]
  rfl

theorem launchEnd_node {die g n : Nat} (origin : l.origin = .node die g n) :
    launchEnd l s = logEvent l.ctx ⟨0x01, if l.killed then 2 else 1, 0xFFFF, l.id, l.dfc, s.cycle * 4 / 5⟩
      (modNode die g n (fun y => { y with res := some (!l.killed) }) (dropLaunch l.id (withdrawTiles l s))) := by
  have now : (nodeEnds die g n (!l.killed) (dropLaunch l.id (withdrawTiles l s))).ns = s.cycle * 4 / 5 :=
    congrArg (· * 4 / 5) (withdrawTiles_cycle l s)
  simp only [launchEnd, origin, loud, Bool.false_eq_true, if_false, now]
  rfl

end

end Sys2Proof.LaunchRows

namespace Sys2Proof

open Sys2Proof.Machine Sys2Proof.LaunchRows

/-- Settles O48: writing bind records keeps what was accepted, and the end of a launch is `launchEnd` by its origin. -/
theorem launchEvents : Obligations.LaunchEvents := by
  refine ⟨fun x rc addr o s => ⟨rfl, ?_⟩, fun s id l hl => ?_⟩
  · obtain ⟨m, hm, same⟩ := bindLaunch_same (s := accepted x rc addr o s) (tget_tset_self _ _ _)
    exact ⟨m, hm, same.rc, same.recAddr, same.origin, same.ctx, same.total, same.placed, same.ended, same.dfc, same.killed⟩
  · have run (ha : s.arg = .n1 id) : exec .launchEnd s = .next (if s.launchOver l then launchEnd l s else s) := by
      show execLaunchEnd s = _
      simp only [execLaunchEnd, ha, hl]
    refine ⟨fun going ha => ?_, fun ended loud => ⟨fun q ca origin ha => ?_, fun die g n origin ha => ?_⟩⟩
    · rw [run ha, going]
      rfl
    · rw [run ha, if_pos ended, launchEnd_queue loud origin]
    · rw [run ha, if_pos ended, launchEnd_node loud origin]

end Sys2Proof

/-! The shed, page requests, rings and fences (R265, R266, R288, R298, R339). -/

namespace Sys2Proof.ShedRows

open Sys2Proof Sys2Proof.Machine Sys2Proof.Claims

/-! ## Taking an event -/

theorem lmod_congr {α : Type} {f g : α → α} {a : α} (d : α) (l : List α) (n : Nat) (h : lget l n d = a) (hfg : f a = g a) :
    lmod l n f = lmod l n g := by
  induction l generalizing n with
  | nil => cases n <;> rfl
  | cons x l ih =>
    cases n with
    | zero =>
      subst h
      exact congrArg (· :: l) hfg
    | succ n => exact congrArg (x :: ·) (ih n h)

/-- A change of a die may be replaced by one that does the same to the die that stands there. -/
theorem modDie_congr {s : State} {d : Nat} {f g : Die → Die} (h : f (s.die d) = g (s.die d)) : s.modDie d f = s.modDie d g := by
  unfold State.modDie
  rw [lmod_congr Die.zero s.dies d rfl h]

section
variable {k : ShedKind} {e : ShedEvent} {pre post : List ShedEvent}

/-- The oldest event of a kind is picked when none of its lock stands before it. -/
theorem shedPick_eq (kind : e.kind = k) (locks : List Nat) (free : e.lock ∉ locks) (first : ∀ p ∈ pre, p.kind ≠ k ∧ p.lock ≠ e.lock) :
    shedPick k locks (pre ++ e :: post) = some e := by
  induction pre generalizing locks with
  | nil => simp [shedPick, kind, free]
  | cons p pre ih =>
    obtain ⟨otherKind, otherLock⟩ := first p (by simp)
    simp only [List.cons_append, shedPick, beq_false_of_ne otherKind, Bool.false_and, Bool.false_eq_true, if_false]
    exact ih (p.lock :: locks) (by simp [free, otherLock.symm]) fun q hq => first q (by simp [hq])

theorem erase_first (kind : e.kind = k) (first : ∀ p ∈ pre, p.kind ≠ k ∧ p.lock ≠ e.lock) : (pre ++ e :: post).erase e = pre ++ post := by
  rw [List.erase_append_right _ fun he => (first e he).1 kind, List.erase_cons_head]

end

/-- Taking an event off the queue lets in what waited. -/
theorem shedPop_eq {s : State} {die : Nat} {k : ShedKind} {e : ShedEvent} {pre post : List ShedEvent}
    (queue : (s.die die).events = pre ++ e :: post) (kind : e.kind = k) (again : e.again = false)
    (first : ∀ p ∈ pre, p.kind ≠ k ∧ p.lock ≠ e.lock) : shedPop die e s = s.modDie die fun d =>
      { d with events := pre ++ post ++ d.waiting.take (4096 - (pre ++ post).length),
               waiting := d.waiting.drop (4096 - (pre ++ post).length) } := by
  refine modDie_congr ?_
  rw [queue, again, if_neg Bool.false_ne_true, erase_first kind first]
  rfl

/-- An event that is taken is handled, the queue having taken in what waited. -/
theorem shedEvent_taken {s t : State} {die : Nat} {k : ShedKind} {e : ShedEvent} (f : Nat → ShedEvent → State → State)
    (ha : s.arg = .n1 die) (h : Taken s die k e t) : shedEvent k f s = .next (f die e t) := by
  obtain ⟨pre, post, queue, kind, again, first, rfl⟩ := h
  simp only [shedEvent, ha, queue, shedPick_eq kind [] (by simp) first, shedPop_eq queue kind again first]

theorem joinRequest_joins {c id va : Nat} {x : Ctx} {r : PageReq} (write : Bool) (s : State) (h : x.reqs.find? (·.va == va) = some r) :
    joinRequest c x id va write s = s.modItem id fun w => { w with paused := some (r.num + 1) } := by
  simp only [joinRequest, h]

theorem joinRequest_asks {c id va : Nat} {x : Ctx} (write : Bool) (s : State) (h : x.reqs.find? (·.va == va) = none) :
    joinRequest c x id va write s = State.modItem
      { s.modCtx c (fun y => { y with reqs := y.reqs ++ [⟨x.nextReq, va, write, s.cycle⟩], nextReq := y.nextReq + 1 }) with
        out := s.out ++ [.pageRequest x.d.hostfn c x.nextReq va write] } id fun w => { w with paused := some (x.nextReq + 1) } := by
  simp only [joinRequest, h]
  rfl

theorem bitOf_zero (n : Nat) : bitOf n 0 = (n % 2 == 1) := by simp [bitOf]

/-! ## Page requests -/

section
variable (c num : Nat) (res : Option Cause) (s : State)

theorem endRequest_request : (endRequest c num res s).request c num = none := by
  have gone (y : Ctx) : (y.reqs.filter (·.num != num)).find? (·.num == num) = none := by
    rw [List.find?_eq_none]
    intro r hr
    simpa using (List.mem_filter.1 hr).2
  have ctx : (endRequest c num res s).ctx c = (s.ctx c).map fun y => { y with reqs := y.reqs.filter (·.num != num) } := tget_tmod_self _ _ _
  rw [State.request, ctx]
  cases s.ctx c with
  | none => rfl
  | some y => exact gone y

/-- An item after the end of a request. -/
def answered (w : Item) : Item := if w.ctx = c ∧ w.paused = some (num + 1) then afterPage res w else w

theorem answered_id (w : Item) : (answered c num res w).id = w.id := by
  unfold answered
  split <;> rfl

theorem endRequest_items : (endRequest c num res s).items = s.items.map (answered c num res) := by
  refine List.map_congr_left fun w _ => ?_
  unfold answered
  by_cases h : w.ctx = c ∧ w.paused = some (num + 1)
  · rw [if_pos (by simpa using h), if_pos h]
    cases res <;> rfl
  · rw [if_neg (by simpa using h), if_neg h]

theorem endRequest_ends : RequestEnds c num res s (endRequest c num res s) := by
  refine ⟨endRequest_request c num res s, rfl, fun id w hw => ?_⟩
  have same : ((fun v : Item => v.id == id) ∘ answered c num res) = fun v => v.id == id := by
    funext v
    simp only [Function.comp, answered_id]
  rw [State.item, endRequest_items, List.find?_map, same, show s.items.find? _ = some w from hw]
  rfl

theorem endRequest_pulls : (endRequest c num res s).pulls = s.pulls := rfl

end

theorem reqLate_eq (s : State) (r : PageReq) : s.reqLate r = decide (r.since + 12500000 ≤ s.cycle) := rfl

theorem pullPage_none {c va : Nat} {s : State} (h : pullOf c va s = none) : pullPage c va s = s := by
  simp only [pullPage, show s.pulls.find? _ = none from h]

theorem pullPage_some {c va : Nat} {s : State} {p : Pull} (h : pullOf c va s = some p) : pullPage c va s = pulled p s := by
  unfold pullPage
  rw [show s.pulls.find? _ = some p from h]
  rfl

theorem ctx_of_liveCtx {s : State} {c : Nat} {x : Ctx} (h : s.liveCtx c = some x) : s.ctx c = some x := by
  unfold State.liveCtx at h
  split at h
  · next y hy =>
    split at h
    · rw [hy, h]
    · cases h
  · cases h

theorem logEvent_pulls (c : Nat) (e : LogEnt) (s : State) : (logEvent c e s).pulls = s.pulls := by
  have rest := congrArg State.pulls (DeviceFrame.logEvent_logged c e s).rest
  exact rest

theorem pullOf_dropPull (c va : Nat) (s : State) : pullOf c va (dropPull c va s) = none := by
  rw [pullOf, List.find?_eq_none]
  intro p hp
  simpa [imp_iff_not_or] using (List.mem_filter.1 hp).2

section
variable {s : State} {c num : Nat} {r : PageReq} (hr : s.request c num = some r)
include hr

theorem execPageRequestAnswer_eq {resume : Bool} (ha : s.arg = .ok c num resume) :
    exec .pageRequestAnswer s = .next (endRequest c num (if resume && !s.reqLate r then none else some .anrs) s) := by
  show execPageRequestAnswer s = _
  simp only [execPageRequestAnswer, ha, hr]

theorem execPageRequestTimeout_eq (ha : s.arg = .n2 c num) :
    exec .pageRequestTimeout s = .next (if s.reqLate r then endRequest c num (some .anrs) s else s) := by
  show execPageRequestTimeout s = _
  simp only [execPageRequestTimeout, ha, hr]

theorem execPagePullComplete_eq {done : Bool} (ha : s.arg = .ok c num done) :
    exec .pagePullComplete s = .next (if done then endRequest c num none (pullPage c r.va s)
      else endRequest c num (some .rplx) (logPlain c evPullFail Cause.rplx.code 0 r.va 0 (dropPull c r.va s))) := by
  show execPagePullComplete s = _
  simp only [execPagePullComplete, ha, hr]

end

end Sys2Proof.ShedRows

namespace Sys2Proof

open Sys2Proof.Machine Sys2Proof.ShedRows

/-- Settles O49: `shedEvent_taken` takes each event, and `endRequest_ends` ends each page request. -/
theorem shedEvents : Obligations.ShedEvents := by
  refine ⟨fun s t die e => ⟨fun h ha => ?_, fun h ha => ?_, fun h ha => ?_, fun h x m hx hm => ⟨fun known ha => ?_, fun unknown first ha => ?_⟩,
    fun h w x hw hx paused => ⟨fun r hr ha => ?_, fun hr ha => ?_⟩, fun h x hx own => ⟨fun busy ha => ?_, fun idle ha => ?_⟩⟩,
    fun s c num r hr => ⟨fun early => ?_, fun late => ?_, ?_, fun late => ?_, fun early ha => ?_, fun bare => ?_, fun p hp => ?_, ?_⟩,
    ?_, fun s c q ha => ?_, fun s die y ha => ?_⟩
  · show execShedEventDoorbell s = _
    unfold execShedEventDoorbell
    exact shedEvent_taken _ ha h
  · show execShedEventError s = _
    unfold execShedEventError
    exact shedEvent_taken _ ha h
  · show execShedEventBinddone s = _
    unfold execShedEventBinddone
    exact shedEvent_taken _ ha h
  · show execShedEventCmdread s = _
    unfold execShedEventCmdread
    refine (shedEvent_taken _ ha h).trans ?_
    have no : (decide (5 ≤ m.op) && (x.queue e.a0).open_.isEmpty) = false := by
      rw [CommandRows.op_eq, Bool.and_eq_false_iff, decide_eq_false_iff_not, List.isEmpty_eq_false_iff]
      exact known.imp (fun h => by omega) id
    simp only [hx, hm, no, Bool.false_eq_true, if_false]
  · show execShedEventCmdread s = _
    unfold execShedEventCmdread
    refine (shedEvent_taken _ ha h).trans ?_
    have yes : (decide (5 ≤ m.op) && (x.queue e.a0).open_.isEmpty) = true := by
      rw [CommandRows.op_eq, decide_eq_true unknown, first]
      rfl
    simp only [hx, hm, yes, if_true, CommandRows.endCmd_eq (show 3 < 256 by decide)]
  · show execShedEventCopyflt s = _
    unfold execShedEventCopyflt
    refine (shedEvent_taken _ ha h).trans ?_
    simp only [hw, hx, paused, beq_self_eq_true, if_true, joinRequest_joins _ t hr]
  · show execShedEventCopyflt s = _
    unfold execShedEventCopyflt
    refine (shedEvent_taken _ ha h).trans ?_
    simp only [hw, hx, paused, beq_self_eq_true, if_true, joinRequest_asks _ t hr, bitOf_zero]
  · show execShedEventTrigger s = _
    unfold execShedEventTrigger
    refine (shedEvent_taken _ ha h).trans ?_
    simp only [State.holdsGraph, hx, own, beq_self_eq_true, if_true, triggerRun, State.graph, busy]
  · show execShedEventTrigger s = _
    unfold execShedEventTrigger
    refine (shedEvent_taken _ ha h).trans ?_
    simp only [State.holdsGraph, hx, own, beq_self_eq_true, if_true, triggerRun, State.graph, idle, Bool.false_eq_true, if_false]
  · refine ⟨_, fun ha => ?_, endRequest_ends c num none s⟩
    rw [execPageRequestAnswer_eq hr ha, reqLate_eq, decide_eq_false (by omega)]
    rfl
  · refine ⟨_, fun ha => ?_, endRequest_ends c num (some .anrs) s⟩
    rw [execPageRequestAnswer_eq hr ha, reqLate_eq, decide_eq_true late]
    rfl
  · refine ⟨_, fun ha => ?_, endRequest_ends c num (some .anrs) s⟩
    rw [execPageRequestAnswer_eq hr ha]
    rfl
  · refine ⟨_, fun ha => ?_, endRequest_ends c num (some .anrs) s⟩
    rw [execPageRequestTimeout_eq hr ha, reqLate_eq, decide_eq_true late]
    rfl
  · rw [execPageRequestTimeout_eq hr ha, reqLate_eq, decide_eq_false (by omega)]
    rfl
  · refine ⟨_, fun ha => ?_, endRequest_ends c num none s⟩
    rw [execPagePullComplete_eq hr ha, pullPage_none bare]
    rfl
  · refine ⟨_, fun ha => ?_, endRequest_ends c num none (Claims.pulled p s)⟩
    rw [execPagePullComplete_eq hr ha, pullPage_some hp]
    rfl
  · refine ⟨_, fun ha => execPagePullComplete_eq hr ha, ?_, endRequest_ends c num (some .rplx) _⟩
    rw [if_neg Bool.false_ne_true, Claims.pullOf, endRequest_pulls, logPlain, logEvent_pulls]
    exact pullOf_dropPull c r.va s
  · intro s c r x hx u rt hrt unsent coalt since ha
    have go : (u.coalt != 0 && rt.unsent != 0 && decide (rt.since + cyclesOfNs (1000 * u.coalt) ≤ s.cycle)) = true := by
      have late : rt.since + cyclesOfNs (1000 * u.coalt) ≤ s.cycle := by
        unfold cyclesOfNs
        omega
      rw [bne_iff_ne.2 coalt, bne_iff_ne.2 unsent, decide_eq_true late]
      rfl
    have sent : sendRingInt c r s = { s.modCtx c (fun y => { y with rings := tset y.rings r ⟨0, 0⟩ }) with
        out := s.out ++ [.interrupt x.d.hostfn (x.d.vecbase + r)] } := by
      simp only [sendRingInt, ctx_of_liveCtx hx]
      rfl
    rw [← sent]
    have run : execCoaltTimerExpiry s = .next (if (u.coalt != 0 && rt.unsent != 0 &&
        decide (rt.since + cyclesOfNs (1000 * u.coalt) ≤ s.cycle)) = true then sendRingInt c r s else s) := by
      simp only [execCoaltTimerExpiry, ha, hx, tgetD, hrt]
      rfl
    exact run.trans (by rw [if_pos go])
  · show execAdminQueueReenable s = _
    simp only [execAdminQueueReenable, ha]
  · show execAdminFenceRelease s = _
    simp only [execAdminFenceRelease, ha]

end Sys2Proof

/-! The nodes of a graph and the end of its runs (R281, R282). -/

namespace Sys2Proof.GraphRows

open Sys2Proof Sys2Proof.Machine Sys2Proof.Claims

/-! ## The fields of a node -/

section
variable (y : GNode)

theorem field_eq {hi lo n : Nat} (h : hi + 1 - lo = n) : bitsOf y.img.toNat hi lo = (y.img.extractLsb' lo n).toNat := by
  rw [toNat_field, bitsOf, h]

theorem kind_eq : y.kind = (kindOf y).toNat := field_eq y rfl
theorem npred_eq : y.npred = (y.img.extractLsb' 16 16).toNat := field_eq y rfl

theorem next_eq : y.next = nextsOf y := List.map_congr_left fun _ _ => field_eq y (by omega)
theorem alt_eq : y.alt = altsOf y := List.map_congr_left fun _ _ => field_eq y (by omega)

theorem pay_eq (o n : Nat) : y.pay o n = (payOf y o (8 * n)).toNat := (toNat_field y.img _ _).symm

theorem payAddr_eq (o : Nat) : va57 (y.pay o 8) = payAddr y o := by
  simp only [va57, pay_eq, payAddr, payOf, toNat_field]
  omega

theorem condHolds_eq (cmp : BitVec 8) (v w : Nat) : condHolds cmp.toNat v w = compares cmp v w := by
  have is (n : Nat) (h : n < 2 ^ 8) : cmp = BitVec.ofNat 8 n ↔ cmp.toNat = n := by
    rw [← BitVec.toNat_inj, BitVec.toNat_ofNat, Nat.mod_eq_of_lt h]
  unfold condHolds compares
  simp only [is 0 (by decide), is 1 (by decide), is 2 (by decide)]
  split
  · next h => rw [if_pos h]
  · next h => rw [if_neg (by omega), if_pos h]
  · next h => rw [if_neg (by omega), if_neg (by omega), if_pos h]
  · next h0 h1 h2 => rw [if_neg h0, if_neg h1, if_neg h2]

end

/-! ## Changes of a graph -/

theorem getElem?_lmod {α : Type} (f : α → α) (l : List α) (n : Nat) : (lmod l n f)[n]? = l[n]?.map f := by
  induction l generalizing n with
  | nil => cases n <;> rfl
  | cons a l ih =>
    cases n with
    | zero => rfl
    | succ n => simpa [lmod] using ih n

section
variable {s : State} {die g : Nat} {x : Machine.Graph} (hx : s.graph die g = some x)
include hx

theorem die_lt_of_graph : die < s.dies.length := by
  by_contra far
  have none_ : s.graph die g = none := by
    rw [State.graph, State.die, MoveRows.lget_eq_getD, List.getElem?_eq_none (Nat.le_of_not_lt far)]
    rfl
  rw [none_] at hx
  cases hx

theorem graph_modGraph (f : Machine.Graph → Machine.Graph) : (s.modGraph die g f).graph die g = some (f x) := by
  rw [State.graph, State.modGraph, DieRules.die_modDie_self s (die_lt_of_graph hx)]
  exact (tget_tmod_self _ _ _).trans (congrArg (Option.map f) hx)

theorem modGraph_congr {f h : Machine.Graph → Machine.Graph} (fh : f x = h x) : s.modGraph die g f = s.modGraph die g h :=
  ShedRows.modDie_congr (by rw [Operands.tmod_congr hx fh])

theorem graph_modNode (n : Nat) (f : GNode → GNode) : (modNode die g n f s).graph die g = some { x with nodes := lmod x.nodes n f } :=
  graph_modGraph hx _

end

/-! ## Nodes that complete -/

section
variable {s t : State} {die g n : Nat} {x : Machine.Graph} {y : GNode} {c : Ctx} (hx : s.graph die g = some x) (hy : x.nodes[n]? = some y)
  (hc : s.liveCtx x.ctx = some c) (running : x.running = true) (busy : y.busy = true)
include hx hy hc running busy

theorem nodeComplete_no (h : nodeEnd c die g n y s = (.no, t)) : nodeComplete die g n s = t := by
  simp [nodeComplete, hx, hy, hc, running, busy, h]

theorem nodeComplete_done {l : List Nat} (h : nodeEnd c die g n y s = (.done l, t)) : nodeComplete die g n s = nodeDone die g n l t := by
  simp [nodeComplete, hx, hy, hc, running, busy, h, nodeDone]

theorem nodeComplete_failed (h : nodeEnd c die g n y s = (.failed, s)) : nodeComplete die g n s = nodeFails die g n x s := by
  simp only [nodeComplete, hx, hy, hc, running, busy, h, nodeFails, Bool.not_true, Bool.or_self, Bool.false_eq_true, if_false]
  rw [modGraph_congr (graph_modNode hx n _)]
  rfl

end

section
variable {s t : State} {die g n : Nat} {y : GNode} {c : Ctx}

theorem nodeEnd_kernel (kind : kindOf y = 1#4) : nodeEnd c die g n y s =
    (match y.res with
      | none => .no
      | some true => .done (nextsOf y)
      | some false => .failed, s) := by
  simp only [nodeEnd, kind_eq, kind, next_eq]
  cases y.res with
  | none => rfl
  | some b => cases b <;> rfl

theorem nodeEnd_copy {w : Item} (kind : kindOf y = 2#4)
    (hw : s.items.find? (fun (w : Item) => w.die == die && w.kind == .node g n) = some w) (good : w.fail = none) (runs : s.itemRuns w = true)
    (all : ∀ m ∈ w.moves, m.done = true) : nodeEnd c die g n y s = (.done (nextsOf y), closeItem w s) := by
  have done : w.moves.all (·.done) = true := List.all_eq_true.2 all
  simp only [nodeEnd, kind_eq, kind]
  simp [copyEnd, hw, good, runs, done, next_eq]

theorem nodeEnd_wait {v : Nat} (kind : kindOf y = 3#4) (hv : devWord c.d die (payAddr y 0) s = (some v, t)) :
    nodeEnd c die g n y s = (if (payOf y 8 64).toNat ≤ v then .done (nextsOf y) else .no, t) := by
  simp only [nodeEnd, kind_eq, kind, payAddr_eq]
  simp only [BitVec.toNat_ofNat, Nat.reducePow, Nat.reduceMod, hv, pay_eq, next_eq]

theorem nodeEnd_cond {v : Nat} (kind : kindOf y = 5#4) (hv : devWord c.d die (payAddr y 0) s = (some v, t)) :
    nodeEnd c die g n y s =
      (.done (if compares (payOf y 16 8) v (payOf y 8 64).toNat then nextsOf y else altsOf y), t) := by
  simp only [nodeEnd, kind_eq, kind, payAddr_eq]
  simp only [BitVec.toNat_ofNat, Nat.reducePow, Nat.reduceMod, hv, pay_eq, next_eq, alt_eq, condHolds_eq]

theorem nodeEnd_loop (kind : kindOf y = 6#4) : nodeEnd c die g n y s =
    if y.iter + 1 ≤ (payOf y 0 32).toNat then (.done (nextsOf y), modNode die g n (fun y => { y with iter := y.iter + 1 }) s)
    else (.done (altsOf y), modNode die g n (fun y => { y with iter := 0 }) s) := by
  simp only [nodeEnd, kind_eq, kind]
  simp only [BitVec.toNat_ofNat, Nat.reducePow, Nat.reduceMod, pay_eq, next_eq, alt_eq]

end

/-! ## Arrivals and the end of a run -/

/-- An arrival that does not fire its node only counts. -/
theorem arriveNode_counts {s : State} {die g n : Nat} {x : Machine.Graph} {y : GNode} (hx : s.graph die g = some x)
    (hy : x.nodes[n]? = some y) (real : n ≠ 0xFFFF)
    (waits : y.arr + 1 < (y.img.extractLsb' 16 16).toNat ∨ y.busy = true ∨ x.failed.isSome = true) :
    arriveNode die g s n = modNode die g n (fun y => { y with arr := y.arr + 1 }) s := by
  have node : (lmod x.nodes n fun y => { y with arr := y.arr + 1 })[n]? = some { y with arr := y.arr + 1 } := by
    rw [getElem?_lmod, hy]
    rfl
  have stays : (y.busy || x.failed.isSome || y.arr + 1 == 0 || decide (y.arr + 1 < y.npred)) = true := by
    rw [npred_eq]
    rcases waits with few | busy | failed
    · rw [decide_eq_true few, Bool.or_true]
    · simp [busy]
    · simp [failed]
  simp only [arriveNode, beq_false_of_ne real, Bool.false_eq_true, if_false, settleNode, graph_modNode hx, node]
  exact if_pos stays

section
variable {s : State} {die g : Nat} {x : Machine.Graph} (hx : s.graph die g = some x) (running : x.running = true)
  (idle : ∀ y ∈ x.nodes, y.busy = false) (last : x.pending = false)
include hx running idle last

theorem settleRun_ends (good : x.failed = none) : settleRun die g 2 s =
    (logEvent x.ctx ⟨0x0A, g, 0xFFFF, 0, (x.runs + 1) % 2 ^ 32, 0⟩ s).modGraph die g fun y =>
      { y with running := false, runs := (y.runs + 1) % 2 ^ 32 } := by
  have none_ : x.nodes.any (·.busy) = false := by simpa [List.any_eq_false] using idle
  simp only [settleRun, hx, running, none_, last, good, Bool.not_true, Bool.or_self, Bool.false_eq_true, if_false, Option.isSome_none]
  rfl

theorem settleRun_fails {n : Nat} (bad : x.failed = some n) : settleRun die g 2 s =
    (logEvent x.ctx ⟨0x0B, g, 0xFFFF, 0, x.runs, n⟩ s).modGraph die g fun y => { y with running := false } := by
  have none_ : x.nodes.any (·.busy) = false := by simpa [List.any_eq_false] using idle
  simp only [settleRun, hx, running, none_, last, bad, Bool.not_true, Bool.or_self, Bool.false_eq_true, if_false, Option.isSome_some, if_true]
  rfl

end

end Sys2Proof.GraphRows

namespace Sys2Proof

open Sys2Proof.Machine Sys2Proof.GraphRows

/-- Settles O50: `nodeEnd` by the kind of the node, and the end of a run by whether a node has failed. -/
theorem graphEvents : Obligations.GraphEvents := by
  refine ⟨fun s die g n x y c hx hy hc running busy => ?_, fun s die g n x y hx hy real waits => arriveNode_counts hx hy real waits,
    fun s die g x hx running idle last => ⟨settleRun_ends hx running idle last, fun n => settleRun_fails hx running idle last⟩⟩
  have run {t : State} (h : nodeComplete die g n s = t) (ha : s.arg = .n3 die g n) : exec .graphNodeComplete s = .next t := by
    show execGraphNodeComplete s = _
    simp only [execGraphNodeComplete, ha, h]
  refine ⟨fun kind res => run ?_, fun kind res => run ?_, fun kind res => run ?_, fun kind w hw good runs all => run ?_,
    fun kind v t hv => ⟨fun reached => run ?_, fun short => run ?_⟩, fun kind v t hv => run ?_, fun kind => run ?_⟩
  · exact nodeComplete_no hx hy hc running busy (by rw [nodeEnd_kernel kind, res])
  · exact nodeComplete_done hx hy hc running busy (by rw [nodeEnd_kernel kind, res])
  · exact nodeComplete_failed hx hy hc running busy (by rw [nodeEnd_kernel kind, res])
  · exact nodeComplete_done hx hy hc running busy (nodeEnd_copy kind hw good runs all)
  · exact nodeComplete_done hx hy hc running busy (by rw [nodeEnd_wait kind hv, if_pos reached])
  · exact nodeComplete_no hx hy hc running busy (by rw [nodeEnd_wait kind hv, if_neg (Nat.not_le.2 short)])
  · exact nodeComplete_done hx hy hc running busy (nodeEnd_cond kind hv)
  · split
    · next more => exact nodeComplete_done hx hy hc running busy (by rw [nodeEnd_loop kind, if_pos more])
    · next spent => exact nodeComplete_done hx hy hc running busy (by rw [nodeEnd_loop kind, if_neg spent])

end Sys2Proof

/-! Placement of groups and gangs (R43, R195, R271, R273 to R275). -/

namespace Sys2Proof.PlacementRows

open Sys2Proof Sys2Proof.Machine Sys2Proof.Claims

theorem tget_append_none {α β : Type} [DecidableEq α] {t : Table α β} {a : α} (h : tget t a = none) (u : Table α β) :
    tget (t ++ u) a = tget u a := by
  induction t with
  | nil => rfl
  | cons e t ih =>
    obtain ⟨k, v⟩ := e
    rw [List.cons_append, tget]
    rw [tget] at h
    split at h
    · cases h
    · next ne => rw [if_neg ne, ih h]

/-- The two strands of each thread that a group starts with. -/
def startStrands (g : GroupKey) (a x : Strand) (tids : List Nat) : Table StrandKey Strand :=
  tids.flatMap fun t => [((⟨g, t, .a⟩ : StrandKey), a), (⟨g, t, .x⟩, x)]

theorem tget_startStrands (g : GroupKey) (a x : Strand) {tids : List Nat} {n : Nat} (hn : n ∈ tids) :
    tget (startStrands g a x tids) ⟨g, n, .a⟩ = some a ∧ tget (startStrands g a x tids) ⟨g, n, .x⟩ = some x := by
  induction tids with
  | nil => cases hn
  | cons t tids ih =>
    unfold startStrands at ih ⊢
    by_cases same : t = n
    · subst same
      simp [tget]
    · have rest := ih ((List.mem_cons.1 hn).resolve_left fun e => same e.symm)
      simpa [tget, same] using rest

theorem fresh_atEntry (entry alloc : Nat) : AtEntry (Strand.fresh (pcOf entry) alloc) entry alloc :=
  ⟨rfl, rfl, rfl, rfl, rfl, rfl, rfl, rfl, rfl, rfl⟩

/-! ## The round-robin after a placement -/

section
variable {s : State} {die slot n : Nat} {b : Bind} (hd : die < s.dies.length)
include hd

theorem binds_bumpBind (hb : tget (s.die die).binds slot = some b) :
    tget ((bumpBind die slot n s).die die).binds slot = some { b with next := b.next + n } := by
  rw [bumpBind, DieRules.die_modDie_self s hd]
  exact (tget_tmod_self _ _ _).trans (congrArg _ hb)

end

/-! ## One group -/

section
variable (die core : Nat) (l : Machine.Launch) (glin owner : Nat) (s : State)

theorem placeGroup_dies : (placeGroup die core l glin owner s).dies = s.dies := by
  unfold placeGroup
  dsimp only
  split <;> split <;> rfl

theorem placeGroup_mem : (placeGroup die core l glin owner s).mem = s.mem := by
  unfold placeGroup
  dsimp only
  split <;> split <;> rfl

theorem placeGroup_strands : (placeGroup die core l glin owner s).strands = s.strands ++ startStrands ⟨l.id, glin⟩
    (Strand.fresh (pcOf l.rc.aEntry) l.rc.aAlloc) (Strand.fresh (pcOf l.rc.xEntry) l.rc.xAlloc) (List.range l.rc.gsize) := by
  unfold placeGroup
  dsimp only
  split <;> split <;> rfl

theorem placeGroup_group : (placeGroup die core l glin owner s).group ⟨l.id, glin⟩ =
    some (Group.fresh l.rc l.rc.gsize die core owner s.cycle l.rc.gang) := by
  refine Eq.trans ?_ (tget_tset_self s.groups (⟨l.id, glin⟩ : GroupKey) (Group.fresh l.rc l.rc.gsize die core owner s.cycle l.rc.gang))
  unfold placeGroup
  dsimp only
  split <;> split <;> rfl

theorem placeGroup_launch : (placeGroup die core l glin owner s).launch l.id =
    (s.launch l.id).map fun l => { l with placed := l.placed + 1 } := by
  refine Eq.trans ?_ (tget_tmod_self s.launches l.id fun l => { l with placed := l.placed + 1 })
  unfold placeGroup
  dsimp only
  split <;> split <;> rfl

end

section
variable {s : State} {die cl core slot : Nat} {b : Bind} {l : Machine.Launch} (ha : s.arg = .n3 die cl core)
  (hb : s.pickBind die cl = some (slot, b)) (hl : s.launch b.launch = some l) (single : b.gang = false) (hc : core / 8 = cl)
  (free : (s.die die).stalls .binddone = false)
include ha hb hl single hc free

theorem execDispatcherPlace_next (saved : s.firstSaved die cl b l.rc = none) (fits : s.nextFits die cl b l.rc = true)
    (room : s.coreFits die core l.rc = true) (open_ : s.isFenced die 0 core = false) :
    exec .dispatcherPlace s = .next (bumpBind die slot 1 (placeGroup die core l (b.gfirst + b.next) (b.gfirst + b.next) s)) := by
  show execDispatcherPlace s = _
  simp [execDispatcherPlace, ha, hb, hl, single, hc, free, saved, fits, room, State.placeFenced, open_]

theorem execDispatcherPlace_restore {h : GroupKey} {x : Group} (saved : s.firstSaved die cl b l.rc = some h) (hx : s.group h = some x)
    (fits : s.restoreFits die core l.rc x = true) :
    exec .dispatcherPlace s = .next (bumpBind die slot 0 (restoreGroup die core h s)) := by
  show execDispatcherPlace s = _
  simp [execDispatcherPlace, ha, hb, hl, single, hc, free, saved, hx, fits]

end

/-! ## Gangs -/

section
variable {s : State} {die cl slot : Nat} {cores : List Nat} {b : Bind} {l : Machine.Launch} (ha : s.arg = .list die cl cores)
  (hb : s.pickBind die cl = some (slot, b)) (hl : s.launch b.launch = some l) (gang : b.gang = true) (unsaved : s.savedOf die b = [])
  (free : (s.die die).stalls .binddone = false)
include ha hb hl gang unsaved free

/-- A pass for a gang, none of whose groups is saved, commits what `gangPlace` places or counts an abort. -/
theorem execGangReservationPass_eq : exec .gangReservationPass s =
    match (if s.winFits die cl l.rc = true then
        (gangPlace die cl (b.gfirst + b.next) l ((List.range l.rc.gangSize).map (b.gfirst + b.next + ·)) 0 cores s).map
          (bumpBind die slot l.rc.gangSize) else none) with
    | some t => .next t
    | none => .next (s.modDie die fun d =>
        let a := tgetD d.aborts slot (b.gfirst + b.next, 0)
        { d with aborts := tset d.aborts slot (b.gfirst + b.next, if a.1 == b.gfirst + b.next then a.2 + 1 else 1), rr := slot + 1 }) := by
  show execGangReservationPass s = _
  simp only [execGangReservationPass, ha, hb, hl, gang, unsaved, free, Bool.not_true, Bool.or_self, Bool.false_eq_true, if_false] <;> rfl

end

end Sys2Proof.PlacementRows

namespace Sys2Proof

open Sys2Proof.Machine Sys2Proof.PlacementRows

/-- Settles O51: what `placeGroup`, `restoreGroup` and `gangPlace` leave, and the round-robin that follows them. -/
theorem placementEvents : Obligations.PlacementEvents := by
  refine ⟨?_, ?_⟩
  · intro s die cl core slot b l hb hl hid single hc hd free slotB g
    refine ⟨?_, ?_⟩
    · intro saved fits room open_ _ fresh
      have dies := placeGroup_dies die core l (b.gfirst + b.next) (b.gfirst + b.next) s
      refine ⟨_, fun ha => execDispatcherPlace_next ha hb hl single hc free saved fits room open_, ?_,
        placeGroup_mem die core l (b.gfirst + b.next) (b.gfirst + b.next) s, fun x hx => ?_,
        ⟨_, placeGroup_group .., rfl, rfl, rfl, rfl, rfl, rfl, rfl⟩, fun n hn => ?_⟩
      · refine binds_bumpBind (by rw [dies]; exact hd) ?_
        rw [State.die, dies]
        exact slotB
      · have placed := (placeGroup_launch die core l (b.gfirst + b.next) (b.gfirst + b.next) s).symm.trans hx
        rw [hid, hl] at placed
        cases placed
        rfl
      · have both := tget_startStrands g (Strand.fresh (pcOf l.rc.aEntry) l.rc.aAlloc) (Strand.fresh (pcOf l.rc.xEntry) l.rc.xAlloc)
          (List.mem_range.2 hn)
        have strand (k : StrandKind) : (bumpBind die slot 1 (placeGroup die core l (b.gfirst + b.next) (b.gfirst + b.next) s)).strand ⟨g, n, k⟩ =
            tget (startStrands g (Strand.fresh (pcOf l.rc.aEntry) l.rc.aAlloc) (Strand.fresh (pcOf l.rc.xEntry) l.rc.xAlloc)
              (List.range l.rc.gsize)) ⟨g, n, k⟩ := by
          refine Eq.trans (congrArg (tget · _) (placeGroup_strands die core l (b.gfirst + b.next) (b.gfirst + b.next) s)) ?_
          exact tget_append_none (fresh n k) _
        exact ⟨_, _, (strand .a).trans both.1, (strand .x).trans both.2, fresh_atEntry .., fresh_atEntry ..⟩
    · intro h x saved hx fits
      refine ⟨_, fun ha => execDispatcherPlace_restore ha hb hl single hc free saved hx fits, rfl, rfl, rfl, ?_, ?_⟩
      · exact (tget_tmod_self _ _ _).trans (congrArg (Option.map _) hx)
      · exact binds_bumpBind (n := 0) (s := restoreGroup die core h s) hd slotB
  · intro s die cl slot cores b l hb hl gang unsaved free f gs
    refine ⟨fun fits t placed ha => ?_, fun fails ha => ?_⟩
    · rw [execGangReservationPass_eq ha hb hl gang unsaved free, if_pos fits, show gangPlace die cl _ l _ 0 cores s = some t from placed]
      rfl
    · rw [execGangReservationPass_eq ha hb hl gang unsaved free]
      rcases fails with tight | aborted
      · rw [tight]
        rfl
      · rw [show gangPlace die cl _ l _ 0 cores s = none from aborted]
        rw [show (if s.winFits die cl l.rc = true then Option.map (bumpBind die slot l.rc.gangSize) none else none) = none from ite_self _]

end Sys2Proof

/-! Slices, drains, discards, saves, the watchdog and the budget period (R44, R137, R138, R265, R277, R285 to R288). -/

namespace Sys2Proof.LifecycleRows

open Sys2Proof Sys2Proof.Machine Sys2Proof.Claims

/-! ## Accounts -/

/-- A state that differs from another at most in its dies, and there in nothing that says who uses an account of a die. -/
structure SameOwners (die : Nat) (s t : State) : Prop where
  rest : { t with dies := s.dies } = s
  length : t.dies.length = s.dies.length
  binds : (t.die die).binds = (s.die die).binds

theorem SameOwners.refl (die : Nat) (s : State) : SameOwners die s s := ⟨rfl, rfl, rfl⟩

theorem SameOwners.trans {die : Nat} {s t u : State} (h : SameOwners die s t) (g : SameOwners die t u) : SameOwners die s u :=
  ⟨by rw [← h.rest, ← g.rest], g.length.trans h.length, g.binds.trans h.binds⟩

theorem sameOwners_modDie {die : Nat} (s : State) (d : Nat) {f : Die → Die} (keeps : ∀ x, (f x).binds = x.binds) :
    SameOwners die s (s.modDie d f) :=
  ⟨rfl, by simp, DieRules.die_modDie_keeps s keeps⟩

theorem sameOwners_modAcct {die : Nat} (s : State) (d n : Nat) (f : Acct → Acct) : SameOwners die s (s.modAcct d n f) :=
  sameOwners_modDie s d fun _ => rfl

theorem raiseShed_eq (die : Nat) (e : ShedEvent) (s : State) : ∃ f, raiseShed die e s = s.modDie die f ∧
    (∀ x, (f x).binds = x.binds) ∧ (∀ x, (f x).accts = x.accts) ∧ ∀ x, (f x).periods = x.periods := by
  refine ⟨_, rfl, ?_, ?_, ?_⟩
  all_goals
    intro x
    dsimp only
    split
    · rfl
    · split <;> rfl

section
variable {die : Nat} {s t : State} (h : SameOwners die s t)
include h

theorem SameOwners.groups : t.groups = s.groups := by rw [← h.rest]
theorem SameOwners.launches : t.launches = s.launches := by rw [← h.rest]
theorem SameOwners.ctxs : t.ctxs = s.ctxs := by rw [← h.rest]
theorem SameOwners.mem : t.mem = s.mem := by rw [← h.rest]
theorem SameOwners.strands : t.strands = s.strands := by rw [← h.rest]
theorem SameOwners.cycle : t.cycle = s.cycle := by rw [← h.rest]

theorem SameOwners.groupAcct (g : GroupKey) : t.groupAcct g = s.groupAcct g := by
  have same := congrArg (fun u : State => u.groupAcct g) h.rest
  exact same

theorem SameOwners.acctBusy (a : Nat) : t.acctBusy die a = s.acctBusy die a := by
  simp only [State.acctBusy, h.groups, h.binds, h.groupAcct]

theorem SameOwners.acctYard (a : Nat) : t.acctYard die a = s.acctYard die a := by
  have same := congrArg (fun u : State => u.acctYard die a) h.rest
  exact same

theorem SameOwners.borrowMax (accts : ∀ i, t.acct die i = s.acct die i) (a : Nat) (b : Bal) : t.borrowMax die a b = s.borrowMax die a b := by
  simp only [State.borrowMax, h.acctBusy, accts]

end

theorem acct_modAcct_self {s : State} {die n : Nat} (f : Acct → Acct) (hd : die < s.dies.length) (hn : n < (s.die die).accts.length) :
    (s.modAcct die n f).acct die n = f (s.acct die n) := by
  rw [State.acct, State.modAcct, DieRules.die_modDie_self s hd]
  exact DieRules.lget_lmod_self _ _ hn

theorem acct_modAcct_ne {s : State} {die n m : Nat} (f : Acct → Acct) (ne : n ≠ m) : (s.modAcct die n f).acct die m = s.acct die m :=
  DieRules.die_modDie_keeps (r := fun d => lget d.accts m Acct.zero) s fun d => DieRules.lget_lmod_ne d.accts _ ne

theorem lmod_lmod {α : Type} (f g : α → α) (l : List α) (n : Nat) : lmod (lmod l n f) n g = lmod l n (g ∘ f) := by
  induction l generalizing n with
  | nil => cases n <;> rfl
  | cons a l ih =>
    cases n with
    | zero => rfl
    | succ n => exact congrArg (a :: ·) (ih n)

theorem modAcct_modAcct (s : State) (die n : Nat) (f g : Acct → Acct) : (s.modAcct die n f).modAcct die n g = s.modAcct die n (g ∘ f) := by
  have accts (d : Die) : { { d with accts := lmod d.accts n f } with accts := lmod (lmod d.accts n f) n g } =
      { d with accts := lmod d.accts n (g ∘ f) } := by rw [lmod_lmod]
  simp only [State.modAcct, State.modDie, lmod_lmod, Function.comp_def]

theorem modAcct_congr {s : State} {die n : Nat} {f g : Acct → Acct} (h : f (s.acct die n) = g (s.acct die n)) :
    s.modAcct die n f = s.modAcct die n g :=
  ShedRows.modDie_congr (by rw [ShedRows.lmod_congr Acct.zero (s.die die).accts n rfl h])

/-! ## The end of a slice -/

/-- Nothing can be borrowed. -/
theorem borrow_none {s : State} {die a : Nat} (none_ : ∀ b, s.borrowMax die a b = 0) (l : List Bal) : l.foldl (borrow die a) s = s := by
  induction l with
  | nil => rfl
  | cons b l ih => rw [List.foldl_cons, show borrow die a s b = s by simp [borrow, none_ b], ih]

section
variable {s : State} {die a : Nat} (busy : s.acctBusy die a = true) (none_ : ∀ b, s.borrowMax die a b = 0)
include busy none_

theorem sliceOver_ends {timer : Bool} (h : timer = true ∨ (s.acct die a).core ≤ 0) : sliceOver die a timer s = endSlice die a s := by
  have spent : (timer || allBals.any fun b => decide ((s.acct die a).bal b ≤ 0)) = true := by
    rcases h with h | h
    · simp [h]
    · simp [allBals, Acct.bal, h]
  have ends : (timer || decide ((s.acct die a).core ≤ 0)) = true := by
    rcases h with h | h <;> simp [h]
  simp only [sliceOver, busy, spent, borrow_none none_, Bool.and_self, if_true]
  exact if_pos (by simpa using ends)

omit busy in
theorem sliceOver_stays (h : 0 < (s.acct die a).core) : sliceOver die a false s = s := by
  have goes : ¬ (s.acct die a).core ≤ 0 := not_le.2 h
  unfold sliceOver
  split
  · simp only [borrow_none none_]
    exact if_neg (by simpa using goes)
  · rfl

end

/-- What the end of a slice leaves. -/
theorem endSlice_effect (die a : Nat) (s : State) : (endSlice die a s).mem = s.mem ∧ (endSlice die a s).strands = s.strands ∧
    ((endSlice die a s).die die).events = (s.die die).events ∧
    (die < s.dies.length → a < (s.die die).accts.length → ((endSlice die a s).acct die a).ended = true) ∧
    (endSlice die a s).groups = s.groups.map fun e => if e.2.die == die && e.2.life == .running && s.groupAcct e.1 == a then
      (e.1, { e.2 with life := .draining, since := s.cycle }) else e := by
  refine ⟨rfl, rfl, DieRules.die_modDie_keeps (r := Die.events) s fun _ => rfl, fun hd ha => ?_, rfl⟩
  have ended := congrArg Acct.ended (acct_modAcct_self (fun x => { x with ended := true }) hd ha)
  exact ended

theorem sliceEvent_none {d : Die} {a : Nat} (h : ∀ e ∈ d.events ++ d.waiting, e.kind = .slice → e.a0 ≠ a) : d.sliceEvent a = none := by
  rw [Die.sliceEvent, List.find?_eq_none]
  intro e he
  simpa using h e he

theorem sliceEvent_taken {d : Die} {a : Nat} {e : ShedEvent} {pre post : List ShedEvent} (queue : d.events = pre ++ e :: post)
    (kind : e.kind = .slice) (acct : e.a0 = a) (first : ∀ p ∈ pre, p.kind ≠ .slice ∧ p.lock ≠ e.lock) :
    d.sliceEvent a = some e ∧ d.oldest e = true := by
  have others : pre.find? (fun e => e.kind == .slice && e.a0 == a) = none := by
    rw [List.find?_eq_none]
    intro p hp
    simp [(first p hp).1]
  have locks : pre.find? (·.lock == e.lock) = none := by
    rw [List.find?_eq_none]
    intro p hp
    simpa using (first p hp).2
  constructor
  · rw [Die.sliceEvent, queue, List.append_assoc, List.find?_append, others]
    simp [kind, acct]
  · rw [Die.oldest, queue, List.find?_append, locks]
    simp

/-- An account's SLICE event behind another of its lock is not handled yet. -/
theorem sliceEvent_behind {d : Die} {a : Nat} {f : ShedEvent} {rest : List ShedEvent} (queue : d.events = f :: rest) (kind : f.kind ≠ .slice)
    (locks : ∀ e ∈ rest ++ d.waiting, e.kind = .slice → e.lock = f.lock) (some_ : ∃ e ∈ rest ++ d.waiting, e.kind = .slice ∧ e.a0 = a) :
    ∃ e, d.sliceEvent a = some e ∧ d.oldest e = false := by
  have find : d.sliceEvent a = (rest ++ d.waiting).find? fun e => e.kind == .slice && e.a0 == a := by
    rw [Die.sliceEvent, queue, List.cons_append, List.find?_cons_of_neg (by simp [kind])]
  cases he : (rest ++ d.waiting).find? fun e => e.kind == .slice && e.a0 == a with
  | none =>
    obtain ⟨e, mem, slice, acct⟩ := some_
    exact absurd (List.find?_eq_none.1 he e mem) (by simp [slice, acct])
  | some e =>
    have slice : e.kind = .slice ∧ e.a0 = a := by simpa using List.find?_some he
    refine ⟨e, find.trans he, ?_⟩
    have other : f ≠ e := fun same => kind (same ▸ slice.1)
    rw [Die.oldest, queue, List.find?_cons_of_pos (by simpa using (locks e (List.mem_of_find?_eq_some he) slice.1).symm)]
    simpa using other

section
variable {s : State} {die a : Nat} (ha : s.arg = .n2 die a)
include ha

theorem execSliceEnd_none (h : (s.die die).sliceEvent a = none) : exec .sliceEnd s = .next (sliceOver die a false s) := by
  show execSliceEnd s = _
  simp only [execSliceEnd, ha, h]

theorem execSliceEnd_some {e : ShedEvent} (h : (s.die die).sliceEvent a = some e) :
    exec .sliceEnd s = .next (if (s.die die).oldest e then sliceOver die a (e.a1 == 1) (shedPop die e s) else s) := by
  show execSliceEnd s = _
  simp only [execSliceEnd, ha, h]

end

/-! ## Drains and discards -/

theorem tget_map_keyed {α β : Type} [DecidableEq α] (f : α → β → β) (t : Table α β) (a : α) :
    tget (t.map fun e => (e.1, f e.1 e.2)) a = (tget t a).map (f a) := by
  induction t with
  | nil => rfl
  | cons e t ih =>
    obtain ⟨k, v⟩ := e
    rw [List.map_cons, tget, tget]
    split
    · next same => rw [same]; rfl
    · exact ih

/-- The strands of a group, changed. -/
theorem strand_mapGroup (f : Strand → Strand) (t : Table StrandKey Strand) (g : GroupKey) (k : StrandKey) :
    tget (t.map fun e => if e.1.grp == g then (e.1, f e.2) else e) k = if k.grp = g then (tget t k).map f else tget t k := by
  have keyed : (t.map fun e => if e.1.grp == g then (e.1, f e.2) else e) =
      t.map fun e => (e.1, (fun (k : StrandKey) x => if k.grp = g then f x else x) e.1 e.2) := by
    refine List.map_congr_left fun e _ => ?_
    by_cases h : e.1.grp = g <;> simp [h]
  refine (congrArg (tget · k) keyed).trans ((tget_map_keyed (fun (k : StrandKey) x => if k.grp = g then f x else x) t k).trans ?_)
  split
  · rfl
  · cases tget t k <;> rfl

/-- Putting back, the latest first, leaves in each register what its oldest note says. -/
theorem unprov_getElem? (l : List Prov) (regs : List TVal) {n : Nat} (hn : n < regs.length) :
    (l.foldl (fun r e => lset r e.reg e.old) regs)[n]? = ((l.reverse.find? (·.reg == n)).map fun e => e.old).or regs[n]? := by
  induction l generalizing regs with
  | nil => rfl
  | cons e l ih =>
    rw [List.foldl_cons, ih _ (by simpa using hn), List.reverse_cons, List.find?_append, Operands.getElem?_lset]
    cases l.reverse.find? (·.reg == n) with
    | some f => simp
    | none =>
      by_cases same : e.reg = n
      · subst same
        simp [hn]
      · simp [same, Ne.symm same]

theorem unprov_length (l : List Prov) (regs : List TVal) : (l.foldl (fun r e => lset r e.reg e.old) regs).length = regs.length := by
  induction l generalizing regs with
  | nil => rfl
  | cons e l ih => rw [List.foldl_cons, ih, lset_length]

/-- A strand whose squashed operations' writes have been put back. -/
theorem unprov_effect (y : Strand) : { y.unprov with regs := y.regs, prov := y.prov } = y ∧ y.unprov.prov = [] ∧
    y.unprov.regs.length = y.regs.length ∧ ∀ n, n < y.regs.length → y.unprov.regs[n]? = putBack y n :=
  ⟨rfl, rfl, unprov_length .., fun _ hn => unprov_getElem? _ _ hn⟩

theorem group_modGroup {s : State} {g : GroupKey} {x : Group} (f : Group → Group) (hg : s.group g = some x) :
    (s.modGroup g f).group g = some (f x) := (tget_tmod_self _ _ _).trans (congrArg (Option.map f) hg)

section
variable {s : State} {g : GroupKey} {x : Group} {l : Launch} (hg : s.group g = some x) (hl : s.launch g.launch = some l)
  (life : x.life = .draining) (ha : s.arg = .group g)
include hg hl life ha

theorem execDrainLimitExpiry_late (late : x.since + 1250 * l.rc.drainLimit ≤ s.cycle) : exec .drainLimitExpiry s =
    .next (if l.rc.discardOk then beginDiscard g (s.modGroup g fun x => { x with since := s.cycle })
      else (s.modGroup g fun x => { x with since := s.cycle }).modGroup g fun x => { x with life := .overrunning }) := by
  have now : x.since + cyclesOfNs (1000 * l.rc.drainLimit) ≤ s.cycle := by
    unfold cyclesOfNs
    omega
  show execDrainLimitExpiry s = _
  simp only [execDrainLimitExpiry, ha, hg, hl, life, beq_self_eq_true, Bool.true_and, decide_eq_true now, if_true]

theorem execDrainLimitExpiry_early (early : s.cycle < x.since + 1250 * l.rc.drainLimit) : exec .drainLimitExpiry s = .next s := by
  have notYet : ¬ x.since + cyclesOfNs (1000 * l.rc.drainLimit) ≤ s.cycle := by
    unfold cyclesOfNs
    omega
  show execDrainLimitExpiry s = _
  simp only [execDrainLimitExpiry, ha, hg, hl, life, beq_self_eq_true, Bool.true_and, decide_eq_false notYet, Bool.false_eq_true, if_false]

end

/-! ## Saves -/

theorem saveGroup_group {s : State} {g : GroupKey} {x : Group} (hg : s.group g = some x) :
    (saveGroup s g).group g = some { x with life := .saved, since := s.cycle } := by
  have debt := Ends.logDebt_logged g x s
  rw [saveGroup, hg]
  refine (group_modGroup _ ((debt.group g).trans hg)).trans ?_
  rw [← debt.cycle]

theorem saveGroup_strand {s : State} {g : GroupKey} {x : Group} (hg : s.group g = some x) {k : StrandKey} {y : Strand} (hk : k.grp = g)
    (hy : s.strand k = some y) : (saveGroup s g).strand k = some y.discard := by
  have debt := Ends.logDebt_logged g x s
  rw [saveGroup, hg]
  refine (strand_mapGroup Strand.discard (logDebt g x s).strands g k).trans ?_
  rw [if_pos hk, debt.strands, show tget s.strands k = some y from hy]
  rfl

theorem execGroupSave_one {s : State} {g : GroupKey} {x : Group} (hg : s.group g = some x) (single : x.gang = false)
    (life : x.life = .discarding) (quiet : s.quiet g = true) (ha : s.arg = .group g) : exec .groupSave s = .next (saveGroup s g) := by
  show execGroupSave s = _
  simp [execGroupSave, ha, hg, State.saveSet, single, life, quiet]

/-! ## The watchdog -/

section
variable {s : State} {g : GroupKey} {x : Group} {l : Launch} (hg : s.group g = some x) (hl : s.launch g.launch = some l)
  (ha : s.arg = .dieGroup x.die g)
include hg hl ha

theorem execWatchdogExpiry_kills (life : x.life = .overrunning ∨ x.life = .discarding)
    (late : 1250 * (s.yard (s.yardOf l.ctx)).allow < s.cycle - x.since) : exec .watchdogExpiry s =
      .next (killLaunch l.id (logPlain l.ctx evWdog (s.yardOf l.ctx) l.id ((s.cycle - x.since) * 4 / 5) 0
        (fenceYard x.die (s.yardOf l.ctx) l.id ((s.cycle - x.since) * 4 / 5) s))) := by
  have now : cyclesOfNs (1000 * (s.yard (s.yardOf l.ctx)).allow) < s.cycle - x.since := by
    unfold cyclesOfNs
    omega
  have over_ : x.life.overruns = true := by rcases life with h | h <;> rw [h] <;> rfl
  show execWatchdogExpiry s = _
  simp only [execWatchdogExpiry, ha, hg, hl, over_, beq_self_eq_true, Bool.true_and, decide_eq_true now, if_true]

theorem execWatchdogExpiry_waits (early : s.cycle - x.since ≤ 1250 * (s.yard (s.yardOf l.ctx)).allow) : exec .watchdogExpiry s = .next s := by
  have notYet : ¬ cyclesOfNs (1000 * (s.yard (s.yardOf l.ctx)).allow) < s.cycle - x.since := by
    unfold cyclesOfNs
    omega
  show execWatchdogExpiry s = _
  simp only [execWatchdogExpiry, ha, hg, hl, decide_eq_false notYet, Bool.and_false, Bool.false_eq_true, if_false]

end

/-! ## The budget period -/

/-- The refill of one balance by `n` units, none of them clipped. -/
def payIn (n : Nat) (b : Bal) (x : Acct) : Acct :=
  { x with debt := x.debt - min x.debt n }.setBal (min (x.bal b + n - (min x.debt n : Nat)) (2 * n)) b

/-- The refill of an account by `n` units of each balance. -/
def refilled (n : Bal → Nat) (x : Acct) : Acct :=
  payIn (n .fab) .fab (payIn (n .hbm) .hbm (payIn (n .core) .core { x with lentCore := 0, lentHbm := 0, lentFab := 0, ended := false }))

/-- An account without debt keeps twice a refill at most. -/
theorem refilled_effect (n : Bal → Nat) {x : Acct} (debt : x.debt = 0) :
    (refilled n x).core = min (x.core + n .core) (2 * n .core) ∧ (refilled n x).hbm = min (x.hbm + n .hbm) (2 * n .hbm) ∧
      (refilled n x).fab = min (x.fab + n .fab) (2 * n .fab) ∧ (refilled n x).debt = 0 ∧ (refilled n x).ended = false := by
  simp [refilled, payIn, Acct.setBal, Acct.bal, debt]

theorem refillBal_eq {s : State} {die i : Nat} (free : s.acctYard die i = none) (b : Bal) :
    refillBal die i s b = s.modAcct die i (payIn (Config.refill die (s.die die).periods i b.num) b) := by
  simp only [refillBal, clip, free]
  rfl

theorem periods_modAcct (s : State) (die i : Nat) (f : Acct → Acct) : ((s.modAcct die i f).die die).periods = (s.die die).periods :=
  DieRules.die_modDie_keeps (r := Die.periods) s fun _ => rfl

theorem refillAcct_eq {s : State} {die i : Nat} (free : s.acctYard die i = none) :
    refillAcct die s i = s.modAcct die i (refilled fun b => Config.refill die (s.die die).periods i b.num) := by
  have still (f : Acct → Acct) : (s.modAcct die i f).acctYard die i = none := free
  simp only [refillAcct, allBals, List.foldl_cons, List.foldl_nil]
  rw [refillBal_eq (still _), modAcct_modAcct, refillBal_eq (still _), modAcct_modAcct, refillBal_eq (still _), modAcct_modAcct]
  simp only [periods_modAcct]
  rfl

/-- The accounts of a list, none of them under a yard's cap, are refilled each on its own. -/
theorem refill_all {die P : Nat} (l : List Nat) (nodup : l.Nodup) : ∀ {s : State}, (∀ i ∈ l, s.acctYard die i = none) →
    (s.die die).periods = P → die < s.dies.length → (∀ i ∈ l, i < (s.die die).accts.length) →
    SameOwners die s (l.foldl (refillAcct die) s) ∧
      ∀ a ∈ l, (l.foldl (refillAcct die) s).acct die a = refilled (fun b => Config.refill die P a b.num) (s.acct die a) := by
  have others (l : List Nat) : ∀ {s : State} {a : Nat}, (∀ i ∈ l, s.acctYard die i = none) → a ∉ l →
      (l.foldl (refillAcct die) s).acct die a = s.acct die a := by
    induction l with
    | nil => intro s a _ _; rfl
    | cons i l ih =>
      intro s a free out
      have apart := not_or.1 (List.mem_cons.not.1 out)
      rw [List.foldl_cons, refillAcct_eq (free i (by simp))]
      exact (ih (s := s.modAcct die i _) (fun j hj => free j (by simp [hj])) apart.2).trans (acct_modAcct_ne _ (Ne.symm apart.1))
  induction l with
  | nil => exact fun {s} _ _ _ _ => ⟨.refl die s, by simp⟩
  | cons i l ih =>
    intro s free periods hd len
    have step := refillAcct_eq (free i (by simp))
    have rest := ih (List.nodup_cons.1 nodup).2 (s := refillAcct die s i) (by rw [step]; exact fun j hj => free j (by simp [hj]))
      (by rw [step, periods_modAcct, periods]) (by rw [step]; simpa [State.modAcct] using hd) (by
        rw [step]
        intro j hj
        have same : ((s.modAcct die i (refilled fun b => Config.refill die (s.die die).periods i b.num)).die die).accts.length =
          (s.die die).accts.length := DieRules.die_modDie_keeps (r := fun d => d.accts.length) s fun d => lmod_length ..
        rw [same]
        exact len j (by simp [hj]))
    have owners : SameOwners die s (refillAcct die s i) := by rw [step]; exact sameOwners_modAcct ..
    refine ⟨owners.trans rest.1, fun a ha => ?_⟩
    rcases List.mem_cons.1 ha with rfl | ha
    · rw [List.foldl_cons, others l (by rw [step]; exact fun j hj => free j (by simp [hj])) (List.nodup_cons.1 nodup).1, step, ← periods]
      exact acct_modAcct_self _ hd (len a (by simp))
    · rw [List.foldl_cons, rest.2 a ha, step, acct_modAcct_ne]
      rintro rfl
      exact (List.nodup_cons.1 nodup).1 ha

theorem borrowAcct_idle {die : Nat} (l : List Nat) {s : State} (idle : ∀ i ∈ l, s.acctBusy die i = false) :
    l.foldl (borrowAcct die) s = s := by
  induction l with
  | nil => rfl
  | cons i l ih =>
    rw [List.foldl_cons, show borrowAcct die s i = s by simp [borrowAcct, idle i (by simp)], ih fun j hj => idle j (by simp [hj])]

/-- The state in which the accounts of a die are refilled: its period counted and its event raised. -/
def periodBegins (die : Nat) (s : State) : State :=
  let s := raiseShed die ⟨.period, 0, 0, (s.die die).periods, 0, false⟩ s
  s.modDie die fun d => { d with periods := d.periods + 1, periodAt := s.cycle, given := [] }

/-- The state after the accounts have been refilled and have borrowed. -/
def periodPays (die : Nat) (s : State) : State :=
  (List.range 64).foldl (borrowAcct die) ((List.range 64).foldl (refillAcct die) (periodBegins die s))

theorem execPeriodBoundary_eq {s : State} {die : Nat} (ha : s.arg = .n1 die) (due : (s.die die).periodAt + (s.die die).period ≤ s.cycle)
    (quiet : ∀ e ∈ (s.die die).waiting, e.kind ≠ .period ∧ e.kind ≠ .slice) : exec .periodBoundary s = .next { periodPays die s with
      gates := (periodPays die s).gates.map fun e => if e.2.home == die then (e.1, { e.2 with logged := [] }) else e } := by
  have stalls (k : ShedKind) (h : ∀ e ∈ (s.die die).waiting, e.kind ≠ k) : (s.die die).stalls k = false := by
    rw [Die.stalls, List.any_eq_false]
    intro e he
    simpa using h e he
  show execPeriodBoundary s = _
  simp only [execPeriodBoundary, ha, stalls .period fun e he => (quiet e he).1, stalls .slice fun e he => (quiet e he).2,
    decide_eq_true due, Bool.not_false, Bool.and_self, if_true]
  rfl

theorem periodBegins_frame (die : Nat) (s : State) : SameOwners die s (periodBegins die s) ∧
    ((periodBegins die s).die die).accts = (s.die die).accts ∧
    (die < s.dies.length → ((periodBegins die s).die die).periods = (s.die die).periods + 1) := by
  obtain ⟨f, raised, binds, accts, periods⟩ := raiseShed_eq die ⟨.period, 0, 0, (s.die die).periods, 0, false⟩ s
  have frame := sameOwners_modDie (die := die) s die binds
  unfold periodBegins
  rw [raised]
  refine ⟨frame.trans (sameOwners_modDie _ die fun _ => rfl), ?_, fun hd => ?_⟩
  · refine Eq.trans ?_ (DieRules.die_modDie_keeps (r := Die.accts) (d := die) (e := die) s accts)
    exact DieRules.die_modDie_keeps (r := Die.accts) (s.modDie die f) fun _ => rfl
  · rw [DieRules.die_modDie_self _ (by simpa using hd)]
    exact congrArg (· + 1) (DieRules.die_modDie_keeps (r := Die.periods) s periods)

/-! ## Time that passes -/

theorem tick_one {s : State} {n : Nat} {g : GroupKey} {x : Group} (one : s.groups = [(g, x)]) (saved : x.life ≠ .saved)
    (ended : x.life ≠ .ended) : tick n s = { s with cycle := s.cycle + n }.spend x.die (s.groupAcct g) (charged x n) := by
  have resident : x.life.resident = true := by
    cases h : x.life with
    | saved => exact absurd h saved
    | ended => exact absurd h ended
    | running | draining | overrunning | discarding => rfl
  have cost : (fun a : Acct => { a with core := a.core - x.size * n, debt := a.debt + if x.life.overruns then x.size * n else 0 }) =
      charged x n := by
    funext a
    unfold charged
    cases x.life <;> rfl
  rw [tick, one, List.foldl_cons, List.foldl_nil, tickGroup, if_pos resident, cost]
  rfl

/-- What an account spends, without or with its SLICE event. -/
theorem spend_eq (s : State) (die a : Nat) (x : Group) (n : Nat) : s.spend die a (charged x n) =
    if 0 < (s.acct die a).core ∧ (s.acct die a).core ≤ (x.size * n : Int) then
      raiseShed die ⟨.slice, 0, 0, a, 0, false⟩ (s.modAcct die a (charged x n)) else s.modAcct die a (charged x n) := by
  have put : (s.modAcct die a fun _ => charged x n (s.acct die a)) = s.modAcct die a (charged x n) := modAcct_congr rfl
  have spent : (charged x n (s.acct die a)).core ≤ 0 ↔ (s.acct die a).core ≤ (x.size * n : Int) := by
    show (s.acct die a).core - x.size * n ≤ 0 ↔ _
    omega
  have hbm : ¬ (0 < (s.acct die a).hbm ∧ (charged x n (s.acct die a)).hbm ≤ 0) := by
    rintro ⟨h, g⟩
    exact absurd g (not_le.2 h)
  have fab : ¬ (0 < (s.acct die a).fab ∧ (charged x n (s.acct die a)).fab ≤ 0) := by
    rintro ⟨h, g⟩
    exact absurd g (not_le.2 h)
  simp only [State.spend, put]
  by_cases h : 0 < (s.acct die a).core ∧ (s.acct die a).core ≤ (x.size * n : Int)
  · rw [if_pos h, if_pos (by simpa using .inl (.inl ⟨h.1, spent.2 h.2⟩))]
  · rw [if_neg h, if_neg]
    simp only [Bool.or_eq_true, Bool.and_eq_true, decide_eq_true_eq, not_or, spent]
    exact ⟨⟨h, hbm⟩, fab⟩

end Sys2Proof.LifecycleRows

namespace Sys2Proof

open Sys2Proof.Machine Sys2Proof.LifecycleRows

/-- Settles O52: slices by the account's event, drains and saves by the group, and the period by the refill of each account. -/
theorem lifecycleEvents : Obligations.LifecycleEvents := by
  refine ⟨?_, ?_, ?_, ?_, ?_, ?_⟩
  · intro s die a busy poor d ends
    refine ⟨fun quiet => ⟨fun spent => ?_, fun holds ha => ?_⟩, fun e t acct taken => ?_, fun f rest queue kind locks some_ ha => ?_⟩
    · refine ⟨_, fun ha => ?_, endSlice_effect die a s⟩
      rw [execSliceEnd_none ha (sliceEvent_none quiet), sliceOver_ends busy poor (.inr spent)]
    · rw [execSliceEnd_none ha (sliceEvent_none quiet), sliceOver_stays poor holds]
    · obtain ⟨pre, post, queue, kind, again, first, ht⟩ := taken
      obtain ⟨found, oldest⟩ := sliceEvent_taken queue kind acct first
      have popped : shedPop die e s = t := by rw [ht, ShedRows.shedPop_eq queue kind again first]
      have owners : SameOwners die s t := by rw [ht]; exact sameOwners_modDie s die fun _ => rfl
      have accts (i : Nat) : t.acct die i = s.acct die i := by
        rw [ht]
        exact DieRules.die_modDie_keeps (r := fun d => lget d.accts i Acct.zero) s fun _ => rfl
      have run (ha : s.arg = .n2 die a) : exec .sliceEnd s = .next (sliceOver die a (e.a1 == 1) t) := by
        rw [execSliceEnd_some ha found, oldest, popped]
        rfl
      have busy' := (owners.acctBusy a).trans busy
      have poor' (b : Bal) := (owners.borrowMax accts a b).trans (poor b)
      refine ⟨fun over_ => ?_, fun mark holds ha => ?_⟩
      · obtain ⟨mem, strands, events, ended, groups⟩ := endSlice_effect die a t
        refine ⟨_, fun ha => ?_, mem.trans owners.mem, strands.trans owners.strands, events, fun hd hn => ended ?_ ?_, ?_⟩
        · rw [run ha, sliceOver_ends busy' poor' (over_.imp (by simp) (by rw [accts]; exact id))]
        · rw [owners.length]
          exact hd
        · rw [ht, DieRules.die_modDie_self s hd]
          exact hn
        · rw [groups, owners.groups, owners.cycle]
          simp only [owners.groupAcct]
      · rw [run ha, beq_false_of_ne mark, sliceOver_stays poor' (by rw [accts]; exact holds)]
    · obtain ⟨e, found, behind⟩ := sliceEvent_behind queue kind locks some_
      rw [execSliceEnd_some ha found, show (s.die die).oldest e = false from behind]
      rfl
  · intro s g x l hg hl life
    refine ⟨fun late keep => ?_, fun late drop => ?_, fun early ha => execDrainLimitExpiry_early hg hl life ha early⟩
    · refine ⟨_, fun ha => execDrainLimitExpiry_late hg hl life ha late, ?_⟩
      rw [keep]
      exact ⟨group_modGroup _ (group_modGroup _ hg), rfl, rfl, rfl⟩
    · refine ⟨_, fun ha => execDrainLimitExpiry_late hg hl life ha late, ?_⟩
      rw [drop]
      refine ⟨group_modGroup (s := dropGates _ _) (x := { x with since := s.cycle }) _ (group_modGroup _ hg), rfl, rfl, rfl, fun k hk => ?_,
        fun k y hk hy => ⟨y.unprov, ?_, unprov_effect y⟩⟩
      · refine (strand_mapGroup Strand.unprov s.strands g k).trans ?_
        rw [if_neg hk]
        rfl
      · refine (strand_mapGroup Strand.unprov s.strands g k).trans ?_
        rw [if_pos hk, show tget s.strands k = some y from hy]
        rfl
  · intro s g x hg single life quiet
    refine ⟨_, fun ha => execGroupSave_one hg single life quiet ha, saveGroup_group hg, fun k y hk hy =>
      ⟨_, saveGroup_strand hg hk hy, fun ended => ?_, fun going => ?_⟩⟩
    · simp [Strand.discard, ended]
    · rw [Strand.discard, if_neg (by simpa using going)]
      exact ⟨rfl, rfl, rfl, rfl, rfl, rfl, rfl⟩
  · intro s g x l hg hl _ y past fenced
    exact ⟨fun life late ha => execWatchdogExpiry_kills hg hl ha life late, fun early ha => execWatchdogExpiry_waits hg hl ha early⟩
  · intro s die a due quiet hd ha64 len idle free debt
    obtain ⟨owners, accts, periods⟩ := periodBegins_frame die s
    have hd' : die < (periodBegins die s).dies.length := by rw [owners.length]; exact hd
    obtain ⟨paid, refill⟩ := refill_all (List.range 64) List.nodup_range (s := periodBegins die s)
      (fun i hi => (owners.acctYard i).trans (free i (List.mem_range.1 hi))) (periods hd) hd'
      (fun i hi => by rw [accts, len]; exact List.mem_range.1 hi)
    have pays : periodPays die s = (List.range 64).foldl (refillAcct die) (periodBegins die s) :=
      borrowAcct_idle _ fun i hi => ((owners.trans paid).acctBusy i).trans (idle i (List.mem_range.1 hi))
    have before : (periodBegins die s).acct die a = s.acct die a := by rw [State.acct, accts]; rfl
    have after : (periodPays die s).acct die a =
        refilled (fun b => Config.refill die ((s.die die).periods + 1) a b.num) (s.acct die a) := by
      rw [pays, refill a (List.mem_range.2 ha64), before]
    have mem : (periodPays die s).mem = s.mem := (congrArg State.mem pays).trans (owners.trans paid).mem
    have strands : (periodPays die s).strands = s.strands := (congrArg State.strands pays).trans (owners.trans paid).strands
    have run := fun ha => execPeriodBoundary_eq (s := s) (die := die) ha due quiet
    have effect := refilled_effect (fun b => Config.refill die ((s.die die).periods + 1) a b.num) debt
    rw [← after] at effect
    generalize periodPays die s = u at mem strands run effect
    exact ⟨_, run, mem, strands, effect⟩
  · intro s n g x one saved ended a t
    have run := (tick_one one saved ended).trans (spend_eq { s with cycle := s.cycle + n } x.die (s.groupAcct g) x n)
    refine ⟨fun few => run.trans (if_neg ?_), fun pos spent => run.trans (if_pos ⟨pos, spent⟩)⟩
    rintro ⟨pos, spent⟩
    rcases few with few | few
    · exact absurd few (not_le.2 pos)
    · exact absurd spent (not_le.2 few)

end Sys2Proof

/-! Invalidations (Table 12.6, R244 to R246, R262). -/

namespace Sys2Proof.InvalidationRows

open Sys2Proof Sys2Proof.Machine Sys2Proof.Claims

/-! ## The fields of a command -/

/-- A field of a number's low 256 bits, among them, is one of the number. -/
theorem field_eq (x : Nat) {o n : Nat} (h : o + n ≤ 256) : x / 2 ^ o % 2 ^ n = ((BitVec.ofNat 256 x).extractLsb' o n).toNat := by
  rw [toNat_field, BitVec.toNat_ofNat]
  refine Nat.eq_of_testBit_eq fun i => ?_
  simp only [Nat.testBit_mod_two_pow, Nat.testBit_div_two_pow]
  by_cases hi : i < n
  · simp [show i + o < 256 by omega]
  · simp [hi]

section
variable (x : Nat)

theorem op_eq : bitsOf x 3 0 = ((BitVec.ofNat 256 x).extractLsb' 0 4).toNat := field_eq x (by decide)
theorem rsv_eq : bitsOf x 15 4 = ((BitVec.ofNat 256 x).extractLsb' 4 12).toNat := field_eq x (by decide)

theorem byte_field {o n : Nat} (h : 8 * o + 8 * n ≤ 256) : x / 2 ^ (8 * o) % 2 ^ (8 * n) = invField (BitVec.ofNat 256 x) o n := field_eq x h

theorem address_eq {o : Nat} (h : 8 * o + 64 ≤ 256) : x / 2 ^ (8 * o) % 2 ^ (8 * 8) % 2 ^ 57 =
    ((BitVec.ofNat 256 x).extractLsb' (8 * o) 57).toNat := by
  rw [← field_eq x (by omega)]
  omega

/-- A command is not refused exactly where it obeys Table 12.6. -/
theorem invalOk_iff (fn : Nat) : invalOk fn (bitsOf x 3 0) x = true ↔ invalFits fn (BitVec.ofNat 256 x) := by
  have zero : ((BitVec.ofNat 256 x).extractLsb' 4 12).toNat = 0 ↔ (BitVec.ofNat 256 x).extractLsb' 4 12 = 0#12 := by
    rw [← BitVec.toNat_inj]
    rfl
  simp only [invalOk, op_eq, rsv_eq, byte_field x (show 8 * 6 + 8 * 2 ≤ 256 by decide), byte_field x (show 8 * 20 + 8 * 4 ≤ 256 by decide),
    byte_field x (show 8 * 24 + 8 * 8 ≤ 256 by decide), byte_field x (show 8 * 8 + 8 * 8 ≤ 256 by decide),
    byte_field x (show 8 * 16 + 8 * 4 ≤ 256 by decide), invalFits, Bool.and_eq_true, Bool.or_eq_true, decide_eq_true_eq, beq_iff_eq,
    bne_iff_ne, zero, and_assoc, ← not_or, ← imp_iff_not_or, or_assoc]

end

/-! ## Taking a command -/

/-- The operation whose event takes a command. -/
def takenBy (o : Nat) : Nat := if o = 1 then 1 else if o = 2 then 2 else if o = 3 then 3 else if o = 4 then 4 else 5

theorem exec_invalOp (o : Nat) (s : State) : exec (invalOp o) s = hostEvent (takeInval (takenBy o)) s := by
  unfold invalOp takenBy
  split
  · rfl
  · rfl
  · rfl
  · rfl
  · next h1 h2 h3 h4 => rw [if_neg h1, if_neg h2, if_neg h3, if_neg h4]; rfl

/-- A command is left to no other event than its operation's. -/
theorem takenBy_takes (o : Nat) : (o != takenBy o && !(takenBy o == 5 && (o == 0 || decide (5 < o)))) = false := by
  unfold takenBy
  split
  · next h => subst h; rfl
  split
  · next h => subst h; rfl
  split
  · next h => subst h; rfl
  split
  · next h => subst h; rfl
  · by_cases five : o = 5
    · subst five; rfl
    · have out : (o == 0 || decide (5 < o)) = true := by
        rw [Bool.or_eq_true, beq_iff_eq, decide_eq_true_eq]
        omega
      simp [out]

/-- A ring past its head, whose command `c` it has yet to complete. -/
def advanced (r : InvalRing) (c : InvalCmd) : InvalRing := { r with next := r.next + 1, cmds := r.cmds ++ [c] }

section
variable {s : State} {fn : Nat} {r : InvalRing} (hr : tget s.invals fn = some r)
include hr

theorem invalHead_some (going : r.stopped = false) (more : r.next % 2 ^ 32 ≠ r.tail) :
    s.invalHead fn = some (ofBytes (s.readSpa r.headSpa 32)) := by
  simp only [State.invalHead, hr, going, beq_false_of_ne more, Bool.or_self, Bool.false_eq_true, if_false]

theorem invalHead_none (idle : r.stopped = true ∨ r.next % 2 ^ 32 = r.tail) : s.invalHead fn = none := by
  simp only [State.invalHead, hr]
  exact if_pos (by simpa using idle)

/-- The event of its operation takes the command at the head of a ring, or stops the ring at an entry that cannot be read. -/
theorem takeInval_takes {x : Nat} (ha : s.arg = .n1 fn) (head : s.invalHead fn = some x) : takeInval (takenBy (bitsOf x 3 0)) s =
    if s.invalBad r then stopInval fn 1 r.headSpa r s
    else { s with invals := tset s.invals fn (advanced r (invalCmd s fn r.next x)) } := by
  have ring : tgetD s.invals fn InvalRing.none = r := by simp [tgetD, hr]
  simp only [takeInval, ha, head, takenBy_takes, Bool.false_eq_true, if_false, ring]
  rfl

end

theorem hostEvent_ready {s : State} (f : State → State) (h : s.boot.state = 1) : hostEvent f s = .next (f s) := by
  simp [hostEvent, State.ready, h]

theorem hostEvent_off {s : State} (f : State → State) (h : s.boot.state ≠ 1) : hostEvent f s = .next s := by
  simp [hostEvent, State.ready, h]

/-- The command that a ring's entry holds (Table 12.6). -/
theorem invalCmd_fields (s : State) (fn n x : Nat) :
    let c := BitVec.ofNat 256 x
    let q := invalCmd s fn n x
    q.n = n ∧ q.op = (c.extractLsb' 0 4).toNat ∧ q.vmid = s.fnVmid fn (invField c 2 2) ∧ q.asid = invField c 4 2 ∧
      q.lo = (c.extractLsb' 64 57).toNat ∧ q.hi = q.lo + 65536 * invField c 16 4 ∧ q.caddr = (c.extractLsb' 192 57).toNat ∧
      (q.refused = false ↔ invalFits fn c) := by
  refine ⟨rfl, op_eq x, ?_, byte_field x (by decide), address_eq x (by decide), ?_, address_eq x (by decide), ?_⟩
  · exact congrArg (s.fnVmid fn) (byte_field x (by decide))
  · exact congrArg (_ + 65536 * ·) (byte_field x (by decide))
  · rw [← invalOk_iff]
    simp [invalCmd]

/-! ## The completion -/

/-- A command names the entries that its operation covers. -/
theorem names_iff (c : InvalCmd) (l : List TlbEnt) (t : TlbEnt) (low : 1 ≤ c.op) (high : c.op ≤ 5) :
    c.names l t = true ↔ covers c.op c.vmid c.asid c.lo c.hi l t := by
  have five : c.op = 1 ∨ c.op = 2 ∨ c.op = 3 ∨ c.op = 4 ∨ c.op = 5 := by omega
  rcases five with h | h | h | h | h <;> simp [InvalCmd.names, covers, h, and_assoc, or_and_left]

/-- A state with other rings and cached entries. -/
def withCache (i : Table Nat InvalRing) (e : List TlbEnt) (s : State) : State := { s with invals := i, tlb := e }

section
variable (i : Table Nat InvalRing) (e : List TlbEnt) (s : State)

@[simp] theorem withCache_invals : (withCache i e s).invals = i := rfl
@[simp] theorem withCache_tlb : (withCache i e s).tlb = e := rfl
@[simp] theorem withCache_mem : (withCache i e s).mem = s.mem := rfl

end

/-- Writing system memory does not read rings or cached entries, and leaves them. -/
theorem writeSpa_withCache (i : Table Nat InvalRing) (e : List TlbEnt) (l : List Byte) : ∀ (s : State) (a : Nat),
    (withCache i e s).writeSpa a l = withCache i e (s.writeSpa a l) := by
  induction l with
  | nil => exact fun _ _ => rfl
  | cons b l ih =>
    intro s a
    have loft : (withCache i e s).setLoftByte a b = withCache i e (s.setLoftByte a b) := by
      unfold State.setLoftByte withCache
      dsimp only
      split
      · next h => exact (if_pos h).symm ▸ rfl
      · next h => exact (if_neg h).symm ▸ rfl
    unfold State.writeSpa
    split
    · rw [loft, ih]
    · exact ih { s with mem := memSet s.mem a b } (a + 1)

section
variable {s : State} {fn : Nat} {r : InvalRing} {c : InvalCmd} {rest : List InvalCmd} (ha : s.arg = .n1 fn)
  (hr : tget s.invals fn = some r) (hc : r.cmds = c :: rest)
include ha hr hc

theorem execInvalComplete_waits (good : c.refused = false) (flying : s.inFlight c = true) : exec .invalComplete s = .next s := by
  show execInvalComplete s = _
  simp [execInvalComplete, ha, hr, hc, good, flying]

theorem execInvalComplete_done (good : c.refused = false) (quiet : s.inFlight c = false) : exec .invalComplete s =
    .next (withCache (tset s.invals fn { r with cmds := rest }) (s.tlb.filter fun t => !c.names s.tlb t)
      (s.writeSpa (invalSpa fn c.caddr) (toBytes 8 c.n))) := by
  have run : execInvalComplete s = .next ((withCache (tset s.invals fn { r with cmds := rest }) (s.tlb.filter fun t => !c.names s.tlb t)
      s).writeSpa (invalSpa fn c.caddr) (toBytes 8 c.n)) := by
    simp only [execInvalComplete, withCache, ha, hr, hc, good, quiet, Bool.and_false, Bool.false_eq_true, if_false]
  rw [← writeSpa_withCache]
  exact run

theorem execInvalComplete_refused (bad : c.refused = true) : exec .invalComplete s =
    .next (withCache (tset s.invals fn { r with cmds := rest }) s.tlb
      (s.writeSpa (invalSpa fn c.caddr) (toBytes 8 (2 ^ 63 + c.n)))) := by
  have run : execInvalComplete s = .next ((withCache (tset s.invals fn { r with cmds := rest }) s.tlb
      s).writeSpa (invalSpa fn c.caddr) (toBytes 8 (2 ^ 63 + c.n))) := by
    simp only [execInvalComplete, withCache, ha, hr, hc, bad, Bool.not_true, Bool.false_and, Bool.false_eq_true, if_false, if_true]
  rw [← writeSpa_withCache]
  exact run

end

end Sys2Proof.InvalidationRows

namespace Sys2Proof

open Sys2Proof.Machine Sys2Proof.InvalidationRows

/-- Settles O53: `takeInval_takes` reads the head of a ring, and the completion filters the cached entries by `names_iff`. -/
theorem invalidationEvents : Obligations.InvalidationEvents := by
  refine ⟨?_, ?_, ?_⟩
  · intro s fn r boot hr going more a c
    have head := invalHead_some hr going more
    have ha : r.headSpa = a := rfl
    have hc : c = BitVec.ofNat 256 (ofBytes (s.readSpa a 32)) := rfl
    clear_value c a
    rw [ha] at head
    generalize ofBytes (s.readSpa a 32) = x at hc head
    subst hc
    have run (arg : s.arg = .n1 fn) := (exec_invalOp ((BitVec.ofNat 256 x).extractLsb' 0 4).toNat s).trans <|
      (hostEvent_ready _ boot).trans (congrArg Host.Outcome.next ((op_eq x) ▸ takeInval_takes hr arg head))
    refine ⟨fun bad arg => ?_, fun line host => ⟨invalCmd s fn r.next x, fun arg => ?_, invalCmd_fields ..⟩⟩
    · have broken : s.invalBad r = true := by
        rw [State.invalBad, ha, Bool.or_eq_true]
        exact bad
      rw [run arg, if_pos broken, ha]
      rfl
    · have fine : s.invalBad r = false := by
        rw [State.invalBad, ha, Bool.or_eq_false_iff]
        exact ⟨line, host⟩
      rw [run arg, fine]
      rfl
  · intro s fn n idle ha
    rw [exec_invalOp]
    by_cases boot : s.boot.state = 1
    · rw [hostEvent_ready _ boot]
      have none_ : s.invalHead fn = none := by
        cases hr : tget s.invals fn with
        | none => simp only [State.invalHead, hr]
        | some r => exact invalHead_none hr (idle.resolve_left (not_not.2 boot) r hr)
      simp only [takeInval, ha, none_]
    · exact hostEvent_off _ boot
  · intro s fn r c rest hr hc low high
    refine ⟨fun good flying ha => execInvalComplete_waits ha hr hc good flying, fun good quiet => ?_, fun bad => ?_⟩
    · refine ⟨_, fun ha => execInvalComplete_done ha hr hc good quiet, withCache_invals .., fun e => ?_, withCache_mem ..⟩
      rw [← names_iff c s.tlb e low high, withCache_tlb]
      simp
    · exact ⟨_, fun ha => execInvalComplete_refused ha hr hc bad, withCache_invals .., withCache_tlb .., withCache_mem ..⟩

end Sys2Proof

/-! Contexts and their tear-down, keys in quarantine, and yards, as firmware changes them at a driver's request (R236, R259, R260, R328, R331,
R357). -/

namespace Sys2Proof.AdminRows

open Sys2Proof Sys2Proof.Machine Sys2Proof.Claims

/-! ## Context descriptors -/

theorem joinPen_eq (d : CtxDesc) (s : State) : joinPen d.ctxid d.yard d.pen s = joined d s := by
  simp only [joinPen, joined, beq_iff_eq]

section
variable {s : State} {d : CtxDesc} (fits : ctxDescOk d = true) (key : tget s.quar d.keyid = none) (room : s.ctxFull d = false)
  (page : ∀ e ∈ s.ctxs, e.1 ≠ d.ctxid → e.2.valid = true → d.hostfn ≠ 0 → e.2.d.hostfn = d.hostfn → e.2.d.dbidx ≠ d.dbidx)
  (pen : d.pen = 0xFF ∨ ∃ p, tget s.pens (d.yard, d.pen) = some p ∧ p.acct = d.bclass)
include fits key room page pen

/-- A descriptor that no rule refuses is written for a new context, or over that of a valid one. -/
theorem writeContext_eq : writeContext d s =
    match s.ctx d.ctxid with
    | none => joined d { s with ctxs := tset s.ctxs d.ctxid ⟨d, true, false, 0, [], [], [], 0⟩ }
    | some x =>
      if !x.valid || x.dying || ((x.d.yard != d.yard || x.d.pen != d.pen) && s.launches.any fun e => e.2.ctx == d.ctxid) then s
      else joined d (s.modCtx d.ctxid fun x => { x with d := d }) := by
  have untaken : (d.hostfn != 0 && s.ctxs.any fun e => e.1 != d.ctxid && e.2.valid && (e.2.d.hostfn == d.hostfn && e.2.d.dbidx == d.dbidx)) =
      false := by
    rw [Bool.and_eq_false_iff]
    by_cases own : d.hostfn = 0
    · exact .inl (by simp [own])
    · refine .inr (List.any_eq_false.2 fun e he => ?_)
      simp only [Bool.and_eq_true, bne_iff_ne, beq_iff_eq, not_and]
      exact fun h hf => page e he h.1 h.2 own hf
  have penned : (d.pen != 0xFF && ((tget s.pens (d.yard, d.pen)).isNone || (s.pen d.yard d.pen).acct != d.bclass)) = false := by
    rcases pen with pen | ⟨p, hp, acct⟩
    · simp [pen]
    · simp [hp, State.pen, tgetD, acct]
  unfold writeContext
  simp only [fits, untaken, penned, key, room, Option.isSome_none, Bool.not_true, Bool.or_self, Bool.false_eq_true, if_false, joinPen_eq] <;> rfl

end

/-! ## The tear-down of a context -/

theorem teardown_idle {s : State} {c : Nat} {x : Ctx} (hx : s.liveCtx c = some x) (idle : (s.launches.filter fun e => e.2.ctx == c) = []) :
    teardown c s = { revokeBinds (·.ctx == c) (s.modCtx c fun x => { x with valid := false, dying := true, queues := [] }) with
      launches := s.launches } := by
  have other : ∀ e ∈ s.launches, (e.2.ctx == c) = false := fun e he => by
    simpa using List.filter_eq_nil_iff.1 idle e he
  have same : (s.launches.map fun (e : Nat × Launch) => if e.2.ctx == c then (e.1, { e.2 with silent := true }) else e) = s.launches := by
    refine (List.map_congr_left fun e he => ?_).trans (List.map_id _)
    rw [other e he]
    rfl
  simp only [teardown, hx, show ∀ p (t : State), (revokeBinds p t).launches = t.launches from fun _ _ => rfl,
    show ∀ f, (s.modCtx c f).launches = s.launches from fun _ => rfl, same, idle]
  rfl

/-- The state once a context that has nothing left is gone. -/
def finished (c : Nat) (s : State) : State :=
  { s with
    ctxs := tdel s.ctxs c
    pens := s.pens.map fun e => if e.2.holder == some c then (e.1, { e.2 with holder := none }) else e
    dies := s.dies.map fun d => { d with graphs := d.graphs.filter fun g => g.2.ctx != c } }

/-- The end of a tear-down of a context whose descriptor is known. -/
def finish (c : Nat) (x : Ctx) (s : State) : Host.Outcome State Fault Refusal :=
  if !x.dying || (s.items.any fun (w : Item) => w.ctx == c) || (s.launches.any fun e => e.2.ctx == c) then .next s
  else
    let others := (tdel s.ctxs c).filter fun e => e.2.valid
    let t := if others.any fun e => e.2.d.yard == x.d.yard then finished c s
      else (List.range 8).foldl (fun s d => quarFrames d (fun _ w => frameYard w == x.d.yard) s) (finished c s)
    .next (if others.any fun e => e.2.d.keyid == x.d.keyid then t else revokeKey x.d.keyid t)

theorem exec_contextTeardownFinish {s : State} {c : Nat} {x : Ctx} (ha : s.arg = .n1 c) (hx : s.ctx c = some x) :
    exec .contextTeardownFinish s = finish c x s := by
  have run : exec .contextTeardownFinish s = (match s.ctx c with
    | none => .next s
    | some x => finish c x s) := by
    cases s
    cases ha
    rfl
  rw [run, hx]

theorem execContextTeardownFinish_eq {s : State} {c : Nat} {x : Ctx} (ha : s.arg = .n1 c) (hx : s.ctx c = some x) (dying : x.dying = true)
    (items : ∀ w ∈ s.items, (w : Item).ctx ≠ c) (launches : ∀ e ∈ s.launches, e.2.ctx ≠ c)
    (yard : ∃ e ∈ tdel s.ctxs c, e.2.valid = true ∧ e.2.d.yard = x.d.yard)
    (key : ∀ e ∈ tdel s.ctxs c, e.2.valid = true → e.2.d.keyid ≠ x.d.keyid) :
    exec .contextTeardownFinish s = .next (revokeKey x.d.keyid (finished c s)) := by
  have noItems : (s.items.any fun (w : Item) => w.ctx == c) = false := List.any_eq_false.2 fun w hw => by simpa using items w hw
  have noLaunches : (s.launches.any fun e => e.2.ctx == c) = false := List.any_eq_false.2 fun e he => by simpa using launches e he
  have shared : (((tdel s.ctxs c).filter fun e => e.2.valid).any fun e => e.2.d.yard == x.d.yard) = true := by
    obtain ⟨e, he, valid, same⟩ := yard
    exact List.any_eq_true.2 ⟨e, List.mem_filter.2 ⟨he, valid⟩, by simpa using same⟩
  have last : (((tdel s.ctxs c).filter fun e => e.2.valid).any fun e => e.2.d.keyid == x.d.keyid) = false :=
    List.any_eq_false.2 fun e he => by
      obtain ⟨mem, valid⟩ := List.mem_filter.1 he
      simpa using key e mem valid
  simp only [exec_contextTeardownFinish ha hx, finish, dying, noItems, noLaunches, shared, last]
  rfl

theorem die_mapDies (s : State) (f : Die → Die) (h : f Die.zero = Die.zero) (d : Nat) : ({ s with dies := s.dies.map f }).die d = f (s.die d) := by
  simp only [State.die, MoveRows.lget_eq_getD, List.getElem?_map]
  cases s.dies[d]? with
  | none => exact h.symm
  | some x => rfl

/-! ## Reservations and quarantines of a revoked key -/

theorem execReplyReservationRelease_eq {s : State} {key a : Nat} (ha : s.arg = .n1 key) (hr : tget s.revoked key = some a) :
    exec .replyReservationRelease s = .next (if a + 25000 ≤ s.cycle then
      { s with revoked := tdel s.revoked key, dies := s.dies.map (noShares key) } else s) := by
  show execReplyReservationRelease s = _
  simp only [execReplyReservationRelease, ha, hr]
  rfl

theorem execKeyidQuarantineEnd_eq {s : State} {key a : Nat} (ha : s.arg = .n1 key) (hq : tget s.quar key = some a)
    (hr : tget s.revoked key = none) :
    exec .keyidQuarantineEnd s = .next (if a + 125000 ≤ s.cycle then { s with quar := tdel s.quar key } else s) := by
  show execKeyidQuarantineEnd s = _
  simp only [execKeyidQuarantineEnd, ha, hq, hr, Option.isNone_none, Bool.and_true, decide_eq_true_eq]
  rfl

/-! ## Yards -/

theorem frameYard_eq (w : Word) : frameYard w = fYard w := CopyRows.bitsOf_eq_field w rfl
theorem frameKslot_eq (w : Word) : frameKslot w = fSlot w := CopyRows.bitsOf_eq_field w rfl

theorem bitOf_eq (x n : Nat) : bitOf x n = x.testBit n := by
  rw [Nat.testBit_eq_decide_div_mod_eq]
  rfl

theorem anyCluster_iff (p : Nat → Nat → Bool) : anyCluster p = true ↔ ∃ d c, d < 8 ∧ c < 12 ∧ p d c = true := by
  simp only [anyCluster, List.any_eq_true, List.mem_range]
  exact ⟨fun ⟨d, hd, c, hc, h⟩ => ⟨d, c, hd, hc, h⟩, fun ⟨d, c, hd, hc, h⟩ => ⟨d, hd, c, hc, h⟩⟩

/-- What a table gives once the entries that satisfy a condition have changed. -/
theorem tget_map_if {κ ν : Type} [DecidableEq κ] (c : κ → ν → Bool) (g : ν → ν) (l : List (κ × ν)) (k : κ) :
    tget (l.map fun e => if c e.1 e.2 then (e.1, g e.2) else e) k = (tget l k).map fun v => if c k v then g v else v := by
  refine Eq.trans ?_ (LifecycleRows.tget_map_keyed (fun k v => if c k v then g v else v) l k)
  refine congrArg (tget · k) (List.map_congr_left fun e _ => ?_)
  by_cases h : c e.1 e.2 = true
  · simp only [h, if_true]
  · simp only [h, Bool.false_eq_true, if_false]

theorem die_inside_of_frame {s : State} {die f : Nat} {w : Word} (hf : tget (s.die die).frames f = some w) : die < s.dies.length := by
  by_contra far
  rw [State.die, MoveRows.lget_eq_getD, List.getElem?_eq_none (Nat.le_of_not_lt far)] at hf
  cases hf

theorem tget_quarFrames {s : State} {die : Nat} (p : Nat → Word → Bool) (h : die < s.dies.length) (f : Nat) :
    tget ((quarFrames die p s).die die).frames f =
      (tget (s.die die).frames f).map fun w => if frameValid w && p f w then w ||| 0x01000000#32 else w :=
  (congrArg (fun d : Die => tget d.frames f) (DieRules.die_modDie_self s h)).trans
    (tget_map_if (fun f w => frameValid w && p f w) (· ||| 0x01000000#32) _ _)

/-- Setting QUAR in the frames of one die. -/
theorem quarFrames_quarantined {s : State} {die : Nat} {p : Nat → Word → Bool} {q : Nat → Word → Prop} (hpq : ∀ f w, p f w = true ↔ q f w) :
    quarantined die q s (quarFrames die p s) := by
  intro f w hf valid hq
  have named : (frameValid w && p f w) = true := by rw [show frameValid w = true from valid, (hpq f w).2 hq]; rfl
  rw [tget_quarFrames p (die_inside_of_frame hf), hf, Option.map_some, if_pos named]

theorem frames_quarFrames_ne {s : State} {d e : Nat} (p : Nat → Word → Bool) (ne : d ≠ e) :
    ((quarFrames d p s).die e).frames = (s.die e).frames := by
  rw [quarFrames, DieRules.die_modDie_ne s ne]

/-- Setting QUAR in the frames of each die of a list. -/
theorem quarAll (p : Nat → Word → Bool) {q : Nat → Word → Prop} (hpq : ∀ f w, p f w = true ↔ q f w) (l : List Nat) (nodup : l.Nodup) :
    ∀ (s : State) (d : Nat), (d ∈ l → quarantined d q s (l.foldl (fun s d => quarFrames d p s) s)) ∧
      (d ∉ l → ((l.foldl (fun s d => quarFrames d p s) s).die d).frames = (s.die d).frames) := by
  induction l with
  | nil => simp
  | cons e l ih =>
    intro s d
    obtain ⟨out, nodup'⟩ := List.nodup_cons.1 nodup
    rw [List.foldl_cons]
    obtain ⟨inl, outl⟩ := ih nodup' (quarFrames e p s) d
    by_cases same : e = d
    · subst same
      refine ⟨fun _ f w hf valid hq => ?_, fun h => absurd (by simp) h⟩
      rw [outl out]
      exact quarFrames_quarantined hpq f w hf valid hq
    · refine ⟨fun h f w hf valid hq => ?_, fun h => ?_⟩
      · have mem := (List.mem_cons.1 h).resolve_left fun x => same x.symm
        exact inl mem f w (by rw [frames_quarFrames_ne p same]; exact hf) valid hq
      · rw [outl fun mem => h (List.mem_cons_of_mem _ mem), frames_quarFrames_ne p same]

/-- Setting QUAR keeps what does not depend on frames. -/
theorem quarAll_keeps {δ : Type} {r : State → δ} (p : Nat → Word → Bool) (keeps : ∀ d s, r (quarFrames d p s) = r s) (l : List Nat) (s : State) :
    r (l.foldl (fun s d => quarFrames d p s) s) = r s := by
  induction l generalizing s with
  | nil => rfl
  | cons e l ih => exact (ih _).trans (keeps e s)

/-- What refuses a yard descriptor, where its fields fit. -/
def refused (y : YardDesc) (s : State) : Bool :=
  let has := fun (z : YardDesc) d c => z.valid && bitOf (lget z.cmask d 0) c
  (anyCluster fun d c => has y d c && s.yards.any fun e => e.1 != y.yard && has e.2 d c) ||
    (anyCluster fun d c => has y d c && !has (s.yard y.yard) d c && (List.range 32).any fun n => n != y.yard && s.clusterHeld d c n) ||
    ((List.range 8).any fun d => decide (256 < ((yarded y s).ctxs.filter fun (c : Nat × Ctx) => (yarded y s).yardOn c.2.d.yard d).length)) ||
    (y.valid && anyCluster fun d c => has (s.yard y.yard) d c && !has y d c && s.clusterHeld d c y.yard)

theorem writeYard_eq {y : YardDesc} (s : State) (fits : yardDescOk y = true) : writeYard y s =
    if refused y s then s
    else if (s.yard y.yard).valid && !y.valid then
      (List.range 8).foldl (fun s d => quarFrames d (fun _ w => frameYard w == y.yard) s) (yarded y s) else yarded y s := by
  have pens : (s.pens.map fun e => if e.1.1 == y.yard then
      (e.1, { e.2 with cmask := e.2.cmask.zipWith (· &&& ·) ((List.range 8).map fun d => lget y.cmask d 0) }) else e) = (yarded y s).pens := by
    simp only [yarded, beq_iff_eq]
  unfold writeYard refused
  simp only [fits, pens, Bool.not_true, Bool.false_or]
  rfl

theorem crowded_iff (y : YardDesc) (s : State) :
    ((List.range 8).any fun d => decide (256 < ((yarded y s).ctxs.filter fun (c : Nat × Ctx) => (yarded y s).yardOn c.2.d.yard d).length)) = true ↔
      ¬ roomy y s := by
  have on (d : Nat) : ((yarded y s).ctxs.filter fun (c : Nat × Ctx) => (yarded y s).yardOn c.2.d.yard d) =
      s.ctxs.filter fun c => decide (lget ((yarded y s).yard c.2.d.yard).cmask d 0 ≠ 0) :=
    List.filter_congr fun c _ => by simp [State.yardOn, bne, decide_not, beq_eq_decide]
  simp only [List.any_eq_true, List.mem_range, decide_eq_true_eq, on, roomy, not_forall, not_le, exists_prop]

/-! ## The tear-down of loft frames (R236) -/

/-- A frame that is being torn down for a yard. -/
def goneWord (y : Nat) (w : Word) : Bool := frameValid w && frameQuar w && frameYard w == y

theorem goneWord_iff (y : Nat) (w : Word) : goneWord y w = true ↔ fValid w = true ∧ fQuar w = true ∧ fYard w = y := by
  simp only [goneWord, Bool.and_eq_true, beq_iff_eq, frameYard_eq, and_assoc]
  rfl

/-- The slots that only frames being torn down use. -/
def aloneSlots (frames : List (Nat × Word)) (y : Nat) : List Nat :=
  ((frames.filter fun e => goneWord y e.2).map fun e => frameKslot e.2).eraseDups.filter fun k =>
    frames.all fun e => !frameValid e.2 || goneWord y e.2 || frameKslot e.2 != k

theorem mem_aloneSlots (frames : List (Nat × Word)) (y k : Nat) : k ∈ aloneSlots frames y ↔
    (∃ e ∈ frames, (fValid e.2 = true ∧ fQuar e.2 = true ∧ fYard e.2 = y) ∧ fSlot e.2 = k) ∧
      ∀ e ∈ frames, fValid e.2 = true → fSlot e.2 = k → fValid e.2 = true ∧ fQuar e.2 = true ∧ fYard e.2 = y := by
  simp only [aloneSlots, List.mem_filter, List.mem_eraseDups, List.mem_map, List.all_eq_true, frameKslot_eq, goneWord_iff, Bool.or_eq_true,
    Bool.not_eq_true', bne_iff_ne, and_assoc]
  refine and_congr Iff.rfl (forall₂_congr fun e _ => ?_)
  change ((fValid e.2 = false ∨ _) ∨ _) ↔ _
  by_cases valid : fValid e.2 = true <;> by_cases same : fSlot e.2 = k <;> simp [valid, same]

theorem nodup_eraseDups {α : Type} [DecidableEq α] : ∀ (n : Nat) (l : List α), l.length ≤ n → l.eraseDups.Nodup
  | _, [], _ => by simp
  | n + 1, a :: l, h => by
    rw [List.eraseDups_cons, List.nodup_cons, List.mem_eraseDups]
    refine ⟨by simp, nodup_eraseDups n _ ((List.length_filter_le _ _).trans (Nat.le_of_succ_le_succ h))⟩

theorem nodup_aloneSlots (frames : List (Nat × Word)) (y : Nat) : (aloneSlots frames y).Nodup :=
  (nodup_eraseDups _ _ le_rfl).filter _

/-- The state of a key slot of a die. -/
def slotState (s : State) (die k : Nat) : KeyState := (lget (s.die die).keySlots k KeySlot.zero).state

/-- Where a step of a tear-down takes a slot. -/
def afterStep : KeyState → KeyState
  | .live => .discarding
  | _ => .free

theorem frames_discardSlot (s : State) (die k e : Nat) : ((discardSlot die k s).die e).frames = (s.die e).frames := by
  unfold discardSlot
  split
  · rfl
  · exact DieRules.die_modDie_keeps (r := Die.frames) s fun _ => rfl
  · exact DieRules.die_modDie_keeps (r := Die.frames) s.drawNat.2 fun _ => rfl

theorem length_lmod {α : Type} (f : α → α) (l : List α) (n : Nat) : (lmod l n f).length = l.length := by
  induction l generalizing n with
  | nil => rfl
  | cons a l ih =>
    cases n with
    | zero => rfl
    | succ n => exact congrArg (· + 1) (ih n)

theorem dies_discardSlot (s : State) (die k : Nat) : (discardSlot die k s).dies.length = s.dies.length := by
  unfold discardSlot
  split
  · rfl
  · exact length_lmod ..
  · exact length_lmod ..

theorem slotState_discardSlot_ne (s : State) (die : Nat) {k j : Nat} (ne : k ≠ j) : slotState (discardSlot die k s) die j = slotState s die j := by
  unfold discardSlot
  split
  · rfl
  · exact DieRules.die_modDie_keeps (r := fun d : Die => (lget d.keySlots j KeySlot.zero).state) s fun d =>
      congrArg KeySlot.state (DieRules.lget_lmod_ne _ _ ne)
  · exact DieRules.die_modDie_keeps (r := fun d : Die => (lget d.keySlots j KeySlot.zero).state) s.drawNat.2 fun d =>
      congrArg KeySlot.state (lget_lset_ne _ _ _ _ _ ne)

theorem slot_inside {l : List KeySlot} {k : Nat} (h : (lget l k KeySlot.zero).state ≠ .free) : k < l.length := by
  by_contra far
  rw [MoveRows.lget_eq_getD, List.getElem?_eq_none (Nat.le_of_not_lt far)] at h
  exact h rfl

theorem slotState_discardSlot_self {s : State} {die : Nat} (inside : die < s.dies.length) (k : Nat) :
    slotState (discardSlot die k s) die k = afterStep (slotState s die k) := by
  unfold discardSlot
  split
  case h_1 free => exact free.trans (congrArg afterStep free).symm
  case h_2 live =>
    have there : k < (s.die die).keySlots.length := slot_inside (by rw [live]; decide)
    rw [slotState, DieRules.die_modDie_self s inside, slotState, live]
    exact congrArg KeySlot.state (DieRules.lget_lmod_self _ _ there)
  case h_3 discarding =>
    have there : k < (s.die die).keySlots.length := slot_inside (by rw [discarding]; decide)
    rw [slotState, DieRules.die_modDie_self s.drawNat.2 inside, slotState, discarding]
    exact congrArg KeySlot.state (lget_lset_self _ _ _ _ there)

theorem slotState_discardSlots_outside (die : Nat) {k : Nat} (l : List Nat) (out : k ∉ l) (s : State) :
    slotState (l.foldl (fun s k => discardSlot die k s) s) die k = slotState s die k := by
  induction l generalizing s with
  | nil => rfl
  | cons j l ih =>
    obtain ⟨ne, out'⟩ := List.ne_and_not_mem_of_not_mem_cons out
    rw [List.foldl_cons, ih out', slotState_discardSlot_ne s die ne.symm]

/-- A step of a tear-down on each slot of a list. -/
theorem discardSlots (die : Nat) (l : List Nat) (nodup : l.Nodup) : ∀ (s : State), die < s.dies.length → ∀ k ∈ l,
    slotState (l.foldl (fun s k => discardSlot die k s) s) die k = afterStep (slotState s die k) := by
  induction l with
  | nil => simp
  | cons j l ih =>
    intro s inside k hk
    obtain ⟨out, nodup'⟩ := List.nodup_cons.1 nodup
    have inside' : die < (discardSlot die j s).dies.length := by rw [dies_discardSlot]; exact inside
    rw [List.foldl_cons]
    rcases List.mem_cons.1 hk with rfl | hk
    · refine Eq.trans ?_ (slotState_discardSlot_self inside k)
      exact slotState_discardSlots_outside die l out _
    · rw [ih nodup' _ inside' k hk, slotState_discardSlot_ne s die fun same : j = k => out (same ▸ hk)]

theorem frames_discardSlots (die e : Nat) (l : List Nat) (s : State) :
    ((l.foldl (fun s k => discardSlot die k s) s).die e).frames = (s.die e).frames := by
  induction l generalizing s with
  | nil => rfl
  | cons k l ih => rw [List.foldl_cons, ih, frames_discardSlot]

theorem dies_discardSlots (die : Nat) (l : List Nat) (s : State) :
    (l.foldl (fun s k => discardSlot die k s) s).dies.length = s.dies.length := by
  induction l generalizing s with
  | nil => rfl
  | cons k l ih => rw [List.foldl_cons, ih, dies_discardSlot]

/-- The frames being torn down for a yard, no longer valid. -/
def cleared (y : Nat) (d : Die) : Die :=
  { d with frames := d.frames.map fun e => if goneWord y e.2 then (e.1, e.2 &&& 0xFFFFFFFE#32) else e }

/-- A step of the tear-down of a yard's frames on a die. -/
def loftStep (die y : Nat) (s : State) : State :=
  if (aloneSlots (s.die die).frames y).any fun k => slotState s die k == .live then
    (aloneSlots (s.die die).frames y).foldl (fun s k => discardSlot die k s) s
  else ((aloneSlots (s.die die).frames y).foldl (fun s k => discardSlot die k s) s).modDie die (cleared y)

theorem exec_loftTeardownFinish {s : State} {die y : Nat} (ha : s.arg = .n2 die y) (tearing : s.tearing die y = true)
    (quiet : s.usesGone die y = false) : exec .loftTeardownFinish s = .next (loftStep die y s) := by
  have run : exec .loftTeardownFinish s = if !s.tearing die y || s.usesGone die y then .next s else .next (loftStep die y s) := by
    cases s
    cases ha
    rfl
  rw [run, tearing, quiet]
  rfl

theorem die_inside_of_tearing {s : State} {die y : Nat} (h : s.tearing die y = true) : die < s.dies.length := by
  obtain ⟨e, he, -⟩ := List.any_eq_true.1 h
  by_contra far
  rw [State.die, MoveRows.lget_eq_getD, List.getElem?_eq_none (Nat.le_of_not_lt far)] at he
  cases he

/-- No slot is live: all slots are free afterwards, and the frames are no longer valid. -/
theorem loftStep_clears {s : State} {die y : Nat} (tearing : s.tearing die y = true)
    (dead : ∀ k ∈ aloneSlots (s.die die).frames y, slotState s die k ≠ .live) :
    (∀ k ∈ aloneSlots (s.die die).frames y, slotState (loftStep die y s) die k = .free) ∧
      ∀ f, tget ((loftStep die y s).die die).frames f =
        (tget (s.die die).frames f).map fun w => if goneWord y w then w &&& 0xFFFFFFFE#32 else w := by
  have inside := die_inside_of_tearing tearing
  have none_ : ((aloneSlots (s.die die).frames y).any fun k => slotState s die k == .live) = false :=
    List.any_eq_false.2 fun k hk => by simpa using dead k hk
  unfold loftStep
  rw [none_, if_neg Bool.false_ne_true]
  have inside' := (dies_discardSlots die (aloneSlots (s.die die).frames y) s).symm ▸ inside
  refine ⟨fun k hk => ?_, fun f => ?_⟩
  · rw [slotState, DieRules.die_modDie_self _ inside']
    refine (discardSlots die _ (nodup_aloneSlots ..) s inside k hk).trans ?_
    cases h : slotState s die k with
    | live => exact absurd h (dead k hk)
    | _ => rfl
  · rw [DieRules.die_modDie_self _ inside']
    refine (tget_map_if (fun _ w => goneWord y w) (· &&& 0xFFFFFFFE#32) _ f).trans ?_
    rw [frames_discardSlots]

/-- Some slot is live: it is discarded first, and the frames stay. -/
theorem loftStep_discards {s : State} {die y : Nat} (tearing : s.tearing die y = true)
    (live : ∃ k ∈ aloneSlots (s.die die).frames y, slotState s die k = .live) :
    ((loftStep die y s).die die).frames = (s.die die).frames ∧
      ∀ k ∈ aloneSlots (s.die die).frames y, slotState s die k = .live → slotState (loftStep die y s) die k = .discarding := by
  have some_ : ((aloneSlots (s.die die).frames y).any fun k => slotState s die k == .live) = true := by
    obtain ⟨k, hk, live⟩ := live
    exact List.any_eq_true.2 ⟨k, hk, beq_iff_eq.2 live⟩
  unfold loftStep
  rw [some_, if_pos rfl]
  refine ⟨frames_discardSlots .., fun k hk live => ?_⟩
  rw [discardSlots die _ (nodup_aloneSlots ..) s (die_inside_of_tearing tearing) k hk, live]
  rfl

/-! ## A frame's ownership entry (R232, R235) -/

/-- The bits of an ownership entry that firmware writes. -/
def kept (e : Word) : Word := e &&& 0x00FF07FF#32

theorem kept_eq (e : Word) : kept e = e &&& 0x00FF07FF#32 := rfl

theorem extractLsb'_kept (e : Word) {start len : Nat} (h : ∀ i, i < len → (0x00FF07FF#32).getLsbD (start + i) = true) :
    (kept e).extractLsb' start len = e.extractLsb' start len := by
  refine BitVec.eq_of_getLsbD_eq fun i hi => ?_
  rw [BitVec.getLsbD_extractLsb', BitVec.getLsbD_extractLsb', kept, BitVec.getLsbD_and, h i hi, Bool.and_true]

theorem fYard_kept (e : Word) : fYard (kept e) = fYard e := congrArg BitVec.toNat (extractLsb'_kept e (by decide))
theorem fSlot_kept (e : Word) : fSlot (kept e) = fSlot e := congrArg BitVec.toNat (extractLsb'_kept e (by decide))

theorem fValid_kept (e : Word) : fValid (kept e) = fValid e := by
  rw [fValid, kept, BitVec.getLsbD_and]
  exact Bool.and_true _

/-- A free slot made live with fresh keys for a tenant's key ID. -/
def slotLive (die k key : Nat) (s : State) : State :=
  s.drawNat.2.modDie die fun d => { d with keySlots := lset d.keySlots k ⟨s.drawNat.1 % 2 ^ 256, key, .live⟩ }

theorem die_slotLive {s : State} {die : Nat} (inside : die < s.dies.length) (k key : Nat) : (slotLive die k key s).die die =
    { s.die die with keySlots := lset (s.die die).keySlots k ⟨s.drawNat.1 % 2 ^ 256, key, .live⟩ } :=
  DieRules.die_modDie_self s.drawNat.2 inside

section
variable {s : State} {die f : Nat} (small : f < 12288) (unfenced : s.isFenced die 2 (f / 8) = false)
include small unfenced

/-- Giving a frame under a slot that holds its tenant's key, or under a free one. -/
theorem writeFrame_gives {e : Word} (open_ : frameValid (s.frame die f) = false ∨ (frameQuar (s.frame die f) = false ∧
      fYard e = fYard (s.frame die f) ∧ fSlot e = fSlot (s.frame die f)))
    (valid : fValid e = true) (yard : (s.yard (fYard e)).valid = true) (slot : s.isFenced die 9 (fSlot e) = false)
    (own : ∀ i, i < 32 → i ≠ fSlot e → (lget (s.die die).keySlots i KeySlot.zero).state = .live →
      (lget (s.die die).keySlots i KeySlot.zero).keyid ≠ (s.yard (fYard e)).keyid)
    (usable : slotState s die (fSlot e) = .free ∨ slotState s die (fSlot e) = .live ∧
      (lget (s.die die).keySlots (fSlot e) KeySlot.zero).keyid = (s.yard (fYard e)).keyid) :
    writeFrame die f e s = (if slotState s die (fSlot e) == .live then s else
      slotLive die (fSlot e) (s.yard (fYard e)).keyid s).modDie die fun d => { d with frames := tset d.frames f (kept e) } := by
  have alone : ((List.range 32).any fun i => i != fSlot e && (lget (s.die die).keySlots i KeySlot.zero).state == .live &&
      (lget (s.die die).keySlots i KeySlot.zero).keyid == (s.yard (fYard e)).keyid) = false := by
    refine List.any_eq_false.2 fun i hi => ?_
    simp only [Bool.and_eq_true, bne_iff_ne, beq_iff_eq, not_and, and_imp]
    exact own i (List.mem_range.1 hi)
  have idle : (frameValid (s.frame die f) && frameQuar (s.frame die f)) = false := by
    rcases open_ with h | ⟨h, -⟩ <;> simp [h]
  have same : (frameValid (s.frame die f) && (!frameValid (kept e) || frameYard (kept e) != frameYard (s.frame die f) ||
      frameKslot (kept e) != frameKslot (s.frame die f))) = false := by
    rcases open_ with h | ⟨-, y, k⟩
    · simp [h]
    · rw [frameYard_eq, frameYard_eq, frameKslot_eq, frameKslot_eq, fYard_kept, fSlot_kept, y, k,
        show frameValid (kept e) = true from (fValid_kept e).trans valid]
      simp
  have fit : ((lget (s.die die).keySlots (fSlot e) KeySlot.zero).state == .discarding ||
      ((lget (s.die die).keySlots (fSlot e) KeySlot.zero).state == .live &&
        (lget (s.die die).keySlots (fSlot e) KeySlot.zero).keyid != (s.yard (fYard e)).keyid)) = false := by
    rcases usable with h | ⟨h, k⟩
    · rw [slotState] at h
      simp [h]
    · rw [slotState] at h
      simp [h, k]
  have given_ : frameValid (kept e) = true := (fValid_kept e).trans valid
  have yard_ : frameYard (kept e) = fYard e := (frameYard_eq _).trans (fYard_kept e)
  have slot_ : frameKslot (kept e) = fSlot e := (frameKslot_eq _).trans (fSlot_kept e)
  unfold writeFrame
  unfold kept at *
  generalize e &&& 0x00FF07FF#32 = k at *
  refine (if_neg (by simp [Nat.not_le.2 small, idle, unfenced])).trans ((if_neg (by rw [same]; exact Bool.false_ne_true)).trans
    ((if_neg (by simp [given_])).trans ((if_neg ?_).trans ?_)))
  · rw [yard_, slot_, yard, alone, slot, Bool.not_true, Bool.false_or, Bool.false_or, fit]
    exact Bool.false_ne_true
  · rw [yard_, slot_]
    rfl

/-- Taking a frame, or giving it to another, begins its tear-down. -/
theorem writeFrame_takes {w e : Word} (hw : tget (s.die die).frames f = some w) (valid : fValid w = true) (quar : fQuar w = false)
    (other : fValid e = false ∨ fYard e ≠ fYard w ∨ fSlot e ≠ fSlot w) : writeFrame die f e s = quarFrames die (fun n _ => n == f) s := by
  have old : s.frame die f = w := by rw [State.frame, tgetD, hw]; rfl
  have differs : (!frameValid (kept e) || frameYard (kept e) != frameYard w || frameKslot (kept e) != frameKslot w) = true := by
    rw [frameYard_eq, frameYard_eq, frameKslot_eq, frameKslot_eq, fYard_kept, fSlot_kept, show frameValid (kept e) = fValid e from fValid_kept e]
    simpa [or_assoc] using other
  unfold writeFrame
  simp only [← kept_eq]
  simp only [old, Nat.not_le.2 small, unfenced, show frameValid w = true from valid, show frameQuar w = false from quar, differs]
  rfl

end

/-! ## Keys, gates, communicators -/

theorem gateRecOk_iff (r : GateRec) : gateRecOk r = true ↔ gateFits r := by
  simp only [gateRecOk, gateFits, Bool.and_eq_true, Bool.or_eq_true, decide_eq_true_eq, beq_iff_eq, List.all_eq_true, gidOk, and_assoc]

theorem writeGate_refuses {die : Nat} {r : GateRec} (s : State) (bad : 8 ≤ die ∨ ¬ gateFits r) : writeGate die r s = s := by
  rw [← gateRecOk_iff] at bad
  unfold writeGate
  rcases bad with h | h <;> simp [h]

theorem writeGate_new {s : State} {die : Nat} {r : GateRec} (small : die < 8) (fits : gateFits r) (none_ : tget s.gates r.gid = none)
    (unfenced : s.isFenced die 8 0 = false) : writeGate die r s = { s with gates := tset s.gates r.gid (newGate die r s.cycle) } := by
  simp only [writeGate, (gateRecOk_iff r).2 fits, Nat.not_le.2 small, none_, unfenced, newGate] <;> rfl

/-- A record that changes neither VALID nor RATE nor BURST changes who may use the gate. -/
theorem writeGate_lists {s : State} {die : Nat} {r : GateRec} {g : Gate} (small : die < 8) (fits : gateFits r) (hg : tget s.gates r.gid = some g)
    (home : g.home = die) (active : g.mig = .active) (valid : r.valid = true) (was : g.valid = true) (rate : r.rate = g.rate)
    (burst : r.burst = g.burst) : writeGate die r s = { s with gates := tset s.gates r.gid { g with acl := r.acl, wins := r.wins } } := by
  have same : { g with valid := r.valid, rate := r.rate, burst := r.burst, acl := r.acl, wins := r.wins } =
      { g with acl := r.acl, wins := r.wins } := by
    rw [valid, ← was, rate, burst]
  have anew : (r.valid && !g.valid || r.rate != g.rate || r.burst != g.burst) = false := by simp [was, rate, burst]
  unfold writeGate
  rw [if_neg (by simp [Nat.not_le.2 small, (gateRecOk_iff r).2 fits]), hg]
  dsimp only
  rw [if_neg (by simp [home, active]), anew, if_pos valid, same]
  rfl

theorem writeComm_eq {s : State} {die n : Nat} {c : CommDesc} (small : n < 256) (low : 2 ≤ c.vc) (high : c.vc ≤ 15) (some_ : 1 ≤ c.nranks)
    (most : c.nranks ≤ 2 ^ 20) (mine : c.myrank < c.nranks) (ctx : c.ctxid < 2 ^ 16) (key : c.keyid < 2 ^ 16) (share : c.share < 2 ^ 16)
    (ranks : c.ranks < 2 ^ 57) (own : ∀ e ∈ (s.die die).comms, e.1 ≠ n → e.2.valid = true → e.2.vc ≠ c.vc) :
    writeComm die n c s = s.modDie die fun d => { d with comms := tset d.comms n c, collSeq := tdel d.collSeq n } := by
  have alone : ((s.die die).comms.any fun e => e.1 != n && e.2.valid && e.2.vc == c.vc) = false := by
    refine List.any_eq_false.2 fun e he => ?_
    simp only [Bool.and_eq_true, bne_iff_ne, beq_iff_eq, not_and, and_imp]
    exact own e he
  have present : (c.nranks == 0) = false := by simp; omega
  unfold writeComm
  rw [if_neg]
  simp only [alone, present, Bool.or_eq_true, Bool.and_eq_true, decide_eq_true_eq, Bool.or_false, not_or, not_and]
  omega

theorem key_installed {s : State} {die key : Nat} (small : key < 2 ^ 16) (room : (s.die die).keys.length < 256) :
    (s.modDie die fun d => if 2 ^ 16 ≤ key then d else if true then
      if (tget d.keys key).isNone && decide (256 ≤ d.keys.length) then d else { d with keys := tset d.keys key ⟨true, 0⟩ }
      else { d with keys := tdel d.keys key }) = s.modDie die fun d => { d with keys := tset d.keys key ⟨true, 0⟩ } :=
  ShedRows.modDie_congr ((if_neg (Nat.not_le.2 small)).trans (by simp [Nat.not_le.2 room]))

/-! ## The frame of an entry that is written -/

theorem frames_written {t : State} {die : Nat} (inside : die < t.dies.length) (f : Nat) (e : Word) :
    ((t.modDie die fun d => { d with frames := tset d.frames f e }).die die).frames = tset (t.die die).frames f e :=
  congrArg Die.frames (DieRules.die_modDie_self t inside)

/-- A frame given under a free slot: the slot is live with its tenant's key. -/
theorem given_under_free {s : State} {die k key f : Nat} {e : Word} {t : State} (inside : die < s.dies.length)
    (slots : (s.die die).keySlots.length = 32) (hk : k < 32)
    (ht : t = (slotLive die k key s).modDie die fun d => { d with frames := tset d.frames f e }) :
    tget (t.die die).frames f = some e ∧ (t.die die).keySlots[k]? = some ⟨s.drawNat.1 % 2 ^ 256, key, .live⟩ ∧
      ∀ n, n ≠ f → tget (t.die die).frames n = tget (s.die die).frames n := by
  have inside' : die < (slotLive die k key s).dies.length := (length_lmod ..).symm ▸ inside
  have fields : (t.die die).frames = tset (s.die die).frames f e ∧
      (t.die die).keySlots = lset (s.die die).keySlots k ⟨s.drawNat.1 % 2 ^ 256, key, .live⟩ := by
    rw [ht, DieRules.die_modDie_self _ inside', die_slotLive inside]
    exact ⟨rfl, rfl⟩
  obtain ⟨frames, slot⟩ := fields
  refine ⟨?_, ?_, fun n ne => ?_⟩
  · rw [frames, tget_tset_self]
  · rw [slot, Operands.getElem?_lset, if_pos ⟨rfl, slots ▸ hk⟩]
  · rw [frames, tget_tset_ne _ _ _ _ ne.symm]

/-! ## Which yard descriptors are refused (R259, R331) -/

/-- Whether a yard has a cluster. -/
def hasCluster (z : YardDesc) (d c : Nat) : Bool := z.valid && (lget z.cmask d 0).testBit c

theorem refused_eq (y : YardDesc) (s : State) : refused y s =
    ((anyCluster fun d c => hasCluster y d c && s.yards.any fun e => e.1 != y.yard && hasCluster e.2 d c) ||
    (anyCluster fun d c => hasCluster y d c && !hasCluster (s.yard y.yard) d c && (List.range 32).any fun n => n != y.yard && s.clusterHeld d c n) ||
    ((List.range 8).any fun d => decide (256 < ((yarded y s).ctxs.filter fun (c : Nat × Ctx) => (yarded y s).yardOn c.2.d.yard d).length)) ||
    (y.valid && anyCluster fun d c => hasCluster (s.yard y.yard) d c && !hasCluster y d c && s.clusterHeld d c y.yard)) := by
  simp only [refused, hasCluster, bitOf_eq]

theorem refused_crowded {y : YardDesc} {s : State} (full : ¬ roomy y s) : refused y s = true := by
  rw [refused_eq, (crowded_iff y s).2 full, Bool.or_true, Bool.true_or]

/-- A yard that is no longer valid has no cluster that another could have. -/
theorem refused_gone {y : YardDesc} {s : State} (gone : y.valid = false) (room : roomy y s) : refused y s = false := by
  have none_ (p : Nat → Nat → Bool) : (anyCluster fun d c => hasCluster y d c && p d c) = false := by
    simp [anyCluster, hasCluster, gone]
  have fit := Bool.eq_false_iff.2 fun h => (crowded_iff y s).1 h room
  simp only [refused_eq, fit, none_, Bool.and_assoc, gone, Bool.false_and, Bool.or_false]

theorem anyCluster_false (p : Nat → Nat → Bool) : anyCluster p = false ↔ ∀ d c, d < 8 → c < 12 → p d c = false := by
  rw [Bool.eq_false_iff, ne_eq, anyCluster_iff]
  constructor
  · exact fun h d c hd hc => Bool.eq_false_iff.2 fun x => h ⟨d, c, hd, hc, x⟩
  · exact fun h ⟨d, c, hd, hc, x⟩ => Bool.false_ne_true ((h d c hd hc).symm.trans x)

/-- A valid yard whose clusters no other yard has or uses is refused only for a cluster that it would lose and that holds something of it. -/
theorem refused_valid {y : YardDesc} {s : State} (valid : y.valid = true) (room : roomy y s)
    (own : ∀ d c e, d < 8 → c < 12 → hasCluster y d c = true → e ∈ s.yards → e.1 ≠ y.yard → hasCluster e.2 d c = false)
    (free : ∀ d c n, d < 8 → c < 12 → hasCluster y d c = true → hasCluster (s.yard y.yard) d c = false → n < 32 → n ≠ y.yard →
      s.clusterHeld d c n = false) :
    refused y s = anyCluster fun d c => hasCluster (s.yard y.yard) d c && !hasCluster y d c && s.clusterHeld d c y.yard := by
  have fit := Bool.eq_false_iff.2 fun h => (crowded_iff y s).1 h room
  have clash : (anyCluster fun d c => hasCluster y d c && s.yards.any fun e => e.1 != y.yard && hasCluster e.2 d c) = false := by
    refine (anyCluster_false _).2 fun d c hd hc => ?_
    by_contra h
    obtain ⟨has, others⟩ := Bool.and_eq_true_iff.1 (Bool.not_eq_false _ ▸ h)
    obtain ⟨e, he, both⟩ := List.any_eq_true.1 others
    obtain ⟨ne, there⟩ := Bool.and_eq_true_iff.1 both
    exact Bool.false_ne_true ((own d c e hd hc has he (bne_iff_ne.1 ne)).symm.trans there)
  have full : (anyCluster fun d c => hasCluster y d c && !hasCluster (s.yard y.yard) d c &&
      (List.range 32).any fun n => n != y.yard && s.clusterHeld d c n) = false := by
    refine (anyCluster_false _).2 fun d c hd hc => ?_
    by_contra h
    obtain ⟨both, others⟩ := Bool.and_eq_true_iff.1 (Bool.not_eq_false _ ▸ h)
    obtain ⟨has, was⟩ := Bool.and_eq_true_iff.1 both
    obtain ⟨n, hn, held⟩ := List.any_eq_true.1 others
    obtain ⟨ne, there⟩ := Bool.and_eq_true_iff.1 held
    exact Bool.false_ne_true ((free d c n hd hc has (Bool.not_eq_true' _ ▸ was) (List.mem_range.1 hn) (bne_iff_ne.1 ne)).symm.trans there)
  rw [refused_eq, clash, full, fit, valid]
  rfl

/-- A yard descriptor that no rule refuses: the frames of a yard that was valid and is no longer are torn down. -/
def withYard (y : YardDesc) (s : State) : State :=
  if (s.yard y.yard).valid && !y.valid then
    (List.range 8).foldl (fun s d => quarFrames d (fun _ w => frameYard w == y.yard) s) (yarded y s) else yarded y s

theorem withYard_rest (y : YardDesc) (s : State) : (withYard y s).yards = tset s.yards y.yard y ∧ (withYard y s).pens = (yarded y s).pens ∧
    (withYard y s).mem = s.mem := by
  unfold withYard
  split
  · exact ⟨quarAll_keeps (r := State.yards) _ (fun _ _ => rfl) .., quarAll_keeps (r := State.pens) _ (fun _ _ => rfl) ..,
      quarAll_keeps (r := State.mem) _ (fun _ _ => rfl) ..⟩
  · exact ⟨rfl, rfl, rfl⟩

theorem withYard_quarantined {y : YardDesc} {s : State} (gone : y.valid = false) (was : (s.yard y.yard).valid = true) {d : Nat} (hd : d < 8) :
    quarantined d (fun _ w => fYard w = y.yard) s (withYard y s) := by
  rw [withYard, gone, was]
  exact (quarAll _ (fun _ w => by rw [beq_iff_eq, frameYard_eq]) _ List.nodup_range (yarded y s) d).1 (List.mem_range.2 hd)

end Sys2Proof.AdminRows

namespace Sys2Proof

open Machine Claims AdminRows

/-- Settles O54: each of the firmware's changes is run on a request that no rule refuses, and on those that the statement says are refused. -/
theorem adminEvents : Obligations.AdminEvents := by
  intro s boot
  have host {i : Instr} {a : EvArg} {f : State → State} {t : State} (meaning : s.arg = a → exec i s = hostEvent f s) (h : f s = t) :
      Does i a s t := fun ha => (meaning ha).trans ((InvalidationRows.hostEvent_ready f boot).trans (congrArg Host.Outcome.next h))
  refine ⟨?_, ?_, ?_, ?_, ?_, ?_, ?_, ?_, ?_, ?_, ?_, ?_, ?_, ?_, ?_, ?_, ?_, ?_⟩
  · intro d fits key room page pen
    have run (t : State) (h : writeContext d s = t) : Does .adminContextWrite (.ctxDesc d) s t :=
      host (fun ha => by show execAdminContextWrite s = _; rw [execAdminContextWrite, ha]) h
    refine ⟨fun none_ => run _ ?_, fun x hx valid dying => ⟨fun still => run _ ?_, fun moved busy => run _ ?_⟩⟩
    · rw [writeContext_eq fits key room page pen, none_]
    · have free : ((x.d.yard != d.yard || x.d.pen != d.pen) && s.launches.any fun e => e.2.ctx == d.ctxid) = false := by
        rcases still with ⟨y, p⟩ | idle
        · simp [y, p]
        · rw [List.any_eq_false.2 fun e he => by simpa using idle e he, Bool.and_false]
      simp only [writeContext_eq fits key room page pen, hx, valid, dying, free] <;> rfl
    · have held : ((x.d.yard != d.yard || x.d.pen != d.pen) && s.launches.any fun e => e.2.ctx == d.ctxid) = true := by
        obtain ⟨e, he, same⟩ := busy
        rw [List.any_eq_true.2 ⟨e, he, by simpa using same⟩, Bool.and_true]
        by_cases y : x.d.yard = d.yard
        · simpa using .inr fun p => moved ⟨y, p⟩
        · simp [y]
      simp only [writeContext_eq fits key room page pen, hx, valid, dying, held] <;> rfl
  · intro c x hx idle
    exact host (fun ha => by show execContextTeardown s = _; rw [execContextTeardown, ha]) (teardown_idle hx idle)
  · intro c x hx dying items launches yard key
    refine ⟨_, fun ha => execContextTeardownFinish_eq ha hx dying items launches yard key, rfl, rfl, rfl, rfl, rfl, ?_, fun d => ?_⟩
    · simp only [revokeKey, finished, beq_iff_eq]
    · exact congrArg Die.graphs (die_mapDies s _ rfl d)
  · intro die y tearing quiet
    refine ⟨fun dead => ?_, fun live => ?_⟩
    · obtain ⟨slots, frames⟩ := loftStep_clears tearing fun k hk => dead k ((mem_aloneSlots ..).1 hk)
      refine ⟨_, fun ha => exec_loftTeardownFinish ha tearing quiet, fun k hk => slots k ((mem_aloneSlots ..).2 hk), fun f w hf => ?_⟩
      rw [frames f, hf]
      exact ⟨fun gone => by rw [Option.map_some, if_pos ((goneWord_iff ..).2 gone)],
        fun gone => by rw [Option.map_some, if_neg fun h => gone ((goneWord_iff ..).1 h)]⟩
    · obtain ⟨k, hk, hlive⟩ := live
      obtain ⟨frames, slots⟩ := loftStep_discards tearing ⟨k, (mem_aloneSlots ..).2 hk, hlive⟩
      exact ⟨_, fun ha => exec_loftTeardownFinish ha tearing quiet, frames, fun k hk => slots k ((mem_aloneSlots ..).2 hk)⟩
  · intro key a hr
    exact ⟨fun late ha => by rw [execReplyReservationRelease_eq ha hr, if_pos late],
      fun early ha => by rw [execReplyReservationRelease_eq ha hr, if_neg (Nat.not_le.2 early)]⟩
  · intro key a hq hr
    exact ⟨fun late ha => by rw [execKeyidQuarantineEnd_eq ha hq hr, if_pos late],
      fun early ha => by rw [execKeyidQuarantineEnd_eq ha hq hr, if_neg (Nat.not_le.2 early)]⟩
  · intro y fits gone room
    have run : writeYard y s = withYard y s := by
      rw [writeYard_eq s fits, refused_gone gone room]
      rfl
    obtain ⟨yards, pens, mem⟩ := withYard_rest y s
    exact ⟨_, host (fun ha => by show execAdminYardWrite s = _; rw [execAdminYardWrite, ha]) run, yards, pens, mem,
      fun was d hd => withYard_quarantined gone was hd⟩
  · intro y fits full
    refine host (fun ha => by show execAdminYardWrite s = _; rw [execAdminYardWrite, ha]) ?_
    rw [writeYard_eq s fits, refused_crowded full]
    rfl
  · intro y fits valid room has own free
    have run (t : State) (h : writeYard y s = t) : Does .adminYardWrite (.yardDesc y) s t :=
      host (fun ha => by show execAdminYardWrite s = _; rw [execAdminYardWrite, ha]) h
    have why := refused_valid valid room own free
    refine ⟨fun keeps => run _ ?_, fun ⟨d, c, hd, hc, was, lost, held⟩ => run _ ?_⟩
    · have fine : refused y s = false := by
        refine why.trans ((anyCluster_false _).2 fun d c hd hc => ?_)
        by_contra h
        obtain ⟨both, held⟩ := Bool.and_eq_true_iff.1 (Bool.not_eq_false _ ▸ h)
        obtain ⟨was, lost⟩ := Bool.and_eq_true_iff.1 both
        exact Bool.false_ne_true ((keeps d c hd hc was (Bool.not_eq_true' _ ▸ lost)).symm.trans held)
      rw [writeYard_eq s fits, fine, valid, Bool.not_true, Bool.and_false]
      rfl
    · have lose : refused y s = true := why.trans ((anyCluster_iff _).2 ⟨d, c, hd, hc, by
        rw [show hasCluster (s.yard y.yard) d c = true from was, show hasCluster y d c = false from lost, held]; rfl⟩)
      rw [writeYard_eq s fits, lose]
      rfl
  · intro die key small room
    exact host (fun ha => by show execAdminKeyInstall s = _; rw [execAdminKeyInstall, ha]) (key_installed small room)
  · intro die key small
    exact host (fun ha => by show execAdminKeyInstall s = _; rw [execAdminKeyInstall, ha])
      (ShedRows.modDie_congr (if_neg (Nat.not_le.2 small)))
  · intro die key l
    exact host (fun ha => by show execAdminReachList s = _; rw [execAdminReachList, ha]) rfl
  · intro die r bad
    exact host (fun ha => by show execAdminGateWrite s = _; rw [execAdminGateWrite, ha]) (writeGate_refuses s bad)
  · intro die r small fits
    have run (t : State) (h : writeGate die r s = t) : Does .adminGateWrite (.gate die r) s t :=
      host (fun ha => by show execAdminGateWrite s = _; rw [execAdminGateWrite, ha]) h
    exact ⟨fun none_ unfenced => run _ (writeGate_new small fits none_ unfenced),
      fun g hg home active valid was rate burst => run _ (writeGate_lists small fits hg home active valid was rate burst)⟩
  · intro die n c small low high some_ most mine ctx key share ranks own
    exact host (fun ha => by show execAdminCommunicatorWrite s = _; rw [execAdminCommunicatorWrite, ha])
      (writeComm_eq small low high some_ most mine ctx key share ranks own)
  · intro die n on
    exact host (fun ha => by show execAdminEnrol s = _; rw [execAdminEnrol, ha]) rfl
  · intro die f e new small unfenced valid yard inside slots slot key free own
    have old : frameValid (s.frame die f) = false := by
      rw [State.frame, tgetD]
      cases hw : tget (s.die die).frames f with
      | none => rfl
      | some w => exact new w hw
    have run := writeFrame_gives small unfenced (.inl old) valid yard slot own (.inl free)
    have fresh : (slotState s die (fSlot e) == .live) = false := by rw [slotState, free]; rfl
    rw [fresh] at run
    have there : fSlot e < 32 := BitVec.isLt _
    obtain ⟨frame, given_, rest⟩ := given_under_free inside slots there (run.trans (by rw [if_neg Bool.false_ne_true]))
    exact ⟨_, _, host (fun ha => by show execFrameOwnershipWrite s = _; rw [execFrameOwnershipWrite, ha]) rfl, frame, given_, rfl, rfl, rest⟩
  · intro die f w e hw small unfenced valid quar
    have run (t : State) (h : writeFrame die f e s = t) : Does .frameOwnershipWrite (.frame die f e) s t :=
      host (fun ha => by show execFrameOwnershipWrite s = _; rw [execFrameOwnershipWrite, ha]) h
    refine ⟨fun other => ⟨_, run _ (writeFrame_takes small unfenced hw valid quar other), quarFrames_quarantined fun n _ => beq_iff_eq,
      fun n ne => ?_⟩, ?_⟩
    · rw [tget_quarFrames _ (die_inside_of_frame hw)]
      simp [ne]
    · intro keeps sameYard sameSlot k live key slot yard own
      refine run _ ?_
      have old : s.frame die f = w := by rw [State.frame, tgetD, hw]; rfl
      have held : (slotState s die (fSlot e) == .live) = true := by rw [sameSlot]; exact beq_iff_eq.2 live
      rw [writeFrame_gives small unfenced (.inr (by rw [old]; exact ⟨quar, sameYard, sameSlot⟩)) keeps (by rw [sameYard]; exact yard)
        (by rw [sameSlot]; exact slot) (by rw [sameYard, sameSlot]; exact own)
        (.inr ⟨beq_iff_eq.1 held, by rw [sameSlot, sameYard]; exact key⟩), held]
      rfl

end Sys2Proof

/-! The replication unit's events (R307, R309 to R315). -/

namespace Sys2Proof.ReplicationRows

open Sys2Proof Sys2Proof.Machine Sys2Proof.Claims

/-- An update packet that carries no byte of its one line: its form leaves a hole of 32 bytes. -/
def hollow : Packet :=
  { src := 0, strong := false, null := false, sep := 0, epoch := 0, sq := 1, wseq := 1, gs := 0, dep := List.replicate 8 0, lines := [(0, [])],
    since := 0, ctx := 0 }

theorem length_bytes_hollow : hollow.bytes.length = 160 := by rfl

end Sys2Proof.ReplicationRows

namespace Sys2Proof

open Machine Claims ReplicationRows

/-- Refutes O55: of any packet the statement says that its form has 192 bytes (Table 15.3), but a packet of the model whose line lists fewer
than 32 bytes has a shorter one; with no byte for its one line it has 160. -/
theorem not_replicationEvents : ¬ Obligations.ReplicationEvents := by
  intro h
  obtain ⟨-, -, -, -, -, form, -⟩ := h
  have short := (form hollow).1
  rw [length_bytes_hollow] at short
  exact absurd short (by decide)

end Sys2Proof

/-! Membership of the replicated region: lag, eviction, counter wraps, rejoins and line repair (R306, R321 to R326, R342). -/

namespace Sys2Proof.MembershipRows

open Sys2Proof Sys2Proof.Machine Sys2Proof.Claims

theorem foldl_keeps {α δ : Type} {f : State → α → State} {r : State → δ} (keeps : ∀ s a, r (f s a) = r s) (l : List α) (s : State) :
    r (l.foldl f s) = r s := by
  induction l generalizing s with
  | nil => rfl
  | cons a l ih => exact (ih _).trans (keeps s a)

/-! ## Lag, and the decision to evict -/

theorem endLag_member {s : State} {d : Nat} (h : (s.repl d).mstate = .member) : endLag d s = s := by
  simp [endLag, h]

theorem endLag_lags {s : State} {d : Nat} (h : s.lagging d 1 = true) : endLag d s = s := by
  simp [endLag, h]

theorem execLagDetect_eq {s : State} {d : Nat} (ha : s.arg = .n1 d) (arch : s.arch = none) (mem : s.isMember d = true)
    (state : (s.repl d).mstate = .member) :
    exec .lagDetect s = .next (if s.lagging d 0 then toldRepl 0x30 d (s.backlog d) (s.oldestWait d * 4 / 5)
      (s.modRepl d fun r => { r with
        mstate := .lagging, lagSince := s.cycle, lagBack := (List.range 8).map fun k => (lget (s.repl k).outLog d []).length }) else s) := by
  show execLagDetect s = _
  simp only [execLagDetect, ha, arch, mem, state, endLag_member state]
  cases s.lagging d 0 <;> rfl

theorem execLagEvictTimeout_eq {s : State} {d : Nat} (ha : s.arg = .n1 d) (mem : s.isMember d = true) (some_ : s.others d ≠ [])
    (state : (s.repl d).mstate = .lagging) (lags : s.lagging d 1 = true) (long : (s.repl d).lagSince + 12500000 ≤ s.cycle) :
    exec .lagEvictTimeout s = .next (condemn d s) := by
  show execLagEvictTimeout s = _
  have others : (s.others d).isEmpty = false := by simpa using some_
  have late : decide ((s.repl d).lagSince + cyclesOfNs 10000000 ≤ s.cycle) = true := decide_eq_true long
  simp only [execLagEvictTimeout, ha, endLag_lags lags, mem, state, others, late]
  rfl

theorem execLinksLost_eq {s : State} {d : Nat} (ha : s.arg = .n1 d) (mem : s.isMember d = true) (some_ : s.others d ≠ [])
    (state : (s.repl d).mstate ≠ .evicted) :
    exec .linksLost s = .next (if (s.others d).all (s.linkDead d) then condemn d s else s) := by
  show execLinksLost s = _
  have others : (s.others d).isEmpty = false := by simpa using some_
  have there : ((s.repl d).mstate != .evicted) = true := by simpa using state
  simp only [execLinksLost, ha, mem, there, others]
  rfl

/-! ## What an eviction changes (R322, R323) -/

/-- MEMB and EPOCH. -/
def marks (s : State) : Nat × Nat := (s.memb, s.epoch)

@[simp] theorem marks_modRepl (s : State) (d : Nat) (f : Repl → Repl) : marks (s.modRepl d f) = marks s := rfl
@[simp] theorem marks_modPend (s : State) (id : Nat) (f : Pend → Pend) : marks (s.modPend id f) = marks s := rfl
@[simp] theorem marks_sendAll (die : Nat) (p : Packet) (s : State) : marks (sendAll die p s) = marks s := rfl
@[simp] theorem marks_takeGrant (g : Grant) (s : State) : marks (takeGrant g s) = marks s := rfl
@[simp] theorem marks_forwardTo (d k c : Nat) (s : State) : marks (forwardTo d k c s) = marks s := rfl
@[simp] theorem marks_nullSlots (e d : Nat) (l : List Nat) (s : State) : marks (nullSlots e d l s) = marks s := rfl

@[simp] theorem marks_foldl {α : Type} {f : State → α → State} (keeps : ∀ s a, marks (f s a) = marks s) (l : List α) (s : State) :
    marks (l.foldl f s) = marks s := foldl_keeps keeps l s

@[simp] theorem marks_repair (s : State) (a n : Nat) : marks (s.repair a n) = marks s := by
  unfold State.repair
  split <;> rfl

@[simp] theorem marks_writeStamped (die off : Nat) (l : List Byte) (st : Stamp) (s : State) : marks (writeStamped die off l st s) = marks s :=
  marks_repair ..

@[simp] theorem marks_applyOwnWeak (die sq ctx since off : Nat) (l : List Byte) (s : State) :
    marks (applyOwnWeak die sq ctx since off l s) = marks s := by
  simp [applyOwnWeak]

@[simp] theorem marks_applyStrong (die : Nat) (u : Upd) (k : StrongKind) (gs w : Nat) (s : State) :
    marks (applyStrong die u k gs w s) = marks s := by
  unfold applyStrong
  dsimp only
  rw [strongReady, marks_modPend, marks_sendAll, marks_modRepl]
  cases k with
  | rsync => rfl
  | _ => exact marks_writeStamped ..

@[simp] theorem marks_advanceUpds (die fuel : Nat) (s : State) : marks (advanceUpds die fuel s) = marks s := by
  induction fuel generalizing s with
  | zero => rfl
  | succ n ih =>
    unfold advanceUpds
    split
    · rfl
    · dsimp only
      split
      · rfl
      · split
        · simp [ih]
        · split
          · simp [ih]
          · rfl
        · rfl

@[simp] theorem marks_runUpds (die : Nat) (s : State) : marks (runUpds die s) = marks s := marks_advanceUpds ..

@[simp] theorem marks_resolveLine (die : Nat) (p : Packet) (line : Nat) (b : List Byte) (s : State) :
    marks (resolveLine die p line b s) = marks s := by
  unfold resolveLine
  dsimp only
  split
  · exact marks_writeStamped ..
  · rfl

@[simp] theorem marks_applyPacket (die : Nat) (p : Packet) (s : State) : marks (applyPacket die p s) = marks s := by
  unfold applyPacket
  split
  · rfl
  · simp [marks_foldl]

@[simp] theorem marks_settlePaddock (die fuel : Nat) (s : State) : marks (settlePaddock die fuel s) = marks s := by
  induction fuel generalizing s with
  | zero => exact marks_runUpds ..
  | succ n ih =>
    unfold settlePaddock
    dsimp only
    split
    · exact marks_runUpds ..
    · simp [ih]

theorem marks_evictRound (e c : Nat) (l : List Nat) (s : State) : marks (evictRound e c l s) = marks s :=
  marks_foldl (fun s d => (marks_settlePaddock ..).trans ((marks_forwardTo ..).trans (marks_foldl (fun s k => marks_forwardTo d k (2 ^ 32) s) _ s))) l s

theorem marks_evictRounds (e c : Nat) (l : List Nat) (fuel : Nat) (s : State) : marks (evictRounds e c l fuel s) = marks s := by
  induction fuel generalizing s with
  | zero => rfl
  | succ n ih => exact (ih _).trans (marks_evictRound ..)

theorem marks_evictDrain (e : Nat) (l : List Nat) (s : State) : marks (evictDrain e l s).2 = marks s := by
  unfold evictDrain
  dsimp only
  rw [marks_evictRounds, marks_foldl fun s d => marks_nullSlots e d l s, marks_foldl fun s d => (marks_forwardTo ..).trans (marks_modRepl ..),
    marks_foldl fun s g => marks_takeGrant g s]

/-- What the end of an eviction keeps. -/
structure Stays (s t : State) : Prop where
  marks : marks t = marks s
  air : t.air = s.air
  slotReqs : t.slotReqs = s.slotReqs
  grants : t.grants = s.grants
  paddock : ∀ d, (t.repl d).paddock = (s.repl d).paddock

theorem Stays.refl (s : State) : Stays s s := ⟨rfl, rfl, rfl, rfl, fun _ => rfl⟩

theorem Stays.trans {s t u : State} (h : Stays s t) (g : Stays t u) : Stays s u :=
  ⟨g.marks.trans h.marks, g.air.trans h.air, g.slotReqs.trans h.slotReqs, g.grants.trans h.grants, fun d => (g.paddock d).trans (h.paddock d)⟩

theorem repl_logged {s t : State} (h : DeviceFrame.Logged s t) (d : Nat) : t.repl d = s.repl d := by
  rw [State.repl, State.repl, State.die, State.die, h.dies]

/-- What logging keeps of the module. -/
theorem logged_module {s t : State} (h : DeviceFrame.Logged s t) : t.memb = s.memb ∧ t.epoch = s.epoch ∧ t.arch = s.arch ∧ t.quies = s.quies ∧
    t.capo = s.capo := by
  refine ⟨?_, ?_, ?_, ?_, ?_⟩ <;> rw [← h.rest]

theorem stays_logged {s t : State} (h : DeviceFrame.Logged s t) : Stays s t :=
  ⟨by rw [← h.rest]; rfl, by rw [← h.rest], by rw [← h.rest], by rw [← h.rest], fun d => by rw [repl_logged h]⟩

theorem stays_logRepl (kind detail a b : Nat) (s : State) : Stays s (logRepl kind detail a b s) :=
  stays_logged (DeviceFrame.logRepl_logged ..)

theorem stays_foldl {α : Type} {f : State → α → State} (h : ∀ s a, Stays s (f s a)) (l : List α) (s : State) : Stays s (l.foldl f s) := by
  induction l generalizing s with
  | nil => exact .refl s
  | cons a l ih => exact (h s a).trans (ih _)

theorem stays_modPend (s : State) (id : Nat) (f : Pend → Pend) : Stays s (s.modPend id f) := ⟨rfl, rfl, rfl, rfl, fun _ => rfl⟩

theorem stays_wakeRsyncs (d : Nat) (s : State) : Stays s (wakeRsyncs d s) := ⟨rfl, rfl, rfl, rfl, fun _ => rfl⟩

theorem stays_endLag (d : Nat) (s : State) : Stays s (endLag d s) := by
  unfold endLag
  split
  · refine Stays.trans ?_ (stays_logRepl ..)
    exact ⟨rfl, rfl, rfl, rfl, fun e => DieRules.repl_modRepl_keeps (r := Repl.paddock) s fun _ => rfl⟩
  · exact .refl s

theorem stays_loseUpds (l : List Upd) (s : State) : Stays s (loseUpds l s) := by
  induction l generalizing s with
  | nil => exact .refl s
  | cons u l ih =>
    unfold loseUpds
    split
    · exact ih s
    · exact ((stays_modPend ..).trans (stays_logRepl ..)).trans (ih _)

theorem stays_losePends (e c : Nat) (gs : Nat → Nat) (l : List Pend) (s : State) : Stays s (losePends e c gs l s) := by
  induction l generalizing s with
  | nil => exact .refl s
  | cons p l ih =>
    unfold losePends
    refine Stays.trans ?_ (ih _)
    have lost (k sq : Nat) (f : Pend → Pend) : Stays s (logRepl evReplLost k (gs sq) p.fpc.toNat (s.modPend p.id f)) :=
      (stays_modPend ..).trans (stays_logRepl ..)
    split
    · split
      · exact lost ..
      · exact .refl s
    · split
      · exact lost ..
      · exact .refl s
    · split
      · split
        · exact lost ..
        · exact stays_modPend ..
      · exact .refl s
    · exact .refl s

/-- No packet waits at the survivors `l` or at the dying die `e`. -/
def emptied (e : Nat) (l : List Nat) (s : State) : State :=
  (l.foldl (fun s d => s.modRepl d fun r =>
    let o := lset r.outLog e []
    { r with paddock := [], outLog := o, sent := o.map (·.length) }) s).modRepl e fun r =>
      { r with paddock := [], outLog := List.replicate 8 [], sent := List.replicate 8 0, upds := [] }

/-- The state of step 6 of R322: the dying die is no member any longer, and nothing of the old epoch is on its way. -/
def parted (e : Nat) (l : List Nat) (s : State) : State :=
  { s with
    memb := setBit s.memb e false
    epoch := (s.epoch + 1) % 2 ^ 16
    air := []
    slotReqs := s.slotReqs.filter (·.die != e)
    grants := s.grants.filter (·.die != e)
    capo := if s.capo.holder == e then { s.capo with holder := l.headD 0, grants := 0, since := s.cycle } else s.capo
    arch := s.arch.map (Arch.again s.cycle) }

theorem evict_stays (e : Nat) (s : State) : Stays (parted e (s.others e) (emptied e (s.others e) (evictDrain e (s.others e) s).2)) (evict e s) := by
  unfold evict
  dsimp only
  refine Stays.trans ?_ (stays_logRepl ..)
  refine Stays.trans (Stays.trans ?_ (stays_foldl (f := fun s d => endLag d (wakeRsyncs d s))
    (fun s d => (stays_wakeRsyncs ..).trans (stays_endLag ..)) (s.others e) _)) ⟨rfl, rfl, rfl, rfl, fun _ => rfl⟩
  exact (stays_loseUpds ..).trans (stays_losePends ..)

theorem paddock_modRepl {s : State} {d j : Nat} {f : Repl → Repl} (hf : ∀ r, (f r).paddock = []) (h : j = d ∨ (s.repl d).paddock = []) :
    ((s.modRepl j f).repl d).paddock = [] := by
  by_cases same : j = d
  · subst same
    by_cases inside : j < s.dies.length
    · rw [DieRules.repl_modRepl_self s inside, hf]
    · have outside : (s.modRepl j f).dies[j]? = none := List.getElem?_eq_none (by simpa using inside)
      rw [State.repl, State.die, MoveRows.lget_eq_getD, outside]
      rfl
  · rw [DieRules.repl_modRepl_ne s same]
    exact h.resolve_left same

theorem paddock_foldl {d : Nat} {f : Repl → Repl} (hf : ∀ r, (f r).paddock = []) (l : List Nat) {s : State} (h : (s.repl d).paddock = []) :
    ((l.foldl (fun s d => s.modRepl d f) s).repl d).paddock = [] := by
  induction l generalizing s with
  | nil => exact h
  | cons a l ih => exact ih (paddock_modRepl hf (.inr h))

theorem paddock_emptied {e d : Nat} {l : List Nat} (s : State) (hd : d ∈ l) : ((emptied e l s).repl d).paddock = [] := by
  refine paddock_modRepl (fun _ => by rfl) (.inr ?_)
  induction l generalizing s with
  | nil => cases hd
  | cons a l ih =>
    rcases List.mem_cons.1 hd with rfl | hd
    · exact paddock_foldl (fun _ => by rfl) l (paddock_modRepl (fun _ => by rfl) (.inl rfl))
    · exact ih _ hd

theorem bit_clear {x n : Nat} (h : bitOf x n = true) : setBit x n false = x - 2 ^ n := by
  simp [setBit, h]

theorem bit_set {x n : Nat} (h : bitOf x n = false) : setBit x n true = x + 2 ^ n := by
  simp [setBit, h]

theorem marks_emptied (e : Nat) (l : List Nat) (s : State) : marks (emptied e l s) = marks s := by
  rw [emptied, marks_modRepl, marks_foldl fun s d => marks_modRepl ..]

/-- Eviction of a member (R322). -/
theorem evict_eq {s : State} {e : Nat} (mem : s.isMember e = true) : (evict e s).memb = s.memb - 2 ^ e ∧
    (evict e s).epoch = (s.epoch + 1) % 2 ^ 16 ∧ (evict e s).air = [] ∧ (∀ q ∈ (evict e s).slotReqs, q.die ≠ e) ∧
    (∀ g ∈ (evict e s).grants, g.die ≠ e) ∧ ∀ d ∈ s.others e, ((evict e s).repl d).paddock = [] := by
  obtain ⟨marks_, air, reqs, grants, paddock⟩ := evict_stays e s
  have before : marks (emptied e (s.others e) (evictDrain e (s.others e) s).2) = marks s := (marks_emptied ..).trans (marks_evictDrain ..)
  obtain ⟨memb, epoch⟩ := Prod.mk.inj before
  obtain ⟨memb', epoch'⟩ := Prod.mk.inj marks_
  refine ⟨?_, ?_, air, fun q hq => ?_, fun g hg => ?_, fun d hd => (paddock d).trans (paddock_emptied _ hd)⟩
  · rw [memb', parted, memb, bit_clear mem]
  · rw [epoch', parted, epoch]
  · rw [reqs] at hq
    simpa using (List.mem_filter.1 hq).2
  · rw [grants] at hg
    simpa using (List.mem_filter.1 hg).2

theorem execEviction_eq {s : State} {e : Nat} (ha : s.arg = .n1 e) (mem : s.isMember e = true) (state : (s.repl e).mstate = .evicted) :
    exec .eviction s = .next (evict e s) := by
  show execEviction s = _
  have there : s.condemned e = true := by rw [State.condemned, mem, state]; rfl
  simp only [execEviction, ha, there]
  rfl

/-! ## Counter wraps (R324) -/

theorem drained_iff (s : State) (alive : ∀ d, d < 8 → s.isMember d = true → (s.repl d).mstate ≠ .evicted) :
    s.drained = true ↔ quietRepl s := by
  have sound : ((List.range 8).any s.condemned) = false := List.any_eq_false.2 fun d hd => by
    simpa [State.condemned] using alive d (List.mem_range.1 hd)
  simp only [State.drained, sound, Bool.not_false, Bool.and_true, Bool.and_eq_true, List.isEmpty_iff, List.all_eq_true, List.mem_range,
    Bool.or_eq_true, Bool.not_eq_true', quietRepl, and_assoc]
  refine and_congr Iff.rfl (and_congr Iff.rfl (and_congr Iff.rfl (forall₂_congr fun d hd => ?_)))
  constructor
  · intro h mem
    obtain ⟨upds, paddock, logs⟩ := h.resolve_left (by rw [mem]; decide)
    exact ⟨upds, paddock, logs, alive d hd mem⟩
  · intro h
    cases mem : s.isMember d with
    | false => exact .inl rfl
    | true =>
      obtain ⟨upds, paddock, logs, -⟩ := h mem
      exact .inr ⟨upds, paddock, logs⟩

/-- A die that is not of a list keeps its replica's state. -/
theorem repl_untouched {f : Repl → Repl} {d : Nat} (l : List Nat) (out : d ∉ l) (s : State) :
    (l.foldl (fun s d => s.modRepl d f) s).repl d = s.repl d := by
  induction l generalizing s with
  | nil => rfl
  | cons b l ih =>
    obtain ⟨ne, out'⟩ := List.ne_and_not_mem_of_not_mem_cons out
    exact (ih out' _).trans (DieRules.repl_modRepl_ne s ne.symm)

/-- The counters of each die of a list at 0. -/
theorem repl_rebased (l : List Nat) (nodup : l.Nodup) : ∀ (s : State), (∀ d ∈ l, d < s.dies.length) → ∀ d ∈ l,
    (l.foldl (fun s d => s.modRepl d fun r => r.rebase ((r.sep + 1) % 256)) s).repl d = (s.repl d).rebase (((s.repl d).sep + 1) % 256) := by
  induction l with
  | nil => simp
  | cons a l ih =>
    intro s inside d hd
    obtain ⟨out, nodup'⟩ := List.nodup_cons.1 nodup
    rw [List.foldl_cons]
    rcases List.mem_cons.1 hd with rfl | hd
    · rw [repl_untouched l out, DieRules.repl_modRepl_self s (inside d List.mem_cons_self)]
    · have ne : a ≠ d := fun same => out (same ▸ hd)
      rw [ih nodup' _ (fun d hd => by simpa using inside d (List.mem_cons_of_mem _ hd)) d hd, DieRules.repl_modRepl_ne s ne]

theorem repl_rebaseAll {s : State} (dies : s.dies.length = 8) {d : Nat} (hd : d < 8) (mem : s.isMember d = true) :
    (rebaseAll s).repl d = (s.repl d).rebase (((s.repl d).sep + 1) % 256) := by
  refine repl_rebased _ (List.nodup_range.filter _) s (fun d hd => ?_) d (List.mem_filter.2 ⟨List.mem_range.2 hd, mem⟩)
  exact dies ▸ List.mem_range.1 (List.mem_filter.1 hd).1

/-- What a rebase keeps, and the capo's counters after it. -/
theorem rebaseAll_rest (s : State) : marks (rebaseAll s) = marks s ∧ (rebaseAll s).arch = s.arch ∧ (rebaseAll s).quies = s.quies ∧
    (rebaseAll s).capo.next = 0 ∧ (rebaseAll s).capo.last = 0 := by
  have keeps {δ : Type} (r : State → δ) (h : ∀ s d f, r (s.modRepl d f) = r s) : r (((List.range 8).filter s.isMember).foldl
      (fun s d => s.modRepl d fun r => r.rebase ((r.sep + 1) % 256)) s) = r s := foldl_keeps (fun s d => h s d _) _ s
  exact ⟨keeps marks fun _ _ _ => rfl, keeps State.arch fun _ _ _ => rfl, keeps State.quies fun _ _ _ => rfl, rfl, rfl⟩

/-- The state after a wrap's rebase. -/
def wrapped (s : State) : State := { rebaseAll s with arch := none, quies := false }

theorem execWrapRebase_eq {s : State} {c : Nat} (arch : s.arch = some (.wrap c)) :
    exec .wrapRebase s = .next (if s.drained then logRepl evReplWrap ((wrapped s).repl (wrapped s).capo.holder).sep
      (nsOfCycles ((wrapped s).cycle - c)) (wrapped s).epoch (wrapped s) else s) := by
  show execWrapRebase s = _
  unfold execWrapRebase
  rw [arch]
  dsimp only
  cases s.drained <;> rfl

/-! ## The pass over the stamps, and rejoins (R324, R325) -/

/-- A replica's state with the stamp of one line rewritten. -/
def restamped (line : Nat) (r : Repl) : Repl :=
  { r with stamps := tmod r.stamps line fun t => if t.sep == r.sep then t else ⟨0, 0, r.sep⟩ }

theorem execStampRewrite_eq {s : State} {die line : Nat} {rest : List (Nat × Nat)} (ha : s.arg = .n2 die line)
    (hr : s.rewrite = (die, line) :: rest) (listed : line ≠ s.replSize) :
    exec .stampRewrite s = .next ({ s with rewrite := rest }.modRepl die (restamped line)) := by
  have run : exec .stampRewrite s = .next (rewriteStamp die line s) := by
    cases s
    cases ha
    rfl
  have there : s.rewrite.contains (die, line) = true := by rw [hr]; simp
  have first : dropFirst (· == (die, line)) s.rewrite = rest := by rw [hr]; simp [dropFirst]
  have line_ : (line == s.replSize) = false := by simpa using listed
  simp only [run, rewriteStamp, there, first, line_]
  rfl

theorem execRejoinRequest_eq {s : State} {d : Nat} (ha : s.arg = .n1 d) (free : s.archFree = true) (out : s.isMember d = false)
    (state : (s.repl d).mstate = .evicted) (hd : d < 8) : exec .rejoinRequest s = .next
      { s.modRepl d (fun r => { r with mstate := .rejoining }) with arch := some (.rejoin d s.cycle), quies := true } := by
  show execRejoinRequest s = _
  have all : (s.archFree && !s.isMember d && (s.repl d).mstate == .evicted && decide (d < 8)) = true := by
    rw [free, out, state, decide_eq_true hd]; rfl
  unfold execRejoinRequest
  rw [ha]
  dsimp only
  rw [if_pos all]

theorem execRejoinCopyComplete_eq {s : State} {d c : Nat} {ok : Bool} (ha : s.arg = .ok1 d ok) (arch : s.arch = some (.rejoin d c))
    (drained : s.drained = true) : exec .rejoinCopyComplete s = .next (rejoined d ok s) := by
  show execRejoinCopyComplete s = _
  unfold execRejoinCopyComplete
  rw [ha, arch]
  dsimp only
  rw [if_pos (by simp [drained])]

/-- The replica state of a die that becomes a member, by that of the die that it is copied from. -/
def asMember (r y : Repl) : Repl :=
  { y with stamps := r.stamps, sepRest := r.sepRest, sep := r.sep, mstate := .member, paddock := [], upds := [], outLog := List.replicate 8 [] }

/-- A replica that has been copied, with its die a member. -/
def copied (src d : Nat) (s : State) : State :=
  { (copyReplica src d s).modRepl d (asMember (s.repl src)) with
    memb := setBit s.memb d true, epoch := (s.epoch + 1) % 2 ^ 16, arch := none, quies := false }

theorem rejoined_true {s : State} {d src : Nat} (hs : (List.range 8).find? s.isMember = some src) (link : s.linkDead src d = false) :
    rejoined d true s = logRepl evReplJoin d (rebaseAll (copied src d s)).epoch 0 (rebaseAll (copied src d s)) := by
  simp only [rejoined, hs, Option.getD_some, link, Bool.not_false, Bool.and_true, if_true]
  rfl

/-- A replica's state when its die stays evicted. -/
def asEvicted (r : Repl) : Repl := { r with mstate := .evicted }

theorem rejoined_false (s : State) (d : Nat) : rejoined d false s = logRepl evReplEvict d
    (lget (s.repl (((List.range 8).find? s.isMember).getD d)).applied d 0) s.epoch
    { s.modRepl d asEvicted with arch := none, quies := false } := by
  simp only [rejoined, Bool.false_and, Bool.false_eq_true, if_false]
  rfl

theorem dies_copyReplica (src d : Nat) (s : State) : (copyReplica src d s).dies.length = s.dies.length := by
  unfold copyReplica State.repair
  dsimp only
  split <;> rfl

theorem copied_dies (src d : Nat) (s : State) : (copied src d s).dies.length = s.dies.length :=
  (DieRules.modRepl_length (copyReplica src d s) (d := d) (g := asMember (s.repl src))).trans (dies_copyReplica ..)

theorem copied_state {s : State} {src d : Nat} (inside : d < s.dies.length) : ((copied src d s).repl d).mstate = .member :=
  congrArg Repl.mstate (DieRules.repl_modRepl_self (copyReplica src d s) (g := asMember (s.repl src)) (dies_copyReplica src d s ▸ inside))

theorem copied_member {s : State} {src d : Nat} (out : s.isMember d = false) : (copied src d s).memb = s.memb + 2 ^ d ∧
    (copied src d s).isMember d = true := by
  have added : (copied src d s).memb = s.memb + 2 ^ d := bit_set out
  refine ⟨added, ?_⟩
  rw [State.isMember, added, bitOf, beq_iff_eq, Nat.add_div_right _ (Nat.two_pow_pos d)]
  have clear : ¬ (s.memb / 2 ^ d % 2 = 1) := by simpa [State.isMember, bitOf] using out
  omega

/-! ## Line repair (R342) -/

theorem execReplfix_eq {s : State} {d line k : Nat} (ha : s.arg = .n2 d line) (mem : s.isMember d = true) (aligned : line % 32 = 0)
    (small : line < s.replSize) (bad : s.bad.contains (s.replSpa d line / 32) = true)
    (hk : (s.others d).find? (fun k => !s.bad.contains (s.replSpa k line / 32)) = some k) :
    exec .replfix s = .next (if s.caughtUp d k then settleDie d (toldRepl 0x35 d (s.replSpa d line) 0
      (writeStamped d line (s.replBytes k line 32) (s.stampOf k line) s)) else s) := by
  have run : exec .replfix s = .next (fixLine d line s) := by
    cases s
    cases ha
    rfl
  have whole : lineOf line = line := by unfold lineOf; omega
  unfold fixLine at run
  rw [whole] at run
  dsimp only at run
  rw [if_neg (by simp [mem, Nat.not_le.2 small]; simpa using bad), hk] at run
  dsimp only at run
  rw [run]
  cases s.caughtUp d k <;> rfl

end Sys2Proof.MembershipRows

namespace Sys2Proof

open Machine Claims MembershipRows

/-- Settles O56: the event of each change of membership is run. Of an eviction it is shown that nothing before its last step changes MEMB or
EPOCH, and that nothing after that step brings back a packet, a request or a grant. -/
theorem membershipEvents : Obligations.MembershipEvents := by
  refine ⟨?_, ?_, ?_, ?_, ?_, ?_, ?_, ?_, ?_⟩
  · intro s d arch mem state
    exact ⟨fun lags ha => by rw [execLagDetect_eq ha arch mem state, if_pos lags],
      fun none_ ha => by rw [execLagDetect_eq ha arch mem state, none_]; rfl⟩
  · intro s d mem some_
    refine ⟨fun state lags long ha => execLagEvictTimeout_eq ha mem some_ state lags long, fun state dead ha => ?_, fun state live ha => ?_⟩
    · rw [execLinksLost_eq ha mem some_ state, if_pos (List.all_eq_true.2 dead)]
      rfl
    · obtain ⟨k, hk, works⟩ := live
      rw [execLinksLost_eq ha mem some_ state, if_neg fun all => Bool.false_ne_true (works.symm.trans (List.all_eq_true.1 all k hk))]
  · intro s e mem state _
    exact ⟨evict e s, fun ha => execEviction_eq ha mem state, evict_eq mem⟩
  · intro s free
    constructor
    · intro due _
      show execCounterWrap s = _
      rw [execCounterWrap, free, due]
      rfl
    · intro due _
      show execCounterWrap s = _
      rw [execCounterWrap, free, due]
      rfl
  · intro s c arch dies alive
    refine ⟨fun quiet => ?_, fun busy _ => ?_⟩
    · refine ⟨_, fun _ => (execWrapRebase_eq arch).trans (congrArg Host.Outcome.next (if_pos ((drained_iff s alive).2 quiet))), ?_⟩
      have log := DeviceFrame.logRepl_logged evReplWrap ((wrapped s).repl (wrapped s).capo.holder).sep
        (nsOfCycles ((wrapped s).cycle - c)) (wrapped s).epoch (wrapped s)
      obtain ⟨-, -, arch', quies, capo⟩ := logged_module log
      obtain ⟨-, -, -, next, last⟩ := rebaseAll_rest s
      refine ⟨arch', quies, capo.symm ▸ next, capo.symm ▸ last, fun d hd mem => ?_⟩
      have now : (wrapped s).repl d = _ := repl_rebaseAll dies hd mem
      rw [repl_logged log, now]
      exact ⟨rfl, rfl, rfl, rfl, rfl⟩
    · rw [execWrapRebase_eq arch, if_neg fun h => busy ((drained_iff s alive).1 h)]
  · intro s die line rest st hr listed inside hst
    refine ⟨_, fun ha => execStampRewrite_eq ha hr listed, rfl, rfl, ?_⟩
    have now : ({ s with rewrite := rest }.modRepl die (restamped line)).repl die = restamped line (s.repl die) :=
      DieRules.repl_modRepl_self { s with rewrite := rest } inside
    rw [now, restamped, tget_tmod_self, hst, Option.map_some]
    simp only [beq_iff_eq]
  · intro s d free out state hd ha
    exact execRejoinRequest_eq ha free out state hd
  · intro s d src c arch drained hd dies out hs
    refine ⟨fun link => ?_, ?_⟩
    · refine ⟨_, fun ha => (execRejoinCopyComplete_eq ha arch drained).trans (congrArg Host.Outcome.next (rejoined_true hs link)), ?_⟩
      have log := DeviceFrame.logRepl_logged evReplJoin d (rebaseAll (copied src d s)).epoch 0 (rebaseAll (copied src d s))
      have inside : d < s.dies.length := dies ▸ hd
      obtain ⟨marks_, arch', quies, -, -⟩ := rebaseAll_rest (copied src d s)
      obtain ⟨memb, epoch⟩ := Prod.mk.inj marks_
      obtain ⟨added, mem⟩ := copied_member (src := src) out
      have now := repl_rebaseAll ((copied_dies ..).trans dies) hd mem
      obtain ⟨lmemb, lepoch, larch, lquies, -⟩ := logged_module log
      refine ⟨lmemb.trans (memb.trans added), lepoch.trans epoch, larch.trans arch', lquies.trans quies, ?_, ?_⟩
      · rw [repl_logged log, now]
        exact copied_state inside
      · rw [repl_logged log, now]
        rfl
    · refine ⟨_, fun ha => (execRejoinCopyComplete_eq ha arch drained).trans (congrArg Host.Outcome.next (rejoined_false s d)), ?_⟩
      have log := DeviceFrame.logRepl_logged evReplEvict d (lget (s.repl (((List.range 8).find? s.isMember).getD d)).applied d 0) s.epoch
        { s.modRepl d asEvicted with arch := none, quies := false }
      obtain ⟨lmemb, lepoch, larch, -, -⟩ := logged_module log
      refine ⟨lmemb, lepoch, larch, ?_⟩
      rw [repl_logged log]
      exact congrArg Repl.mstate (DieRules.repl_modRepl_self s (g := asEvicted) (dies ▸ hd))
  · intro s d k line mem aligned small bad hk
    refine ⟨fun ahead ha => ?_, fun ⟨j, hj, behind⟩ ha => ?_⟩
    · have all : s.caughtUp d k = true := List.all_eq_true.2 fun j hj => decide_eq_true (ahead j (List.mem_range.1 hj))
      rw [execReplfix_eq ha mem aligned small bad hk, if_pos all]
    · have some_ : ¬ s.caughtUp d k = true := fun h =>
        Nat.not_le.2 behind (of_decide_eq_true (List.all_eq_true.1 h j (List.mem_range.2 hj)))
      rw [execReplfix_eq ha mem aligned small bad hk, if_neg some_]

end Sys2Proof

/-! Gates at their homes: requests, answers, tokens and migration (R332 to R338). -/

namespace Sys2Proof.GateRows

open Sys2Proof Sys2Proof.Machine Sys2Proof.Claims

/-! ## Requests at the home (R333, R334, R336) -/

theorem grants_iff (g : Gate) (o : GateOp) : g.grants o = true ↔ allows g o := by
  simp only [Gate.grants, allows, Bool.and_eq_true, List.any_eq_true, beq_iff_eq]
  refine and_congr Iff.rfl (exists_congr fun a => and_congr Iff.rfl (and_congr Iff.rfl ?_))
  cases o.ask <;> simp

theorem putGate_eq (g : Gate) (s : State) : putGate g s = settled g s := by
  unfold putGate wakeGate settled
  rfl

/-- The state of an operation. -/
theorem setGateSt_eq (s : State) (id : Nat) (st : GateSt) :
    s.setGateSt id st = { s with gateOps := s.gateOps.map fun (p : GateOp) => if p.id == id then { p with st := st } else p } := rfl

/-- An unlimited gate without delayed signals is up to date at once. -/
theorem accrue_unlimited {g : Gate} (rate : g.rate = 0) (none_ : g.delayed = []) (now : Nat) : g.accrue now = { g with at_ := now } := by
  cases g
  cases rate
  cases none_
  rfl

section
variable {s : State} {o : GateOp} {g : Gate}

/-- An operation that its gate does not hold is served, or held while the gate moves. -/
theorem gateServe_eq (hg : tget s.gates o.gid = some g) (sent : o.st = .sent) (home : g.home < 8) (free : g.held = []) : gateServe o s =
    match g.mig with
    | .active | .forwarding => serveHome o g s
    | .freezing | .copying => { s with gates := tset s.gates o.gid { g with held := [o.id] } }
    | .arriving => if o.fwd then serveHome o g s else { s with gates := tset s.gates o.gid { g with held := [o.id] } } := by
  unfold gateServe
  simp only [hg, Nat.not_le.2 home, sent, free, List.contains_nil, bne_self_eq_false, Bool.or_self, Bool.false_eq_true, if_false, List.nil_append]
    <;> rfl

theorem execGateRequest_eq (ha : s.arg = .n1 o.id) (ho : s.gateOps.find? (·.id == o.id) = some o) (event : s.gateEvent o.id = none) :
    exec .gateRequest s = .next (gateServe o s) := by
  have op : s.gateOp o.id = some o := ho
  show execGateRequest s = _
  simp only [execGateRequest, ha, gateRequest, op, event]

theorem execGateRequest_waits {d : Nat} {e : ShedEvent} (ha : s.arg = .n1 o.id) (ho : s.gateOps.find? (·.id == o.id) = some o)
    (event : s.gateEvent o.id = some (d, e)) (later : (s.die d).oldest e = false) : exec .gateRequest s = .next s := by
  have op : s.gateOp o.id = some o := ho
  show execGateRequest s = _
  simp only [execGateRequest, ha, gateRequest, op, event, later]
  rfl

theorem serveHome_denies (fence : s.isFenced g.home 8 0 = false) (no : ¬ allows g o) : serveHome o g s = s.setGateSt o.id .denied := by
  unfold serveHome
  rw [fence, if_neg Bool.false_ne_true, if_neg fun h => no ((grants_iff g o).1 h)]

theorem serveHome_serves (fence : s.isFenced g.home 8 0 = false) (yes : allows g o) (rate : g.rate = 0) (none_ : g.delayed = []) :
    serveHome o g s = serveGate o { g with at_ := s.cycle } s := by
  unfold serveHome
  rw [fence, if_neg Bool.false_ne_true, if_pos ((grants_iff g o).2 yes), accrue_unlimited rate none_]

theorem serveGate_sig {n : Nat} (ask : o.ask = .sig n) (rate : g.rate = 0) : serveGate o g s =
    retryGate o.owner ((settled { g with value := min (g.value + n) (2 ^ 64 - 1) } s).setGateSt o.id (.answered 0)) := by
  simp only [serveGate, ask, rate, beq_self_eq_true, if_true, putGate_eq, Gate.signal]

theorem serveGate_wait {thr : Nat} (ask : o.ask = .wait thr) : serveGate o g s =
    (settled g s).setGateSt o.id (if thr ≤ g.value then .answered g.value else .waiting) := by
  simp only [serveGate, ask, putGate_eq]

theorem serveGate_rd (ask : o.ask = .rd) : serveGate o g s =
    retryGate o.owner ((settled g s).setGateSt o.id (.answered g.value)) := by
  simp only [serveGate, ask, putGate_eq]

/-! ## Answers (R336, R337) -/

theorem exec_gateAnswer (ha : s.arg = .n1 o.id) : exec .gateAnswer s = .next (gateAnswer o.id s) := by
  show execGateAnswer s = _
  simp only [execGateAnswer, ha]

theorem gateAnswer_far {m d tag : Nat} (ho : s.gateOps.find? (·.id == o.id) = some o) (away : o.away = some (m, d, tag)) :
    gateAnswer o.id s = answerFar o s := by
  have op : s.gateOp o.id = some o := ho
  simp only [gateAnswer, op, away]
  rfl

theorem gateAnswer_here (ho : s.gateOps.find? (·.id == o.id) = some o) (away : o.away = none) : gateAnswer o.id s =
    match o.st with
    | .sent | .waiting => s
    | .denied => takeTrap o.owner .word { cause := .gden } (s.dropGateOp o.id)
    | .answered _ =>
      match o.ask with
      | .wait _ => retryGate o.owner s
      | .sig _ | .rd =>
        match s.pend.find? (·.kind == .gate o.id) with
        | none => s
        | some p =>
          match p.flag with
          | none => pendWhole p (s.dropGateOp o.id)
          | some f => ((s.dropGateOp o.id).modPend p.id fun p => { p with kind := .ready }).modStrand p.owner fun x =>
              { x with phase := .body, flags := lmod x.flags f (· + 1) }.advance p.len := by
  have op : s.gateOp o.id = some o := ho
  unfold gateAnswer
  simp only [op, away, Option.isSome_none, Bool.false_eq_true, if_false] <;> rfl

end

/-! ## Tokens (R334) -/

theorem execGateTokenAccrue_eq {s : State} {g : Gate} (ha : s.arg = .n1 g.gid) (hg : tget s.gates g.gid = some g) (still : g.mig ≠ .copying)
    (home : g.home < 8) : exec .gateTokenAccrue s = .next (putGate (g.accrue s.cycle) s) := by
  have moving : (g.mig == .copying) = false := by simpa using still
  show execGateTokenAccrue s = _
  simp only [execGateTokenAccrue, ha, hg, moving, Nat.not_le.2 home]
  rfl

theorem accrue_idle {g : Gate} (limited : g.rate ≠ 0) (none_ : g.delayed = []) (now : Nat) : g.accrue now =
    { g with tokens := min g.burst (g.tokens + (g.credit + g.rate * (now - g.at_) * 4) / 5000000)
             credit := (g.credit + g.rate * (now - g.at_) * 4) % 5000000, at_ := now } := by
  have rate : (g.rate == 0) = false := by simpa using limited
  simp only [Gate.accrue, rate, Bool.false_eq_true, if_false, none_, tokenCredit, List.length_nil, Nat.min_zero, List.take_nil, List.foldl_nil,
    List.drop_nil, Nat.sub_zero]

/-- The first delayed signal takes the first token. -/
theorem accrue_first {g : Gate} (limited : g.rate ≠ 0) {who n : Nat} {rest : List (Nat × Nat)} (some_ : g.delayed = (who, n) :: rest)
    (empty : g.tokens = 0) {now : Nat} (one : (g.credit + g.rate * (now - g.at_) * 4) / 5000000 = 1) : g.accrue now =
    { g with value := min (g.value + n) (2 ^ 64 - 1), tokens := min g.burst 0, delayed := rest
             credit := (g.credit + g.rate * (now - g.at_) * 4) % 5000000, at_ := now } := by
  have rate : (g.rate == 0) = false := by simpa using limited
  have first : min (0 + 1) (rest.length + 1) = 1 := by omega
  simp only [Gate.accrue, rate, Bool.false_eq_true, if_false, some_, tokenCredit, empty, one, List.length_cons, first, List.take_succ_cons,
    List.take_zero, List.foldl_cons, List.foldl_nil, List.drop_succ_cons, List.drop_zero, Gate.signal]

/-! ## Migration (Table 15.13, R338) -/

section
variable {s : State} {g : Gate} (hg : tget s.gates g.gid = some g)
include hg

theorem execGateMigrate_eq {m d : Nat} (ha : s.arg = .n3 g.gid m d) (home : g.home < 8) (active : g.mig = .active) (die : d < 8) (mod : m < 2 ^ 20)
    (other : m = s.modId → d ≠ g.home ∧ s.isFenced d 8 0 = false) :
    exec .gateMigrate s = .next (raiseShed g.home ⟨.migr, 0, g.gid % 256, g.gid, m * 8 + d, false⟩
      { s with gates := tset s.gates g.gid { g with mig := .freezing, newMod := m, newHome := d } }) := by
  have far : (m == s.modId && d == g.home) = false := by
    by_cases same : m = s.modId
    · simp [(other same).1]
    · simp [same]
  have sound : (m == s.modId && s.isFenced d 8 0) = false := by
    by_cases same : m = s.modId
    · simp [(other same).2]
    · simp [same]
  have all : (g.mig == .active && decide (g.home < 8) && decide (d < 8) && decide (m < 2 ^ 20) && !(m == s.modId && d == g.home) &&
      !(m == s.modId && s.isFenced d 8 0)) = true := by
    rw [active, decide_eq_true home, decide_eq_true die, decide_eq_true mod, far, sound]
    rfl
  show execGateMigrate s = _
  unfold execGateMigrate
  rw [ha]
  dsimp only
  rw [hg]
  dsimp only
  rw [if_pos all]
  rfl

theorem gateStep_eq {st : GMig} (f : Gate → State → State) (ha : s.arg = .n1 g.gid) (home : g.home < 8) (state : g.mig = st) :
    gateStep st f s = .next (f g s) := by
  have both : (g.mig == st && decide (g.home < 8)) = true := by rw [decide_eq_true home, state]; simp
  unfold gateStep
  rw [ha]
  dsimp only
  rw [hg]
  dsimp only
  rw [if_pos both]

theorem execGateMigrateAck_here (ha : s.arg = .n1 g.gid) (home : g.home < 8) (state : g.mig = .copying) (here : g.newMod = s.modId)
    (free : g.held = []) : exec .gateMigrateAck s = .next (settled { g with mig := .forwarding, home := g.newHome } s) := by
  have mine : (g.newMod == s.modId) = true := by simpa using here
  show execGateMigrateAck s = _
  unfold execGateMigrateAck
  refine (gateStep_eq hg _ ha home state).trans ?_
  simp only [mine, if_true, free, forwardHeld, putGate_eq]

/-- The gate as its old home has it once it has gone to another module. -/
def movedAway (g : Gate) : Gate := { g with mig := .forwarding, home := 8, held := [] }

theorem execGateMigrateAck_away (ha : s.arg = .n1 g.gid) (home : g.home < 8) (state : g.mig = .copying) (away : g.newMod ≠ s.modId)
    (free : g.held = []) : exec .gateMigrateAck s = .next (sendGateAway g (putGate (movedAway g) s)) := by
  have other : (g.newMod == s.modId) = false := by simpa using away
  show execGateMigrateAck s = _
  unfold execGateMigrateAck
  refine (gateStep_eq hg _ ha home state).trans ?_
  simp only [other, Bool.false_eq_true, if_false, free, forwardHeld, movedAway]

theorem execGateRetire_eq (ha : s.arg = .n1 g.gid) (state : g.mig = .forwarding) : exec .gateRetire s = .next
    (logMoved g.gid g.newMod g.newHome g.acl { s with
      gates := tset s.gates g.gid { g with mig := .active }, out := s.out ++ [.gateMoved g.gid g.newMod g.newHome g.acl] }) := by
  have there : (g.mig == .forwarding) = true := by rw [state]; rfl
  show execGateRetire s = _
  unfold execGateRetire
  rw [ha]
  dsimp only
  rw [hg]
  dsimp only
  rw [if_pos there]

end

theorem logged_gates {s t : State} (h : DeviceFrame.Logged s t) : t.gates = s.gates ∧ t.out = s.out ∧ t.gateOps = s.gateOps := by
  refine ⟨?_, ?_, ?_⟩ <;> rw [← h.rest]

end Sys2Proof.GateRows

namespace Sys2Proof

open Machine Claims GateRows

/-- Settles O57: each state of an operation and of a gate is run; a gate without limit, or without a delayed signal, is brought up to date in
one step. -/
theorem gateEvents : Obligations.GateEvents := by
  refine ⟨?_, ?_, ?_, ?_, ?_, ?_⟩
  · intro s o g ho hg gid sent away event home free fence put now
    have run (t : State) (h : gateServe o s = t) : Does .gateRequest (.n1 o.id) s t := fun ha =>
      (execGateRequest_eq ha ho event).trans (congrArg Host.Outcome.next h)
    refine ⟨fun state => ?_, fun state => run _ ?_⟩
    · have served : gateServe o s = serveHome o g s := by
        rw [gateServe_eq hg sent home free]
        rcases state with h | h | ⟨h, fwd⟩
        · rw [h]
        · rw [h]
        · rw [h, fwd]; rfl
      refine ⟨fun no => run _ (served.trans (serveHome_denies fence no)), fun yes rate none_ => ?_⟩
      have serves := served.trans (serveHome_serves fence yes rate none_)
      exact ⟨fun n ask => run _ (serves.trans (serveGate_sig ask rate)), fun thr ask => run _ (serves.trans (serveGate_wait ask)),
        fun ask => run _ (serves.trans (serveGate_rd ask))⟩
    · rw [gateServe_eq hg sent home free]
      rcases state with h | h | ⟨h, fwd⟩
      · rw [h]
      · rw [h]
      · rw [h, fwd]; rfl
  · intro s o d e ho event later ha
    exact execGateRequest_waits ha ho event later
  · intro s o m d tag ho away s1
    have run (t : State) (h : answerFar o s = t) : Does .gateAnswer (.n1 o.id) s t := fun ha =>
      (exec_gateAnswer ha).trans (congrArg Host.Outcome.next ((gateAnswer_far ho away).trans h))
    refine ⟨fun st => run _ ?_, fun v st => run _ ?_⟩
    · simp only [answerFar, st, away]
      rfl
    · simp only [answerFar, st, away]
      rfl
  · intro s o ho away s1
    have run (t : State) (h : gateAnswer o.id s = t) : Does .gateAnswer (.n1 o.id) s t := fun ha =>
      (exec_gateAnswer ha).trans (congrArg Host.Outcome.next h)
    refine ⟨fun st => run _ ?_, fun v thr st ask => run _ ?_, fun v p st ask hp => ⟨fun flag => run _ ?_, fun f flag => run _ ?_⟩⟩
    · simp only [gateAnswer_here ho away, st]
      rfl
    · simp only [gateAnswer_here ho away, st, ask]
    all_goals
      have done : gateAnswer o.id s = match p.flag with
          | none => pendWhole p (s.dropGateOp o.id)
          | some f => ((s.dropGateOp o.id).modPend p.id fun p => { p with kind := .ready }).modStrand p.owner fun x =>
              { x with phase := .body, flags := lmod x.flags f (· + 1) }.advance p.len := by
        rw [gateAnswer_here ho away]
        cases h : o.ask with
        | wait thr => exact absurd h (ask thr)
        | _ => simp only [st, hp]
      rw [done, flag]
      rfl
  · intro s g hg still home
    have run (t : Gate) (h : g.accrue s.cycle = t) : Does .gateTokenAccrue (.n1 g.gid) s (settled t s) := fun ha =>
      (execGateTokenAccrue_eq ha hg still home).trans (congrArg Host.Outcome.next ((putGate_eq _ s).trans (congrArg (settled · s) h)))
    constructor
    · intro limited none_ c
      exact run _ (accrue_idle limited none_ _)
    · intro limited who n rest some_ empty c one
      exact run _ (accrue_first limited some_ empty one)
  · intro s g hg put
    refine ⟨fun m d home active die mod other ha => execGateMigrate_eq hg ha home active die mod other, fun home state rate none_ ha => ?_,
      fun home state here free ha => execGateMigrateAck_here hg ha home state here free, fun home state away free => ?_, fun state => ?_⟩
    · show execGateMigrateCopy s = _
      unfold execGateMigrateCopy
      refine (gateStep_eq hg _ ha home state).trans ?_
      rw [accrue_unlimited rate none_]
    · have same : movedAway g = { g with mig := .forwarding, home := 8 } := by rw [movedAway, ← free]
      refine ⟨_, _, fun ha => execGateMigrateAck_away hg ha home state away free, ?_, rfl, tget_tset_self .., rfl⟩
      rw [← same]
      exact tget_tset_self ..
    · have log := DeviceFrame.logAll_logged (fun x => g.acl.any fun a => a.tenant == x.d.tenant && (a.sig || a.wait || a.read))
        ⟨evGateMove, 0, 0xFFFF, 0, g.gid, g.newMod * 8 + g.newHome⟩ s.ctxs
        { s with gates := tset s.gates g.gid { g with mig := .active }, out := s.out ++ [.gateMoved g.gid g.newMod g.newHome g.acl] }
      obtain ⟨gates, out, ops⟩ := logged_gates log
      refine ⟨_, fun ha => execGateRetire_eq hg ha state, ?_, ?_, ops, log.strands⟩
      · exact (congrArg (tget · g.gid) gates).trans (tget_tset_self ..)
      · exact out ▸ List.mem_append_right _ (List.mem_singleton.2 rfl)

end Sys2Proof

/-! The fabric and the collective engines: packets from other modules, responses, links, and collectives (R168, R206, R242, R346 to R373). -/

namespace Sys2Proof.FabricRows

open Sys2Proof Sys2Proof.Machine Sys2Proof.Claims

/-! ## Packets from other modules (R242, R353, R354) -/

section
variable {s : State} {p : FabPacket}

theorem takePacket_eq (p : FabPacket) (s : State) : takePacket p (flits p s) s = unbuffered p s := rfl

theorem keyLive_unbuffered (p : FabPacket) (s : State) (die key : Nat) : (unbuffered p s).keyLive die key = s.keyLive die key := by
  have keys : ((unbuffered p s).die die).keys = (s.die die).keys := DieRules.die_modDie_keeps (r := Die.keys) s fun _ => rfl
  rw [State.keyLive, State.keyLive, keys]
  rfl

theorem respond_eq (p : FabPacket) (tag : Nat) (data : List Byte) (err : Bool) (s : State) : respond p tag data err s = answers p tag data err s := by
  have waits : (!(s.replies.any fun q => q.way.die == p.die && q.way.port == p.port)) =
      s.replies.all fun q => q.way.die != p.die || q.way.port != p.port := by
    rw [List.not_any_eq_all_not]
    exact congrArg _ (funext fun q => Bool.not_and ..)
  unfold respond answers
  simp only [waits, State.replyMay, replyGo]

/-- The state once a packet has been discarded, and counted where its key is being revoked. -/
def thrown (p : FabPacket) (s : State) : State :=
  discardAt p.die p.port (if (tget s.revoked p.keyid).isSome then (unbuffered p s).pfDrop else unbuffered p s)

section
variable (ha : s.arg = .packet p) (die : p.die < 8) (port : p.port < 16) (fence : s.isFenced p.die 5 p.port = false)
  (fits : packetFits p s.modId = true) (whole : (flits p s).length = 1 + p.len)
include ha die port fence fits whole

/-- A packet that stands whole in its port's buffer. -/
theorem execFabricPacketReceive_eq : exec .fabricPacketReceive s =
    if p.tagOk && s.keyLive p.die p.keyid then .next ((holdPacket p s).getD (servePacket p (unbuffered p s)))
    else .next (match packetTag p.body with
      | some tag => { thrown p s with out := (thrown p s).out ++ [.discarded p.die p.port p.srcMod p.srcDie tag] }
      | none => thrown p s) := by
  have stays : (decide (8 ≤ p.die) || decide (16 ≤ p.port) || s.isFenced p.die 5 p.port || !packetFits p s.modId ||
      (flits p s).length != 1 + p.len) = false := by
    simp [Nat.not_le.2 die, Nat.not_le.2 port, fence, fits, whole]
  show execFabricPacketReceive s = _
  unfold execFabricPacketReceive
  rw [ha]
  refine (if_neg (by rw [show ((lget (s.die p.die).ports p.port Port.zero).flitsOf p) = flits p s from rfl, stays]; exact Bool.false_ne_true)).trans ?_
  rfl

theorem execFabricPacketReceive_serves (tagOk : p.tagOk = true) (live : s.keyLive p.die p.keyid = true) (hold : holdPacket p s = none) :
    exec .fabricPacketReceive s = .next (servePacket p (unbuffered p s)) := by
  rw [execFabricPacketReceive_eq ha die port fence fits whole, tagOk, live, hold]
  rfl

theorem execFabricPacketReceive_throws {tag : Nat} (bad : (p.tagOk && s.keyLive p.die p.keyid) = false) (asks : packetTag p.body = some tag) :
    exec .fabricPacketReceive s = .next { thrown p s with out := (thrown p s).out ++ [.discarded p.die p.port p.srcMod p.srcDie tag] } := by
  rw [execFabricPacketReceive_eq ha die port fence fits whole, bad, asks]
  rfl

end

theorem execFabricPacketReceive_stays (ha : s.arg = .packet p) (bad : packetFits p s.modId = false ∨ (flits p s).length ≠ 1 + p.len ∨
    s.isFenced p.die 5 p.port = true) : exec .fabricPacketReceive s = .next s := by
  have stays : (decide (8 ≤ p.die) || decide (16 ≤ p.port) || s.isFenced p.die 5 p.port || !packetFits p s.modId ||
      (flits p s).length != 1 + p.len) = true := by
    rcases bad with h | h | h <;> simp [h]
  show execFabricPacketReceive s = _
  unfold execFabricPacketReceive
  rw [ha]
  exact if_pos stays

/-! ## Ends of requests (R168, R348) -/

variable {r : GlobReq} (hr : s.globs.find? (fun (x : GlobReq) => x.id == r.id) = some r)

theorem execGlobResponse_eq (id : Nat) (v : Option Nat) (ha : s.arg = .globRsp id v) : exec .globResponse s = .next (globAnswer id v s) := by
  show execGlobResponse s = _
  simp only [execGlobResponse, ha]

/-- A request of a word that has failed: the entry in its context's log, and all ones. -/
def lostReq (why : Nat) (r : GlobReq) (o : Nat) (k : StrandKey) (s : State) : State :=
  (logEvent r.ctx ⟨0x50, why, 0xFFFF, k.grp.launch, r.tmod * 8 + r.tdie, r.va⟩ (dropped r.id s)).modPend o
    fun p => { p with kind := .ready, dests := destsOf p.places ((loadedVals r.etag r.esz 0).map fun v => { v with bits := 0xFFFFFFFF#32 }) }

theorem errorReq_eq (why : Nat) {o : Nat} {k : StrandKey} (op : r.op = some o) (owner : r.owner = some k) (s : State) :
    errorReq why r s = lostReq why r o k s := by
  have launch : s.reqLaunch r = k.grp.launch := by simp only [State.reqLaunch, owner]
  simp only [errorReq, op, launch]
  rfl

include hr

theorem globAnswer_some {o : Nat} (op : r.op = some o) (v : Nat) : globAnswer r.id (some v) s = (dropped r.id s).modPend o (answerOp r v) := by
  have req : s.globReq r.id = some r := hr
  simp only [globAnswer, req, op]
  rfl

theorem globAnswer_none : globAnswer r.id none s = errorReq 0 r s := by
  have req : s.globReq r.id = some r := hr
  simp only [globAnswer, req]

theorem execResponseTimeout_eq (ha : s.arg = .n1 r.id) :
    exec .responseTimeout s = .next (if r.since + 1250000 ≤ s.cycle then errorReq 2 r s else s) := by
  have req : s.globReq r.id = some r := hr
  show execResponseTimeout s = _
  simp only [execResponseTimeout, ha, req]
  rfl

end

theorem lostReq_logged (why : Nat) (r : GlobReq) (o : Nat) (k : StrandKey) (s : State) :
    (lostReq why r o k s).repins = s.repins ∧ (lostReq why r o k s).globs = (dropped r.id s).globs ∧
      (lostReq why r o k s).deadLinks = s.deadLinks ∧ (lostReq why r o k s).pend = s.pend.map fun p => if p.id == o then
        { p with kind := .ready, dests := destsOf p.places ((loadedVals r.etag r.esz 0).map fun v => { v with bits := 0xFFFFFFFF#32 }) } else p := by
  have log := DeviceFrame.logEvent_logged r.ctx ⟨0x50, why, 0xFFFF, k.grp.launch, r.tmod * 8 + r.tdie, r.va⟩ (dropped r.id s)
  have kept : ∀ {t u : State}, DeviceFrame.Logged t u → u.repins = t.repins ∧ u.globs = t.globs ∧ u.deadLinks = t.deadLinks := fun h => by
    refine ⟨?_, ?_, ?_⟩ <;> rw [← h.rest]
  obtain ⟨repins, globs, dead⟩ := kept log
  refine ⟨repins, globs, dead, ?_⟩
  rw [lostReq, State.modPend, log.pend]
  rfl

/-- Of the one request in flight, its path failed. -/
theorem execPathFailure_eq {s : State} {r : GlobReq} (ha : s.arg = .n4 r.die r.tmod r.tdie r.strm) (one : s.globs = [r])
    (plain : r.ask.isAtomic = false) : exec .pathFailure s = .next { errorReq 1 r s with
      repins := tset (errorReq 1 r s).repins (r.die, r.tmod, r.tdie, r.strm) (tgetD (errorReq 1 r s).repins (r.die, r.tmod, r.tdie, r.strm) 0 + 1) } := by
  have here : (s.globs.filter fun (x : GlobReq) => x.die == r.die && x.tmod == r.tmod && x.tdie == r.tdie && x.strm == r.strm && !x.ask.isAtomic) =
      [r] := by
    rw [one]
    simp [plain]
  show execPathFailure s = _
  simp only [execPathFailure, ha, here, errorReqs]

/-- The state with a link dead, before the requests across it fail. -/
def unlinked (a b : Nat) (s : State) : State :=
  { s with dies := (unsent a b (unsent b a s)).dies, deadLinks := (a, b) :: s.deadLinks }
where
  /-- Update packets of a die for another are unsent again. -/
  unsent (src dst : Nat) (s : State) : State :=
    s.modRepl src fun r => { r with sent := lmod r.sent dst (· - (s.air.filter fun x => x.1 == src && x.2.1 == dst).length) }

theorem execInPackageLinkFailure_eq {s : State} {r : GlobReq} (ha : s.arg = .n2 r.die r.tdie) (one : s.globs = [r]) (air : s.air = [])
    (items : s.items = []) (src : r.die < 8) (dst : r.tdie < 8) (other : r.die ≠ r.tdie) (works : s.linkDead r.die r.tdie = false) :
    exec .inPackageLinkFailure s = .next (errorReq 1 r (unlinked r.die r.tdie s)) := by
  have fine : (r.die == r.tdie || decide (8 ≤ r.die) || decide (8 ≤ r.tdie) || s.linkDead r.die r.tdie) = false := by
    simp [other, Nat.not_le.2 src, Nat.not_le.2 dst, works]
  have here : (s.globs.filter fun (x : GlobReq) => (x.die == r.die && x.tdie == r.tdie) || (x.die == r.tdie && x.tdie == r.die)) = [r] := by
    rw [one]
    simp
  have all : loseLinkAll r.die r.tdie s = errorReqs 1
      (s.globs.filter fun (x : GlobReq) => (x.die == r.die && x.tdie == r.tdie) || (x.die == r.tdie && x.tdie == r.die))
      { unlinked r.die r.tdie s with
        air := s.air.filter fun x => !((x.1 == r.die && x.2.1 == r.tdie) || (x.1 == r.tdie && x.2.1 == r.die))
        items := s.items.map (loseLink r.die r.tdie) } := rfl
  have same : { unlinked r.die r.tdie s with
      air := s.air.filter fun x => !((x.1 == r.die && x.2.1 == r.tdie) || (x.1 == r.tdie && x.2.1 == r.die))
      items := s.items.map (loseLink r.die r.tdie) } = unlinked r.die r.tdie s := by
    rw [air, items, List.filter_nil, List.map_nil, ← air, ← items]
    rfl
  show execInPackageLinkFailure s = _
  simp only [execInPackageLinkFailure, ha, fine, all, here, same, errorReqs]
  rfl

/-! ## Links (R355, R356) -/

theorem modPort_congr {s : State} {die port : Nat} {f g : Port → Port}
    (h : f (lget (s.die die).ports port Port.zero) = g (lget (s.die die).ports port Port.zero)) : modPort die port f s = modPort die port g s :=
  ShedRows.modDie_congr (by rw [ShedRows.lmod_congr Port.zero (s.die die).ports port rfl h])

theorem lmod_id {α : Type} (l : List α) (n : Nat) : lmod l n id = l := by
  induction l generalizing n with
  | nil => rfl
  | cons a l ih =>
    cases n with
    | zero => rfl
    | succ n => exact congrArg (a :: ·) (ih n)

theorem modPort_id (s : State) (die port : Nat) : modPort die port id s = s := by
  have whole : (fun d : Die => { d with ports := lmod d.ports port id }) = id := funext fun d => by rw [lmod_id]; rfl
  rw [modPort, whole, State.modDie, lmod_id]

theorem execLinkFlitReceive_eq {s : State} {die port : Nat} {fl : Flit} {ok : Bool} (ha : s.arg = .flit die port fl ok) :
    exec .linkFlitReceive s = .next (modPort die port (·.flitIn fl ok) s) := by
  show execLinkFlitReceive s = _
  simp only [execLinkFlitReceive, ha]

theorem flitIn_next {p : Port} {fl : Flit} (num : p.expect = fl.num) (room : p.buf.length < 16384) :
    p.flitIn fl true = { p with expect := p.expect + 1, replay := false, buf := p.buf ++ [{ fl with ctx := 0 }] } := by
  have both : (fl.num == p.expect && decide (p.buf.length < bufferRoom)) = true := by rw [num, decide_eq_true (show _ < bufferRoom from room)]; simp
  unfold Port.flitIn
  rw [both]
  rfl

theorem flitIn_drops {p : Port} {fl : Flit} (bad : p.expect ≠ fl.num ∨ 16384 ≤ p.buf.length) : p.flitIn fl true = p := by
  have not_ : (fl.num == p.expect && decide (p.buf.length < bufferRoom)) = false := by
    rcases bad with h | h
    · simp [Ne.symm h]
    · rw [decide_eq_false (Nat.not_lt.2 (show bufferRoom ≤ _ from h)), Bool.and_false]
  unfold Port.flitIn
  rw [not_]
  rfl

/-! ## Collectives (R366, R370, R373) -/

section
variable {s : State} {c : Coll} {w : Item} (hc : s.colls.find? (fun (x : Coll) => x.die == c.die && x.id == c.id) = some c)
  (hw : s.item c.item = some w)
include hc

theorem execCollChunkStep_eq (ha : s.arg = .parts c.die c.id []) (map : c.map = none) : exec .collChunkStep s = .next (chunkStep c [] s) := by
  have coll : s.coll c.die c.id = some c := hc
  show execCollChunkStep s = _
  simp only [execCollChunkStep, ha, coll, map]

theorem execCollTimeout_eq (ha : s.arg = .n2 c.die c.id) :
    exec .collTimeout s = .next (if c.since + 12500000 ≤ s.cycle then failColl c .rplx s else s) := by
  have coll : s.coll c.die c.id = some c := hc
  show execCollTimeout s = _
  simp only [execCollTimeout, ha, coll]
  rfl

include hw

theorem execCollComplete_eq (ha : s.arg = .n2 c.die c.id) : exec .collComplete s = .next (if s.collOver c w then
    closeItem w { s with colls := s.colls.filter fun (x : Coll) => x.id != c.id } else s) := by
  have coll : s.coll c.die c.id = some c := hc
  show execCollComplete s = _
  simp only [execCollComplete, ha, coll, hw]

end

section
variable {s : State} {c : Coll} {w : Item}

theorem collOver_barrier (fail : w.fail = none) (landed : w.landed = w.arrived) (map : c.map = none) (op : c.op = 4) (got : c.got = c.need) :
    s.collOver c w = true := by
  simp [State.collOver, fail, landed, map, op, got]

theorem collOver_not (got : c.got ≠ c.need) : s.collOver c w = false := by
  simp [State.collOver, got]

/-- The step of a barrier of the one rank 0. -/
theorem chunkStep_alone (hw : s.item c.item = some w) (op : c.op = 4) (map : c.map = none)
    (ranks : s.localRanks c = [(c.die, (s.comm c.die c.comm).myrank)]) (one : (s.comm c.die c.comm).nranks = 1)
    (zero : (s.comm c.die c.comm).myrank = 0) (match_ : s.matchOn c c.die = some c) (runs : s.itemRuns w = true) (first : s.outranked c = false)
    (tile : c.tile = none) (got : c.got = 0) : chunkStep c [] s =
      { s.modDie c.die (fun d => { d with turns := tset d.turns 16 c.comm }) with
        colls := s.colls.map fun (x : Coll) => if x.id == c.id then { x with got := 1, since := s.cycle } else x } := by
  have away : s.awayRanks c = [] := by
    rw [State.awayRanks, one, ranks, zero]
    rfl
  have peers : s.peers c = [(0, c)] := by simp [State.peers, ranks, match_, zero]
  have here : s.allHere c = true := by simp [State.allHere, ranks, match_, hw, runs, State.tileReleased, tile]
  have same : c.sameAs c = true := by simp [Coll.sameAs, map]
  have turn : takeTurn c s = s.modDie c.die fun d => { d with turns := tset d.turns 16 c.comm } := by
    simp [takeTurn, State.collPort, away]
  have step : chunkMove c 1 [] [(0, c, w)] [] s = (takeTurn c s).modColl c.id fun x => { x with got := 1, since := (takeTurn c s).cycle } := by
    simp [chunkMove, op, got, first]
  have linked : s.linkDead c.die c.die = false := by simp [State.linkDead]
  unfold chunkStep
  simp only [away, peers, one, here, List.filterMap_cons, List.filterMap_nil, hw, Option.map_some, List.any_cons, List.any_nil, linked, same,
    List.isEmpty_nil, Bool.not_true, Bool.or_self, Bool.or_false, Bool.false_eq_true, if_false, if_true, step, turn]
  rfl

/-- A collective of one rank of this module that fails ends the item of that rank. -/
theorem item_failColl (hw : s.item c.item = some w) (peers : s.peers c = [(0, c)]) (fail : w.fail = none) :
    (failColl c .rplx s).item c.item = some { w with fail := some .rplx } ∧ (failColl c .rplx s).mem = s.mem := by
  have id : w.id = c.item := by simpa using List.find?_some hw
  have run : failColl c .rplx s = { s with items := s.items.map fun (w : Item) => if [c.item].contains w.id && w.fail.isNone then
      { w with fail := some .rplx } else w } := by
    simp only [failColl, peers]
    rfl
  rw [run]
  refine ⟨?_, rfl⟩
  have keyed : ((fun x : Item => x.id == c.item) ∘ fun (w : Item) => if [c.item].contains w.id && w.fail.isNone then
      { w with fail := some .rplx } else w) = fun x : Item => x.id == c.item := funext fun x => by
    dsimp only [Function.comp]
    split <;> rfl
  refine (List.find?_map ..).trans ?_
  rw [keyed, show s.items.find? (fun x : Item => x.id == c.item) = some w from hw, Option.map_some, if_pos (by simp [id, fail])]

end

end Sys2Proof.FabricRows

namespace Sys2Proof

open Machine Claims FabricRows

/-- Settles O58: each packet, answer and failure is run, and the step, the end and the failure of a collective. -/
theorem fabricEvents : Obligations.FabricEvents := by
  refine ⟨?_, ?_, ?_, ?_, ?_⟩
  · intro s p die port fence fits whole u
    refine ⟨fun tagOk live => ?_, fun bad tag spa n body ha => ?_⟩
    · have live_ : s.keyLive p.die p.keyid = true := keyLive_unbuffered p s .. ▸ live
      have run (t : State) (hold : holdPacket p s = none) (h : servePacket p u = t) : Does .fabricPacketReceive (.packet p) s t := fun ha =>
        (execFabricPacketReceive_serves ha die port fence fits whole tagOk live_ hold).trans (congrArg Host.Outcome.next h)
      refine ⟨fun tag spa n body => ⟨fun admits => ?_, fun admits => ?_⟩, fun tag spa l body => ⟨fun admits => ?_, fun admits => ?_⟩⟩
      all_goals
        refine run _ (by simp only [holdPacket, body]) ?_
        simp only [servePacket, body, admits, Bool.false_eq_true, if_true, if_false, respond_eq]
    · have drops : (p.tagOk && s.keyLive p.die p.keyid) = false := by
        rw [← keyLive_unbuffered p s]
        rcases bad with h | h
        · rw [h, Bool.false_and]
        · rw [h, Bool.and_false]
      have counted : thrown p s = discardAt p.die p.port { u with pfDrops := u.pfDrops + if (tget s.revoked p.keyid).isSome then 1 else 0 } := by
        unfold thrown
        split <;> rfl
      rw [execFabricPacketReceive_throws ha die port fence fits whole drops (by rw [body]; rfl), counted]
  · intro s p bad ha
    exact execFabricPacketReceive_stays ha bad
  · intro s r hr
    refine ⟨fun o n v op ask ha => ?_, fun o l v op ask ha => ?_, fun o k op owner => ?_, fun early ha => ?_⟩
    · rw [execGlobResponse_eq _ _ ha, globAnswer_some hr op]
      congr 2
      funext p
      simp only [answerOp, ask]
    · rw [execGlobResponse_eq _ _ ha, globAnswer_some hr op]
      congr 2
      funext p
      simp only [answerOp, ask]
    · intro lost
      refine ⟨fun ha => ?_, fun late ha => ?_, fun one plain ha => ?_, fun one air items dies src dst other works => ?_⟩
      · rw [execGlobResponse_eq _ _ ha, globAnswer_none hr, errorReq_eq 0 op owner]
        rfl
      · rw [execResponseTimeout_eq hr ha, if_pos late, errorReq_eq 2 op owner]
        rfl
      · rw [execPathFailure_eq ha one plain, errorReq_eq 1 op owner, (lostReq_logged 1 r o k s).1]
        rfl
      · obtain ⟨-, globs, dead, pend⟩ := lostReq_logged 1 r o k (unlinked r.die r.tdie s)
        refine ⟨_, fun ha => (execInPackageLinkFailure_eq ha one air items src dst other works).trans
          (congrArg Host.Outcome.next (errorReq_eq 1 op owner _)), globs.trans ?_, dead, pend.trans (lostReq_logged 1 r o k s).2.2.2.symm⟩
        show s.globs.filter _ = []
        rw [one]
        simp
    · rw [execResponseTimeout_eq hr ha, if_neg (Nat.not_le.2 early)]
  · intro s die port at_
    refine ⟨fun fl ha => ?_, fun fl num room ha => ?_, fun fl bad ha => ?_, fun n ha => ?_, fun k ha => ?_⟩
    · exact execLinkFlitReceive_eq ha
    · rw [execLinkFlitReceive_eq ha]
      exact congrArg Host.Outcome.next (modPort_congr (flitIn_next num room))
    · rw [execLinkFlitReceive_eq ha]
      exact congrArg Host.Outcome.next ((modPort_congr (g := id) (flitIn_drops bad)).trans (modPort_id ..))
    · show execFlitAck s = _
      simp only [execFlitAck, ha]
      rfl
    · show execAllowanceReturn s = _
      simp only [execAllowanceReturn, ha]
      rfl
  · intro s c w hc hw
    refine ⟨fun map op ranks one zero match_ runs first tile got ha => ?_, fun fail landed map op got ha => ?_, fun got ha => ?_, fun early ha => ?_,
      fun late peers fail => ?_⟩
    · rw [execCollChunkStep_eq hc ha map, chunkStep_alone hw op map ranks one zero match_ runs first tile got]
    · rw [execCollComplete_eq hc hw ha, if_pos (collOver_barrier fail landed map op got)]
    · rw [execCollComplete_eq hc hw ha, collOver_not got]
      rfl
    · rw [execCollTimeout_eq hc ha, if_neg (Nat.not_le.2 early)]
    · exact ⟨_, fun ha => (execCollTimeout_eq hc ha).trans (congrArg Host.Outcome.next (if_pos late)), item_failColl hw peers fail⟩

end Sys2Proof

/-! The module: reset, the stages of boot, attestation, host registers, errors and temperature (R341, R382 to R389). -/

namespace Sys2Proof.ModuleRows

open Sys2Proof Sys2Proof.Machine Sys2Proof.Claims

/-! ## The end of the boot (Tables 19.1, 19.2) -/

/-- The failure code of a die at the end of the boot, with those that fail stage 6. -/
def endCode (l : List (Nat × Nat)) (s : State) (d : Nat) : Nat :=
  if (s.dieBoot d).code == 0 && l.contains (d, 6) then 6 else (s.dieBoot d).code

theorem execBootAllDiesReady_eq {s : State} {l : List (Nat × Nat)} (ha : s.arg = .fails l) :
    exec .bootAllDiesReady s = .next (bootDone l s) := by
  show execBootAllDiesReady s = _
  simp only [execBootAllDiesReady, ha]

theorem bootDone_stays {s : State} (l : List (Nat × Nat)) (h : s.boot.state ≠ 0 ∨ ∃ b ∈ s.boot.dies, b.stage ≠ 6) : bootDone l s = s := by
  have stays : (s.boot.state != 0 || s.boot.dies.any (·.stage != 6)) = true := by
    rcases h with h | ⟨b, hb, h⟩
    · simp [h]
    · rw [Bool.or_eq_true]
      exact .inr (List.any_eq_true.2 ⟨b, hb, by simpa using h⟩)
  unfold bootDone
  exact if_pos stays

section
variable {s : State} (boots : s.boot.state = 0) (ready : ∀ b ∈ s.boot.dies, b.stage = 6)
include boots ready

theorem bootDone_eq (l : List (Nat × Nat)) : bootDone l s =
    if ((List.range 8).filter fun d => endCode l s d != 0).isEmpty then { s with boot := { s.boot with state := 1, failDie := 0, failCode := 0, series := 3 } }
    else { s with boot := { s.boot with
      state := 2
      failDie := ((List.range 8).filter fun d => endCode l s d != 0).foldl (fun m d => setBit m d true) 0
      failCode := ((List.range 8).filter fun d => endCode l s d != 0).foldl (fun c d => min c (endCode l s d)) 7, series := 0 } } := by
  have go : (s.boot.state != 0 || s.boot.dies.any (·.stage != 6)) = false := by
    rw [boots, Bool.or_eq_false_iff]
    exact ⟨rfl, List.any_eq_false.2 fun b hb => by simpa using ready b hb⟩
  unfold bootDone
  exact if_neg (by rw [go]; exact Bool.false_ne_true)

theorem bootDone_sound {l : List (Nat × Nat)} (sound : ∀ d, d < 8 → endCode l s d = 0) :
    bootDone l s = { s with boot := { s.boot with state := 1, failDie := 0, failCode := 0, series := 3 } } := by
  have none_ : ((List.range 8).filter fun d => endCode l s d != 0) = [] := List.filter_eq_nil_iff.2 fun d hd => by
    simpa using sound d (List.mem_range.1 hd)
  rw [bootDone_eq boots ready, none_]
  rfl

/-- Exactly one die has failed. -/
theorem bootDone_failed {l : List (Nat × Nat)} {d c : Nat} (hd : d < 8) (code : endCode l s d = c) (low : 1 ≤ c) (high : c ≤ 6)
    (others : ∀ e, e < 8 → e ≠ d → endCode l s e = 0) :
    bootDone l s = { s with boot := { s.boot with state := 2, failDie := 2 ^ d, failCode := c, series := 0 } } := by
  have one : ((List.range 8).filter fun d => endCode l s d != 0) = [d] := by
    have only : ((List.range 8).filter fun d => endCode l s d != 0) = (List.range 8).filter fun e => e == d :=
      List.filter_congr fun e he => by
        by_cases same : e = d
        · subst same
          simp [code]
          omega
        · simp [others e (List.mem_range.1 he) same, same]
    rw [only]
    interval_cases d <;> rfl
  have bit : setBit 0 d true = 2 ^ d := by simp [setBit, bitOf]
  rw [bootDone_eq boots ready, one]
  simp only [List.isEmpty_cons, Bool.false_eq_true, if_false, List.foldl_cons, List.foldl_nil, bit, code, Nat.min_eq_right (show c ≤ 7 by omega)]

end

/-! ## Requests of the host (R384, R386, R387) -/

theorem execConfigRequest_eq {s : State} {d : Nat} (ha : s.arg = .n1 d) (end_ : d = 0 ∨ d = 4) :
    exec .configRequest s = .next { s with out := s.out ++ [if s.ready then .configAnswer d else .configRetry d] } := by
  have there : (d == 0 || d == 4) = true := by simpa using end_
  show execConfigRequest s = _
  unfold execConfigRequest
  rw [ha]
  dsimp only
  rw [if_pos there]

/-- The tear-down of the contexts of a function. -/
def resetFunction (fn : Nat) (s : State) : State :=
  if 1 ≤ fn && fn ≤ 64 && s.fnPresent fn then ((s.ctxs.filter fun e => e.2.d.hostfn == fn).map (·.1)).foldl (fun s c => teardown c s) s else s

theorem execFunctionLevelReset_eq {s : State} {fn : Nat} (ha : s.arg = .n1 fn) (boot : s.boot.state = 1) :
    exec .functionLevelReset s = .next (resetFunction fn s) := by
  show execFunctionLevelReset s = _
  unfold execFunctionLevelReset
  rw [ha]
  exact InvalidationRows.hostEvent_ready _ boot

theorem resetFunction_stays {s : State} {fn : Nat}
    (h : fn = 0 ∨ 65 ≤ fn ∨ tget s.vfs fn = none ∨ (∀ e ∈ s.ctxs, e.2.d.hostfn ≠ fn)) : resetFunction fn s = s := by
  unfold resetFunction
  split
  · next all =>
    simp only [Bool.and_eq_true, decide_eq_true_eq, State.fnPresent, Bool.or_eq_true, beq_iff_eq] at all
    obtain ⟨⟨low, high⟩, there⟩ := all
    rcases h with h | h | h | h
    · omega
    · omega
    · rcases there with same | some_
      · omega
      · rw [h] at some_
        cases some_
    · rw [List.filter_eq_nil_iff.2 fun e he => by simpa using h e he]
      rfl
  · rfl

theorem resetFunction_one {s : State} {fn end_ : Nat} {e : Nat × Ctx} (low : 1 ≤ fn) (high : fn ≤ 64) (there : tget s.vfs fn = some end_)
    (one : s.ctxs.filter (fun e => e.2.d.hostfn == fn) = [e]) : resetFunction fn s = teardown e.1 s := by
  have all : (decide (1 ≤ fn) && decide (fn ≤ 64) && s.fnPresent fn) = true := by
    simp [State.fnPresent, low, high, there]
  unfold resetFunction
  rw [if_pos all, one]
  rfl

theorem execAttestationRequest_eq {s : State} {die nonce : Nat} (ha : s.arg = .n2 die nonce) : exec .attestationRequest s =
    .next (if s.ready && decide (die < 8) then
        { s with free := s.free + 1, out := s.out ++ [.attestation die (s.measurement die nonce) (s.sign die (s.measurement die nonce))] }
      else { s with out := s.out ++ [.attestationRefused die] }) := by
  show execAttestationRequest s = _
  unfold execAttestationRequest
  rw [ha]

theorem execRegisterWrite_eq {s : State} {fn off : Nat} {val : BitVec 64} (ha : s.arg = .regWrite fn off val) : exec .registerWrite s =
    .next (if 0x1000 ≤ off && off < 0x3000 && off % 8 == 0 then
      hostDoorbell fn ((off - 0x1000) / 0x200) (off % 0x200 / 8) (val.truncate 32) s else s) := by
  show execRegisterWrite s = _
  unfold execRegisterWrite
  rw [ha]

/-! ## Errors and temperature (R341, R388, R389) -/

theorem uncorrectable_eq {s : State} {die cls num : Nat} (empty : s.blastSet die cls num = []) (open_ : s.isFenced die cls num = false)
    (other : cls ≠ 3) : uncorrectable die cls num s = errorIn die cls num s := by
  have kept (t : State) : (t.items.map fun (w : Item) => if cls == 3 && t.unitOf w == some (die, num) then { w with fail := some .hpsn } else w) =
      t.items := by
    refine (List.map_congr_left fun w _ => ?_).trans (List.map_id _)
    rw [beq_false_of_ne other]
    rfl
  unfold uncorrectable
  rw [open_, if_neg Bool.false_ne_true]
  dsimp only
  rw [empty, List.foldl_nil, kept]
  rfl

theorem withhold_eq (die n temp : Nat) (s : State) : withhold die n temp s = throttled die n temp s := rfl

theorem execThermalThrottle_eq {s : State} {die cls num : Nat} (ha : s.arg = .n3 die cls num) : exec .thermalThrottle s =
    .next (throttled die s.drawNat.1 (1050 + s.drawNat.2.drawNat.1 % 100) { s with free := s.free + 2 }) := by
  cases s
  cases ha
  rfl

theorem execThermalFence_eq {s : State} {die cls num : Nat} (ha : s.arg = .n3 die cls num) : exec .thermalFence s =
    .next (uncorrectable die cls num (withhold die 0 (1150 + s.drawNat.1 % (2 ^ 16 - 1150)) s.drawNat.2)) := by
  show execThermalFence s = _
  unfold execThermalFence
  rw [ha]

theorem holds_withhold (die n temp cls num : Nat) (s : State) (l : Launch) (c : Ctx) :
    (withhold die n temp s).holds die cls num l c = s.holds die cls num l c := by
  have keeps {δ : Type} (r : Die → δ) (h : ∀ d t, r { d with telem := t } = r d) : r ((withhold die n temp s).die die) = r (s.die die) :=
    DieRules.die_modDie_keeps (r := r) s fun d => h d _
  have frames := keeps Die.frames fun _ _ => rfl
  have ports := keeps Die.ports fun _ _ => rfl
  have graphs := keeps Die.graphs fun _ _ => rfl
  have repl := keeps Die.repl fun _ _ => rfl
  have slots := keeps Die.keySlots fun _ _ => rfl
  have frame (f : Nat) : (withhold die n temp s).frame die f = s.frame die f := by rw [State.frame, State.frame, frames]
  unfold State.holds
  simp only [frame, ports, graphs, repl, slots]
  split <;> rfl

theorem blastSet_withhold (die n temp cls num : Nat) (s : State) :
    (withhold die n temp s).blastSet die cls num = s.blastSet die cls num := by
  unfold State.blastSet
  simp only [holds_withhold]
  rfl

theorem isFenced_withhold (die n temp cls num : Nat) (s : State) : (withhold die n temp s).isFenced die cls num = s.isFenced die cls num := by
  have fence : ((withhold die n temp s).die die).sfence = (s.die die).sfence := DieRules.die_modDie_keeps (r := Die.sfence) s fun _ => rfl
  rw [State.isFenced, State.isFenced, fence]

/-! ## The stages of boot (Table 19.1) -/

theorem modBoot_congr {s : State} {die : Nat} {f g : DieBoot → DieBoot} (h : f (s.dieBoot die) = g (s.dieBoot die)) :
    s.modBoot die f = s.modBoot die g := by
  unfold State.modBoot
  rw [ShedRows.lmod_congr DieBoot.zero s.boot.dies die rfl h]

theorem modBoot_modBoot (s : State) (die : Nat) (f g : DieBoot → DieBoot) : (s.modBoot die f).modBoot die g = s.modBoot die (g ∘ f) := by
  unfold State.modBoot
  dsimp only
  rw [LifecycleRows.lmod_lmod]

section
variable {s : State} {die : Nat} (small : die < 8) (boots : s.boot.state = 0)
include small boots

/-- A stage that fails: its code, and the wait at stage 6. -/
theorem bootStage_fails {ok : Bool} (stage : (s.dieBoot die).stage < 6) (bad : (if ok then runStage die s else none) = none) :
    bootStage die ok s = s.modBoot die fun b => { b with stage := 6, code := b.stage } := by
  have go : (s.boot.state != 0 || decide (8 ≤ die) || decide (6 ≤ (s.dieBoot die).stage)) = false := by
    simp [boots, Nat.not_le.2 small, Nat.not_le.2 stage]
  unfold bootStage
  dsimp only
  rw [go, if_neg Bool.false_ne_true, bad]
  exact modBoot_congr rfl

theorem bootStage_goes {t : State} (stage : (s.dieBoot die).stage < 6) (good : runStage die s = some t) : bootStage die true s = t := by
  have go : (s.boot.state != 0 || decide (8 ≤ die) || decide (6 ≤ (s.dieBoot die).stage)) = false := by
    simp [boots, Nat.not_le.2 small, Nat.not_le.2 stage]
  unfold bootStage
  dsimp only
  rw [go, if_neg Bool.false_ne_true, if_pos rfl, good]

end

/-- A die whose stage is known comes to the next. -/
theorem modBoot_next {s : State} {die n : Nat} (stage : (s.dieBoot die).stage = n) :
    (s.modBoot die fun d => { d with stage := d.stage + 1 }) = s.modBoot die fun d => { d with stage := n + 1 } :=
  modBoot_congr (congrArg (fun n => { s.dieBoot die with stage := n + 1 }) stage)

section
variable {s : State} {die : Nat}

theorem runStage_seed (stage : (s.dieBoot die).stage = 1) : runStage die s =
    (Config.fuzzy (Config.sram die s.free) (lget s.flash.helper die [])).map fun seed =>
      ({ s with free := s.free + 1 }.modBoot die fun d => { d with seed := seed }).modBoot die fun d => { d with stage := d.stage + 1 } := by
  simp only [runStage, stage]
  cases Config.fuzzy (Config.sram die s.free) (lget s.flash.helper die []) <;> rfl

theorem runStage_signature (stage : (s.dieBoot die).stage = 2) : runStage die s =
    if xmssVerify Config.romRoot Config.romSeed s.flash.header.bytes s.flash.sig && s.flash.header.series == 3 then
      some (s.modBoot die fun d => { d with stage := d.stage + 1 }) else none := by
  simp only [runStage, stage]

theorem runStage_serial (stage : (s.dieBoot die).stage = 3) : runStage die s =
    if s.flash.header.serial == (s.dieBoot die).serial && s.flash.header.stepping == 0xB0 then
      some (s.modBoot die fun d => { d with stage := d.stage + 1 }) else none := by
  simp only [runStage, stage]

theorem runStage_digests (stage : (s.dieBoot die).stage = 4) : runStage die s =
    if s.flash.sections.map shake256 == s.flash.header.digests then
      some ((s.modBoot die fun d => { d with digests := s.flash.sections.map shake256 }).modBoot die fun d => { d with stage := d.stage + 1 })
    else none := by
  simp only [runStage, stage]

theorem runStage_image (stage : (s.dieBoot die).stage = 5) : runStage die s = some (takeImage die s) := by
  simp only [runStage, stage]

theorem repl_takeImage (die : Nat) (s : State) : (takeImage die s).repl die = Repl.zero := by
  by_cases inside : die < s.dies.length
  · exact DieRules.repl_modRepl_self (g := fun _ => Repl.zero) { s with
      mem := s.mem.filter fun c => !(spaSpace c.1 == 1 && spaDie c.1 == die)
      loftKey := s.loftKey.filter fun e => !(spaSpace (64 * e.1) == 1 && spaDie (64 * e.1) == die) } inside
  · have outside : (takeImage die s).dies[die]? = none := List.getElem?_eq_none (by
      rw [show (takeImage die s).dies = lmod s.dies die fun d => { d with repl := Repl.zero } from rfl, lmod_length]
      omega)
    rw [State.repl, State.die, MoveRows.lget_eq_getD, outside]
    rfl

theorem boot_takeImage (inside : die < s.boot.dies.length) : lget (takeImage die s).boot.dies die DieBoot.zero =
    { s.dieBoot die with stage := 6, loaded := s.flash.sections, record := s.flash.record die (s.dieBoot die) } :=
  DieRules.lget_lmod_self s.boot.dies DieBoot.zero inside

end

end Sys2Proof.ModuleRows

namespace Sys2Proof

open Machine Claims ModuleRows

/-- Settles O59: the reset, each stage of boot with what makes it fail, the host's requests, and errors and temperature are run. -/
theorem moduleEvents : Obligations.ModuleEvents := by
  refine ⟨?_, ?_, ?_, ?_, ?_, ?_, ?_, ?_, ?_, ?_, ?_⟩
  · intro s
    exact ⟨resetModule s, fun a _ => rfl, ⟨rfl, rfl, rfl, rfl, rfl⟩, rfl, rfl, rfl, rfl, rfl, rfl, rfl, rfl, rfl, rfl, rfl, rfl, rfl⟩
  · intro s boots ready code failed
    have run (l : List (Nat × Nat)) (t : State) (h : bootDone l s = t) : Does .bootAllDiesReady (.fails l) s t := fun ha =>
      (execBootAllDiesReady_eq ha).trans (congrArg Host.Outcome.next h)
    have none_ (d : Nat) : endCode [] s d = code d := by simp [endCode, code, State.dieBoot]
    refine ⟨fun sound => ⟨run _ _ (bootDone_sound boots ready fun d hd => (none_ d).trans (sound d hd)), fun d hd =>
      run _ _ (bootDone_failed boots ready hd ?_ (by decide) (by decide) fun e he ne => ?_)⟩, fun d hd low high others => run _ _
        (bootDone_failed boots ready hd (none_ d) low (by omega) fun e he ne => (none_ e).trans (others e he ne))⟩
    · have zero : (s.dieBoot d).code = 0 := sound d hd
      simp [endCode, zero]
    · have zero : (s.dieBoot e).code = 0 := sound e he
      simp [endCode, zero, ne]
  · intro s l h ha
    rw [execBootAllDiesReady_eq ha, bootDone_stays l h]
  · intro s d end_
    refine ⟨fun boot ha => ?_, fun boot ha => ?_⟩
    · rw [execConfigRequest_eq ha end_, State.ready, boot]
      rfl
    · rw [execConfigRequest_eq ha end_, State.ready, beq_false_of_ne boot]
      rfl
  · intro s fn boot
    exact ⟨fun h ha => by rw [execFunctionLevelReset_eq ha boot, resetFunction_stays h], fun e end_ low high there one ha => by
      rw [execFunctionLevelReset_eq ha boot, resetFunction_one low high there one]⟩
  · intro s die nonce b m key
    refine ⟨fun boot small ha => ?_, fun no ha => ?_⟩
    · rw [execAttestationRequest_eq ha, State.ready, boot, decide_eq_true small]
      rfl
    · have refused : (s.ready && decide (die < 8)) = false := by
        rcases no with h | h
        · rw [State.ready, beq_false_of_ne h, Bool.false_and]
        · rw [decide_eq_false (Nat.not_lt.2 h), Bool.and_false]
      rw [execAttestationRequest_eq ha, refused]
      rfl
  · intro s fn off val out ha
    rw [execRegisterWrite_eq ha, if_neg]
    simp only [Bool.and_eq_true, decide_eq_true_eq, beq_iff_eq]
    omega
  · intro s fn page q val hp hq ha
    have page_ : (0x1000 + 0x200 * page + 8 * q - 0x1000) / 0x200 = page := by omega
    have q_ : (0x1000 + 0x200 * page + 8 * q) % 0x200 / 8 = q := by omega
    rw [execRegisterWrite_eq ha, if_pos, page_, q_]
    · rfl
    · simp only [Bool.and_eq_true, decide_eq_true_eq, beq_iff_eq]
      omega
  · intro s die cls num empty open_ other
    refine ⟨fun ha => ?_, 1150 + s.drawNat.1 % (2 ^ 16 - 1150), by omega, by omega, fun ha => ?_⟩
    · show execUncorrectableError s = _
      simp only [execUncorrectableError, ha, uncorrectable_eq empty open_ other]
    · have drawn : s.drawNat.2.blastSet die cls num = [] := empty
      have sound : s.drawNat.2.isFenced die cls num = false := open_
      rw [execThermalFence_eq ha, uncorrectable_eq ((blastSet_withhold ..).trans drawn) ((isFenced_withhold ..).trans sound) other]
      rfl
  · intro s die cls num
    refine ⟨s.drawNat.1, 1050 + s.drawNat.2.drawNat.1 % 100, by omega, by omega, execThermalThrottle_eq⟩
  · intro s die small dies boots b at_ fails h
    have fail {ok : Bool} (stage : (s.dieBoot die).stage < 6) (bad : (if ok then runStage die s else none) = none) :
        bootStage die ok s = at_ fun b => { b with stage := 6, code := b.stage } := bootStage_fails small boots stage bad
    have go {t u : State} (stage : (s.dieBoot die).stage < 6) (good : runStage die s = some t) (same : t = u) : bootStage die true s = u :=
      (bootStage_goes small boots stage good).trans same
    refine ⟨fun stage => fail stage rfl, fun stage => ?_, fun stage => ?_, fun stage => ?_, fun stage => ?_, fun stage => ?_⟩
    all_goals have low : (s.dieBoot die).stage < 6 := stage ▸ by decide
    · refine ⟨fun none_ => fail low ?_, fun seed some_ => go low (by rw [runStage_seed stage, some_]; rfl) ?_⟩
      · rw [if_pos rfl, runStage_seed stage, none_]
        rfl
      · exact (modBoot_modBoot ..).trans (modBoot_congr (s := { s with free := s.free + 1 })
          (congrArg (fun n => { s.dieBoot die with stage := n + 1, seed := seed }) stage))
    · have run := runStage_signature stage
      refine ⟨fun bad => fail low ?_, fun series good => go low (run.trans (if_pos ?_)) (modBoot_next stage)⟩
      · rw [if_pos rfl, run, if_neg]
        simp only [Bool.and_eq_true, beq_iff_eq, not_and]
        intro good series
        exact bad.elim (fun h => h series) fun h => Bool.false_ne_true (h.symm.trans good)
      · rw [Bool.and_eq_true, beq_iff_eq]
        exact ⟨good, series⟩
    · have run := runStage_serial stage
      refine ⟨fun bad => fail low ?_, fun same stepping => go low (run.trans (if_pos ?_)) (modBoot_next stage)⟩
      · rw [if_pos rfl, run, if_neg]
        simp only [Bool.and_eq_true, beq_iff_eq, not_and]
        intro same stepping
        exact bad.elim (fun h => h same) fun h => h stepping
      · rw [Bool.and_eq_true, beq_iff_eq, beq_iff_eq]
        exact ⟨same, stepping⟩
    · have run := runStage_digests stage
      refine ⟨fun bad => fail low ?_, fun same => go low (run.trans (if_pos ?_)) ?_⟩
      · rw [if_pos rfl, run, if_neg]
        exact fun same => bad (beq_iff_eq.1 same)
      · exact beq_iff_eq.2 same
      · exact (modBoot_modBoot ..).trans (modBoot_congr
          (congrArg (fun n => { s.dieBoot die with stage := n + 1, digests := s.flash.sections.map shake256 }) stage))
    · exact ⟨_, go low (runStage_image stage) rfl, repl_takeImage .., rfl, boot_takeImage (dies ▸ small)⟩

end Sys2Proof

/-! O60: the canonical form of the module's memories (`State.memsWf`), and what a function of the state, a word's meaning and an outcome
must do to keep it. Whatever changes a memory writes it through `memSet`, filters it, or empties it; the rest leaves the three memories as
they were. -/

namespace Sys2Proof.MemoryForm

open Sys2Proof Sys2Proof.Machine

/-! ## Tables and contents -/

theorem forall_tset {α β : Type} [DecidableEq α] {p : β → Prop} {t : Table α β} {a : α} {b : β} (ht : ∀ e ∈ t, p e.2) (hb : p b) :
    ∀ e ∈ tset t a b, p e.2 := by
  induction t with
  | nil => exact List.forall_mem_singleton.mpr hb
  | cons x t ih =>
    obtain ⟨hx, ht⟩ := List.forall_mem_cons.mp ht
    unfold tset
    split
    · exact List.forall_mem_cons.mpr ⟨hb, ht⟩
    · exact List.forall_mem_cons.mpr ⟨hx, ih ht⟩

theorem tgetD_of_forall {α β : Type} [DecidableEq α] {p : β → Prop} {t : Table α β} {a : α} {d : β} (ht : ∀ e ∈ t, p e.2) (hd : p d) :
    p (tgetD t a d) := by
  unfold tgetD
  cases h : tget t a with
  | none => exact hd
  | some v => exact ht (a, v) (Ends.tget_mem h)

theorem memWf_copies (f : Host.Cell → Nat) (cells m : List Host.Cell) (hm : memWf m = true) :
    memWf (cells.foldl (fun m c => memSet m (f c) c.2) m) = true := by
  induction cells generalizing m with
  | nil => exact hm
  | cons c cells ih => exact ih _ (memWf_memSet _ _ _ hm)

/-! ## States -/

/-- The canonical form as a property of the three contents, so that a state that differs elsewhere has it too. -/
def Canon (m : List Host.Cell) (g : Table GroupKey Group) (c : Table GroupKey (List Host.Cell)) : Prop :=
  memWf m = true ∧ (∀ e ∈ g, memWf e.2.win = true) ∧ ∀ e ∈ c, memWf e.2 = true

theorem memsWf_iff {s : State} : s.memsWf ↔ Canon s.mem s.groups s.cwins := Iff.rfl

section
variable {s : State}

theorem ite_keeps {c : Prop} [Decidable c] {a b : State} (ha : a.memsWf) (hb : b.memsWf) : (if c then a else b).memsWf := by
  split <;> assumption

theorem foldl_keeps {α : Type} {f : State → α → State} (hf : ∀ s a, s.memsWf → (f s a).memsWf) (l : List α) (h : s.memsWf) :
    (l.foldl f s).memsWf := by
  induction l generalizing s with
  | nil => exact h
  | cons a l ih => exact ih (hf s a h)

/-- Folding a reading into what was read and the state. -/
theorem foldl_snd_keeps {α β : Type} {f : β × State → α → β × State} (hf : ∀ r a, r.2.memsWf → (f r a).2.memsWf) (l : List α)
    {r : β × State} (h : r.2.memsWf) : (l.foldl f r).2.memsWf := by
  induction l generalizing r with
  | nil => exact h
  | cons a l ih => exact ih (hf r a h)

theorem map_keeps {f : State → State} (hf : ∀ s, s.memsWf → (f s).memsWf) {o : Option State} (ho : ∀ t, o = some t → t.memsWf) :
    ∀ t, o.map f = some t → t.memsWf := by
  cases o with
  | none => simp
  | some u => simpa using hf u (ho u rfl)

theorem getD_keeps {o : Option State} (ho : ∀ t, o = some t → t.memsWf) (h : s.memsWf) : (o.getD s).memsWf := by
  cases o with
  | none => exact h
  | some t => exact ho t rfl

end

/-! ## Outcomes -/

/-- Where an outcome goes on, it does so with canonical memories. -/
def NextCanon (o : Host.Outcome State Fault Refusal) : Prop := ∀ t, o = .next t → t.memsWf

theorem nextCanon_next {u : State} (h : u.memsWf) : NextCanon (.next u) := by
  rintro _ ⟨⟩
  exact h

/-! ## Words -/

/-- Where a word's computation completes, it leaves canonical memories canonical. -/
def Keeps {α : Type} (m : Exec α) : Prop := ∀ s, s.memsWf → ∀ a t, m s = .ok (a, t) → t.memsWf

section
variable {α β : Type}

theorem Keeps.pure (a : α) : Keeps (Pure.pure a : Exec α) := by
  rintro s h _ _ ⟨⟩
  exact h

theorem Keeps.bind {m : Exec α} {k : α → Exec β} (hm : Keeps m) (hk : ∀ a, Keeps (k a)) : Keeps (m >>= k) := by
  intro s h b t ht
  obtain ⟨a, u, first, rest⟩ := Exec.bind_inv ht
  exact hk a u (hm s h a u first) b t rest

/-- What follows a reading of the state may use that its memories are canonical. -/
theorem Keeps.get {k : State → Exec β} (hk : ∀ s, s.memsWf → Keeps (k s)) : Keeps (MonadState.get >>= k) :=
  fun s h => hk s h s h

theorem Keeps.set {s : State} (h : s.memsWf) : Keeps (MonadStateOf.set s : Exec PUnit) := by
  rintro _ _ _ _ ⟨⟩
  exact h

theorem Keeps.stop (x : Stop) : Keeps (Machine.stop x : Exec α) := by
  rintro s h _ _ ⟨⟩

theorem Keeps.trapWith (x : TrapInfo) : Keeps (Machine.trapWith x : Exec α) := by
  rintro s h _ _ ⟨⟩

theorem Keeps.trap (x : Cause) : Keeps (Machine.trap x : Exec α) := .trapWith _

theorem Keeps.block (x : Block) : Keeps (Machine.block x : Exec α) := .stop _

theorem Keeps.act {f : State → State} (hf : ∀ s, s.memsWf → (f s).memsWf) : Keeps (Machine.act f) := by
  rintro s h _ _ ⟨⟩
  exact hf s h

theorem Keeps.actGet {f : State → α × State} (hf : ∀ s, s.memsWf → (f s).2.memsWf) : Keeps (Machine.actGet f) := by
  intro s h a t ht
  have : f s = (a, t) := by simpa [Machine.actGet] using ht
  simpa [this] using hf s h

theorem Keeps.ite {c : Prop} [Decidable c] {a b : Exec α} (ha : Keeps a) (hb : Keeps b) : Keeps (if c then a else b) := by
  split <;> assumption

/-- A check that may stop before what follows. -/
theorem Keeps.guard {c : Prop} [Decidable c] {m : Exec Unit} {k : Unit → Exec β} (hm : Keeps m) (hk : ∀ a, Keeps (k a)) :
    Keeps (if c then m >>= k else k ()) :=
  .ite (hm.bind hk) (hk ())

theorem Keeps.check (b : Bool) (c : Cause) : Keeps (Machine.check b c) :=
  .ite (.pure _) (.trap _)

theorem Keeps.need (o : Option α) : Keeps (Machine.need o) := by
  cases o with
  | none => exact .stop _
  | some x => exact .pure x

end

end Sys2Proof.MemoryForm

/-! O60, that each function of the model keeps the memories canonical: the operations of the state, memory, translation, logs, the end of
groups, and traps.
A lemma follows the branches of its function and cites the lemmas of what the function calls; where the proof is the hypothesis itself, the
function writes none of the three memories. -/

namespace Sys2Proof.MemoryForm

open Sys2Proof Sys2Proof.Machine

variable {s t : State}

/-! ## Parts of the state -/

theorem modStrand_keeps (h : s.memsWf) : (s.modStrand k f).memsWf := h

theorem modGroup_keeps (hf : ∀ x, memWf x.win = true → memWf (f x).win = true) (h : s.memsWf) : (s.modGroup g f).memsWf := by
  obtain ⟨hm, hg, hc⟩ := h
  refine ⟨hm, fun e he => ?_, hc⟩
  obtain he | ⟨x, hx, rfl⟩ := Ends.mem_tmod he
  · exact hg e he
  · exact hf x (hg _ hx)

theorem modLaunch_keeps (h : s.memsWf) : (s.modLaunch l f).memsWf := h

theorem modCtx_keeps (h : s.memsWf) : (s.modCtx c f).memsWf := h

theorem modDie_keeps (h : s.memsWf) : (s.modDie d f).memsWf := h

theorem setFree_keeps (h : s.memsWf) : (s.setFree n).memsWf := h

theorem drawNat_keeps (h : s.memsWf) : s.drawNat.2.memsWf :=
  setFree_keeps h

theorem drawBool_keeps (h : s.memsWf) : s.drawBool.2.memsWf :=
  setFree_keeps h

/-! ## System memory and the windows -/

theorem setLoftByte_keeps (h : s.memsWf) : (s.setLoftByte a b).memsWf :=
  (DeviceFrame.setLoftByte_logged ..).memsWf h

theorem writeSpa_keeps (h : s.memsWf) : (s.writeSpa a b).memsWf :=
  (DeviceFrame.writeSpa_logged ..).memsWf h

theorem writeCore_keeps (h : s.memsWf) : (s.writeCore g off l).memsWf :=
  modGroup_keeps (fun _ => memWf_memWrite _ _ _) h

theorem writeClus_keeps (h : s.memsWf) : (s.writeClus g off l).memsWf := by
  obtain ⟨hm, hg, hc⟩ := h
  have old : memWf (tgetD s.cwins g []) = true := tgetD_of_forall (p := fun m => memWf m = true) hc rfl
  exact ⟨hm, hg, forall_tset (p := fun m => memWf m = true) hc (memWf_memWrite _ _ _ old)⟩

theorem repair_keeps (h : s.memsWf) : (s.repair a n).memsWf :=
  (DeviceFrame.repair_logged ..).memsWf h

/-! ## Translation -/

theorem xlate_keeps (h : s.memsWf) : (xlate d va s).2.memsWf :=
  (DeviceFrame.xlate_walked ..).logged.memsWf h

theorem devWordE_keeps (h : s.memsWf) : (devWordE d die va s).2.2.memsWf :=
  (DeviceFrame.devWordE_walked ..).logged.memsWf h

theorem devWriteE_keeps (h : s.memsWf) : (devWriteE d die va l s).2.2.memsWf :=
  (DeviceFrame.devWriteE_logged ..).memsWf h

/-! ## Logs -/

theorem pfEvent_keeps (h : s.memsWf) : (s.pfEvent e).memsWf :=
  (DeviceFrame.pfEvent_logged ..).memsWf h

theorem pfDrop_keeps (h : s.memsWf) : (s.pfDrop).memsWf :=
  (DeviceFrame.pfDrop_logged ..).memsWf h

theorem logEvent_keeps (h : s.memsWf) : (logEvent c e s).memsWf :=
  (DeviceFrame.logEvent_logged ..).memsWf h

theorem logPlain_keeps (h : s.memsWf) : (logPlain c kind detail launch arg0 arg1 s).memsWf :=
  (DeviceFrame.logPlain_logged ..).memsWf h

theorem logWalk_keeps (h : s.memsWf) : (logWalk c launch va a s).memsWf :=
  (DeviceFrame.logWalk_logged ..).memsWf h

theorem logWalks_keeps (h : s.memsWf) : (logWalks c l s).memsWf :=
  (DeviceFrame.logWalks_logged ..).memsWf h

theorem devRead_keeps (h : s.memsWf) : (devRead d die va n s).2.memsWf :=
  (DeviceFrame.devRead_logged ..).memsWf h

theorem devWrite_keeps (h : s.memsWf) : (devWrite d die va l s).2.memsWf :=
  (DeviceFrame.devWrite_logged ..).memsWf h

theorem appendFor_keeps (h : s.memsWf) : (appendFor d die base size esz entry s).2.memsWf :=
  (DeviceFrame.appendFor_logged ..).memsWf h

theorem logAll_keeps (h : s.memsWf) : (logAll p e a s).memsWf :=
  (DeviceFrame.logAll_logged ..).memsWf h

theorem logRepl_keeps (h : s.memsWf) : (logRepl kind detail arg0 arg1 s).memsWf :=
  (DeviceFrame.logRepl_logged ..).memsWf h

theorem writeForCtx_keeps (h : s.memsWf) : (writeForCtx c va l s).memsWf :=
  (DeviceFrame.writeForCtx_logged ..).memsWf h

theorem alogFor_keeps (h : s.memsWf) : (alogFor k tid cpc lg s).memsWf :=
  (DeviceFrame.alogFor_logged ..).memsWf h

theorem sendRingInt_keeps (h : s.memsWf) : (sendRingInt c r s).memsWf := by
  unfold sendRingInt
  split <;> exact h

theorem ringWritten_keeps (h : s.memsWf) : (ringWritten c r s).memsWf := by
  unfold ringWritten
  split
  · exact h
  · exact ite_keeps (sendRingInt_keeps (modCtx_keeps h)) h

theorem appendURing_keeps (h : s.memsWf) : (appendURing c launch die r payload tid x s).2.memsWf := by
  unfold appendURing
  grind [appendFor_keeps, ringWritten_keeps, logPlain_keeps, pfDrop_keeps]

/-! ## Shared operations -/

theorem modQ_keeps (h : s.memsWf) : (s.modQ a n f).memsWf := h

theorem popAll_keeps (h : s.memsWf) : (s.popAll k l).memsWf := by
  induction l generalizing s with
  | nil => exact h
  | cons e l ih => exact ih (modQ_keeps h)

theorem deliver_keeps (h : s.memsWf) : (deliver k d s).memsWf := by
  unfold deliver
  grind [modStrand_keeps, modQ_keeps, modGroup_keeps]

theorem deliverAll_keeps (h : s.memsWf) : (deliverAll k l s).memsWf := by
  induction l generalizing s with
  | nil => exact h
  | cons d l ih => exact ih (deliver_keeps h)

theorem modPend_keeps (h : s.memsWf) : (s.modPend a f).memsWf := h

theorem finishPend_keeps (h : s.memsWf) : (finishPend p s).memsWf :=
  alogFor_keeps h

theorem deliverPart_keeps (h : s.memsWf) : (deliverPart p d s).memsWf := by
  unfold deliverPart
  grind [deliver_keeps, modStrand_keeps]

theorem pendPart_keeps (h : s.memsWf) : (pendPart p part s).memsWf := by
  unfold pendPart
  grind [finishPend_keeps, deliver_keeps, modPend_keeps, deliverPart_keeps]

theorem pendWhole_keeps (h : s.memsWf) : (pendWhole p s).memsWf :=
  finishPend_keeps (deliverAll_keeps h)

theorem commitAt_keeps (h : s.memsWf) : (commitAt k pt tok s).memsWf := h

theorem commitWord_keeps (h : s.memsWf) : (commitWord k len s).memsWf := by
  unfold commitWord
  split
  · exact commitAt_keeps h
  · exact h

theorem gangLeave_keeps (h : s.memsWf) : (gangLeave g o s).memsWf := h

theorem wakeBars_keeps (h : s.memsWf) : (wakeBars s).memsWf :=
  foldl_keeps (fun _ _ => finishPend_keeps) _ h

theorem raiseShed_keeps (h : s.memsWf) : (raiseShed die e s).memsWf := h

theorem shedPop_keeps (h : s.memsWf) : (shedPop die e s).memsWf := h

theorem clearBinds_keeps (h : s.memsWf) : (clearBinds die l s).memsWf := by
  induction l generalizing s with
  | nil => exact h
  | cons e l ih =>
    rw [clearBinds]
    split
    · exact ih (raiseShed_keeps (modDie_keeps h))
    · exact ih h

theorem accept_keeps (h : s.memsWf) : (s.accept w).memsWf := h

theorem joinColl_keeps (h : s.memsWf) : (joinColl ctx c s).memsWf := by
  unfold joinColl
  grind [memsWf_iff]

theorem addColl_keeps (h : s.memsWf) : (addColl w c s).memsWf :=
  joinColl_keeps h

theorem fireTile_keeps (h : s.memsWf) : (fireTile l g x s).memsWf :=
  addColl_keeps h

theorem spend_keeps (h : s.memsWf) : (s.spend die n f).memsWf :=
  ite_keeps h h

theorem logDebt_keeps (h : s.memsWf) : (logDebt g x s).memsWf :=
  (Ends.logDebt_logged ..).memsWf h

theorem dropGates_keeps (h : s.memsWf) : (dropGates p s).memsWf := h

theorem endGroup_keeps (h : s.memsWf) : (endGroup g fires s).memsWf := by
  unfold endGroup
  grind [memsWf_iff, modLaunch_keeps, logDebt_keeps, modGroup_keeps, dropGates_keeps, wakeBars_keeps, gangLeave_keeps, clearBinds_keeps,
    fireTile_keeps]

theorem endGroups_keeps (h : s.memsWf) : (endGroups fires l s).memsWf := by
  induction l generalizing s with
  | nil => exact h
  | cons g l ih => exact ih (endGroup_keeps h)

theorem killLaunch_keeps (h : s.memsWf) : (killLaunch l s).memsWf :=
  endGroups_keeps h

theorem blastLaunch_keeps (h : s.memsWf) : (blastLaunch l cls num s).memsWf := by
  unfold blastLaunch
  split
  · exact killLaunch_keeps (logPlain_keeps h)
  · exact h

theorem writeFault_keeps (h : s.memsWf) : (writeFault k l rec_ s).memsWf := by
  unfold writeFault
  dsimp only
  repeat' split
  all_goals grind [modLaunch_keeps, logPlain_keeps, devWordE_keeps, logWalks_keeps, devWriteE_keeps]

theorem recordTrap_keeps (h : s.memsWf) : (recordTrap k fa a s).memsWf := by
  unfold recordTrap
  grind [foldl_keeps, logWalk_keeps, logEvent_keeps, modStrand_keeps, writeFault_keeps]

theorem enterTrap_keeps (h : s.memsWf) : (enterTrap k fa code s).memsWf := by
  unfold enterTrap
  grind [modStrand_keeps, killLaunch_keeps, logPlain_keeps]

theorem takeTrap_keeps (h : s.memsWf) : (takeTrap k fa a s).memsWf :=
  enterTrap_keeps (recordTrap_keeps h)

theorem takeTraps_keeps (h : s.memsWf) : (takeTraps ks a s).memsWf := by
  unfold takeTraps
  grind [foldl_keeps, enterTrap_keeps, recordTrap_keeps]

/-! ## Containment -/

theorem uncorrectable_keeps (h : s.memsWf) : (uncorrectable die cls num s).memsWf := by
  unfold uncorrectable
  grind [memsWf_iff, foldl_keeps, modDie_keeps, pfEvent_keeps, raiseShed_keeps, blastLaunch_keeps]

theorem blastUse_keeps (h : s.memsWf) : (blastUse l die cls num s).memsWf := by
  unfold blastUse
  grind [uncorrectable_keeps, blastLaunch_keeps]

theorem runWord_keeps (hm : Keeps m) (h : s.memsWf) : NextCanon (runWord k m s) := by
  unfold runWord
  have hm := hm s h
  grind [NextCanon, takeTrap_keeps, modStrand_keeps, blastUse_keeps, memsWf_iff]

end Sys2Proof.MemoryForm

/-! O60, that each function of the model keeps the memories canonical: operands, accesses, atomics, handles, barriers, rendezvous and
the matrix array.
A lemma follows the branches of its function and cites the lemmas of what the function calls; where the proof is the hypothesis itself, the
function writes none of the three memories. -/

namespace Sys2Proof.MemoryForm

open Sys2Proof Sys2Proof.Machine

variable {s t : State}

/-! ## Operands -/

theorem curStrand_keeps : Keeps curStrand := by
  unfold curStrand Keeps
  grind

theorem popVals_keeps : Keeps (popVals k q w) := by
  unfold popVals Keeps
  grind [modQ_keeps]

theorem readOpnd_keeps : Keeps (readOpnd k x o) := by
  unfold readOpnd
  split
  · exact .pure _
  · split
    · exact popVals_keeps
    · exact .pure _

theorem readOpt_keeps : Keeps (readOpt k x o) := by
  cases o with
  | none => exact .pure _
  | some o => exact readOpnd_keeps

theorem readWordAt_keeps : Keeps (readWordAt sp va) := by
  unfold readWordAt
  refine curStrand_keeps.bind fun ⟨k, x⟩ => ?_
  dsimp -zeta only
  split
  · exact .trap _
  · exact readOpt_keeps.bind fun a => readOpt_keeps.bind fun b => readOpt_keeps.bind fun d => .ite (.pure _) (.trapWith _)

theorem readWord_keeps : Keeps (readWord sp) :=
  readWordAt_keeps

theorem pushVals_keeps : Keeps (pushVals k q vs) := by
  unfold pushVals Keeps
  grind [modQ_keeps]

theorem writeVals_keeps : Keeps (writeVals k x n vs) := by
  unfold writeVals
  split
  · exact .act fun _ => modStrand_keeps
  · split
    · exact pushVals_keeps
    · exact .pure _

theorem done_keeps : Keeps (done v len lg) :=
  .act fun _ h => modStrand_keeps (alogFor_keeps h)

theorem valueWord_keeps : Keeps (valueWord sp f) := by
  unfold valueWord
  refine readWord_keeps.bind fun v => ?_
  dsimp only
  split
  · exact writeVals_keeps.bind fun _ => done_keeps
  · exact done_keeps

theorem predWord_keeps : Keeps (predWord sp pd f) :=
  readWord_keeps.bind fun _ => (Keeps.act fun _ => modStrand_keeps).bind fun _ => done_keeps

theorem flagRoom_keeps : Keeps (flagRoom x fb) := by
  unfold flagRoom
  split
  · exact .ite (.block _) (.pure _)
  · exact .pure _

theorem places_keeps : Keeps (places k x n w) := by
  unfold places
  split
  · exact .pure _
  · split
    · exact .pure _
    · unfold Keeps
      grind [modQ_keeps]

theorem placesRoom_keeps : Keeps (placesRoom k n w) := by
  unfold placesRoom
  split
  · exact .pure _
  · unfold Keeps
    grind

theorem freshId_keeps : Keeps freshId := by
  rintro s h _ _ ⟨⟩
  exact h

theorem issuePend_keeps (h : s.memsWf) : (issuePend p s).memsWf := h

theorem mathWord_keeps : Keeps (mathWord fb sp f) := by
  unfold mathWord
  refine readWord_keeps.bind fun v => flagRoom_keeps.bind fun _ => ?_
  split
  · split
    · exact writeVals_keeps.bind fun _ => done_keeps
    · exact done_keeps
  · have held : ∀ pl : List Place, Keeps (do
        let id ← freshId
        act (issuePend ({ Pend.blank id v.k v.x fb sp.len with dests := destsOf pl (f v).1 }.withLog (f v).2))) :=
      fun _ => freshId_keeps.bind fun _ => .act fun _ => issuePend_keeps
    split
    · exact places_keeps.bind held
    · exact (Keeps.pure _).bind held

/-! ## Items -/

theorem modItem_keeps (h : s.memsWf) : (s.modItem a f).memsWf := h

theorem dropItem_keeps (h : s.memsWf) : (s.dropItem a).memsWf := h

theorem writeLin_keeps (h : s.memsWf) : (s.writeLin die c lin l).memsWf := by
  induction l generalizing s lin with
  | nil => exact h
  | cons b l ih => exact ih (setLoftByte_keeps h)

/-! ## The window base -/

theorem execWin_keeps (h : s.memsWf) : NextCanon (execWin im s) :=
  runWord_keeps (readWord_keeps.bind fun _ => (Keeps.check _ _).bind fun _ => (Keeps.act fun _ => modStrand_keeps).bind fun _ =>
    done_keeps) h

/-! ## The replicated region -/

theorem modRepl_keeps (h : s.memsWf) : (s.modRepl die f).memsWf := h

theorem writeStamped_keeps (h : s.memsWf) : (writeStamped die off l st s).memsWf := by
  obtain ⟨hm, hg, hc⟩ := h
  exact repair_keeps ⟨memWf_memWrite _ _ _ hm, hg, hc⟩

theorem sendAll_keeps (h : s.memsWf) : (sendAll die p s).memsWf := h

theorem applyOwnWeak_keeps (h : s.memsWf) : (applyOwnWeak die a ctx since off l s).memsWf :=
  modRepl_keeps (writeStamped_keeps h)

theorem issueWeak_keeps (h : s.memsWf) : (issueWeak k ctx die off l s).memsWf :=
  ite_keeps (applyOwnWeak_keeps h) h

/-! ## Order -/

theorem holdForOrder_keeps : Keeps (holdForOrder k loc ask) := by
  unfold holdForOrder Keeps
  grind

theorem holdForRelease_keeps : Keeps (holdForRelease k scope viaRepl) := by
  unfold holdForRelease Keeps
  grind

theorem holdForBar_keeps : Keeps (holdForBar k) := by
  unfold holdForBar Keeps
  grind

/-! ## Accesses performed -/

theorem triggerGraph_keeps (h : s.memsWf) : (triggerGraph die ctx g s).memsWf := by
  unfold triggerGraph
  split
  · exact ite_keeps (raiseShed_keeps h) h
  · exact h

theorem storeSpa_keeps (h : s.memsWf) : (storeSpa c a l s).memsWf := by
  unfold storeSpa
  grind [foldl_keeps, triggerGraph_keeps, repair_keeps, writeSpa_keeps]

theorem logFab_keeps (h : s.memsWf) : (logFab ctx launch detail m d va s).memsWf :=
  logPlain_keeps h

theorem chargeHbm_keeps (h : s.memsWf) : (chargeHbm ctx loc n s).memsWf := by
  unfold chargeHbm
  split
  · exact spend_keeps h
  · exact h

theorem spendHbm_keeps : Keeps (spendHbm ctx loc n) := by
  unfold spendHbm Keeps
  grind [chargeHbm_keeps]

theorem putPacket_keeps (h : s.memsWf) : (putPacket y n body s).memsWf := h

theorem sendPacket_keeps (h : s.memsWf) : (sendPacket y acct n body s).memsWf :=
  spend_keeps (putPacket_keeps h)

theorem writeLoc_keeps (h : s.memsWf) : (writeLoc k ctx loc l s).memsWf := by
  unfold writeLoc
  grind [writeCore_keeps, writeClus_keeps, storeSpa_keeps, issueWeak_keeps]

theorem waitAccess_keeps : Keeps (waitAccess a) := by
  unfold waitAccess Keeps
  grind

theorem errorEvent_keeps (h : s.memsWf) : (errorEvent a s).memsWf := by
  unfold errorEvent
  grind [logFab_keeps, logPlain_keeps]

theorem sendAccess_keeps (h : s.memsWf) : (sendAccess a s).memsWf := by
  unfold sendAccess
  split
  · exact sendPacket_keeps h
  · exact h

theorem askAway_keeps (h : s.memsWf) : (askAway a s).memsWf := by
  unfold askAway
  split
  · exact sendAccess_keeps h
  · exact h

theorem perform_keeps (h : s.memsWf) : (perform a s).2.memsWf := by
  unfold perform
  grind [chargeHbm_keeps, sendAccess_keeps, writeLoc_keeps, errorEvent_keeps, askAway_keeps]

theorem readSource_keeps (h : s.memsWf) : (readSource x r s).2.memsWf := by
  unfold readSource
  grind [drawBool_keeps]

theorem readSources_keeps (h : s.memsWf) : (readSources x l s).2.memsWf := by
  induction l generalizing s with
  | nil => exact h
  | cons r l ih => exact ih (readSource_keeps h)

theorem bindData_keeps (h : s.memsWf) : (bindData a s).2.memsWf := by
  unfold bindData
  split
  · split
    · exact h
    · exact readSources_keeps h
  · exact h

theorem modHeld_keeps (h : s.memsWf) : (s.modHeld a f).memsWf := h

theorem dropHeld_keeps (h : s.memsWf) : (s.dropHeld a).memsWf := h

theorem readData_keeps (h : s.memsWf) : (readData p a s).memsWf := by
  unfold readData
  grind [bindData_keeps, finishPend_keeps, modHeld_keeps]

theorem performHalf_keeps (h : s.memsWf) : (performHalf a s).memsWf := by
  unfold performHalf
  split
  · exact modHeld_keeps (writeLoc_keeps h)
  · exact h

theorem performHeld_keeps (h : s.memsWf) : (performHeld h0 s).memsWf := by
  unfold performHeld
  grind [bindData_keeps, blastUse_keeps, performHalf_keeps, perform_keeps, dropHeld_keeps, modPend_keeps]

/-! ## Loads, stores and slots -/

theorem who_keeps : Keeps (who k x) := by
  unfold who Keeps
  grind

theorem trapSlot_keeps {α : Type} : Keeps (trapSlot c sl i va errs : Exec α) := .trapWith _

theorem xlateE_keeps : Keeps (xlateE d va) := by
  unfold xlateE Keeps
  grind [xlate_keeps]

theorem holdForBad_keeps : Keeps (holdForBad own loc n reads) := by
  unfold holdForBad Keeps
  grind

theorem accessAt_keeps : Keeps (accessAt w r sl i ak b) := by
  unfold accessAt
  refine .guard trapSlot_keeps fun _ => .guard trapSlot_keeps fun _ => ?_
  split
  · exact .guard trapSlot_keeps fun _ => .guard trapSlot_keeps fun _ => .pure _
  · exact .guard trapSlot_keeps fun _ => .guard trapSlot_keeps fun _ => .pure _
  · refine xlateE_keeps.bind fun x => .get fun s h => ?_
    rcases x with e | p
    · exact .guard trapSlot_keeps fun _ => trapSlot_keeps
    · refine .guard trapSlot_keeps fun _ => .guard trapSlot_keeps fun _ => .guard trapSlot_keeps fun _ => ?_
      exact holdForBad_keeps.bind fun _ => .pure _

theorem slotRec_keeps : Keeps (slotRec k sl) := by
  unfold slotRec Keeps
  grind

theorem accessWord_keeps : Keeps (accessWord sp sl b acc) := by
  unfold accessWord
  refine curStrand_keeps.bind fun _ => ?_
  dsimp only
  split
  · exact .trap _
  · refine slotRec_keeps.bind fun _ => readOpt_keeps.bind fun _ => readOpt_keeps.bind fun _ => ?_
    refine .guard (.trapWith _) fun _ => .guard trapSlot_keeps fun _ => ?_
    exact who_keeps.bind fun _ => accessAt_keeps.bind fun _ => .pure _

theorem deliverOrPend_keeps : Keeps (deliverOrPend w fb len sync a dests lg) := by
  unfold deliverOrPend Keeps
  grind [memsWf_iff, modStrand_keeps, alogFor_keeps, deliverAll_keeps, issuePend_keeps]

theorem waitFor_keeps (h : s.memsWf) : (waitFor w fb len a kind pl s).memsWf := h

theorem makeNow_keeps : Keeps (makeNow w fb len pl g) := by
  unfold makeNow
  refine waitAccess_keeps.bind fun _ => .get fun s h => ?_
  refine (Keeps.set (perform_keeps (s := { s with nextId := s.nextId + 2 }) h)).bind fun _ => ?_
  split
  · exact deliverOrPend_keeps
  · split
    · exact deliverOrPend_keeps
    · exact .act fun _ => waitFor_keeps
  · exact .ite (.act fun _ => waitFor_keeps) deliverOrPend_keeps

theorem makeLater_keeps : Keeps (makeLater w fb len pl g) := by
  unfold makeLater
  refine .get fun s h => .ite (.set (waitFor_keeps ?_)) (.ite ((Keeps.set ?_).bind fun _ => deliverOrPend_keeps) (.set (waitFor_keeps ?_)))
  all_goals exact h

theorem makeAccess_keeps : Keeps (makeAccess w fb len pl a) :=
  .get fun _ _ => .ite makeNow_keeps makeLater_keeps

theorem issueLoad_keeps : Keeps (issueLoad a fb len d acq strm) :=
  flagRoom_keeps.bind fun _ => places_keeps.bind fun _ => .get fun _ _ => makeAccess_keeps

theorem issueStore_keeps : Keeps (issueStore a fb len rel strm d) := by
  unfold issueStore
  refine flagRoom_keeps.bind fun _ => .guard holdForBar_keeps fun _ => .get fun s _ => ?_
  extract_lets made commits
  have hmade : ∀ u, Keeps (made u) := fun _ => makeAccess_keeps
  have hcommits : ∀ u, Keeps (commits u) := fun _ => .guard (.act fun _ => commitWord_keeps) hmade
  split
  · exact .guard (.block _) hcommits
  · exact hcommits ()

theorem loadWord_keeps (h : s.memsWf) : NextCanon (loadWord fb d sl b w esz s) :=
  runWord_keeps (accessWord_keeps.bind fun _ => issueLoad_keeps) h

theorem storeWord_keeps (h : s.memsWf) : NextCanon (storeWord fb d sl b w esz s) :=
  runWord_keeps (accessWord_keeps.bind fun _ => issueStore_keeps) h

theorem execLda_keeps (h : s.memsWf) : NextCanon (execLda fb d sl b lit s) :=
  runWord_keeps (accessWord_keeps.bind fun _ => issueLoad_keeps) h

theorem execStl_keeps (h : s.memsWf) : NextCanon (execStl fb d sl b lit s) :=
  runWord_keeps (accessWord_keeps.bind fun _ => issueStore_keeps) h

theorem readRecord_keeps : Keeps (readRecord w va n al) := by
  unfold readRecord
  refine .guard (.trapWith _) fun _ => xlateE_keeps.bind fun x => .get fun s h => ?_
  rcases x with e | p
  · exact .trapWith _
  · refine .guard (.trapWith _) fun _ => .guard (.trapWith _) fun _ => holdForOrder_keeps.bind fun _ => ?_
    split
    · exact .pure _
    · exact holdForBad_keeps.bind fun _ => spendHbm_keeps.bind fun _ => .pure _

theorem readRuns_keeps : Keeps (readRuns w va n) := by
  induction n generalizing va with
  | zero => exact .pure _
  | succ n ih => exact readRecord_keeps.bind fun _ => ih.bind fun _ => .pure _

theorem recReadLog_keeps : Keeps (RecRead.log r ctx) :=
  .act fun _ => foldl_keeps (fun _ _ => logEvent_keeps) _

theorem slotLoad_keeps (hw : ∀ v, Keeps (wait v)) : Keeps (slotLoad fb a n wait good dest) := by
  unfold slotLoad
  refine readWordAt_keeps.bind fun v => (hw v).bind fun _ => who_keeps.bind fun w => readRecord_keeps.bind fun r => .get fun s h => ?_
  exact .guard (.trapWith _) fun _ => flagRoom_keeps.bind fun _ => recReadLog_keeps.bind fun _ => deliverOrPend_keeps

theorem execBload_keeps (h : s.memsWf) : NextCanon (execBload fb sl a s) :=
  runWord_keeps (slotLoad_keeps fun _ => slotRec_keeps.bind fun _ => .pure _) h

theorem execLload_keeps (h : s.memsWf) : NextCanon (execLload fb sl a s) :=
  runWord_keeps (slotLoad_keeps fun _ => .pure _) h

theorem execBqrySlot_keeps (h : s.memsWf) : NextCanon (execBqrySlot d sl im s) :=
  runWord_keeps (readWord_keeps.bind fun _ => slotRec_keeps.bind fun _ => writeVals_keeps.bind fun _ => done_keeps) h

/-! ## Atomics -/

theorem issueAtomic_keeps : Keeps (issueAtomic a fb d op) :=
  flagRoom_keeps.bind fun _ => holdForBar_keeps.bind fun _ => places_keeps.bind fun _ =>
    (Keeps.act fun _ => commitWord_keeps).bind fun _ => .get fun _ _ => makeAccess_keeps

theorem atomicWord_keeps (h : s.memsWf) : NextCanon (atomicWord op fb d sl b s) :=
  runWord_keeps (accessWord_keeps.bind fun _ => issueAtomic_keeps) h

theorem execFence_keeps (h : s.memsWf) : NextCanon (execFence k sc s) :=
  runWord_keeps (readWord_keeps.bind fun _ => .get fun _ _ => .ite done_keeps (.block _)) h

/-! ## The choice of strands -/

theorem chosen_keeps (h : t.memsWf) : (chosen s t).memsWf :=
  ite_keeps h h

/-! ## Handles -/

theorem syncWrite_keeps (h : s.memsWf) : (syncWrite g a s).memsWf := by
  unfold syncWrite
  split
  · exact h
  · exact ite_keeps (writeCore_keeps h) (writeClus_keeps h)

theorem setHandle_keeps (h : s.memsWf) : (setHandle g n a s).memsWf := by
  unfold setHandle
  grind [modGroup_keeps, syncWrite_keeps]

theorem startHeld_keeps (h : s.memsWf) : (startHeld g n inbound s).memsWf := h

theorem hwait_keeps : Keeps (hwait fb d g m) := by
  unfold hwait
  refine .get fun s0 _ => readWord_keeps.bind fun v => flagRoom_keeps.bind fun _ => .get fun s _ => .ite ?_ (.block _)
  refine .guard (.trapWith _) fun _ => ?_
  split
  · exact writeVals_keeps.bind fun _ => done_keeps
  · exact places_keeps.bind fun _ => freshId_keeps.bind fun _ => .act fun _ => issuePend_keeps

theorem wordState_keeps (hm : Keeps m) (h : s.memsWf) : (wordState k m s).memsWf := by
  unfold wordState
  have := runWord_keeps (k := k) (s := { s with cur := k }) hm h
  split
  · rename_i t heq
    have ht : t.memsWf := this t heq
    exact ht
  · exact h

theorem retryHwait_keeps (h : s.memsWf) : (retryHwait n k s).memsWf := by
  unfold retryHwait
  split
  · exact h
  split
  · exact h
  split
  · split
    · exact wordState_keeps hwait_keeps h
    · exact h
  · exact h

theorem wakeHandle_keeps (h : s.memsWf) : (wakeHandle g n s).memsWf :=
  ite_keeps (foldl_keeps (fun _ _ => retryHwait_keeps) _ h) h

theorem handleEvent_keeps (h : s.memsWf) : (handleEvent g n f s).memsWf := by
  unfold handleEvent
  grind [setHandle_keeps, startHeld_keeps, wakeHandle_keeps]

theorem execHset_keeps (h : s.memsWf) : NextCanon (execHset n a b s) := by
  refine runWord_keeps (readWord_keeps.bind fun v => .get fun s _ => (Keeps.need _).bind fun x => (Keeps.need _).bind fun l => ?_) h
  extract_lets buf syn e finish m e'
  split
  · exact .trap _
  · have hfinish : ∀ u, Keeps (finish u) := fun _ => done_keeps
    refine .ite ((Keeps.check _ _).bind fun _ => Keeps.bind (.act fun s h => ?_) hfinish) ((Keeps.check _ _).bind hfinish)
    exact handleEvent_keeps (syncWrite_keeps (setHandle_keeps h))

theorem execHrel_keeps (h : s.memsWf) : NextCanon (execHrel a b s) :=
  runWord_keeps (readWord_keeps.bind fun _ => .get fun _ _ => done_keeps.bind fun _ => .ite (.act fun _ => handleEvent_keeps) (.pure _)) h

/-! ## Barriers -/

theorem barArrive_keeps (h : s.memsWf) : (barArrive g gang num n s).memsWf := by
  unfold barArrive
  grind [memsWf_iff, modGroup_keeps]

theorem barWait_keeps : Keeps (barWait k x fb wf gang num gen) := by
  unfold barWait Keeps
  grind [memsWf_iff, issuePend_keeps, modStrand_keeps]

theorem barArrival_keeps : Keeps (barArrival fb wf gang a num lim ok) := by
  unfold barArrival
  refine readWord_keeps.bind fun v => (Keeps.check _ _).bind fun _ => .guard flagRoom_keeps fun _ => ?_
  refine holdForBar_keeps.bind fun _ => holdForRelease_keeps.bind fun _ => .get fun s h => ?_
  refine (Keeps.act fun _ => barArrive_keeps).bind fun _ => (Keeps.act fun _ => commitAt_keeps).bind fun _ => ?_
  exact (Keeps.act fun _ => wakeBars_keeps).bind fun _ => barWait_keeps

theorem barrierWord_keeps : Keeps (barrierWord fb wf gang a num lim ok) := by
  unfold barrierWord
  refine curStrand_keeps.bind fun ⟨k, x⟩ => ?_
  dsimp -zeta only
  split
  · exact .guard flagRoom_keeps fun _ => barWait_keeps
  · exact barArrival_keeps

theorem namedWord_keeps : Keeps (namedWord fb wf a im s) :=
  barrierWord_keeps

theorem gangWord_keeps : Keeps (gangWord fb wf a im s) :=
  barrierWord_keeps

/-! ## Rendezvous -/

theorem clearCircle_keeps (h : s.memsWf) : (clearCircle g key s).memsWf := by
  unfold clearCircle
  grind [modGroup_keeps]

theorem rvto_keeps (h : s.memsWf) : (rvto g key extra s).memsWf := by
  unfold rvto
  split
  · exact h
  · exact takeTraps_keeps (clearCircle_keeps h)

theorem arrive_keeps (h : s.memsWf) : (arrive k b agree a s).memsWf := by
  unfold arrive
  grind [modStrand_keeps, modGroup_keeps, rvto_keeps]

theorem runTotal_keeps {α : Type} {m : Exec α} {d : α} (hm : Keeps m) (h : s.memsWf) : (runTotal m d s).2.memsWf := by
  have hm := hm s h
  unfold runTotal
  split
  · rename_i r hr
    exact hm r.1 r.2 hr
  · exact h

theorem resDests_keeps : Keeps (resDests k x d r) := by
  cases r with
  | vals l lg => exact places_keeps.bind fun _ => .pure _
  | pred b => exact .pure _

theorem circDone_keeps (h : s.memsWf) : (circDone k b at_ a s).memsWf := by
  unfold circDone
  grind [memsWf_iff, popAll_keeps, runTotal_keeps, resDests_keeps, commitWord_keeps, modStrand_keeps, alogFor_keeps, deliverAll_keeps,
    issuePend_keeps]

theorem settleRendezvous_keeps (h : s.memsWf) : (settleRendezvous g c a s).memsWf := by
  unfold settleRendezvous
  split
  · exact h
  · exact ite_keeps (foldl_keeps (fun _ _ => circDone_keeps) _ (clearCircle_keeps h)) h

theorem rvWord_keeps : Keeps (rvWord fb sp pa) := by
  unfold rvWord
  refine .get fun s0 h0 => readWord_keeps.bind fun v => (Keeps.set h0).bind fun _ => flagRoom_keeps.bind fun _ => ?_
  refine holdForBar_keeps.bind fun _ => ?_
  extract_lets sq arrives
  have harrives : ∀ u, Keeps (arrives u) := fun _ => (Keeps.need _).bind fun w => .act fun _ h => settleRendezvous_keeps (arrive_keeps h)
  split
  · exact placesRoom_keeps.bind harrives
  · exact harrives ()

/-! ## The matrix array -/

theorem applyArray_keeps (h : s.memsWf) : (applyArray w c s).memsWf := by
  unfold applyArray
  grind [foldl_keeps, dropItem_keeps, blastUse_keeps, modGroup_keeps, alogFor_keeps, pendWhole_keeps]

theorem tryArray_keeps (h : s.memsWf) : (tryArray a s).memsWf := by
  unfold tryArray
  grind [applyArray_keeps]

theorem arrPlaces_keeps : Keeps (arrPlaces k x i) := by
  unfold arrPlaces
  split
  · unfold Keeps
    grind [modQ_keeps]
  · exact places_keeps
  · exact .pure _

theorem arrIssue_keeps (h : s.memsWf) : (arrIssue i item k a s).memsWf := by
  unfold arrIssue
  grind [memsWf_iff, popAll_keeps, runTotal_keeps, arrPlaces_keeps, commitWord_keeps, issuePend_keeps]

theorem settleMatrix_keeps (h : s.memsWf) : (settleMatrix g c s).memsWf := by
  unfold settleMatrix
  dsimp only
  repeat' split
  all_goals grind [memsWf_iff, foldl_keeps, clearCircle_keeps, takeTraps_keeps, blastUse_keeps, arrIssue_keeps, tryArray_keeps,
    accept_keeps]

theorem mmWord_keeps : Keeps (mmWord fb sp lit ok room) := by
  unfold mmWord
  refine .get fun s0 h0 => curStrand_keeps.bind fun ⟨k, x⟩ => (Keeps.need _).bind fun l => ?_
  extract_lets place litOk scale ql sp'
  split
  · exact .trap _
  refine readOpt_keeps.bind fun a => readOpt_keeps.bind fun b => ?_
  extract_lets checked
  suffices h : ∀ cmd, Keeps (checked cmd) by
    split
    · exact popVals_keeps.bind h
    · exact (Keeps.pure _).bind h
  intro cmd
  unfold checked
  extract_lets w sc arrives roomy flagged tagged
  have harrives : ∀ u, Keeps (arrives u) := fun _ =>
    (Keeps.set h0).bind fun _ => (Keeps.need _).bind fun _ => .act fun _ h => settleMatrix_keeps (arrive_keeps h)
  have hroomy : ∀ u, Keeps (roomy u) := fun _ => (Keeps.need _).bind fun t => by
    split
    · exact harrives ()
    · exact (Keeps.block _).bind harrives
  have hflagged : ∀ u, Keeps (flagged u) := fun _ => holdForBar_keeps.bind fun _ => by
    split
    · exact placesRoom_keeps.bind hroomy
    · exact hroomy ()
  have htagged : ∀ u, Keeps (tagged u) := fun _ => (Keeps.check _ _).bind fun _ => (Keeps.check _ _).bind fun _ => by
    split
    · exact flagRoom_keeps.bind hflagged
    · exact hflagged ()
  split
  · exact (Keeps.check _ _).bind fun _ => (Keeps.check _ _).bind htagged
  · exact htagged ()

end Sys2Proof.MemoryForm

/-! O60, that each function of the model keeps the memories canonical: the engines, copies, strong operations, gate words, the fabric's
words, and the strands.
A lemma follows the branches of its function and cites the lemmas of what the function calls; where the proof is the hypothesis itself, the
function writes none of the three memories. -/

namespace Sys2Proof.MemoryForm

open Sys2Proof Sys2Proof.Machine

variable {s t : State}

/-! ## Engines -/

theorem meetMem_keeps (h : s.memsWf) : (meetMem w d seg va m ep n wr s).2.memsWf := by
  unfold meetMem
  grind [xlate_keeps, logWalk_keeps]

theorem meetEnd_keeps (h : s.memsWf) : (meetEnd w e n wr s).2.memsWf := by
  unfold meetEnd
  grind [meetMem_keeps]

theorem writeEnd_keeps (h : s.memsWf) : (writeEnd w e l b s).memsWf := by
  unfold writeEnd
  grind [writeLin_keeps, writeLoc_keeps]

theorem startBox_keeps (h : s.memsWf) : (startBox w s).memsWf := by
  unfold startBox
  split
  · exact modItem_keeps h
  · exact h

theorem pauseItem_keeps (h : s.memsWf) : (pauseItem w e wr s).memsWf := h

theorem meetStop_keeps (h : s.memsWf) : (meetStop w n m wr x s).memsWf := by
  unfold meetStop
  grind [modItem_keeps, pauseItem_keeps, logFab_keeps, blastUse_keeps]

theorem askItem_keeps (h : s.memsWf) : (askItem w n e m d spa ask s).memsWf := by
  unfold askItem
  grind [memsWf_iff, blastUse_keeps, modItem_keeps, sendPacket_keeps]

theorem moveRead_keeps (h : s.memsWf) : (moveRead w n m s).memsWf := by
  unfold moveRead
  grind [meetEnd_keeps, askItem_keeps, modItem_keeps, chargeHbm_keeps, meetStop_keeps]

theorem reduceSend_keeps (h : s.memsWf) (ht : reduceSend w op md d spa strm data s = some t) : t.memsWf := by
  unfold reduceSend at ht
  grind [sendPacket_keeps]

theorem moveWrite_keeps (h : s.memsWf) : (moveWrite w n m data s).memsWf := by
  unfold moveWrite
  grind [meetEnd_keeps, modItem_keeps, writeEnd_keeps, meetStop_keeps, askItem_keeps, reduceSend_keeps, writeLoc_keeps, chargeHbm_keeps]

theorem itemAccess_keeps (h : s.memsWf) : (itemAccess a n s).memsWf := by
  unfold itemAccess
  grind [applyArray_keeps, startBox_keeps, modItem_keeps, moveRead_keeps, moveWrite_keeps]

theorem itemArrival_keeps (h : s.memsWf) : (itemArrival a n s).memsWf := by
  unfold itemArrival
  split
  · exact h
  split
  · exact h
  · exact ite_keeps h (handleEvent_keeps (modItem_keeps h))

theorem closeItem_keeps (h : s.memsWf) : (closeItem w s).memsWf := by
  unfold closeItem
  grind [dropItem_keeps, modQ_keeps, alogFor_keeps, handleEvent_keeps]

theorem itemComplete_keeps (h : s.memsWf) : (itemComplete a s).memsWf := by
  unfold itemComplete
  split
  · exact ite_keeps (closeItem_keeps h) h
  · exact h

theorem drawBytes_keeps (h : s.memsWf) : (drawBytes n s).2.memsWf := by
  induction n generalizing s with
  | zero => exact h
  | succ n ih => exact ih (drawNat_keeps h)

theorem garbleMove_keeps (h : s.memsWf) : (garbleMove w m s).memsWf := by
  unfold garbleMove
  grind [foldl_keeps, drawBytes_keeps, writeLin_keeps, meetEnd_keeps, writeLoc_keeps, writeEnd_keeps]

theorem failEvent_keeps (h : s.memsWf) : (failEvent w c s).memsWf := by
  unfold failEvent
  grind [logPlain_keeps]

theorem itemFail_keeps (h : s.memsWf) : (itemFail a c s).memsWf := by
  unfold itemFail
  grind [memsWf_iff, foldl_keeps, failEvent_keeps, garbleMove_keeps, handleEvent_keeps, closeItem_keeps]

theorem reserveTok_keeps : Keeps (reserveTok k) := by
  unfold reserveTok Keeps
  grind [modQ_keeps]

theorem acceptItem_keeps (h : s.memsWf) : (acceptItem w s).memsWf := by
  unfold acceptItem
  split
  · exact ite_keeps (setHandle_keeps (accept_keeps h)) h
  · exact h

theorem submitWord_keeps : Keeps (submitWord w fb len scope tok fab item) := by
  unfold submitWord
  refine flagRoom_keeps.bind fun _ => holdForBar_keeps.bind fun _ => holdForRelease_keeps.bind fun _ => .get fun s h => ?_
  extract_lets id it sq submits takes roomy
  have hsubmits : ∀ t, Keeps (submits t) := fun t => by
    unfold submits
    refine (Keeps.act fun _ => commitWord_keeps).bind fun _ => Keeps.bind (.act fun s h => ?_) fun _ =>
      (Keeps.act fun _ => modStrand_keeps).bind fun _ => deliverOrPend_keeps.bind fun _ => .pure _
    exact acceptItem_keeps (s := { s with nextId := id + 1 }) h
  have htakes : ∀ u, Keeps (takes u) := fun _ => by
    unfold takes
    split
    · exact reserveTok_keeps.bind hsubmits
    · exact (Keeps.pure _).bind hsubmits
  have hroomy : ∀ u, Keeps (roomy u) := fun _ => by
    unfold roomy
    split
    · exact htakes ()
    · exact (Keeps.block _).bind htakes
  split
  · exact .guard (.stop _) hroomy
  · exact hroomy ()

/-! ## Copies and jobs -/

theorem checkAt_keeps : Keeps (checkAt ok c r) := by
  unfold checkAt
  split
  · exact .pure _
  · exact .trapWith _

theorem subWord_keeps : Keeps (subWord sp lit ok sl el) := by
  unfold subWord
  refine curStrand_keeps.bind fun ⟨k, x⟩ => ?_
  dsimp -zeta only
  split
  · exact .trap _
  refine readOpt_keeps.bind fun a => readOpt_keeps.bind fun b => readOpt_keeps.bind fun d => ?_
  extract_lets at_ checked
  have hchecked : ∀ q, Keeps (checked q) := fun q =>
    checkAt_keeps.bind fun _ => checkAt_keeps.bind fun _ => who_keeps.bind fun _ => .pure _
  split
  · exact popVals_keeps.bind hchecked
  · exact (Keeps.pure _).bind hchecked

theorem layoutRec_keeps : Keeps (layoutRec k sl) := by
  intro s h a t ht
  unfold layoutRec at ht
  split at ht
  · cases ht
  · split at ht <;> cases ht
    exact h

theorem execCpt_keeps (h : s.memsWf) : NextCanon (execCpt fb l a b lit s) := by
  refine runWord_keeps (subWord_keeps.bind fun q => layoutRec_keeps.bind fun img => .get fun s _ => ?_) h
  refine checkAt_keeps.bind fun _ => checkAt_keeps.bind fun _ => checkAt_keeps.bind fun _ => checkAt_keeps.bind fun _ => ?_
  exact submitWord_keeps.bind fun _ => .pure _

theorem execCps_keeps (h : s.memsWf) : NextCanon (execCps fb sl a b lit s) := by
  refine runWord_keeps (subWord_keeps.bind fun q => slotRec_keeps.bind fun img => .get fun s _ => ?_) h
  refine checkAt_keeps.bind fun _ => checkAt_keeps.bind fun _ => ?_
  extract_lets h
  split
  · exact trapSlot_keeps
  · exact submitWord_keeps.bind fun _ => .pure _

theorem execTmov_keeps (h : s.memsWf) : NextCanon (execTmov fb d a b lit s) := by
  refine runWord_keeps (subWord_keeps.bind fun q => .get fun s _ => (Keeps.check _ _).bind fun _ => ?_) h
  refine (Keeps.check _ _).bind fun _ => (Keeps.check _ _).bind fun _ => (Keeps.check _ _).bind fun _ => ?_
  exact submitWord_keeps.bind fun _ => .pure _

theorem execJobs_keeps (h : s.memsWf) : NextCanon (execJobs fb s) := by
  refine runWord_keeps (curStrand_keeps.bind fun ⟨k, x⟩ => ?_) h
  dsimp -zeta only
  split
  · exact .trap _
  · refine popVals_keeps.bind fun c => who_keeps.bind fun w => .get fun s _ => ?_
    exact (Keeps.check _ _).bind fun _ => (Keeps.check _ _).bind fun _ => submitWord_keeps.bind fun _ => .pure _

/-! ## Strong operations and gate words -/

theorem strongReady_keeps (h : s.memsWf) : (strongReady die u k gs m s).memsWf := h

theorem applyStrong_keeps (h : s.memsWf) : (applyStrong die u k gs wseq s).memsWf := by
  unfold applyStrong
  grind [modRepl_keeps, writeStamped_keeps, sendAll_keeps, strongReady_keeps]

theorem advanceUpds_keeps (h : s.memsWf) : (advanceUpds die fuel s).memsWf := by
  induction fuel generalizing s with
  | zero => exact h
  | succ fuel ih =>
    rw [advanceUpds]
    split
    · exact h
    split
    · exact h
    split
    · exact ih (applyOwnWeak_keeps (modRepl_keeps h))
    · exact ite_keeps (ih (applyStrong_keeps (modRepl_keeps h))) h
    · exact h

theorem runUpds_keeps (h : s.memsWf) : (runUpds die s).memsWf :=
  advanceUpds_keeps h

theorem issueStrong_keeps (h : s.memsWf) : (issueStrong w fb sc op off n val val2 pl tags s).memsWf := h

theorem strongGo_keeps : Keeps (strongGo w fb) :=
  flagRoom_keeps.bind fun _ => holdForBar_keeps.bind fun _ => holdForRelease_keeps.bind fun _ => .get fun _ _ => .ite (.block _) (.pure _)

theorem strongWord_keeps (h : s.memsWf) : NextCanon (strongWord op fb d sl b s) := by
  refine runWord_keeps (slotRec_keeps.bind fun img => accessWord_keeps.bind fun a => ?_) h
  refine holdForOrder_keeps.bind fun _ => strongGo_keeps.bind fun _ => ?_
  extract_lets v e issues
  have hissues : ∀ pl, Keeps (issues pl) := fun pl => by
    refine (Keeps.act fun _ => commitWord_keeps).bind fun _ => ?_
    split
    · exact .act fun _ => issueStrong_keeps
    · exact .pure _
  exact .ite ((Keeps.pure _).bind hissues) (places_keeps.bind hissues)

theorem execRsync_keeps (h : s.memsWf) : NextCanon (execRsync fb d s) := by
  refine runWord_keeps (readWord_keeps.bind fun v => who_keeps.bind fun w => .get fun s _ => (Keeps.check _ _).bind fun _ => ?_) h
  refine .guard (.stop _) fun _ => strongGo_keeps.bind fun _ => places_keeps.bind fun pl => ?_
  exact (Keeps.act fun _ => commitWord_keeps).bind fun _ => .act fun _ => issueStrong_keeps

theorem execRstamp_keeps (h : s.memsWf) : NextCanon (execRstamp fb d sl b s) := by
  refine runWord_keeps (accessWord_keeps.bind fun a => ?_) h
  refine flagRoom_keeps.bind fun _ => holdForBar_keeps.bind fun _ => holdForOrder_keeps.bind fun _ => places_keeps.bind fun pl => ?_
  refine (Keeps.act fun _ => commitWord_keeps).bind fun _ => .get fun s _ => ?_
  split
  · exact deliverOrPend_keeps
  · exact .pure _

theorem sendGate_keeps (h : s.memsWf) : (sendGate die o s).memsWf :=
  ite_keeps h h

theorem gateWord_keeps : Keeps (gateWord sp fb ok ask d n) := by
  unfold gateWord
  refine .get fun s0 h0 => readWord_keeps.bind fun v => ?_
  refine (Keeps.check _ _).bind fun _ => who_keeps.bind fun w => flagRoom_keeps.bind fun _ => holdForBar_keeps.bind fun _ =>
    holdForRelease_keeps.bind fun _ => ?_
  split
  · refine placesRoom_keeps.bind fun _ => (Keeps.set h0).bind fun _ => Keeps.bind (.act fun s h => ?_) fun _ =>
      .act fun _ => modStrand_keeps
    exact sendGate_keeps (s := { s with nextId := s.nextId + 1 }) h
  · split
    · extract_lets commits
      have hcommits : ∀ pl, Keeps (commits pl) := fun pl => by
        unfold commits
        refine (Keeps.act fun _ => commitWord_keeps).bind fun _ => freshId_keeps.bind fun _ => ?_
        extract_lets src p
        split
        · refine Keeps.bind (.act fun _ => id) fun _ => ?_
          split
          · exact .act fun _ h => pendWhole_keeps (issuePend_keeps h)
          · exact .act fun _ => issuePend_keeps
        · exact .act fun _ => id
      split
      · exact (Keeps.pure _).bind hcommits
      · exact places_keeps.bind hcommits
    · exact .block _

theorem gateSig_keeps : Keeps (gateSig fb a b) :=
  gateWord_keeps

theorem gateWait_keeps : Keeps (gateWait fb d a b) :=
  gateWord_keeps

theorem gateRead_keeps : Keeps (gateRead fb d a) :=
  gateWord_keeps

/-! ## Multicasts and collectives -/

theorem readList_keeps : Keeps (readList w va) :=
  readRecord_keeps.bind fun _ => readRuns_keeps.bind fun _ => .pure _

theorem execMcst_keeps (h : s.memsWf) : NextCanon (execMcst fb d sl o s) := by
  refine runWord_keeps (readWord_keeps.bind fun v => slotRec_keeps.bind fun img => who_keeps.bind fun w => ?_) h
  refine (Keeps.check _ _).bind fun _ => (Keeps.check _ _).bind fun _ => .get fun s0 _ => checkAt_keeps.bind fun _ => ?_
  split
  · exact .trapWith _
  · refine readList_keeps.bind fun r => .guard (.trapWith _) fun _ => recReadLog_keeps.bind fun _ => .get fun s1 _ => ?_
    exact submitWord_keeps.bind fun _ => .pure _

theorem rangeFault_keeps : Keeps (rangeFault w wr l) := by
  induction l with
  | nil => exact .pure _
  | cons m l ih =>
    rw [rangeFault]
    split
    · refine xlateE_keeps.bind fun x => .get fun s h => ?_
      split
      · exact (Keeps.trapWith _).bind fun _ => ih
      · exact .guard (.trapWith _) fun _ => ih
    · exact ih

theorem chipRange_keeps : Keeps (chipRange w va n wr) :=
  .get fun _ _ => rangeFault_keeps

theorem takeOrder_keeps (h : s.memsWf) : (takeOrder die a s).2.memsWf :=
  modDie_keeps h

theorem execColl_keeps (h : s.memsWf) : NextCanon (execColl fb s) := by
  refine runWord_keeps (curStrand_keeps.bind fun ⟨k, x⟩ => ?_) h
  dsimp -zeta only
  split
  · exact .trap _
  · refine popVals_keeps.bind fun l => who_keeps.bind fun w => .get fun s _ => ?_
    refine (Keeps.check _ _).bind fun _ => chipRange_keeps.bind fun _ => chipRange_keeps.bind fun _ => ?_
    refine .guard (.trapWith _) fun _ => .guard (.trapWith _) fun _ => submitWord_keeps.bind fun item => freshId_keeps.bind fun id => ?_
    exact (Keeps.actGet fun _ => takeOrder_keeps).bind fun ord => .act fun _ => joinColl_keeps

theorem execA2at_keeps (h : s.memsWf) : NextCanon (execA2at fb d a b lit s) := by
  refine runWord_keeps (subWord_keeps.bind fun q => .get fun s _ => (Keeps.check _ _).bind fun _ => readRuns_keeps.bind fun rd => ?_) h
  refine .guard (.trapWith _) fun _ => recReadLog_keeps.bind fun _ => chipRange_keeps.bind fun _ => ?_
  extract_lets hd submits dstOk srcOk
  have hsubmits : ∀ u, Keeps (submits u) := fun _ => submitWord_keeps.bind fun item => freshId_keeps.bind fun id =>
    (Keeps.actGet fun _ => takeOrder_keeps).bind fun ord => .act fun _ => joinColl_keeps
  have hdst : ∀ u, Keeps (dstOk u) := fun _ => .guard (.trapWith _) hsubmits
  have hsrc : ∀ u, Keeps (srcOk u) := fun _ => .guard (.trapWith _) hdst
  exact .ite (chipRange_keeps.bind hsrc) ((Keeps.check _ _).bind hsrc)

/-! ## Words of class 0xE -/

theorem readQDesc_keeps (h : s.memsWf) : (readQDesc c die q s).2.memsWf :=
  (SystemRows.readQDesc_logged ..).memsWf h

theorem modQueue_keeps (h : s.memsWf) : (s.modQueue c q f).memsWf := h

theorem doorbellEvent_keeps (h : s.memsWf) : (doorbellEvent die c q s).memsWf := h

theorem appendLaunch_keeps (h : s.memsWf) : (appendLaunch c q addr s).2.memsWf := by
  unfold appendLaunch
  grind [readQDesc_keeps, drawNat_keeps, devWrite_keeps, doorbellEvent_keeps, modQueue_keeps]

theorem commitRelease_keeps : Keeps (commitRelease v) :=
  holdForBar_keeps.bind fun _ => holdForRelease_keeps

theorem execLaunch_keeps (h : s.memsWf) : NextCanon (execLaunch d a b s) := by
  refine runWord_keeps (readWord_keeps.bind fun v => (Keeps.check _ _).bind fun _ => .guard (.trapWith _) fun _ => ?_) h
  refine commitRelease_keeps.bind fun _ => .get fun s _ => who_keeps.bind fun w => .guard (.stop _) fun _ => ?_
  refine (Keeps.act fun _ => commitWord_keeps).bind fun _ => (Keeps.actGet fun _ => appendLaunch_keeps).bind fun r => ?_
  exact writeVals_keeps.bind fun _ => done_keeps

theorem execTrig_keeps (h : s.memsWf) : NextCanon (execTrig a s) := by
  refine runWord_keeps (readWord_keeps.bind fun v => (Keeps.check _ _).bind fun _ => commitRelease_keeps.bind fun _ => ?_) h
  refine (Keeps.act fun _ => commitWord_keeps).bind fun _ => who_keeps.bind fun w => .get fun s _ => .guard (.stop _) fun _ => ?_
  exact .ite ((Keeps.act fun _ => triggerGraph_keeps).bind fun _ => done_keeps)
    ((Keeps.act fun _ => logPlain_keeps).bind fun _ => done_keeps)

theorem execCapq_keeps (h : s.memsWf) : NextCanon (execCapq d a s) :=
  runWord_keeps (readWord_keeps.bind fun _ => (Keeps.check _ _).bind fun _ => writeVals_keeps.bind fun _ => done_keeps) h

theorem execClk_keeps (h : s.memsWf) : NextCanon (execClk d a s) :=
  runWord_keeps (readWord_keeps.bind fun _ => (Keeps.check _ _).bind fun _ => .get fun _ _ => writeVals_keeps.bind fun _ => done_keeps) h

theorem execElog_keeps (h : s.memsWf) : NextCanon (execElog a b s) :=
  runWord_keeps (readWord_keeps.bind fun _ => who_keeps.bind fun _ => (Keeps.act fun _ => logPlain_keeps).bind fun _ => done_keeps) h

theorem execUlog_keeps (h : s.memsWf) : NextCanon (execUlog d a b s) := by
  refine runWord_keeps (readWord_keeps.bind fun v => (Keeps.check _ _).bind fun _ => commitRelease_keeps.bind fun _ => ?_) h
  refine (Keeps.act fun _ => commitWord_keeps).bind fun _ => who_keeps.bind fun w => ?_
  exact (Keeps.actGet fun _ => appendURing_keeps).bind fun r => writeVals_keeps.bind fun _ => done_keeps

/-! ## Strands -/

theorem fetchSpa_keeps (h : s.memsWf) : (fetchSpa l a s).2.memsWf := by
  unfold fetchSpa
  grind [drawBool_keeps]

theorem fetchWord_keeps (h : s.memsWf) : (fetchWord w a s).2.memsWf := by
  unfold fetchWord
  grind [xlate_keeps, logPlain_keeps, fetchSpa_keeps]

theorem fetchWords_keeps (h : s.memsWf) : (fetchWords w n a l s).2.memsWf := by
  induction n generalizing a l s with
  | zero => exact h
  | succ n ih =>
    have one := fetchWord_keeps (w := w) (a := a) h
    rw [fetchWords]
    split
    · rename_i heq
      rw [heq] at one
      exact ih one
    · rename_i heq
      rw [heq] at one
      exact one

theorem fetchClause_keeps (h : s.memsWf) : (fetchClause w s).2.memsWf := by
  unfold fetchClause
  grind [fetchWords_keeps]

theorem enterClause_keeps (h : s.memsWf) : (enterClause w a body s).memsWf := by
  unfold enterClause
  split
  · exact takeTrap_keeps (modStrand_keeps h)
  · exact h

theorem clauseEntry_keeps (h : s.memsWf) : (clauseEntry k s).memsWf := by
  unfold clauseEntry
  grind [fetchClause_keeps, enterClause_keeps, takeTrap_keeps, blastUse_keeps, modStrand_keeps]

theorem clauseWaitEnd_keeps (h : s.memsWf) : (clauseWaitEnd k s).memsWf := by
  unfold clauseWaitEnd
  split
  · exact ite_keeps (modStrand_keeps h) h
  · exact h

theorem execClauseEntry_keeps (h : s.memsWf) : NextCanon (execClauseEntry s) := by
  unfold execClauseEntry
  split
  · exact nextCanon_next (clauseEntry_keeps h)
  · exact nextCanon_next h

theorem execClauseWaitEnd_keeps (h : s.memsWf) : NextCanon (execClauseWaitEnd s) := by
  unfold execClauseWaitEnd
  split
  · exact nextCanon_next (clauseWaitEnd_keeps h)
  · exact nextCanon_next h

theorem execEncodingFault_keeps (h : s.memsWf) : NextCanon (execEncodingFault s) := by
  unfold execEncodingFault
  split
  · split
    · exact nextCanon_next h
    split
    · exact nextCanon_next h
    · exact runWord_keeps (.trap _) h
  · exact nextCanon_next h

theorem completePart_keeps (h : s.memsWf) : (completePart a part s).memsWf := by
  unfold completePart
  grind [readData_keeps, pendPart_keeps, performHeld_keeps]

theorem execLongLatencyComplete_keeps (h : s.memsWf) : NextCanon (execLongLatencyComplete s) := by
  unfold execLongLatencyComplete
  split
  · exact nextCanon_next (completePart_keeps h)
  · exact nextCanon_next h

theorem retryWord_keeps (h : s.memsWf) : (retryWord why k s).memsWf := by
  unfold retryWord
  grind [memsWf_iff, modStrand_keeps]

theorem execQueueUnblock_keeps (h : s.memsWf) : NextCanon (execQueueUnblock s) := by
  unfold execQueueUnblock
  split
  · exact nextCanon_next (retryWord_keeps h)
  · exact nextCanon_next h

theorem execSubmissionAccept_keeps (h : s.memsWf) : NextCanon (execSubmissionAccept s) := by
  unfold execSubmissionAccept
  split
  · exact nextCanon_next (retryWord_keeps h)
  · exact nextCanon_next h

theorem execRvtoTimeout_keeps (h : s.memsWf) : NextCanon (execRvtoTimeout s) := by
  unfold execRvtoTimeout
  grind [NextCanon, rvto_keeps]

theorem execQdlkTimeout_keeps (h : s.memsWf) : NextCanon (execQdlkTimeout s) := by
  unfold execQdlkTimeout
  split
  · exact nextCanon_next (ite_keeps (takeTraps_keeps h) h)
  · exact nextCanon_next h

theorem execEngineItemAccess_keeps (h : s.memsWf) : NextCanon (execEngineItemAccess s) := by
  unfold execEngineItemAccess
  split
  · exact nextCanon_next (itemAccess_keeps h)
  · exact nextCanon_next h

theorem execHandleArrival_keeps (h : s.memsWf) : NextCanon (execHandleArrival s) := by
  unfold execHandleArrival
  split
  · exact nextCanon_next (itemArrival_keeps h)
  · exact nextCanon_next h

theorem execItemComplete_keeps (h : s.memsWf) : NextCanon (execItemComplete s) := by
  unfold execItemComplete
  split
  · exact nextCanon_next (itemComplete_keeps h)
  · exact nextCanon_next h

theorem execItemFail_keeps (h : s.memsWf) : NextCanon (execItemFail s) := by
  unfold execItemFail
  grind [NextCanon, itemFail_keeps]

end Sys2Proof.MemoryForm

/-! O60, that each function of the model keeps the memories canonical: lifecycles, launches, graphs, commands, administration and boot.
A lemma follows the branches of its function and cites the lemmas of what the function calls; where the proof is the hypothesis itself, the
function writes none of the three memories. -/

namespace Sys2Proof.MemoryForm

open Sys2Proof Sys2Proof.Machine

variable {s t : State}

/-! ## Lifecycles -/

theorem tickGroup_keeps (h : s.memsWf) : (tickGroup n s e).memsWf :=
  ite_keeps (spend_keeps h) h

theorem tick_keeps (h : s.memsWf) : (tick n s).memsWf :=
  foldl_keeps (fun _ _ => tickGroup_keeps) _ h

theorem clip_keeps (h : s.memsWf) : (clip die a n b s).2.memsWf := by
  unfold clip
  split
  · exact h
  · exact modDie_keeps h

theorem borrow_keeps (h : s.memsWf) : (borrow die a s b).memsWf :=
  ite_keeps h (clip_keeps h)

theorem refillBal_keeps (h : s.memsWf) : (refillBal die a s b).memsWf :=
  clip_keeps h

theorem setPeriod_keeps (h : s.memsWf) : (setPeriod die ns s).memsWf :=
  ite_keeps h h

theorem refillAcct_keeps (h : s.memsWf) : (refillAcct die s a).memsWf :=
  foldl_keeps (fun _ _ => refillBal_keeps) _ h

theorem borrowAcct_keeps (h : s.memsWf) : (borrowAcct die s a).memsWf :=
  ite_keeps (foldl_keeps (fun _ _ => borrow_keeps) _ h) h

theorem execPeriodBoundary_keeps (h : s.memsWf) : NextCanon (execPeriodBoundary s) := by
  unfold execPeriodBoundary
  grind [NextCanon, memsWf_iff, foldl_keeps, raiseShed_keeps, modDie_keeps, refillAcct_keeps, borrowAcct_keeps]

theorem drainGroups_keeps (h : s.memsWf) : (drainGroups die a s).memsWf := by
  obtain ⟨hm, hg, hc⟩ := h
  refine ⟨hm, List.forall_mem_map.mpr fun e he => ?_, hc⟩
  split <;> exact hg e he

theorem sliceTimer_keeps (h : s.memsWf) : (sliceTimer die a s).memsWf :=
  ite_keeps h h

theorem endSlice_keeps (h : s.memsWf) : (endSlice die a s).memsWf :=
  drainGroups_keeps h

theorem sliceOver_keeps (h : s.memsWf) : (sliceOver die a timer s).memsWf := by
  unfold sliceOver
  grind [foldl_keeps, borrow_keeps, endSlice_keeps]

theorem execSliceEnd_keeps (h : s.memsWf) : NextCanon (execSliceEnd s) := by
  unfold execSliceEnd
  grind [NextCanon, sliceOver_keeps, shedPop_keeps]

theorem beginDiscard_keeps (h : s.memsWf) : (beginDiscard g s).memsWf := by
  unfold beginDiscard
  grind [memsWf_iff, modGroup_keeps, dropGates_keeps]

theorem saveGroup_keeps (h : s.memsWf) : (saveGroup s g).memsWf := by
  unfold saveGroup
  grind [memsWf_iff, logDebt_keeps, modGroup_keeps]

theorem execGroupSave_keeps (h : s.memsWf) : NextCanon (execGroupSave s) := by
  unfold execGroupSave
  split
  · split
    · exact nextCanon_next (ite_keeps (foldl_keeps (fun _ _ => saveGroup_keeps) _ h) h)
    · exact nextCanon_next h
  · exact nextCanon_next h

theorem execDrainLimitExpiry_keeps (h : s.memsWf) : NextCanon (execDrainLimitExpiry s) := by
  unfold execDrainLimitExpiry
  grind [NextCanon, memsWf_iff, modGroup_keeps, beginDiscard_keeps]

theorem fenceYard_keeps (h : s.memsWf) : (fenceYard die y launch ns s).memsWf := h

theorem execWatchdogExpiry_keeps (h : s.memsWf) : NextCanon (execWatchdogExpiry s) := by
  unfold execWatchdogExpiry
  split
  · split
    · exact nextCanon_next (ite_keeps (killLaunch_keeps (logPlain_keeps (fenceYard_keeps h))) h)
    · exact nextCanon_next h
  · exact nextCanon_next h

/-! ## Launches and placement -/

theorem devLines_keeps (h : s.memsWf) : (devLines d die va n s).2.memsWf := by
  induction n generalizing va s with
  | zero => exact h
  | succ n ih =>
    rw [devLines]
    grind [devRead_keeps]

theorem checkRecord_keeps (h : s.memsWf) : (checkRecord c addr s).2.memsWf := by
  unfold checkRecord
  grind [devLines_keeps, devRead_keeps]

theorem completion_keeps (h : s.memsWf) : (completion c caddr dfc status reason s).memsWf :=
  ite_keeps h (writeForCtx_keeps h)

theorem nodeEnds_keeps (h : s.memsWf) : (nodeEnds die g n ok s).memsWf := h

theorem nextRange_keeps (h : s.memsWf) : (nextRange rc dies total b s).2.memsWf := by
  unfold nextRange
  split
  · exact drawNat_keeps h
  · exact h
  · exact h

theorem bindGo_keeps (h : s.memsWf) : (bindGo i prio fuel s).memsWf := by
  induction fuel generalizing s with
  | zero =>
    conv => arg 1; whnf
    exact h
  | succ fuel ih =>
    conv => arg 1; whnf
    split
    · exact h
    split
    · exact h
    split
    · exact h
    · dsimp only
      split
      · exact h
      · exact h
      · exact ih (modLaunch_keeps (modDie_keeps (nextRange_keeps h)))

theorem bindLaunch_keeps (h : s.memsWf) : (bindLaunch a s).memsWf := by
  unfold bindLaunch
  split
  · exact h
  split
  · exact h
  · exact bindGo_keeps h

theorem bindAll_keeps (h : s.memsWf) : (bindAll s).memsWf :=
  foldl_keeps (fun _ _ => bindLaunch_keeps) _ h

theorem acceptLaunch_keeps (h : s.memsWf) : (acceptLaunch c rc addr o s).2.memsWf :=
  bindLaunch_keeps h

theorem placeGroup_keeps (h : s.memsWf) : (placeGroup die c l glin owner s).memsWf := by
  unfold placeGroup
  extract_lets rc g o n slots x th st s1 s2
  have h1 : s1.memsWf := ite_keeps h ⟨h.1, h.2.1, forall_tset (p := fun m => memWf m = true) h.2.2 rfl⟩
  have h2 : s2.memsWf := ite_keeps h1 h1
  obtain ⟨hm, hg, hc⟩ := h2
  exact ⟨hm, forall_tset (p := fun x : Group => memWf x.win = true) hg rfl, hc⟩

theorem restoreGroup_keeps (h : s.memsWf) : (restoreGroup die a g s).memsWf := by
  unfold restoreGroup
  grind [memsWf_iff, modGroup_keeps]

theorem bumpBind_keeps (h : s.memsWf) : (bumpBind die slot n s).memsWf := h

theorem execDispatcherPlace_keeps (h : s.memsWf) : NextCanon (execDispatcherPlace s) := by
  unfold execDispatcherPlace
  dsimp only
  repeat' split
  all_goals grind [NextCanon, bumpBind_keeps, restoreGroup_keeps, placeGroup_keeps]

theorem gangPlace_keeps (h : s.memsWf) (ht : gangPlace die cl owner l gs i cores s = some t) : t.memsWf := by
  induction gs generalizing cores s i with
  | nil =>
    cases cores <;> cases ht <;> exact h
  | cons g gs ih =>
    cases cores with
    | nil => cases ht
    | cons c cores =>
      rw [gangPlace] at ht
      split at ht
      · exact ih (placeGroup_keeps h) ht
      · cases ht

theorem gangRestore_keeps (h : s.memsWf) (ht : gangRestore die cl l es cores s = some t) : t.memsWf := by
  induction es generalizing cores s with
  | nil =>
    cases cores <;> cases ht <;> exact h
  | cons e es ih =>
    cases cores with
    | nil => cases ht
    | cons c cores =>
      rw [gangRestore] at ht
      split at ht
      · exact ih (restoreGroup_keeps h) ht
      · cases ht

theorem execGangReservationPass_keeps (h : s.memsWf) : NextCanon (execGangReservationPass s) := by
  unfold execGangReservationPass
  split
  · split
    · exact nextCanon_next h
    split
    · exact nextCanon_next h
    split
    · exact nextCanon_next h
    extract_lets f r gang
    have placed : ∀ u, r = some u → u.memsWf := by
      unfold r
      split
      · exact map_keeps (fun _ => bumpBind_keeps) fun _ => gangRestore_keeps h
      · split
        · exact map_keeps (fun _ => bumpBind_keeps) fun _ => gangPlace_keeps h
        · simp
    clear_value r
    split
    · exact nextCanon_next (placed _ rfl)
    · exact nextCanon_next (modDie_keeps h)
  · exact nextCanon_next h

theorem loseColl_keeps (h : s.memsWf) : (loseColl ctx die a b tile k s).memsWf := h

theorem withdrawTiles_keeps (h : s.memsWf) : (withdrawTiles l s).memsWf := by
  unfold withdrawTiles
  grind [memsWf_iff, foldl_keeps, loseColl_keeps]

theorem dropLaunch_keeps (h : s.memsWf) : (dropLaunch i s).memsWf := by
  obtain ⟨hm, hg, hc⟩ := h
  exact ⟨hm, fun e he => hg e (List.mem_of_mem_filter he), fun e he => hc e (List.mem_of_mem_filter he)⟩

theorem launchEnd_keeps (h : s.memsWf) : (launchEnd l s).memsWf := by
  unfold launchEnd
  grind [dropLaunch_keeps, withdrawTiles_keeps, modQueue_keeps, completion_keeps, logEvent_keeps, nodeEnds_keeps, logPlain_keeps]

theorem execLaunchEnd_keeps (h : s.memsWf) : NextCanon (execLaunchEnd s) := by
  unfold execLaunchEnd
  split
  · split
    · exact nextCanon_next (ite_keeps (launchEnd_keeps h) h)
    · exact nextCanon_next h
  · exact nextCanon_next h

/-! ## Graphs -/

theorem devRange_keeps (h : s.memsWf) : (devRange d die fuel va n s).2.memsWf := by
  induction fuel generalizing va n s with
  | zero => exact h
  | succ fuel ih =>
    rw [devRange]
    grind [devRead_keeps]

theorem devWord_keeps (h : s.memsWf) : (devWord d die va s).2.memsWf := by
  unfold devWord
  grind [devRead_keeps]

theorem loadGraph_keeps (h : s.memsWf) : (loadGraph c die addr g s).2.memsWf := by
  unfold loadGraph
  grind [devRange_keeps, modDie_keeps]

theorem modGraph_keeps (h : s.memsWf) : (s.modGraph die g f).memsWf := h

theorem modNode_keeps (h : s.memsWf) : (modNode die g n f s).memsWf := h

theorem fireCopy_keeps (h : s.memsWf) : (fireCopy die g n ctx x s).memsWf := h

theorem fireKernel_keeps (h : s.memsWf) : (fireKernel die g n c x s).memsWf := by
  unfold fireKernel
  grind [checkRecord_keeps, nodeEnds_keeps, logPlain_keeps, acceptLaunch_keeps]

theorem fireNode_keeps (h : s.memsWf) : (fireNode die g n s).memsWf := by
  unfold fireNode
  grind [modNode_keeps, fireKernel_keeps, fireCopy_keeps]

theorem settleNode_keeps (h : s.memsWf) : (settleNode die g n s).memsWf := by
  unfold settleNode
  grind [fireNode_keeps, modNode_keeps]

theorem arriveNode_keeps (h : s.memsWf) : (arriveNode die g s n).memsWf :=
  ite_keeps h (settleNode_keeps h)

theorem startRun_keeps (h : s.memsWf) : (startRun die g s).memsWf := by
  unfold startRun
  split
  · exact h
  · exact foldl_keeps (fun _ _ => arriveNode_keeps) _ h

theorem settleRun_keeps (h : s.memsWf) : (settleRun die g fuel s).memsWf := by
  induction fuel generalizing s with
  | zero => exact h
  | succ fuel ih =>
    rw [settleRun]
    split
    · exact h
    split
    · exact h
    · extract_lets s1 s2
      have h1 : s1.memsWf := by
        unfold s1
        split <;> exact logPlain_keeps h
      exact ite_keeps (ih (startRun_keeps (modGraph_keeps h1))) (modGraph_keeps h1)

theorem triggerRun_keeps (h : s.memsWf) : (triggerRun die g s).memsWf := by
  unfold triggerRun
  grind [modGraph_keeps, settleRun_keeps, startRun_keeps]

theorem copyEnd_keeps (h : s.memsWf) : (copyEnd die g n x s).2.memsWf := by
  unfold copyEnd
  grind [foldl_keeps, closeItem_keeps, garbleMove_keeps]

theorem signalEnd_keeps (h : s.memsWf) : (signalEnd c die x s).2.memsWf := by
  unfold signalEnd
  grind [xlate_keeps, triggerRun_keeps, repair_keeps, writeSpa_keeps, storeSpa_keeps, logWalks_keeps]

theorem notifyEnd_keeps (h : s.memsWf) : (notifyEnd c die x s).2.memsWf := by
  unfold notifyEnd
  grind [appendURing_keeps, sendRingInt_keeps]

theorem nodeEnd_keeps (h : s.memsWf) : (nodeEnd c die g n x s).2.memsWf := by
  unfold nodeEnd
  grind [copyEnd_keeps, devWord_keeps, signalEnd_keeps, modNode_keeps, notifyEnd_keeps]

theorem endCopy_keeps (h : s.memsWf) : (endCopy die g n x s).memsWf := by
  unfold endCopy
  grind [copyEnd_keeps, modNode_keeps]

theorem nodeComplete_keeps (h : s.memsWf) : (nodeComplete die g n s).memsWf := by
  unfold nodeComplete
  grind [foldl_keeps, nodeEnd_keeps, modNode_keeps, settleRun_keeps, settleNode_keeps, arriveNode_keeps, modGraph_keeps, endCopy_keeps]

theorem execGraphNodeComplete_keeps (h : s.memsWf) : NextCanon (execGraphNodeComplete s) := by
  unfold execGraphNodeComplete
  split
  · exact nextCanon_next (nodeComplete_keeps h)
  · exact nextCanon_next h

/-! ## Commands and shed events -/

theorem stopQueue_keeps (h : s.memsWf) : (stopQueue c q detail arg0 s).memsWf := by
  unfold stopQueue
  split
  · exact h
  · exact logEvent_keeps (modQueue_keeps h)

theorem hostDoorbell_keeps (h : s.memsWf) : (hostDoorbell fn page q val s).memsWf := by
  unfold hostDoorbell
  dsimp only
  repeat' split
  all_goals grind [pfDrop_keeps, readQDesc_keeps, stopQueue_keeps, doorbellEvent_keeps, modQueue_keeps]

theorem execDoorbellWrite_keeps (h : s.memsWf) : NextCanon (execDoorbellWrite s) := by
  unfold execDoorbellWrite
  split
  · exact nextCanon_next (hostDoorbell_keeps h)
  · exact nextCanon_next h

theorem readCommand_keeps (h : s.memsWf) : (readCommand c q x s).memsWf := by
  unfold readCommand
  grind [readQDesc_keeps, devRead_keeps, stopQueue_keeps, modQueue_keeps, raiseShed_keeps, writeForCtx_keeps]

theorem execCommandRead_keeps (h : s.memsWf) : NextCanon (execCommandRead s) := by
  unfold execCommandRead
  split
  · split
    · exact nextCanon_next (ite_keeps h (readCommand_keeps h))
    · exact nextCanon_next h
  · exact nextCanon_next h

theorem endCmd_keeps (h : s.memsWf) : (endCmd c q m status reason s).memsWf :=
  completion_keeps h

theorem runCmd_keeps (hf : ∀ c q x m, (f c q x m s).memsWf) (h : s.memsWf) : NextCanon (runCmd op f s) := by
  unfold runCmd
  split
  · split
    · exact nextCanon_next h
    · split
      · exact nextCanon_next (endCmd_keeps h)
      · exact nextCanon_next (hf ..)
  · exact nextCanon_next h

theorem refuseUnknown_keeps (h : s.memsWf) : (refuseUnknown s).memsWf := by
  unfold refuseUnknown
  split
  · split
    · exact ite_keeps (endCmd_keeps h) h
    · exact h
  · exact h

theorem execCmdNop_keeps (h : s.memsWf) : NextCanon (execCmdNop s) := by
  unfold execCmdNop
  grind [runCmd_keeps, endCmd_keeps, refuseUnknown_keeps]

theorem execCmdGraphld_keeps (h : s.memsWf) : NextCanon (execCmdGraphld s) := by
  unfold execCmdGraphld
  grind [runCmd_keeps, loadGraph_keeps, endCmd_keeps]

theorem waitRead_keeps (h : s.memsWf) : (waitRead c q x m s).memsWf := by
  unfold waitRead
  grind [devWord_keeps, endCmd_keeps]

theorem execCmdWait_keeps (h : s.memsWf) : NextCanon (execCmdWait s) := by
  unfold execCmdWait
  grind [runCmd_keeps, devWord_keeps, endCmd_keeps, modQueue_keeps]

theorem execCmdWaitSatisfied_keeps (h : s.memsWf) : NextCanon (execCmdWaitSatisfied s) := by
  unfold execCmdWaitSatisfied
  grind [runCmd_keeps, waitRead_keeps]

theorem signalStore_keeps (h : s.memsWf) : (signalStore c d va l s).2.memsWf := by
  unfold signalStore
  grind [xlate_keeps, storeSpa_keeps, logWalks_keeps]

theorem execCmdSignal_keeps (h : s.memsWf) : NextCanon (execCmdSignal s) := by
  unfold execCmdSignal
  grind [runCmd_keeps, signalStore_keeps, endCmd_keeps]

theorem refuseLaunch_keeps (h : s.memsWf) : (refuseLaunch c q m reason s).memsWf :=
  endCmd_keeps (logEvent_keeps h)

theorem tryLaunch_keeps (h : s.memsWf) : (tryLaunch c q x m s).memsWf := by
  unfold tryLaunch
  grind [checkRecord_keeps, refuseLaunch_keeps, acceptLaunch_keeps, modQueue_keeps]

theorem execCmdLaunch_keeps (h : s.memsWf) : NextCanon (execCmdLaunch s) := by
  unfold execCmdLaunch
  grind [NextCanon, refuseLaunch_keeps, endCmd_keeps, tryLaunch_keeps]

theorem execAdminQueueReenable_keeps (h : s.memsWf) : NextCanon (execAdminQueueReenable s) := by
  unfold execAdminQueueReenable
  split
  · exact nextCanon_next (modQueue_keeps h)
  · exact nextCanon_next h

theorem shedEvent_keeps (hf : ∀ die e s, s.memsWf → (f die e s).memsWf) (h : s.memsWf) : NextCanon (shedEvent kind f s) := by
  unfold shedEvent
  split
  · split
    · exact nextCanon_next (hf _ _ _ (shedPop_keeps h))
    · exact nextCanon_next h
  · exact nextCanon_next h

theorem execShedEventDoorbell_keeps (h : s.memsWf) : NextCanon (execShedEventDoorbell s) := by
  unfold execShedEventDoorbell
  grind [shedEvent_keeps]

theorem execShedEventCmdread_keeps (h : s.memsWf) : NextCanon (execShedEventCmdread s) := by
  unfold execShedEventCmdread
  grind [shedEvent_keeps, endCmd_keeps]

theorem execShedEventBinddone_keeps (h : s.memsWf) : NextCanon (execShedEventBinddone s) := by
  unfold execShedEventBinddone
  grind [shedEvent_keeps, bindAll_keeps]

theorem execShedEventError_keeps (h : s.memsWf) : NextCanon (execShedEventError s) := by
  unfold execShedEventError
  grind [shedEvent_keeps]

theorem execShedEventTrigger_keeps (h : s.memsWf) : NextCanon (execShedEventTrigger s) := by
  unfold execShedEventTrigger
  grind [shedEvent_keeps, triggerRun_keeps]

theorem joinRequest_keeps (h : s.memsWf) : (joinRequest c x a va write s).memsWf := by
  unfold joinRequest
  split <;> exact h

theorem execShedEventCopyflt_keeps (h : s.memsWf) : NextCanon (execShedEventCopyflt s) := by
  unfold execShedEventCopyflt
  grind [shedEvent_keeps, joinRequest_keeps]

theorem endRequest_keeps (h : s.memsWf) : (endRequest c num res s).memsWf := h

theorem execPageRequestAnswer_keeps (h : s.memsWf) : NextCanon (execPageRequestAnswer s) := by
  unfold execPageRequestAnswer
  split
  · split
    · exact nextCanon_next (endRequest_keeps h)
    · exact nextCanon_next h
  · exact nextCanon_next h

theorem execPageRequestTimeout_keeps (h : s.memsWf) : NextCanon (execPageRequestTimeout s) := by
  unfold execPageRequestTimeout
  split
  · split
    · exact nextCanon_next (ite_keeps (endRequest_keeps h) h)
    · exact nextCanon_next h
  · exact nextCanon_next h

theorem postCopy_keeps (h : s.memsWf) : (postCopy p s).memsWf :=
  ite_keeps h h

theorem pullPage_keeps (h : s.memsWf) : (pullPage c va s).memsWf := by
  unfold pullPage
  grind [memsWf_iff, writeSpa_keeps, repair_keeps]

theorem dropPull_keeps (h : s.memsWf) : (dropPull c va s).memsWf := h

theorem execPagePullComplete_keeps (h : s.memsWf) : NextCanon (execPagePullComplete s) := by
  unfold execPagePullComplete
  grind [NextCanon, endRequest_keeps, pullPage_keeps, logPlain_keeps, dropPull_keeps]

theorem execCoaltTimerExpiry_keeps (h : s.memsWf) : NextCanon (execCoaltTimerExpiry s) := by
  unfold execCoaltTimerExpiry
  split
  · split
    · exact nextCanon_next (ite_keeps (sendRingInt_keeps h) h)
    · exact nextCanon_next h
  · exact nextCanon_next h

theorem execAdminFenceRelease_keeps (h : s.memsWf) : NextCanon (execAdminFenceRelease s) := by
  unfold execAdminFenceRelease
  split
  · exact nextCanon_next (modDie_keeps h)
  · exact nextCanon_next h

/-! ## Administration -/

theorem hostEvent_keeps {f : State → State} (hf : s.memsWf → (f s).memsWf) (h : s.memsWf) : NextCanon (hostEvent f s) :=
  nextCanon_next (ite_keeps (hf h) h)

theorem setInvalRing_keeps (h : s.memsWf) : (setInvalRing fn base size s).memsWf := by
  unfold setInvalRing
  grind [memsWf_iff]

theorem stopInval_keeps (h : s.memsWf) : (stopInval fn detail arg0 r s).memsWf := h

theorem ringInval_keeps (h : s.memsWf) : (ringInval fn tail s).memsWf := by
  unfold ringInval
  dsimp only
  repeat' split
  all_goals grind [memsWf_iff, stopInval_keeps]

theorem takeInval_keeps (h : s.memsWf) : (takeInval op s).memsWf := by
  unfold takeInval
  grind [memsWf_iff, stopInval_keeps]

theorem execInvalStage1Va_keeps (h : s.memsWf) : NextCanon (execInvalStage1Va s) :=
  nextCanon_next (ite_keeps (takeInval_keeps h) h)

theorem execInvalStage1Asid_keeps (h : s.memsWf) : NextCanon (execInvalStage1Asid s) :=
  nextCanon_next (ite_keeps (takeInval_keeps h) h)

theorem execInvalStage2Gpa_keeps (h : s.memsWf) : NextCanon (execInvalStage2Gpa s) :=
  nextCanon_next (ite_keeps (takeInval_keeps h) h)

theorem execInvalStage2Vmid_keeps (h : s.memsWf) : NextCanon (execInvalStage2Vmid s) :=
  nextCanon_next (ite_keeps (takeInval_keeps h) h)

theorem execInvalAll_keeps (h : s.memsWf) : NextCanon (execInvalAll s) :=
  nextCanon_next (ite_keeps (takeInval_keeps h) h)

theorem execInvalComplete_keeps (h : s.memsWf) : NextCanon (execInvalComplete s) := by
  unfold execInvalComplete
  grind [NextCanon, memsWf_iff, writeSpa_keeps]

theorem joinPen_keeps (h : s.memsWf) : (joinPen c y n s).memsWf := h

theorem writeContext_keeps (h : s.memsWf) : (writeContext d s).memsWf := by
  unfold writeContext
  grind [memsWf_iff, joinPen_keeps, modCtx_keeps]

theorem execAdminContextWrite_keeps (h : s.memsWf) : NextCanon (execAdminContextWrite s) := by
  unfold execAdminContextWrite
  grind [NextCanon, hostEvent_keeps, writeContext_keeps]

theorem quarFrames_keeps (h : s.memsWf) : (quarFrames die p s).memsWf := h

theorem discardSlot_keeps (h : s.memsWf) : (discardSlot die k s).memsWf := by
  unfold discardSlot
  split
  · exact h
  · exact h
  · exact modDie_keeps (drawNat_keeps h)

theorem execLoftTeardownFinish_keeps (h : s.memsWf) : NextCanon (execLoftTeardownFinish s) := by
  unfold execLoftTeardownFinish
  grind [NextCanon, foldl_keeps, discardSlot_keeps, modDie_keeps]

theorem writeFrame_keeps (h : s.memsWf) : (writeFrame die f e s).memsWf := by
  unfold writeFrame
  grind [quarFrames_keeps, modDie_keeps, drawNat_keeps]

theorem execFrameOwnershipWrite_keeps (h : s.memsWf) : NextCanon (execFrameOwnershipWrite s) := by
  unfold execFrameOwnershipWrite
  grind [NextCanon, hostEvent_keeps, writeFrame_keeps]

theorem teardown_keeps (h : s.memsWf) : (teardown c s).memsWf := by
  unfold teardown
  split
  · exact h
  · exact foldl_keeps (fun _ _ => killLaunch_keeps) _ h

theorem execContextTeardown_keeps (h : s.memsWf) : NextCanon (execContextTeardown s) := by
  unfold execContextTeardown
  grind [NextCanon, hostEvent_keeps, teardown_keeps]

theorem revokeKey_keeps (h : s.memsWf) : (revokeKey key s).memsWf := h

theorem execContextTeardownFinish_keeps (h : s.memsWf) : NextCanon (execContextTeardownFinish s) := by
  unfold execContextTeardownFinish
  grind [NextCanon, memsWf_iff, foldl_keeps, quarFrames_keeps, revokeKey_keeps]

theorem execReplyReservationRelease_keeps (h : s.memsWf) : NextCanon (execReplyReservationRelease s) := by
  unfold execReplyReservationRelease
  grind [NextCanon, memsWf_iff]

theorem execKeyidQuarantineEnd_keeps (h : s.memsWf) : NextCanon (execKeyidQuarantineEnd s) := by
  unfold execKeyidQuarantineEnd
  grind [NextCanon, memsWf_iff]

theorem writeYard_keeps (h : s.memsWf) : (writeYard y s).memsWf := by
  unfold writeYard
  grind [memsWf_iff, foldl_keeps, quarFrames_keeps]

theorem writePen_keeps (h : s.memsWf) : (writePen y n p s).memsWf :=
  ite_keeps h h

theorem writeArea_keeps (h : s.memsWf) : (writeArea a given s).memsWf := by
  unfold writeArea
  split
  · exact h
  · split <;> exact h

theorem execAdminYardWrite_keeps (h : s.memsWf) : NextCanon (execAdminYardWrite s) := by
  unfold execAdminYardWrite
  grind [NextCanon, hostEvent_keeps, writeYard_keeps]

theorem execAdminKeyInstall_keeps (h : s.memsWf) : NextCanon (execAdminKeyInstall s) := by
  unfold execAdminKeyInstall
  grind [NextCanon, hostEvent_keeps, modDie_keeps]

theorem execAdminReachList_keeps (h : s.memsWf) : NextCanon (execAdminReachList s) := by
  unfold execAdminReachList
  grind [NextCanon, hostEvent_keeps, modDie_keeps]

theorem writeGate_keeps (h : s.memsWf) : (writeGate die r s).memsWf := by
  unfold writeGate
  grind [memsWf_iff]

theorem execAdminGateWrite_keeps (h : s.memsWf) : NextCanon (execAdminGateWrite s) := by
  unfold execAdminGateWrite
  grind [NextCanon, hostEvent_keeps, writeGate_keeps]

theorem writeComm_keeps (h : s.memsWf) : (writeComm die n c s).memsWf :=
  ite_keeps h h

theorem execAdminCommunicatorWrite_keeps (h : s.memsWf) : NextCanon (execAdminCommunicatorWrite s) := by
  unfold execAdminCommunicatorWrite
  grind [NextCanon, hostEvent_keeps, writeComm_keeps]

theorem execAdminEnrol_keeps (h : s.memsWf) : NextCanon (execAdminEnrol s) := by
  unfold execAdminEnrol
  grind [NextCanon, hostEvent_keeps, modDie_keeps]

/-! ## Boot and host inputs -/

theorem resetModule_keeps (h : s.memsWf) : (resetModule s).memsWf :=
  ⟨h.1, List.forall_mem_nil _, List.forall_mem_nil _⟩

theorem execModuleReset_keeps (h : s.memsWf) : NextCanon (execModuleReset s) :=
  nextCanon_next (resetModule_keeps h)

theorem modBoot_keeps (h : s.memsWf) : (s.modBoot die f).memsWf := h

theorem takeImage_keeps (h : s.memsWf) : (takeImage die s).memsWf := by
  obtain ⟨hm, rest⟩ := h
  exact ⟨memWf_filter _ _ hm, rest⟩

theorem runStage_keeps (h : s.memsWf) (ht : runStage die s = some t) : t.memsWf := by
  unfold runStage at ht
  grind [memsWf_iff, modBoot_keeps, takeImage_keeps]

theorem bootStage_keeps (h : s.memsWf) : (bootStage die ok s).memsWf := by
  unfold bootStage
  grind [runStage_keeps, modBoot_keeps]

theorem bootDone_keeps (h : s.memsWf) : (bootDone l s).memsWf := by
  unfold bootDone
  grind [memsWf_iff]

theorem execBootAllDiesReady_keeps (h : s.memsWf) : NextCanon (execBootAllDiesReady s) := by
  unfold execBootAllDiesReady
  split
  · exact nextCanon_next (bootDone_keeps h)
  · exact nextCanon_next h

theorem setFlash_keeps (h : s.memsWf) : (setFlash img s).memsWf :=
  ite_keeps h h

theorem execConfigRequest_keeps (h : s.memsWf) : NextCanon (execConfigRequest s) := by
  unfold execConfigRequest
  grind [NextCanon, memsWf_iff]

theorem assignVf_keeps (h : s.memsWf) : (assignVf fn die s).memsWf :=
  ite_keeps h h

theorem execFunctionLevelReset_keeps (h : s.memsWf) : NextCanon (execFunctionLevelReset s) := by
  unfold execFunctionLevelReset
  grind [NextCanon, foldl_keeps, hostEvent_keeps, teardown_keeps]

theorem regRead_keeps (h : s.memsWf) : (regRead fn off s).memsWf := by
  unfold regRead
  grind [memsWf_iff, drawNat_keeps]

theorem execRegisterWrite_keeps (h : s.memsWf) : NextCanon (execRegisterWrite s) := by
  unfold execRegisterWrite
  split
  · exact nextCanon_next (ite_keeps (hostDoorbell_keeps h) h)
  · exact nextCanon_next h

theorem execAttestationRequest_keeps (h : s.memsWf) : NextCanon (execAttestationRequest s) := by
  unfold execAttestationRequest
  grind [NextCanon, memsWf_iff]

theorem execUncorrectableError_keeps (h : s.memsWf) : NextCanon (execUncorrectableError s) := by
  unfold execUncorrectableError
  split
  · exact nextCanon_next (uncorrectable_keeps h)
  · exact nextCanon_next h

theorem withhold_keeps (h : s.memsWf) : (withhold die n temp s).memsWf := h

theorem execThermalThrottle_keeps (h : s.memsWf) : NextCanon (execThermalThrottle s) := by
  unfold execThermalThrottle
  split
  · exact nextCanon_next (withhold_keeps (drawNat_keeps h))
  · exact nextCanon_next h

theorem execThermalFence_keeps (h : s.memsWf) : NextCanon (execThermalFence s) := by
  unfold execThermalFence
  split
  · exact nextCanon_next (drawNat_keeps (uncorrectable_keeps (withhold_keeps h)))
  · exact nextCanon_next h

theorem sampleDie_keeps (h : s.memsWf) : (sampleDie s die).memsWf :=
  drawNat_keeps (modDie_keeps h)

theorem elapse_keeps (h : s.memsWf) : (elapse n s).memsWf :=
  foldl_keeps (fun _ _ => sampleDie_keeps) _ (tick_keeps h)

theorem lineError_keeps (h : s.memsWf) : NextCanon (lineError spa s) := by
  unfold lineError
  grind [NextCanon, memsWf_iff]

theorem hostStore_keeps (h : s.memsWf) : NextCanon (hostStore die off l s) := by
  unfold hostStore
  grind [NextCanon, writeSpa_keeps]

theorem hostHbm_keeps (h : s.memsWf) : NextCanon (hostHbm fn spa l s) := by
  unfold hostHbm
  grind [NextCanon, foldl_keeps, repair_keeps, writeSpa_keeps, triggerGraph_keeps]

theorem setReplRegion_keeps (h : s.memsWf) : (setReplRegion base size s).memsWf :=
  ite_keeps h ⟨memWf_filter _ _ h.1, h.2⟩

theorem setTrigWindow_keeps (h : s.memsWf) : (setTrigWindow die off s).memsWf :=
  ite_keeps h h

theorem setModuleId_keeps (h : s.memsWf) : (setModuleId n s).memsWf :=
  ite_keeps h h

theorem readPf_keeps (h : s.memsWf) : (readPf n s).memsWf :=
  ite_keeps h h

theorem corrected_keeps (h : s.memsWf) : (corrected die n s).memsWf := h

end Sys2Proof.MemoryForm

/-! O60, that each function of the model keeps the memories canonical: replication, gates, collectives, links and the other agents.
A lemma follows the branches of its function and cites the lemmas of what the function calls; where the proof is the hypothesis itself, the
function writes none of the three memories. -/

namespace Sys2Proof.MemoryForm

open Sys2Proof Sys2Proof.Machine

variable {s t : State}

/-! ## Replication and membership -/

theorem resolveLine_keeps (h : s.memsWf) : (resolveLine die p line b s).memsWf :=
  ite_keeps (writeStamped_keeps h) h

theorem applyPacket_keeps (h : s.memsWf) : (applyPacket die p s).memsWf :=
  ite_keeps h (foldl_keeps (fun _ _ => resolveLine_keeps) _ h)

theorem settlePaddock_keeps (h : s.memsWf) : (settlePaddock die fuel s).memsWf := by
  induction fuel generalizing s with
  | zero => exact runUpds_keeps h
  | succ fuel ih =>
    rw [settlePaddock]
    have run := runUpds_keeps (die := die) h
    split
    · exact run
    · exact ih (applyPacket_keeps (modRepl_keeps run))

theorem settleDie_keeps (h : s.memsWf) : (settleDie die s).memsWf :=
  settlePaddock_keeps h

theorem wakeRsyncs_keeps (h : s.memsWf) : (wakeRsyncs die s).memsWf := h

theorem endLag_keeps (h : s.memsWf) : (endLag d s).memsWf :=
  ite_keeps (logRepl_keeps h) h

theorem execLagDetect_keeps (h : s.memsWf) : NextCanon (execLagDetect s) := by
  unfold execLagDetect
  grind [NextCanon, logRepl_keeps, modRepl_keeps, endLag_keeps]

theorem sendUpdate_keeps (h : s.memsWf) : (sendUpdate src dst s).memsWf := by
  unfold sendUpdate
  grind [memsWf_iff, modRepl_keeps]

theorem execPacketSend_keeps (h : s.memsWf) : NextCanon (execPacketSend s) := by
  unfold execPacketSend
  split
  · exact nextCanon_next (sendUpdate_keeps h)
  · exact nextCanon_next h

theorem receiveUpdate_keeps (h : s.memsWf) : (receiveUpdate src dst idx s).memsWf := by
  unfold receiveUpdate
  split
  · exact h
  · exact ite_keeps h (endLag_keeps (settleDie_keeps (modRepl_keeps h)))

theorem execPacketReceive_keeps (h : s.memsWf) : NextCanon (execPacketReceive s) := by
  unfold execPacketReceive
  split
  · exact nextCanon_next (receiveUpdate_keeps h)
  · exact nextCanon_next h

theorem acknowledge_keeps (h : s.memsWf) : (acknowledge src dst a s).memsWf :=
  ite_keeps h (endLag_keeps h)

theorem execUpdateAcknowledgement_keeps (h : s.memsWf) : NextCanon (execUpdateAcknowledgement s) := by
  unfold execUpdateAcknowledgement
  split
  · exact nextCanon_next (acknowledge_keeps h)
  · exact nextCanon_next h

theorem execCapoGrant_keeps (h : s.memsWf) : NextCanon (execCapoGrant s) := by
  unfold execCapoGrant
  split
  · exact nextCanon_next h
  · split <;> exact nextCanon_next h

theorem takeGrant_keeps (h : s.memsWf) : (takeGrant g s).memsWf := h

theorem execStrongGrantReceive_keeps (h : s.memsWf) : NextCanon (execStrongGrantReceive s) := by
  unfold execStrongGrantReceive
  split
  · split
    · exact nextCanon_next h
    · exact nextCanon_next (wakeRsyncs_keeps (settleDie_keeps (takeGrant_keeps h)))
  · exact nextCanon_next h

theorem execCapoHandoff_keeps (h : s.memsWf) : NextCanon (execCapoHandoff s) := by
  unfold execCapoHandoff
  split <;> exact nextCanon_next h

theorem condemn_keeps (h : s.memsWf) : (condemn d s).memsWf := h

theorem execLagEvictTimeout_keeps (h : s.memsWf) : NextCanon (execLagEvictTimeout s) := by
  unfold execLagEvictTimeout
  grind [NextCanon, endLag_keeps, condemn_keeps]

theorem execLinksLost_keeps (h : s.memsWf) : NextCanon (execLinksLost s) := by
  unfold execLinksLost
  split
  · exact nextCanon_next (ite_keeps (condemn_keeps h) h)
  · exact nextCanon_next h

theorem forwardTo_keeps (h : s.memsWf) : (forwardTo d k c s).memsWf := h

theorem evictRound_keeps (h : s.memsWf) : (evictRound e c l s).memsWf := by
  unfold evictRound
  grind [foldl_keeps, settleDie_keeps, forwardTo_keeps]

theorem evictRounds_keeps (h : s.memsWf) : (evictRounds e c l n s).memsWf := by
  induction n generalizing s with
  | zero => exact h
  | succ n ih => exact ih (evictRound_keeps h)

theorem nullSlots_keeps (h : s.memsWf) : (nullSlots e d l s).memsWf := h

theorem evictDrain_keeps (h : s.memsWf) : (evictDrain e l s).2.memsWf := by
  unfold evictDrain
  grind [foldl_keeps, takeGrant_keeps, forwardTo_keeps, modRepl_keeps, nullSlots_keeps, evictRounds_keeps]

theorem loseUpds_keeps (h : s.memsWf) : (loseUpds l s).memsWf := by
  induction l generalizing s with
  | nil => exact h
  | cons u l ih =>
    rw [loseUpds]
    split
    · exact ih h
    · exact ih (logRepl_keeps (modPend_keeps h))

theorem losePends_keeps (h : s.memsWf) : (losePends e c gs l s).memsWf := by
  induction l generalizing s with
  | nil => exact h
  | cons p l ih =>
    refine ih ?_
    split
    · exact ite_keeps (logRepl_keeps (modPend_keeps h)) h
    · exact ite_keeps (logRepl_keeps (modPend_keeps h)) h
    · exact ite_keeps (ite_keeps (logRepl_keeps (modPend_keeps h)) (modPend_keeps h)) h
    · exact h

theorem evict_keeps (h : s.memsWf) : (evict e s).memsWf := by
  unfold evict
  grind [memsWf_iff, foldl_keeps, evictDrain_keeps, modRepl_keeps, losePends_keeps, loseUpds_keeps, endLag_keeps, wakeRsyncs_keeps,
    logRepl_keeps]

theorem execEviction_keeps (h : s.memsWf) : NextCanon (execEviction s) := by
  unfold execEviction
  split
  · exact nextCanon_next (ite_keeps (evict_keeps h) h)
  · exact nextCanon_next h

theorem execCounterWrap_keeps (h : s.memsWf) : NextCanon (execCounterWrap s) :=
  nextCanon_next (ite_keeps h h)

theorem rebaseAll_keeps (h : s.memsWf) : (rebaseAll s).memsWf :=
  foldl_keeps (fun _ _ => modRepl_keeps) _ h

theorem execWrapRebase_keeps (h : s.memsWf) : NextCanon (execWrapRebase s) := by
  unfold execWrapRebase
  split
  · split
    · exact nextCanon_next (logRepl_keeps (rebaseAll_keeps h))
    · exact nextCanon_next h
  · exact nextCanon_next h

theorem rewriteStamp_keeps (h : s.memsWf) : (rewriteStamp die line s).memsWf :=
  ite_keeps h h

theorem execStampRewrite_keeps (h : s.memsWf) : NextCanon (execStampRewrite s) := by
  unfold execStampRewrite
  split
  · exact nextCanon_next (rewriteStamp_keeps h)
  · exact nextCanon_next h

theorem execRejoinRequest_keeps (h : s.memsWf) : NextCanon (execRejoinRequest s) := by
  unfold execRejoinRequest
  grind [NextCanon, memsWf_iff, modRepl_keeps]

theorem copyReplica_keeps (h : s.memsWf) : (copyReplica src dst s).memsWf := by
  obtain ⟨hm, hg, hc⟩ := h
  exact repair_keeps ⟨memWf_copies _ _ _ (memWf_filter _ _ hm), hg, hc⟩

theorem rejoined_keeps (h : s.memsWf) : (rejoined d ok s).memsWf := by
  unfold rejoined
  grind [memsWf_iff, modRepl_keeps, copyReplica_keeps, rebaseAll_keeps, logRepl_keeps]

theorem execRejoinCopyComplete_keeps (h : s.memsWf) : NextCanon (execRejoinCopyComplete s) := by
  unfold execRejoinCopyComplete
  split
  · exact nextCanon_next (ite_keeps (rejoined_keeps h) h)
  · exact nextCanon_next h

theorem fixLine_keeps (h : s.memsWf) : (fixLine die line s).memsWf := by
  unfold fixLine
  grind [uncorrectable_keeps, settleDie_keeps, logRepl_keeps, writeStamped_keeps]

theorem execReplfix_keeps (h : s.memsWf) : NextCanon (execReplfix s) := by
  unfold execReplfix
  split
  · exact nextCanon_next (fixLine_keeps h)
  · exact nextCanon_next h

/-! ## Gates -/

theorem setGateSt_keeps (h : s.memsWf) : (s.setGateSt a st).memsWf := h

theorem dropGateOp_keeps (h : s.memsWf) : (s.dropGateOp a).memsWf := h

theorem putGate_keeps (h : s.memsWf) : (putGate g s).memsWf := h

theorem retryGate_keeps (h : s.memsWf) : (retryGate k s).memsWf := by
  unfold retryGate
  grind [wordState_keeps, gateSig_keeps, gateWait_keeps, gateRead_keeps]

theorem tellDelay_keeps (h : s.memsWf) : (tellDelay o g s).memsWf := by
  unfold tellDelay
  split
  · exact logPlain_keeps h
  · exact h

theorem gateLate_keeps (h : s.memsWf) : (gateLate op count s).memsWf := by
  unfold gateLate
  grind [logPlain_keeps]

theorem serveGate_keeps (h : s.memsWf) : (serveGate o g s).memsWf := by
  unfold serveGate
  grind [putGate_keeps, tellDelay_keeps, retryGate_keeps, setGateSt_keeps]

theorem serveAway_keeps (h : s.memsWf) : (serveAway o s).memsWf := by
  unfold serveAway
  grind [memsWf_iff, drawBool_keeps, drawNat_keeps, setGateSt_keeps, retryGate_keeps]

theorem serveHome_keeps (h : s.memsWf) : (serveHome o g s).memsWf := by
  unfold serveHome
  grind [blastUse_keeps, serveGate_keeps, setGateSt_keeps]

theorem gateServe_keeps (h : s.memsWf) : (gateServe o s).memsWf := by
  unfold gateServe
  grind [memsWf_iff, setGateSt_keeps, serveAway_keeps, serveHome_keeps]

theorem shedIdle_keeps (h : s.memsWf) : (shedIdle die s).memsWf := by
  unfold shedIdle
  split
  · exact shedPop_keeps h
  · exact h

theorem gateRequest_keeps (h : s.memsWf) : (gateRequest a s).memsWf := by
  unfold gateRequest
  grind [gateServe_keeps, shedPop_keeps]

theorem execGateRequest_keeps (h : s.memsWf) : NextCanon (execGateRequest s) := by
  unfold execGateRequest
  split
  · exact nextCanon_next (gateRequest_keeps h)
  · exact nextCanon_next h

theorem answerFar_keeps (h : s.memsWf) : (answerFar o s).memsWf := by
  unfold answerFar
  grind [memsWf_iff, dropGateOp_keeps]

theorem gateAnswer_keeps (h : s.memsWf) : (gateAnswer a s).memsWf := by
  unfold gateAnswer
  dsimp only
  repeat' split
  all_goals grind [answerFar_keeps, takeTrap_keeps, dropGateOp_keeps, retryGate_keeps, pendWhole_keeps, modStrand_keeps, modPend_keeps]

theorem execGateAnswer_keeps (h : s.memsWf) : NextCanon (execGateAnswer s) := by
  unfold execGateAnswer
  split
  · exact nextCanon_next (gateAnswer_keeps h)
  · exact nextCanon_next h

theorem execGateTokenAccrue_keeps (h : s.memsWf) : NextCanon (execGateTokenAccrue s) := by
  unfold execGateTokenAccrue
  split
  · split
    · exact nextCanon_next (ite_keeps h (putGate_keeps h))
    · exact nextCanon_next h
  · exact nextCanon_next h

theorem gateStep_keeps (hf : ∀ g, (f g s).memsWf) (h : s.memsWf) : NextCanon (gateStep st f s) := by
  unfold gateStep
  split
  · split
    · exact nextCanon_next (ite_keeps (hf _) h)
    · exact nextCanon_next h
  · exact nextCanon_next h

theorem execGateMigrate_keeps (h : s.memsWf) : NextCanon (execGateMigrate s) := by
  unfold execGateMigrate
  split
  · split
    · exact nextCanon_next (ite_keeps (raiseShed_keeps h) h)
    · exact nextCanon_next h
  · exact nextCanon_next h

theorem execGateMigrateCopy_keeps (h : s.memsWf) : NextCanon (execGateMigrateCopy s) := by
  unfold execGateMigrateCopy
  grind [memsWf_iff, gateStep_keeps]

theorem forwardHeld_keeps (h : s.memsWf) : (forwardHeld l s).memsWf := by
  induction l generalizing s with
  | nil => exact h
  | cons a l ih => exact ih (gateRequest_keeps h)

theorem sendGateAway_keeps (h : s.memsWf) : (sendGateAway g s).memsWf := h

theorem execGateMigrateAck_keeps (h : s.memsWf) : NextCanon (execGateMigrateAck s) := by
  unfold execGateMigrateAck
  grind [gateStep_keeps, forwardHeld_keeps, putGate_keeps, sendGateAway_keeps]

theorem gateAway_keeps (h : s.memsWf) : (gateAway m d tag tenant ctx gid ask fwd s).memsWf := by
  unfold gateAway
  grind [memsWf_iff, raiseShed_keeps]

theorem gateAwayDrop_keeps (h : s.memsWf) : (gateAwayDrop m d tag s).memsWf := h

theorem gateArrive_keeps (h : s.memsWf) : (gateArrive die g s).memsWf :=
  ite_keeps h h

theorem gateDrained_keeps (h : s.memsWf) : (gateDrained gid s).memsWf := by
  unfold gateDrained
  split
  · exact ite_keeps (forwardHeld_keeps h) h
  · exact h

theorem logMoved_keeps (h : s.memsWf) : (logMoved gid m d acl s).memsWf :=
  logAll_keeps h

theorem gateMoved_keeps (h : s.memsWf) : (gateMoved gid m d acl s).memsWf :=
  ite_keeps h (logMoved_keeps h)

theorem execGateRetire_keeps (h : s.memsWf) : NextCanon (execGateRetire s) := by
  unfold execGateRetire
  split
  · split
    · exact nextCanon_next (ite_keeps (logMoved_keeps h) h)
    · exact nextCanon_next h
  · exact nextCanon_next h

/-! ## Collectives -/

theorem modColl_keeps (h : s.memsWf) : (s.modColl a f).memsWf := h

theorem failColl_keeps (h : s.memsWf) : (failColl c k s).memsWf :=
  ite_keeps h h

theorem probe_keeps (h : s.memsWf) : (probe w wr l s).2.memsWf := by
  induction l generalizing s with
  | nil => exact h
  | cons p l ih =>
    have met := meetEnd_keeps (w := w) (e := p.1) (n := p.2) (wr := wr) h
    rw [probe]
    split <;> rename_i heq <;> rw [heq] at met
    · split
      · exact ih met
      · exact met
    · exact met

theorem readPieces_keeps (h : s.memsWf) : (readPieces w l s).2.memsWf := by
  induction l generalizing s with
  | nil => exact h
  | cons p l ih =>
    have met : (meetEnd w p.1 p.2 false s).2.memsWf := meetEnd_keeps h
    rw [readPieces]
    split <;> rename_i heq <;> rw [heq] at met
    · exact ih (chargeHbm_keeps met)
    · exact ih met

theorem writePieces_keeps (h : s.memsWf) : (writePieces w l b s).memsWf := by
  induction l generalizing b s with
  | nil => exact h
  | cons p l ih =>
    have met : (meetEnd w p.1 p.2 true s).2.memsWf := meetEnd_keeps h
    rw [writePieces]
    split <;> rename_i heq <;> rw [heq] at met
    · exact ih (writeEnd_keeps (chargeHbm_keeps met))
    · exact ih met

theorem probeAll_keeps (h : s.memsWf) : (probeAll wr l s).2.memsWf := by
  induction l generalizing s with
  | nil => exact h
  | cons p l ih =>
    have probed := probe_keeps (w := p.1) (wr := wr) (l := p.2) h
    rw [probeAll]
    split <;> rename_i heq <;> rw [heq] at probed
    · exact ih probed
    · exact meetStop_keeps probed

theorem sendPackets_keeps (h : s.memsWf) : (sendPackets c y acct b fuel i s).2.memsWf := by
  induction fuel generalizing i s with
  | zero => exact h
  | succ fuel ih =>
    rw [sendPackets]
    split
    · exact ih (sendPacket_keeps h)
    · exact h

theorem takeTurn_keeps (h : s.memsWf) : (takeTurn c s).memsWf := h

theorem writeChunk_keeps (h : s.memsWf) : (writeChunk a b r e w s).memsWf :=
  modColl_keeps (writePieces_keeps h)

theorem sendChunk_keeps (h : s.memsWf) : (sendChunk a b e s).memsWf := by
  unfold sendChunk
  grind [probeAll_keeps, readPieces_keeps, modColl_keeps, sendPackets_keeps, takeTurn_keeps]

theorem chunkGo_keeps (h : s.memsWf) : (chunkGo c n ps inp s).memsWf := by
  unfold chunkGo
  extract_lets lo hi src dst
  have read : (probeAll false (ps.map fun e => (e.2.2, src e)) s).2.memsWf := probeAll_keeps h
  split <;> rename_i s1 heq <;> rw [heq] at read
  · exact read
  have write : (probeAll true (ps.map fun e => (e.2.2, dst e)) s1).2.memsWf := probeAll_keeps read
  split <;> rename_i s2 heq <;> rw [heq] at write
  · exact write
  extract_lets rd r
  have hrd : rd.2.memsWf := by
    refine foldl_snd_keeps (r := ([], s2)) (fun a e ha => ?_) ps write
    exact readPieces_keeps ha
  exact foldl_keeps (fun _ _ => writeChunk_keeps) ps (ite_keeps (takeTurn_keeps hrd) hrd)

theorem announce_keeps (h : s.memsWf) : (announce r x s).memsWf :=
  ite_keeps h h

theorem hearRanks_keeps (h : s.memsWf) : (hearRanks ps l s).memsWf :=
  foldl_keeps (fun _ _ => announce_keeps) _ h

theorem chunkMove_keeps (h : s.memsWf) : (chunkMove c n away ps inp s).memsWf := by
  unfold chunkMove
  grind [foldl_keeps, sendChunk_keeps, modColl_keeps, takeTurn_keeps, chunkGo_keeps]

theorem chunkStep_keeps (h : s.memsWf) : (chunkStep c inp s).memsWf := by
  unfold chunkStep
  grind [failColl_keeps, chunkMove_keeps, hearRanks_keeps]

theorem exchangeHere_keeps (h : s.memsWf) : (exchangeHere c x w y r q m s).memsWf := by
  unfold exchangeHere
  grind [probeAll_keeps, readPieces_keeps, writePieces_keeps, modItem_keeps, modColl_keeps]

theorem sendRuns_keeps (h : s.memsWf) : (sendRuns c w y sz map prs fuel i s).2.memsWf := by
  induction fuel generalizing i s with
  | zero => exact h
  | succ fuel ih =>
    rw [sendRuns]
    split
    · exact h
    · have probed : (probeAll false [(w, [(chipEnd (c.src + sz * (lget prs i (0, 0)).1), sz)])] s).2.memsWf := probeAll_keeps h
      split <;> rename_i heq <;> rw [heq] at probed
      · exact probed
      · exact ih (sendPacket_keeps (readPieces_keeps probed))

theorem exchangeAway_keeps (h : s.memsWf) : (exchangeAway c w r q img s).memsWf := by
  unfold exchangeAway
  split
  · exact h
  · exact modColl_keeps (sendRuns_keeps h)

theorem agreeMaps_keeps (h : s.memsWf) : (agreeMaps c r here away s).memsWf := h

theorem exchangeStep_keeps (h : s.memsWf) : (exchangeStep c img inp s).memsWf := by
  unfold exchangeStep
  dsimp only
  repeat' split
  all_goals grind [failColl_keeps, agreeMaps_keeps, announce_keeps, exchangeHere_keeps, exchangeAway_keeps]

theorem execCollChunkStep_keeps (h : s.memsWf) : NextCanon (execCollChunkStep s) := by
  unfold execCollChunkStep
  grind [NextCanon, exchangeStep_keeps, chunkStep_keeps]

theorem holdRun_keeps (h : s.memsWf) (ht : holdRun die a key b map off n s = some t) : t.memsWf := by
  unfold holdRun at ht
  grind [probeAll_keeps]

theorem runArrives_keeps (h : s.memsWf) : (runArrives die a key c map off b s).memsWf := by
  unfold runArrives
  grind [failColl_keeps, probeAll_keeps, modItem_keeps, writePieces_keeps, modColl_keeps]

theorem lostArrives_keeps (h : s.memsWf) : (lostArrives die a b tile k s).memsWf := by
  unfold lostArrives
  grind [memsWf_iff, loseColl_keeps]

theorem execCollComplete_keeps (h : s.memsWf) : NextCanon (execCollComplete s) := by
  unfold execCollComplete
  grind [NextCanon, memsWf_iff, closeItem_keeps]

theorem execCollTimeout_keeps (h : s.memsWf) : NextCanon (execCollTimeout s) := by
  unfold execCollTimeout
  split
  · split
    · exact nextCanon_next (ite_keeps (failColl_keeps h) h)
    · exact nextCanon_next h
  · exact nextCanon_next h

/-! ## Links -/

theorem dropReq_keeps (h : s.memsWf) : (s.dropReq a).memsWf := h

theorem errorReq_keeps (h : s.memsWf) : (errorReq detail r s).memsWf := by
  unfold errorReq
  grind [logFab_keeps, dropReq_keeps, modPend_keeps, modItem_keeps]

theorem errorReqs_keeps (h : s.memsWf) : (errorReqs d l s).memsWf := by
  induction l generalizing s with
  | nil => exact h
  | cons r l ih => exact ih (errorReq_keeps h)

theorem globAnswer_keeps (h : s.memsWf) : (globAnswer a data s).memsWf := by
  unfold globAnswer
  grind [errorReq_keeps, dropReq_keeps, modPend_keeps, modItem_keeps]

theorem execGlobResponse_keeps (h : s.memsWf) : NextCanon (execGlobResponse s) := by
  unfold execGlobResponse
  split
  · exact nextCanon_next (globAnswer_keeps h)
  · exact nextCanon_next h

theorem execPathFailure_keeps (h : s.memsWf) : NextCanon (execPathFailure s) := by
  unfold execPathFailure
  split
  · exact nextCanon_next (errorReqs_keeps h)
  · exact nextCanon_next h

theorem execResponseTimeout_keeps (h : s.memsWf) : NextCanon (execResponseTimeout s) := by
  unfold execResponseTimeout
  split
  · split
    · exact nextCanon_next (ite_keeps (errorReq_keeps h) h)
    · exact nextCanon_next h
  · exact nextCanon_next h

theorem discardAt_keeps (h : s.memsWf) : (discardAt die port s).memsWf :=
  ite_keeps (uncorrectable_keeps h) h

theorem replyGo_keeps (h : s.memsWf) : (replyGo r s).memsWf := h

theorem respond_keeps (h : s.memsWf) : (respond p tag data err s).memsWf :=
  ite_keeps (replyGo_keeps h) h

theorem sendReply_keeps (h : s.memsWf) : (sendReply die port s).memsWf := by
  unfold sendReply
  split
  · exact ite_keeps (replyGo_keeps h) h
  · exact h

theorem storeHome_keeps (h : s.memsWf) : (storeHome die spa l s).memsWf :=
  repair_keeps (writeSpa_keeps h)

theorem servePacket_keeps (h : s.memsWf) : (servePacket p s).memsWf := by
  unfold servePacket
  grind [respond_keeps, storeHome_keeps, globAnswer_keeps, runArrives_keeps, lostArrives_keeps]

theorem takePacket_keeps (h : s.memsWf) : (takePacket p l s).memsWf := h

theorem holdPacket_keeps (h : s.memsWf) (ht : holdPacket p s = some t) : t.memsWf := by
  unfold holdPacket at ht
  grind [holdRun_keeps]

theorem execFabricPacketReceive_keeps (h : s.memsWf) : NextCanon (execFabricPacketReceive s) := by
  unfold execFabricPacketReceive
  split
  · rename_i p _
    extract_lets l
    have taken : (takePacket p l s).memsWf := takePacket_keeps h
    split
    · exact nextCanon_next h
    split
    · exact nextCanon_next (getD_keeps (fun _ => holdPacket_keeps h) (servePacket_keeps taken))
    · refine nextCanon_next ?_
      have dropped := discardAt_keeps (die := p.die) (port := p.port)
        (ite_keeps (c := (tget (takePacket p l s).revoked p.keyid).isSome) (pfDrop_keeps taken) taken)
      grind [memsWf_iff]
  · exact nextCanon_next h

theorem modPort_keeps (h : s.memsWf) : (modPort die port f s).memsWf := h

theorem setBuffers_keeps (h : s.memsWf) : (setBuffers die port shares pools s).memsWf :=
  ite_keeps h h

theorem execLinkFlitReceive_keeps (h : s.memsWf) : NextCanon (execLinkFlitReceive s) := by
  unfold execLinkFlitReceive
  split
  · exact nextCanon_next (modPort_keeps h)
  · exact nextCanon_next h

theorem execFlitAck_keeps (h : s.memsWf) : NextCanon (execFlitAck s) := by
  unfold execFlitAck
  split
  · exact nextCanon_next (modPort_keeps h)
  · exact nextCanon_next h

theorem execAllowanceReturn_keeps (h : s.memsWf) : NextCanon (execAllowanceReturn s) := by
  unfold execAllowanceReturn
  split
  · exact nextCanon_next (modPort_keeps h)
  · exact nextCanon_next h

theorem loseLinkAll_keeps (h : s.memsWf) : (loseLinkAll a b s).memsWf :=
  errorReqs_keeps h

theorem execInPackageLinkFailure_keeps (h : s.memsWf) : NextCanon (execInPackageLinkFailure s) := by
  unfold execInPackageLinkFailure
  split
  · exact nextCanon_next (ite_keeps h (loseLinkAll_keeps h))
  · exact nextCanon_next h

/-! ## Control words -/

theorem transferWord_keeps : Keeps (transferWord sp f) := by
  unfold transferWord
  refine readWord_keeps.bind fun v => ?_
  dsimp only
  split
  · exact writeVals_keeps.bind fun _ => .act fun _ => modStrand_keeps
  · exact .act fun _ => modStrand_keeps

theorem execRgn_keeps (h : s.memsWf) : NextCanon (execRgn s) :=
  runWord_keeps (readWord_keeps.bind fun _ => .ite done_keeps
    (holdForBar_keeps.bind fun _ => (Keeps.act fun _ => commitAt_keeps).bind fun _ => done_keeps)) h

theorem execNop_keeps (h : s.memsWf) : NextCanon (execNop s) :=
  runWord_keeps (readWord_keeps.bind fun _ => done_keeps) h

theorem execWaitf_keeps (h : s.memsWf) : NextCanon (execWaitf im s) :=
  runWord_keeps (readWord_keeps.bind fun _ => .ite done_keeps (.block _)) h

theorem execYield_keeps (h : s.memsWf) : NextCanon (execYield s) :=
  runWord_keeps (readWord_keeps.bind fun _ => done_keeps.bind fun _ => .act fun _ => modStrand_keeps) h

theorem execTrap_keeps (h : s.memsWf) : NextCanon (execTrap im s) :=
  runWord_keeps (readWord_keeps.bind fun _ => .trapWith _) h

theorem execTret_keeps (h : s.memsWf) : NextCanon (execTret m s) :=
  runWord_keeps (readWord_keeps.bind fun _ => (Keeps.check _ _).bind fun _ => .act fun _ => modStrand_keeps) h

theorem execTkill_keeps (h : s.memsWf) : NextCanon (execTkill m s) :=
  runWord_keeps (readWord_keeps.bind fun _ => (Keeps.need _).bind fun _ => (Keeps.act fun _ => logPlain_keeps).bind fun _ =>
    .ite (.act fun _ => killLaunch_keeps) (.act fun _ => endGroup_keeps)) h

theorem endStrand_keeps (h : s.memsWf) : (endStrand k s).memsWf := by
  unfold endStrand
  grind [memsWf_iff, commitAt_keeps, modStrand_keeps, endGroup_keeps, settleRendezvous_keeps, settleMatrix_keeps]

theorem execExit_keeps (h : s.memsWf) : NextCanon (execExit s) :=
  runWord_keeps (readWord_keeps.bind fun _ => .ite (.act fun _ => endStrand_keeps) (.block _)) h

end Sys2Proof.MemoryForm

/-! O60: every word, every event and every input keeps the memories canonical, and so does a step. -/

namespace Sys2Proof.MemoryForm

open Sys2Proof Sys2Proof.Machine

variable {s t : State}

theorem exec_keeps (h : s.memsWf) : NextCanon (exec i s) := by
  cases i
  case iadd | iaddi | isub | imul | imulhI | imulhN | imad | imulwI | imulwN | idivI | idivN | iremI | iremN | iminI | iminN | imaxI |
      imaxN | iabs | ineg | iaddsI | iaddsN | isubsI | isubsN | iadd64 | isub64 | ixadd2 | ixadd4 | ixadd8 | ixadd16 | ldi | ldw | and |
      andi | or | ori | xor | xori | andn | not | shl | shli | shr | shri | sar | sari | rol | roli | bfxI | bfxN | bfi | popc | clz | ctz |
      brev | permb | ptod | mov | cmov | tag | tagq | winq | movs | sext8 | sext16 | zext8 | zext16 | mov64 | fadd | fsub | fmul | ffma |
      fmin | fmax | fabs | fneg | frnd | fcvtI32F32 | fcvtN32F32 | fcvtF32I32 | fcvtF32N32 | fcvtF16F32 | fcvtF32F16 | fcvtBf16F32 |
      fcvtF32Bf16 | fcvtF64F32 | fcvtF32F64 | dadd | dsub | dmul | dfma | dmin | dmax | hadd2F16 | hadd2Bf16 | hmul2F16 | hmul2Bf16 |
      hfma2F16 | hfma2Bf16 | pkhF16 | pkhBf16 | unpkhF16Lo | unpkhF16Hi | unpkhBf16Lo | unpkhBf16Hi | idp4I8 | idp4N8 | idp2I16 | ncvtRn |
      ncvtRz | nunp | nscl | scx | bqryBarrier | hq =>
    exact runWord_keeps valueWord_keeps h
  case icmpEq | icmpNe | icmpLtI | icmpLeI | icmpGtI | icmpGeI | icmpLtN | icmpLeN | icmpGtN | icmpGeN | fcmpEq | fcmpNe | fcmpLt | fcmpLe |
      fcmpGt | fcmpGe | fcmpUn | dcmpEq | dcmpLt | dcmpLe | dcmpUn | pand | por | pxor | pandn | pnot | pmov | pset | dtop =>
    exact runWord_keeps predWord_keeps h
  case bra | brp | brn | jmp | call | callr | ret =>
    exact runWord_keeps transferWord_keeps h
  case lncv | lnbk | lexp | llog | lmul | ldiv | lsqr | lpow | ladd | lsub | fdiv | fsqrt | ddiv | dsqrt =>
    exact runWord_keeps mathWord_keeps h
  case xshf | xbfly | xbcst | xvoteAny | xvoteAll | xballot | xredAddI32 | xredAddF32 | xredMinI | xredMaxI | xscanAddI32 | xscanAddF32 |
      xmatch =>
    exact runWord_keeps rvWord_keeps h
  case bwait | barv =>
    exact runWord_keeps namedWord_keeps h
  case gbar | gbarv =>
    exact runWord_keeps gangWord_keeps h
  case mminit | mmloop | mmnorm | mmdrain | mmq =>
    exact runWord_keeps mmWord_keeps h
  case hwait =>
    exact runWord_keeps hwait_keeps h
  case gsig =>
    exact runWord_keeps gateSig_keeps h
  case gwait =>
    exact runWord_keeps gateWait_keeps h
  case grd =>
    exact runWord_keeps gateRead_keeps h
  case win => exact execWin_keeps h
  case rgn => exact execRgn_keeps h
  case trap => exact execTrap_keeps h
  case tret => exact execTret_keeps h
  case tkill => exact execTkill_keeps h
  case exit => exact execExit_keeps h
  case nop => exact execNop_keeps h
  case waitf => exact execWaitf_keeps h
  case yield => exact execYield_keeps h
  case ld | ld2 | ld4 =>
    exact loadWord_keeps h
  case st | st2 | st4 =>
    exact storeWord_keeps h
  case lda => exact execLda_keeps h
  case stl => exact execStl_keeps h
  case bload => exact execBload_keeps h
  case bqrySlot => exact execBqrySlot_keeps h
  case lload => exact execLload_keeps h
  case aaddI32 | aaddF32 | aminI | aminN | amaxI | amaxN | aand | aor | axor | axchg | acas | ainc | aadd64 | acas64 =>
    exact atomicWord_keeps h
  case fence => exact execFence_keeps h
  case cpt => exact execCpt_keeps h
  case cps => exact execCps_keeps h
  case tmov => exact execTmov_keeps h
  case hset => exact execHset_keeps h
  case hrel => exact execHrel_keeps h
  case jobs => exact execJobs_keeps h
  case sst | satmAdd | satmXchg | satmCas =>
    exact strongWord_keeps h
  case rsync => exact execRsync_keeps h
  case rstamp => exact execRstamp_keeps h
  case coll => exact execColl_keeps h
  case a2at => exact execA2at_keeps h
  case mcst => exact execMcst_keeps h
  case launch => exact execLaunch_keeps h
  case trig => exact execTrig_keeps h
  case capq => exact execCapq_keeps h
  case clk => exact execClk_keeps h
  case elog => exact execElog_keeps h
  case ulog => exact execUlog_keeps h
  case clauseEntry => exact execClauseEntry_keeps h
  case clauseWaitEnd => exact execClauseWaitEnd_keeps h
  case longLatencyComplete => exact execLongLatencyComplete_keeps h
  case queueUnblock => exact execQueueUnblock_keeps h
  case rvtoTimeout => exact execRvtoTimeout_keeps h
  case qdlkTimeout => exact execQdlkTimeout_keeps h
  case submissionAccept => exact execSubmissionAccept_keeps h
  case engineItemAccess => exact execEngineItemAccess_keeps h
  case handleArrival => exact execHandleArrival_keeps h
  case itemComplete => exact execItemComplete_keeps h
  case itemFail => exact execItemFail_keeps h
  case dispatcherPlace => exact execDispatcherPlace_keeps h
  case gangReservationPass => exact execGangReservationPass_keeps h
  case sliceEnd => exact execSliceEnd_keeps h
  case drainLimitExpiry => exact execDrainLimitExpiry_keeps h
  case groupSave => exact execGroupSave_keeps h
  case watchdogExpiry => exact execWatchdogExpiry_keeps h
  case periodBoundary => exact execPeriodBoundary_keeps h
  case doorbellWrite => exact execDoorbellWrite_keeps h
  case commandRead => exact execCommandRead_keeps h
  case cmdNop => exact execCmdNop_keeps h
  case cmdLaunch => exact execCmdLaunch_keeps h
  case cmdGraphld => exact execCmdGraphld_keeps h
  case cmdWait => exact execCmdWait_keeps h
  case cmdWaitSatisfied => exact execCmdWaitSatisfied_keeps h
  case cmdSignal => exact execCmdSignal_keeps h
  case launchEnd => exact execLaunchEnd_keeps h
  case shedEventDoorbell => exact execShedEventDoorbell_keeps h
  case shedEventCmdread => exact execShedEventCmdread_keeps h
  case shedEventBinddone => exact execShedEventBinddone_keeps h
  case shedEventCopyflt => exact execShedEventCopyflt_keeps h
  case shedEventError => exact execShedEventError_keeps h
  case shedEventTrigger => exact execShedEventTrigger_keeps h
  case pageRequestAnswer => exact execPageRequestAnswer_keeps h
  case pageRequestTimeout => exact execPageRequestTimeout_keeps h
  case graphNodeComplete => exact execGraphNodeComplete_keeps h
  case coaltTimerExpiry => exact execCoaltTimerExpiry_keeps h
  case invalStage1Va => exact execInvalStage1Va_keeps h
  case invalStage1Asid => exact execInvalStage1Asid_keeps h
  case invalStage2Gpa => exact execInvalStage2Gpa_keeps h
  case invalStage2Vmid => exact execInvalStage2Vmid_keeps h
  case invalAll => exact execInvalAll_keeps h
  case invalComplete => exact execInvalComplete_keeps h
  case adminContextWrite => exact execAdminContextWrite_keeps h
  case contextTeardown => exact execContextTeardown_keeps h
  case contextTeardownFinish => exact execContextTeardownFinish_keeps h
  case loftTeardownFinish => exact execLoftTeardownFinish_keeps h
  case replyReservationRelease => exact execReplyReservationRelease_keeps h
  case keyidQuarantineEnd => exact execKeyidQuarantineEnd_keeps h
  case adminYardWrite => exact execAdminYardWrite_keeps h
  case adminKeyInstall => exact execAdminKeyInstall_keeps h
  case adminReachList => exact execAdminReachList_keeps h
  case adminQueueReenable => exact execAdminQueueReenable_keeps h
  case adminFenceRelease => exact execAdminFenceRelease_keeps h
  case adminGateWrite => exact execAdminGateWrite_keeps h
  case adminCommunicatorWrite => exact execAdminCommunicatorWrite_keeps h
  case adminEnrol => exact execAdminEnrol_keeps h
  case attestationRequest => exact execAttestationRequest_keeps h
  case packetSend => exact execPacketSend_keeps h
  case packetReceive => exact execPacketReceive_keeps h
  case capoGrant => exact execCapoGrant_keeps h
  case strongGrantReceive => exact execStrongGrantReceive_keeps h
  case capoHandoff => exact execCapoHandoff_keeps h
  case lagDetect => exact execLagDetect_keeps h
  case lagEvictTimeout => exact execLagEvictTimeout_keeps h
  case linksLost => exact execLinksLost_keeps h
  case eviction => exact execEviction_keeps h
  case counterWrap => exact execCounterWrap_keeps h
  case wrapRebase => exact execWrapRebase_keeps h
  case stampRewrite => exact execStampRewrite_keeps h
  case rejoinRequest => exact execRejoinRequest_keeps h
  case rejoinCopyComplete => exact execRejoinCopyComplete_keeps h
  case replfix => exact execReplfix_keeps h
  case uncorrectableError => exact execUncorrectableError_keeps h
  case gateRequest => exact execGateRequest_keeps h
  case gateAnswer => exact execGateAnswer_keeps h
  case gateTokenAccrue => exact execGateTokenAccrue_keeps h
  case gateMigrate => exact execGateMigrate_keeps h
  case gateMigrateCopy => exact execGateMigrateCopy_keeps h
  case gateMigrateAck => exact execGateMigrateAck_keeps h
  case gateRetire => exact execGateRetire_keeps h
  case pagePullComplete => exact execPagePullComplete_keeps h
  case fabricPacketReceive => exact execFabricPacketReceive_keeps h
  case globResponse => exact execGlobResponse_keeps h
  case pathFailure => exact execPathFailure_keeps h
  case responseTimeout => exact execResponseTimeout_keeps h
  case linkFlitReceive => exact execLinkFlitReceive_keeps h
  case flitAck => exact execFlitAck_keeps h
  case allowanceReturn => exact execAllowanceReturn_keeps h
  case collChunkStep => exact execCollChunkStep_keeps h
  case collComplete => exact execCollComplete_keeps h
  case collTimeout => exact execCollTimeout_keeps h
  case moduleReset => exact execModuleReset_keeps h
  case bootAllDiesReady => exact execBootAllDiesReady_keeps h
  case configRequest => exact execConfigRequest_keeps h
  case functionLevelReset => exact execFunctionLevelReset_keeps h
  case thermalThrottle => exact execThermalThrottle_keeps h
  case thermalFence => exact execThermalFence_keeps h
  case registerWrite => exact execRegisterWrite_keeps h
  case encodingFault => exact execEncodingFault_keeps h
  case updateAcknowledgement => exact execUpdateAcknowledgement_keeps h
  case frameOwnershipWrite => exact execFrameOwnershipWrite_keeps h
  case inPackageLinkFailure => exact execInPackageLinkFailure_keeps h

theorem tryWord_keeps (h : s.memsWf) : NextCanon (tryWord i s) := by
  unfold tryWord
  have done := exec_keeps (i := i) h
  split
  · rename_i t heq
    exact nextCanon_next (chosen_keeps (done t heq))
  · intro _ ht
    cases ht
  · intro _ ht
    cases ht

theorem issue_keeps (h : s.memsWf) : NextCanon (issue s) := by
  unfold issue
  split
  · exact nextCanon_next h
  split
  · exact exec_keeps (s := { s with arg := .strand s.cur }) h
  · exact exec_keeps (s := { s with arg := .strand s.cur }) h
  · split
    · exact nextCanon_next h
    split
    · exact tryWord_keeps h
    · exact exec_keeps (s := { s with arg := .words _ _ }) h
  all_goals exact nextCanon_next h

theorem runInput_keeps (h : s.memsWf) : NextCanon (runInput i s) := by
  cases i
  case ev => exact exec_keeps (s := { s with arg := _ }) h
  case run k =>
    have issued := issue_keeps (s := { s with cur := k }) h
    dsimp only [runInput]
    split
    · exact issued
    · exact nextCanon_next h
  case hostWrite => exact hostStore_keeps h
  case elapse => exact nextCanon_next (elapse_keeps h)
  case lineError => exact lineError_keeps h
  case corrected => exact nextCanon_next (corrected_keeps h)
  case replRegion => exact nextCanon_next (setReplRegion_keeps h)
  case trigWindow => exact nextCanon_next (setTrigWindow_keeps h)
  case moduleId => exact nextCanon_next (setModuleId_keeps h)
  case hostHbm => exact hostHbm_keeps h
  case pen => exact nextCanon_next (writePen_keeps h)
  case area => exact nextCanon_next (writeArea_keeps h)
  case period => exact nextCanon_next (setPeriod_keeps h)
  case invalRing => exact nextCanon_next (setInvalRing_keeps h)
  case invalDoorbell => exact nextCanon_next (ringInval_keeps h)
  case pfRead => exact nextCanon_next (readPf_keeps h)
  case flash => exact nextCanon_next (setFlash_keeps h)
  case bootStage => exact nextCanon_next (bootStage_keeps h)
  case sliceTimer => exact nextCanon_next (sliceTimer_keeps h)
  case shed => exact nextCanon_next (shedIdle_keeps h)
  case late => exact nextCanon_next h
  case gateAway => exact nextCanon_next (gateAway_keeps h)
  case gateAwayDrop => exact nextCanon_next (gateAwayDrop_keeps h)
  case gateArrive => exact nextCanon_next (gateArrive_keeps h)
  case gateDrained => exact nextCanon_next (gateDrained_keeps h)
  case gateLate => exact nextCanon_next (gateLate_keeps h)
  case gateMoved => exact nextCanon_next (gateMoved_keeps h)
  case vf => exact nextCanon_next (assignVf_keeps h)
  case buffers => exact nextCanon_next (setBuffers_keeps h)
  case reply => exact nextCanon_next (sendReply_keeps h)
  case regRead => exact nextCanon_next (regRead_keeps h)
  case postCopy => exact nextCanon_next (postCopy_keeps h)

theorem background_keeps (h : s.memsWf) : NextCanon (background s) := by
  unfold background
  extract_lets l s'
  have ticked : s'.memsWf := tick_keeps (n := 1) h
  split
  · exact runInput_keeps ticked
  · exact nextCanon_next ticked

/-- Settles O60: each part of a step keeps the memories canonical, since every writing of memory goes through `memSet`. -/
theorem stepKeepsMemory : Obligations.StepKeepsMemory := by
  unfold Obligations.StepKeepsMemory
  intro s t h ht
  refine (?_ : NextCanon (step s)) t ht
  unfold step
  split
  · rename_i rest _
    exact runInput_keeps (s := { s with agenda := rest }) h
  · split
    · exact issue_keeps (s := { s with ran := s.ran + 1 }) h
    · exact background_keeps h

end Sys2Proof.MemoryForm
